-- ==== Sys2Proof/Word.lean ====
section
/-! DEFINITION. The word types and their plainest arithmetic: bytes, 32-bit control words, 64-bit registers,
field extraction, little-endian byte lists (R11) and saturating counts. -/

namespace Sys2Proof

abbrev Byte := BitVec 8
abbrev W16 := BitVec 16
abbrev W32 := BitVec 32
abbrev W64 := BitVec 64

/-- Bits [hi:lo] of a word as a number (the manual's field notation, 00_scope "Notation"). -/
def field (w : BitVec n) (hi lo : Nat) : Nat := (w.toNat / 2 ^ lo) % 2 ^ (hi + 1 - lo)

/-- One bit of a word. -/
def bitAt (w : BitVec n) (i : Nat) : Bool := w.getLsbD i

/-- A Bool as the number 0 or 1. -/
def b2n (b : Bool) : Nat := if b then 1 else 0

/-- The 32-bit word whose fields are the listed (value, lowest bit) pairs, fields being disjoint. -/
def pack (fs : List (Nat × Nat)) : W32 := BitVec.ofNat 32 ((fs.map fun f => f.1 * 2 ^ f.2).sum)

/-- A count that saturates at `top`. -/
def satUp (top n : Nat) : Nat := if n < top then n + 1 else top

/-- `len` bytes of a number, lowest first (R11). -/
def bytesLE : Nat → Nat → List Byte
  | 0, _ => []
  | len + 1, v => BitVec.ofNat 8 v :: bytesLE len (v / 256)

/-- The number that bytes spell, lowest first (R11). -/
def fromLE : List Byte → Nat
  | [] => 0
  | b :: bs => b.toNat + 256 * fromLE bs

/-- The number that a signed field of `width` bits holds. -/
def toSigned (width v : Nat) : Int :=
  if v % 2 ^ width < 2 ^ (width - 1) then (v % 2 ^ width : Nat) else (v % 2 ^ width : Nat) - (2 ^ width : Nat)

/-- The bits of an integer in two's complement within `width` bits. -/
def ofSigned (width : Nat) (v : Int) : Nat := (v % (2 ^ width : Nat)).toNat

end Sys2Proof
end

