-- ==== Sys2Proof/Config.lean ====
section
/-! DEFINITION. What the manual leaves open: the free values, as constants without a body, and the few numbers that a build
of the module fixes and the model names (log entry 5). -/

namespace Sys2Proof.Config

/-- A fresh open choice for each value of the state's counter: which detection a unit's one further message carries
(R281), whether a RST_N pulse of 2 to 10 µs resets (R515). Log entry 6. -/
opaque freeNat : Nat → Nat

/-- The 8-byte line address that enters the state digest for a 64-byte line of a lane's stores (R231): the manual does
not say how the stores lie in that address. Log entry 6. -/
opaque lineAddress : Nat → BitVec 64

/-- The serial number at SYS_SERIAL (R50), which the manual leaves to each module. Log entry 6. -/
opaque serial : BitVec 64

/-- The hardware issue in SYS_HW_ID (R4, R50). Log entry 6. -/
opaque hwIssue : BitVec 8

/-- The issue of every unit's register layout in UCB_ID.ISSUE (R27). Log entry 6. -/
opaque layoutIssue : BitVec 4

/-- What a 7100 mirror register reads, by offset and native value, where the native value has no form in the 7100 layout
(R457, Table CLK-6). Log entry 6. -/
opaque mirrorOpen : Nat → BitVec 32 → BitVec 32

/-- The hardware type code (R3). -/
def hwType : Nat := 0x9300

/-- The period unit of PERIOD codes, 50 µs in nanoseconds (R56). -/
def periodUnit : Nat := 50000

end Sys2Proof.Config
end

