-- ==== Sys2Proof/Names.lean ====
section
/-! DEFINITION. The names the manual gives to sets of things: lanes, units, writers, status codes, states, tags, ports,
clocks. -/

namespace Sys2Proof

/-- Lanes A, B and C (R14). -/
inductive Lane | a | b | c
deriving DecidableEq, Repr

def Lane.idx : Lane → Nat
  | .a => 0 | .b => 1 | .c => 2

def Lane.all : List Lane := [.a, .b, .c]

def Lane.ofNat? : Nat → Option Lane
  | 0 => some .a | 1 => some .b | 2 => some .c | _ => none

/-- The units of the module and the units it discovers (Tables UNIT-7, NET-1, HLK-1, R244, R48). -/
inductive UnitId
  | sys | tick | place | voter | pair | flt | safe
  | can (n : Fin 6)
  | net | time | hlk | clk | evr | lcs | pwr
  | lane (l : Lane)
  | eth (x : Fin 4) | ser (x : Fin 4) | svc
  | link (n : Fin 4)
  | card (slot : Fin 32) (sub : Fin 17)
  | pairUnit | partner
  | composite (k : Fin 32767)
deriving DecidableEq, Repr

/-- Who writes a register or a command (R35): the program's safety part, its non-safety part, the program of a lane in
SPLIT, the module itself, or the SVC port. -/
inductive Writer
  | safety | nonSafety
  | split (l : Lane)
  | module | svc
deriving DecidableEq, Repr

/-- Table UNIT-2, UCB_STATE.STATE. -/
inductive UState | off | quiesced | run | test | fault | maint
deriving DecidableEq, Repr

def UState.code : UState → Nat
  | .off => 0 | .quiesced => 1 | .run => 2 | .test => 3 | .fault => 4 | .maint => 5

/-- Table UNIT-5. -/
inductive Status
  | ok | busy | notReady | busyMaint | denied | illegalState | badArg | deferred | timeout | faulted
deriving DecidableEq, Repr

def Status.code : Status → Nat
  | .ok => 0 | .busy => 1 | .notReady => 2 | .busyMaint => 3 | .denied => 4 | .illegalState => 5 | .badArg => 6
  | .deferred => 7 | .timeout => 8 | .faulted => 9

/-- Table UNIT-6. -/
inductive Activity
  | foxglove | brakeTest | splitJoin | clockChange | firmwareApply | partnerResync | offPulseRetime
deriving DecidableEq, Repr

def Activity.code : Activity → Nat
  | .foxglove => 1 | .brakeTest => 2 | .splitJoin => 3 | .clockChange => 4 | .firmwareApply => 5
  | .partnerResync => 6 | .offPulseRetime => 7

/-- Table PGM-7. -/
inductive Tag | good | stale | subst | bad
deriving DecidableEq, Repr

def Tag.code : Tag → Nat
  | .good => 0 | .stale => 1 | .subst => 2 | .bad => 3

def Tag.decode : Nat → Tag
  | 0 => .good | 1 => .stale | 2 => .subst | _ => .bad

/-- Where tags combine, the larger code prevails (R108). -/
def Tag.max (a b : Tag) : Tag := if a.code < b.code then b else a

/-- Table ARC-3. -/
inductive LaneMode | triple | pair | split
deriving DecidableEq, Repr

def LaneMode.code : LaneMode → Nat
  | .triple => 0 | .pair => 1 | .split => 2

/-- The roles of LANE_STATUS (Table VOTE-9). -/
inductive LaneRole | voting | fenced | excluded | rejoining | resync | split | test
deriving DecidableEq, Repr

def LaneRole.code : LaneRole → Nat
  | .voting => 0 | .fenced => 1 | .excluded => 2 | .rejoining => 3 | .resync => 4 | .split => 5 | .test => 6

/-- The voter's three pairwise comparators (R218). -/
inductive Comparator | ab | bc | ca
deriving DecidableEq, Repr

/-- Table ISA-2. -/
inductive Ty
  | bool | int8 | int16 | int32 | int64 | uint8 | uint16 | uint32 | uint64 | real32 | real64 | time
deriving DecidableEq, Repr

def Ty.ofCode : Nat → Option Ty
  | 0 => some .bool | 1 => some .int8 | 2 => some .int16 | 3 => some .int32 | 4 => some .int64
  | 5 => some .uint8 | 6 => some .uint16 | 7 => some .uint32 | 8 => some .uint64
  | 9 => some .real32 | 10 => some .real64 | 11 => some .time | _ => none

/-- Width in bits (Table ISA-2). -/
def Ty.width : Ty → Nat
  | .bool => 8 | .int8 => 8 | .int16 => 16 | .int32 => 32 | .int64 => 64 | .uint8 => 8 | .uint16 => 16
  | .uint32 => 32 | .uint64 => 64 | .real32 => 32 | .real64 => 64 | .time => 64

/-- Size and alignment in bytes (Table PGM-5). -/
def Ty.size (t : Ty) : Nat := t.width / 8

def Ty.isSigned : Ty → Bool
  | .int8 | .int16 | .int32 | .int64 | .time => true
  | _ => false

def Ty.isUnsigned : Ty → Bool
  | .uint8 | .uint16 | .uint32 | .uint64 => true
  | _ => false

def Ty.isReal : Ty → Bool
  | .real32 | .real64 => true
  | _ => false

/-- The types the INT group accepts (R141). -/
def Ty.isInt (t : Ty) : Bool := t.isSigned || t.isUnsigned

/-- Table PGM-4. -/
inductive Space | inst | input | output | global | constant | parameter
deriving DecidableEq, Repr

def Space.code : Space → Nat
  | .inst => 0 | .input => 1 | .output => 2 | .global => 3 | .constant => 4 | .parameter => 5

def Space.ofCode : Nat → Option Space
  | 0 => some .inst | 1 => some .input | 2 => some .output | 3 => some .global | 4 => some .constant
  | 5 => some .parameter | _ => none

/-- The four execution contexts of a lane (R94). -/
inductive CtxKind | safety | timed | skip | free
deriving DecidableEq, Repr

def CtxKind.idx : CtxKind → Nat
  | .safety => 0 | .timed => 1 | .skip => 2 | .free => 3

/-- The memory tiers (Table ISA-4). -/
inductive Tier | near | lane | bulk
deriving DecidableEq, Repr

def Tier.code : Tier → Nat
  | .near => 0 | .lane => 1 | .bulk => 2

/-- Table TICK-4. -/
inductive TaskClass | t0 | t1 | t2 | t3 | f
deriving DecidableEq, Repr

def TaskClass.code : TaskClass → Nat
  | .t0 => 0 | .t1 => 1 | .t2 => 2 | .t3 => 3 | .f => 4

/-- Ticks between two activations (Table TICK-4); 1 for F, which none activates. -/
def TaskClass.every : TaskClass → Nat
  | .t0 => 1 | .t1 => 2 | .t2 => 4 | .t3 => 8 | .f => 1

/-- Table TICK-2. -/
inductive Align | free | aligned | holdover | behind
deriving DecidableEq, Repr

def Align.code : Align → Nat
  | .free => 0 | .aligned => 1 | .holdover => 2 | .behind => 3

/-- The ports that a route or a loss names (Table PLACE-11), HLK and SPL included. -/
inductive Port
  | eth (x : Fin 4) | can (n : Fin 6) | ser (x : Fin 4) | hlk (n : Fin 4) | spl (k : Fin 2)
deriving DecidableEq, Repr

/-- Table PLACE-11. -/
def Port.code : Port → Nat
  | .eth x => x | .can n => 0x10 + n | .ser x => 0x20 + x | .hlk n => 0x30 + n | .spl k => 0x40 + k

/-- What a loss set holds (R202). -/
inductive Resource
  | partner
  | port (p : Port)
  | card (slot : Fin 32)
deriving DecidableEq, Repr

/-- The clocks that CLK_MON lists (Table CLK-8). -/
inductive ClockId | frc | src | tcxo | xo32k | recovered | corePll | systemPll | linkPll | tim2
deriving DecidableEq, Repr

/-- Table CLK-1. -/
inductive Osc | frc | src | tcxo | xo32k | tim2
deriving DecidableEq, Repr

/-- Table PWR-3. -/
inductive ResetCause
  | powerOn | powerFail | brownout | clock | watchdog | external | presence | debug | command | safeRestart
  | update | lifecycle | fallback
deriving DecidableEq, Repr

def ResetCause.code : ResetCause → Nat
  | .powerOn => 1 | .powerFail => 2 | .brownout => 3 | .clock => 4 | .watchdog => 5 | .external => 6 | .presence => 7
  | .debug => 8 | .command => 9 | .safeRestart => 0xA | .update => 0xB | .lifecycle => 0xC | .fallback => 0x10

/-- Table LCS-1. -/
inductive LifeCycle | manufacture | blank | integration | field | fieldService | returned
deriving DecidableEq, Repr

def LifeCycle.code : LifeCycle → Nat
  | .manufacture => 0 | .blank => 1 | .integration => 2 | .field => 3 | .fieldService => 4 | .returned => 5

/-- The pair states of PAIR_STATUS.STATE (Table PAIR-6). -/
inductive PairState | alone | handshake | refused | linked | syncing | synced
deriving DecidableEq, Repr

def PairState.code : PairState → Nat
  | .alone => 0 | .handshake => 1 | .refused => 2 | .linked => 3 | .syncing => 4 | .synced => 5

/-- The roles of the claim number (Table PAIR-1). -/
inductive Role | none | standby | active | seize
deriving DecidableEq, Repr

def Role.code : Role → Nat
  | .none => 0 | .standby => 1 | .active => 2 | .seize => 3

/-- The time-base states of Table TIME-2. -/
inductive TbState | none | acquiring | locked | tracking | holdover | master | free
deriving DecidableEq, Repr

def TbState.code : TbState → Nat
  | .none => 0 | .acquiring => 1 | .locked => 2 | .tracking => 3 | .holdover => 4 | .master => 5 | .free => 6

/-- The channels of the off-pulse round (R317), coded as in SAFE_PULSE_STAT.LAST. -/
inductive OutCh
  | bk (x : Fin 2)
  | dout (m : Fin 8)
deriving DecidableEq, Repr

def OutCh.code : OutCh → Nat
  | .bk x => x | .dout m => 2 + m

/-- The reactions of Table FLT-5. -/
inductive Reaction | log | interrupt | unitReset | laneExclusion | timedDegraded | safeState
deriving DecidableEq, Repr

def Reaction.code : Reaction → Nat
  | .log => 0 | .interrupt => 1 | .unitReset => 2 | .laneExclusion => 3 | .timedDegraded => 4 | .safeState => 5

def Reaction.decode : Nat → Reaction
  | 0 => .log | 1 => .interrupt | 2 => .unitReset | 3 => .laneExclusion | 4 => .timedDegraded | _ => .safeState

end Sys2Proof
end

