-- ==== Sys2Proof/Image.lean ====
section
/-! DEFINITION. The documents that reach the module from outside, as decoded data: program images with their types,
instances, tasks, items, values, messages, stations and constraints (chapters 04 and 07), firmware images, change sets,
profile sets and packages (chapter 20). How Aszin encodes them is not in the manual (log entry 9). -/

namespace Sys2Proof

/-- What an initial content or a page lists: (offset, byte). -/
abbrev Bytes := List (Nat × Byte)

inductive CellKind | timer | counter | edge
deriving DecidableEq, Repr

/-- Bytes of a cell (R171, R176, R178). -/
def CellKind.size : CellKind → Nat
  | .timer => 32 | .counter => 16 | .edge => 8

/-- A cell of a type's layout (R110, R112). -/
structure CellDecl where
  off : Nat
  kind : CellKind
  retentive : Bool
deriving DecidableEq, Repr

/-- A variable of a type's layout (R110): `ty` names its data type (log entry 111); `online` marks what a change set may address
(R117). -/
structure VarDecl where
  off : Nat
  size : Nat
  retentive : Bool
  online : Bool
  ty : Nat := 0
deriving DecidableEq, Repr

/-- A function-block type (R110); `trap` is the overflow mode of R107. -/
structure TypeDecl where
  index : Nat
  entry : Nat
  size : Nat
  layout : Nat
  trap : Bool
  composite : Bool
  cells : List CellDecl
  vars : List VarDecl
deriving DecidableEq, Repr

/-- An instance (R110, R111) with its placement figures (R180, R188). `unitIndex` is the declaration index of a composite
declared as a unit; `calls` lists inner instances with their largest number of calls, and `uses` the items that its code accesses, by
item index, with the largest number of accesses (log entry 112). -/
structure InstDecl where
  index : Nat
  ty : Nat
  safety : Bool
  safeRead : Bool
  top : Bool
  unitIndex : Option Nat
  autoRun : Bool
  parent : Nat
  init : Bytes
  cycles : Nat
  calls : List (Nat × Nat)
  accesses : Nat
  uses : List (Nat × Nat) := []
deriving DecidableEq, Repr

/-- A task (R71, R76); `insts` are its top-level instances. -/
structure TaskDecl where
  index : Nat
  cls : TaskClass
  safety : Bool
  skip : Bool
  insts : List Nat
  dirty : Nat
  stack : Nat
deriving DecidableEq, Repr

/-- An item of the global, constant or parameter space (R98, R102, R183); `ty` names its data type. -/
structure ItemDecl where
  space : Space
  off : Nat
  size : Nat
  init : Bytes
  online : Bool
  safety : Bool
  safeRead : Bool
  retentive : Bool
  accesses : Nat
  ty : Nat := 0
deriving DecidableEq, Repr

/-- An edge of the function-block graph (R186). -/
structure EdgeDecl where
  src : Nat
  dst : Nat
  feedback : Bool
deriving DecidableEq, Repr

/-- A candidate route (R193): a port, or a card slot. -/
inductive Candidate
  | port (p : Port)
  | card (slot : Fin 32)
deriving DecidableEq, Repr

/-- What delivers an input-image value (R68, Tables FIO-3, HLK-5); values of module blocks and message areas are found
through their own declarations. -/
inductive InBind
  | none
  | di (n : Fin 18) | diT (n : Fin 18) | diE (n : Fin 18)
  | doS (m : Fin 8) | supply
  | card (slot : Fin 32) (off : Nat)
  | telegram (slot : Nat) (off : Nat)
deriving DecidableEq, Repr

structure InValue where
  off : Nat
  ty : Ty
  init : Nat
  bind : InBind
  station : Option Nat
  subst : Nat
deriving DecidableEq, Repr

/-- What an output-image value drives (R341, R314, R384). -/
inductive OutBind
  | none
  | dout (m : Fin 8)
  | bk (x : Fin 2)
  | card (route : Nat) (off : Nat)
  | telegram (slot : Nat) (off : Nat)
deriving DecidableEq, Repr

structure OutValue where
  off : Nat
  ty : Ty
  safety : Bool
  safeValue : Nat
  init : Nat
  bind : OutBind
deriving DecidableEq, Repr

/-- A message object (R156, R349, R355, R390). `filter` is KIND with A and B of Table CAN-4; `address` is a serial device
address and `answer` the RX object of its response. -/
structure MsgDecl where
  index : Nat
  tx : Bool
  safety : Bool
  safeRead : Bool
  len : Nat
  sendMax : Nat
  rxDepth : Nat
  ext : Bool
  fd : Bool
  brs : Bool
  ident : Nat
  filter : Nat × Nat × Nat
  format : Nat
  candidates : List Candidate
  address : Nat
  answer : Option Nat
  station : Option Nat
  subst : List Byte
deriving DecidableEq, Repr

/-- A signal with a route index from 8,192 upward (R193): a telegram or a card-bound output value. -/
structure SignalDecl where
  index : Nat
  candidates : List Candidate
deriving DecidableEq, Repr

/-- A process-data telegram (R382); `train` says that it is a train-level one. -/
structure TelegramDecl where
  index : Nat
  publish : Bool
  comId : Nat
  len : Nat
  ip : Nat
  cycle : Nat
  ofs : Nat
  station : Option Nat
  stale : Nat
  train : Bool := false
deriving DecidableEq, Repr

/-- How a station is reached (R270, R360, R386, R392). -/
inductive StationKind
  | card (slot : Fin 32)
  | telegram (route : Nat)
  | can (n : Fin 6) (objects : List Nat)
  | serial (x : Fin 4) (objects : List Nat)
deriving DecidableEq, Repr

structure StationDecl where
  index : Nat
  kind : StationKind
  staleTicks : Nat
  subst : Bool
  silence : Nat
deriving DecidableEq, Repr

/-- Table PLACE-4. An item is named by space and index in its list. -/
inductive Constraint
  | pinTier (space : Space) (index : Nat) (tier : Tier)
  | pinRoute (signal : Nat) (candidate : Option Nat)
  | pinPhase (task phase : Nat)
  | nearInst (a b : Nat)
  | nearItem (sa : Space) (a : Nat) (sb : Space) (b : Nat)
  | apartItem (sa : Space) (a : Nat) (sb : Space) (b : Nat)
  | apartSignal (a b : Nat)
deriving DecidableEq, Repr

/-- A static node directory entry (R387). -/
structure NodeDecl where
  ip : Nat
  consist : Nat
  vehicle : Nat
  station : Nat
  label : Nat
deriving DecidableEq, Repr

/-- One program: the main program, or the SPLIT program of a lane. `settings` are the register values that the image writes at
step 9 (address, object index, value). `bound` are the handles bound to the safety part, or assigned to a SPLIT program. -/
structure Program where
  types : List TypeDecl := []
  insts : List InstDecl := []
  tasks : List TaskDecl := []
  edges : List EdgeDecl := []
  items : List ItemDecl := []
  inputs : List InValue := []
  outputs : List OutValue := []
  msgs : List MsgDecl := []
  signals : List SignalDecl := []
  telegrams : List TelegramDecl := []
  stations : List StationDecl := []
  constraints : List Constraint := []
  inSize : Nat := 0
  outSize : Nat := 0
  codeLo : Nat := 0
  codeHi : Nat := 0
  period : Option Nat := none
  margin : Nat := 20
  warm : Bool := false
  summaryAt : Option Nat := none
  timeAt : Option Nat := none
  captureAt : List (Nat × Nat) := []
  settings : List (Nat × Nat × W32) := []
  bound : List Nat := []
  expected : List (Nat × Nat) := []
  nodes : List NodeDecl := []
  svcIp : Option Nat := none
deriving DecidableEq, Repr

/-- An Aszin image: the main program, the SPLIT programs if declared, and the package fields that every start checks
(R490, R497). Keys are named by their SHA-384 digests. -/
structure ProgramImage where
  digest : Nat
  hwType : Nat
  serial : Nat
  version : Nat
  secver : Nat
  peerMin : Nat
  peerMax : Nat
  signedBy : Option Nat
  key : Option Nat
  fkey : Option Nat
  main : Program
  split : Option (Program × Program × Program)
deriving DecidableEq, Repr

/-- A firmware image (Table UPD-2, KIND 1). -/
structure FwImage where
  digest : Nat
  hwType : Nat
  serial : Nat
  version : Nat
  secver : Nat
  fmtMin : Nat
  fmtMax : Nat
  peerMin : Nat
  peerMax : Nat
  algRev : Nat
  naneost : Bool
deriving DecidableEq, Repr

/-- What a change item addresses (R117): a global, instance, constant or parameter variable, of the data type `ty`. -/
structure ChangeItem where
  space : Space
  inst : Nat
  off : Nat
  data : List Byte
  ty : Nat := 0
deriving DecidableEq, Repr

/-- A change set; `lane` is the SPLIT program it addresses. -/
structure ChangeSet where
  base : Nat
  lane : Option Lane
  size : Nat
  items : List ChangeItem
deriving DecidableEq, Repr

/-- A measured profile (R210): largest cycle counts, access counts and dirty-byte counts, by index, and its digest. -/
structure ProfileSet where
  insts : List (Nat × Nat)
  items : List (Nat × Nat)
  tasks : List (Nat × Nat)
  digest : Nat
deriving DecidableEq, Repr

/-- The content of a package (Table UPD-1). -/
inductive Payload
  | firmware (f : FwImage)
  | program (p : ProgramImage)
  | change (c : ChangeSet)
  | card (data : List Byte)
deriving DecidableEq, Repr

/-- A package: header fields of Table UPD-2, under which key its signature verifies (`some 0` a Naneost key, `some d` the key of
digest d), and its content. `headerOk` says that FORMAT, FLAGS and the zero fields are as R490 gives them. -/
structure Package where
  delta : Bool
  keyBlock : Option Nat
  hwType : Nat
  serial : Nat
  version : Nat
  secver : Nat
  fmtMin : Nat
  fmtMax : Nat
  peerMin : Nat
  peerMax : Nat
  base : Nat
  target : Nat
  len : Nat
  signedBy : Option Nat
  headerOk : Bool
  payload : Payload
deriving DecidableEq, Repr

def Payload.kind : Payload → Nat
  | .firmware _ => 1 | .program _ => 2 | .change _ => 3 | .card _ => 4

end Sys2Proof
end

