-- ==== Sys2Proof/Syntax.lean ====
section
/-! DEFINITION. The commands of the module: one constructor of `Instr` per row of spec/opcode_table.json, with the operands that
the row's rule gives the step. Lane instructions carry the fields of their format (Table ISA-1) so that an illegal
encoding can be said (R127). -/

namespace Sys2Proof

/-- Format R (Table ISA-1) after OP and FN; `ext` is the extension word, present when I = 1. -/
structure RFmt where
  rd : BitVec 5 := 0
  ra : BitVec 5 := 0
  rb : BitVec 5 := 0
  ty : BitVec 4 := 0
  i : Bool := false
  ext : W32 := 0
deriving DecidableEq, Repr

/-- Format I. -/
structure IFmt where
  rd : BitVec 5 := 0
  ra : BitVec 5 := 0
  imm : W16 := 0
deriving DecidableEq, Repr

/-- Format M; `ext` is the displacement word, present when X = 1. -/
structure MFmt where
  rd : BitVec 5 := 0
  ra : BitVec 5 := 0
  space : BitVec 3 := 0
  ty : BitVec 4 := 0
  base : BitVec 2 := 0
  x : Bool := false
  off : BitVec 6 := 0
  ext : W32 := 0
deriving DecidableEq, Repr

/-- Format B. -/
structure BFmt where
  cond : BitVec 4 := 0
  disp : BitVec 22 := 0
deriving DecidableEq, Repr

/-- Format F; `ext` is the expected signature. -/
structure FFmt where
  ri : Bool := false
  z : BitVec 4 := 0
  ra : BitVec 5 := 0
  idx : W16 := 0
  ext : W32 := 0
deriving DecidableEq, Repr

/-- Format C; `ext` is the cell offset when CELL = 0. -/
structure CFmt where
  rd : BitVec 5 := 0
  ra : BitVec 5 := 0
  rb : BitVec 5 := 0
  cell : BitVec 11 := 0
  ext : W32 := 0
deriving DecidableEq, Repr

/-- A word of a memory that only its unit reads, and what stands in it: a frame pending in a transmit place (buffer 0 to 31, or 32 the
queue), received into an object's ring or waiting in a receive queue, at a position; no frame; or a slot of the recorder store (R354,
R469). -/
inductive UnitWord
  | canPending (n : Fin 6) (place i : Nat)
  | canReceived (n : Fin 6) (object i : Nat)
  | canQueued (n : Fin 6) (safety : Bool) (i : Nat)
  | canFree (n : Fin 6)
  | recorderSlot (slot : W16)
deriving DecidableEq, Repr

/-- The scrubber's finding (R245), and ECC findings of a load: which memory, which word, corrected or not. `lane` none is the bulk
store or another shared memory; `word` names one of a unit's own memory. -/
structure EccFinding where
  lane : Option Lane
  near : Bool
  corrected : Bool
  address : Nat
  word : Option UnitWord := none
deriving DecidableEq, Repr

/-- A beacon (R250), with the flags that R265 to R268 read in it. -/
structure Beacon where
  claim : W16
  boundary : Nat
  state : Nat
  marker : Bool
  revertDue : Bool
  handover : Nat
deriving DecidableEq, Repr

/-- The standby's acknowledgement of the copy of a tick (R262); during a REBALANCE it carries the digest of the set that the standby has
computed (R207, log entry 70). -/
structure CopyAck where
  tick : Nat
  set : Option Nat := none
deriving DecidableEq, Repr

/-- The identity that the partner sends (R255, Table PAIR-3). -/
structure PeerIdentity where
  hwType : Nat
  slot : Nat
  fwVersion : Nat
  peerMin : Nat
  peerMax : Nat
  fmtMin : Nat
  fmtMax : Nat
  image : Nat
  set : Nat
  running : Bool
  claim : W16
deriving DecidableEq, Repr

/-- A value and its tag. -/
structure Tagged where
  value : Nat
  tag : Tag
deriving DecidableEq, Repr

/-- A complete state copy (Table PAIR-4). Memory is listed as bytes by address. `full` says that the full copy of R257 has ended before
it; `input` lists the bytes of the input buffer of its tick, `inTags` the tags by offset and `inMsgs` the messages by object; `profile`
is an adoption since the copy before, of a set or of none (R210); `rebalance` is the request of a REBALANCE with the boundary announced
for its switch, 0 before that (R207). -/
structure StateCopy where
  tick : Nat
  mark : Nat
  tAct : Nat
  gen : Nat
  map : Nat
  loss : W32
  lossCard : W32
  claim : W16
  coalesced : Bool
  final : Bool
  handover : Nat
  changes : List ChangeSet
  output : List (Nat × Tagged)
  lanePages : Bytes
  bulkPages : Bytes
  pages : Nat
  retentive : Bytes
  settings : List (Nat × W32)
  units : List (Nat × UState)
  composites : List (Nat × UState)
  tb4Sec : Nat
  tb4Ns : Nat
  epochs : List Nat
  testAge : Option Nat
  profile : Option (Option ProfileSet)
  us : Nat
  full : Bool := false
  input : Bytes := []
  inTags : List (Nat × Tag) := []
  inMsgs : List (Nat × List (List Byte × Tag)) := []
  rebalance : Option Nat := none
deriving DecidableEq, Repr

/-- What a brake-test step observed (R322): the running part passed, the time to the feedback edge in ms, and whether the other
brake's feedback moved; `doBank` says that the group switch found failed at start-up is the DO bank's. -/
structure BrakeObs where
  passed : Bool
  ms : Nat
  otherMoved : Bool
  doBank : Bool := false
deriving DecidableEq, Repr

/-- A frame on a CAN bus (R348); `dlcLen` is the length that its data length code gives. -/
structure CanFrame where
  ext : Bool
  fd : Bool
  brs : Bool
  esi : Bool
  remote : Bool
  ident : Nat
  data : List Byte
deriving DecidableEq, Repr

/-- What stops a frame (R365, R352): lost arbitration, an error of the sender or of a receiver, coded as LEC, in the nominal or the
data phase; or a protocol exception. `by_` is how ISO 11898-1 moves the counter concerned. -/
inductive CanErr
  | arbitration
  | send (lec : Fin 7) (dataPhase : Bool)
  | receive (lec : Fin 7) (dataPhase : Bool) (by_ : Nat)
  | exception
deriving DecidableEq, Repr

/-- A received TRDP telegram (R385): `fcsOk` is the header FCS of TRDP, `frameOk` that of the Ethernet frame. -/
structure Telegram where
  slot : Nat
  comId : Nat
  src : Nat
  seq : Nat
  etb : Nat
  optrn : Nat
  fcsOk : Bool
  data : List Byte
  frameOk : Bool := true
deriving DecidableEq, Repr

/-- An inauguration result (R387, R388). -/
structure Inauguration where
  etb : Nat
  optrn : Nat
  nodes : List NodeDecl
deriving DecidableEq, Repr

/-- A serial response (R390): the address byte, the payload, and whether the check and the framing held. -/
structure SerialReply where
  address : Nat
  data : List Byte
  ok : Bool
deriving DecidableEq, Repr

/-- The data of a card read completion (R422, R428, R429): the word asked for, the whole block with its SIDE flags where the region
is MEMORY, or an error response. -/
structure CardData where
  word : W32
  block : List W32
  side : BitVec 8
  error : Bool
deriving DecidableEq, Repr

/-- A card-initiated request (R421, R426, R427): a read or write that needs the near port, or a locked sequence. -/
inductive CardReq
  | image (data : List Byte)
  | mailboxWrite (off : Nat) (data : List Byte)
  | mailboxRead (off : Nat)
  | locked
deriving DecidableEq, Repr

/-- A card's status packet (R430, R431): a state change, the outcome of card checks, a completion, or a fault. -/
inductive CardStatus
  | state (s : UState)
  | check (code : Nat)
  | done (code data : Nat)
  | fault (kind cls level : Nat) (address : W32)
deriving DecidableEq, Repr

/-- A signed document over SVC: under which key it verifies, and the fields it is bound to (R478, R481, R483). -/
structure SignedDoc where
  signedBy : Option Nat
  hwType : Nat
  serial : Nat
  nonce : Nat
  purpose : Nat
deriving DecidableEq, Repr

/-- What a diagnostics client reads (R479). -/
inductive DiagRead
  | register (addr : W32)
  | record (seq word : Nat)
deriving DecidableEq, Repr

/-- What a monitor finds (R450, R451): a clock outside its limits, or which of FRC, TCXO and SRC disagree when they judge one
another. -/
inductive ClkFinding
  | marked (c : ClockId)
  | compared (frcTcxo frcSrc tcxoSrc : Bool)
deriving DecidableEq, Repr

/-- What a checker flags in the Foxglove test (Table VOTE-7). SEC-DED checkers are numbered in the order of the table: the four banks of
each lane store from 0, then the thirteen of path 8. -/
inductive FoxFlag
  | minority (l : Lane)
  | noMajority
  | digest (l : Lane)
  | stagger (l : Lane)
  | late (l : Lane)
  | parity (l : Lane) (byteLane : Fin 8)
  | corrected (checker : Fin 25) (bit : Fin 8)
  | uncorrectable (checker : Fin 25)
deriving DecidableEq, Repr

/-- A command or event, one constructor per row of the opcode table. `w` is the writer of a register or command (R35), `l` a lane,
`at_` a TB3 instant in nanoseconds. -/
inductive Instr
  | resetRelease (s1 s2 s3 t1 t2 t3 : BitVec 13) (cards : W32)
  | oscWaitExpiry (osc : Osc)
  | pllLock
  | recorderScan
  | foxgloveTestEnd (seen : List (Nat × List FoxFlag)) (bist : Bool × Bool × Bool)
  | idmReadComplete (slot : Fin 33) (record : List Byte)
  | placementMapComplete (mismatch : Bool) (us : Nat)
  | startStepTimeout
  | boundary (at_ lag bph : Nat)
  | unitResetRestart (u : UnitId)
  | reactionWindowClose (u : UnitId)
  | guardStart (at_ : Nat)
  | boundaryMissed (at_ : Nat)
  | safetyWindowStart (inst : W16)
  | windowOver (inst : W16)
  | li (l : Lane) (f : IFmt)
  | addi (l : Lane) (f : IFmt)
  | mov (l : Lane) (f : RFmt)
  | movhi (l : Lane) (f : RFmt)
  | sel (l : Lane) (f : RFmt)
  | rdcf (l : Lane) (f : RFmt)
  | wrcf (l : Lane) (f : RFmt)
  | rdqf (l : Lane) (f : RFmt)
  | wrqf (l : Lane) (f : RFmt)
  | rdtk (l : Lane) (f : RFmt)
  | ld (l : Lane) (f : MFmt)
  | loadDataReturn (l : Lane)
  | st (l : Lane) (f : MFmt)
  | ldq (l : Lane) (f : MFmt)
  | ref (l : Lane) (f : MFmt)
  | add (l : Lane) (f : RFmt)
  | sub (l : Lane) (f : RFmt)
  | mul (l : Lane) (f : RFmt)
  | div (l : Lane) (f : RFmt)
  | mod (l : Lane) (f : RFmt)
  | neg (l : Lane) (f : RFmt)
  | abs (l : Lane) (f : RFmt)
  | min (l : Lane) (f : RFmt)
  | max (l : Lane) (f : RFmt)
  | limit (l : Lane) (f : RFmt)
  | mulh (l : Lane) (f : RFmt)
  | fadd (l : Lane) (f : RFmt)
  | fsub (l : Lane) (f : RFmt)
  | fmul (l : Lane) (f : RFmt)
  | fdiv (l : Lane) (f : RFmt)
  | fsqrt (l : Lane) (f : RFmt)
  | fabs (l : Lane) (f : RFmt)
  | fneg (l : Lane) (f : RFmt)
  | fmin (l : Lane) (f : RFmt)
  | fmax (l : Lane) (f : RFmt)
  | fma (l : Lane) (f : RFmt)
  | flimit (l : Lane) (f : RFmt)
  | cvt (l : Lane) (f : RFmt)
  | trunc (l : Lane) (f : RFmt)
  | and (l : Lane) (f : RFmt)
  | or (l : Lane) (f : RFmt)
  | xor (l : Lane) (f : RFmt)
  | andn (l : Lane) (f : RFmt)
  | not (l : Lane) (f : RFmt)
  | shl (l : Lane) (f : RFmt)
  | shr (l : Lane) (f : RFmt)
  | sar (l : Lane) (f : RFmt)
  | rol (l : Lane) (f : RFmt)
  | ror (l : Lane) (f : RFmt)
  | btst (l : Lane) (f : RFmt)
  | bset (l : Lane) (f : RFmt)
  | bclr (l : Lane) (f : RFmt)
  | binv (l : Lane) (f : RFmt)
  | bext (l : Lane) (f : RFmt)
  | bins (l : Lane) (f : RFmt)
  | popc (l : Lane) (f : RFmt)
  | clz (l : Lane) (f : RFmt)
  | cmp (l : Lane) (fn : BitVec 6) (f : RFmt)
  | b (l : Lane) (f : BFmt)
  | jr (l : Lane) (f : RFmt)
  | fbcall (l : Lane) (f : FFmt)
  | fbret (l : Lane) (f : RFmt)
  | enter (l : Lane) (f : IFmt)
  | leave (l : Lane) (f : IFmt)
  | ton (l : Lane) (f : CFmt)
  | tof (l : Lane) (f : CFmt)
  | tp (l : Lane) (f : CFmt)
  | ctu (l : Lane) (f : CFmt)
  | ctd (l : Lane) (f : CFmt)
  | ctud (l : Lane) (f : CFmt)
  | rtrig (l : Lane) (f : CFmt)
  | ftrig (l : Lane) (f : CFmt)
  | qout (l : Lane) (f : RFmt)
  | qclr (l : Lane) (f : RFmt)
  | qtst (l : Lane) (f : RFmt)
  | qmax (l : Lane) (f : RFmt)
  | msend (l : Lane) (f : RFmt)
  | mrecv (l : Lane) (f : RFmt)
  | mstat (l : Lane) (f : RFmt)
  | cmt (l : Lane) (f : RFmt)
  | vsync (l : Lane) (f : RFmt)
  | nop (l : Lane) (f : RFmt)
  | fence (l : Lane) (f : RFmt)
  | fenceCompletion (l : Lane)
  | twait (l : Lane) (f : RFmt)
  | twaitCompletion (l : Lane) (at_ : Nat)
  | yield (l : Lane) (f : RFmt)
  | urd (l : Lane) (f : RFmt)
  | urdCompletion (l : Lane)
  | uwr (l : Lane) (f : RFmt)
  | trap (l : Lane) (f : IFmt)
  | voteDecision (outOfSlot : Option Lane) (badComparator : Option Comparator)
  | late (l : Lane)
  | scrub (e : EccFinding)
  | rejoin (l : Lane)
  | rejoinCopyComplete (differs : Bool)
  | rejoinFail
  | latentResync (l : Lane)
  | enable (w : Writer) (u : UnitId) (arg : BitVec 24)
  | start (w : Writer) (u : UnitId) (arg : BitVec 24)
  | quiesce (w : Writer) (u : UnitId) (arg : BitVec 24)
  | gateOff (w : Writer) (u : UnitId) (arg : BitVec 24)
  | test (w : Writer) (u : UnitId) (arg : BitVec 24)
  | clear (w : Writer) (u : UnitId) (arg : BitVec 24)
  | reset (w : Writer) (u : UnitId) (arg : BitVec 24)
  | nopCommand (w : Writer) (u : UnitId) (arg : BitVec 24)
  | quiescenceEnd (u : UnitId) (stuck : List UnitId)
  | commandComplete (u : UnitId) (code : Status) (data : W16)
  | selfTestEnd (u : UnitId) (passed : Bool)
  | resultWindowRead (w : Writer) (addr : W32)
  | registerWrite (w : Writer) (addr : W32) (value : W32) (size : Nat)
  | placeRdSelWrite (w : Writer) (value : W32)
  | cannFiltSelWrite (w : Writer) (n : Fin 6) (value : W32)
  | netDirSelWrite (w : Writer) (value : W32)
  | hlkIdmSelWrite (w : Writer) (value : W32)
  | timeSnapSelWrite (w : Writer) (value : W32)
  | fltHistSelWrite (w : Writer) (value : W32)
  | fetchComplete (u : UnitId) (bank : Lane)
  | cannTxCancel (w : Writer) (n : Fin 6) (value : W32)
  | c71MirrorWrite (w : Writer) (off : BitVec 12) (value : W32)
  | restart (w : Writer) (arg : BitVec 24)
  | rebalance (w : Writer) (arg : BitVec 24)
  | migrateTimeout
  | placeReturn (w : Writer) (arg : BitVec 24)
  | profileStart (w : Writer) (arg : BitVec 24)
  | profileComplete (p : ProfileSet)
  | profileStop (w : Writer) (arg : BitVec 24)
  | adopt (w : Writer) (arg : BitVec 24)
  | combinedLoss
  | resourceReturn (r : Resource)
  | exclude (w : Writer) (arg : BitVec 24)
  | join (w : Writer) (arg : BitVec 24)
  | split (w : Writer) (arg : BitVec 24)
  | merge (w : Writer) (arg : BitVec 24)
  | foxglove (w : Writer) (arg : BitVec 24)
  | beacon (link : Fin 2) (b : Beacon) (at_ : Nat)
  | beaconsAbsent
  | partnerResync (peer : PeerIdentity)
  | beaconWaitTimeout
  | syncTimeout
  | stateCopy (c : StateCopy) (trailerOk : Bool)
  | copyMissing
  | revertDue
  | switchover (w : Writer) (arg : BitVec 24)
  | resync (w : Writer) (arg : BitVec 24)
  | detach (w : Writer) (arg : BitVec 24)
  | brakeWord (bk0 bk1 : Bool)
  | brakeWordTimeout
  | stationLost (idx : BitVec 12)
  | faultMessage (source : UnitId) (at_ : Nat)
  | ack (w : Writer) (arg : BitVec 24)
  | inject (w : Writer) (arg : BitVec 24)
  | injectMissed
  | degradeExpired
  | offPulse
  | offPulseEvaluation (own : Bool) (low : List OutCh)
  | extFeedPersist (ch : OutCh)
  | readbackCheck (ch : OutCh) (high : Bool)
  | pulseStarved (ch : OutCh)
  | brakeFeedbackCheck (x : Fin 2) (level : Bool) (at_ : Nat)
  | brakeNorel (x : Fin 2)
  | brakeTest (w : Writer) (arg : BitVec 24)
  | brakeTestStep (obs : BrakeObs)
  | pulseRetime (w : Writer) (arg : BitVec 24)
  | btestDue
  | edge (ch : Fin 18) (level : Bool) (began : Nat)
  | diBreak (ch : Fin 18)
  | diOvervolt (ch : Fin 18) (active : Bool)
  | rangeSettled (ch : Fin 18)
  | supplyLow (brakes : Bool)
  | supplyHigh (brakes : Bool)
  | doOverload (m : Fin 8)
  | doOvertemp (m : Fin 8)
  | doOpen (m : Fin 8)
  | doFeed (m : Fin 8)
  | canFrameReceived (n : Fin 6) (f : CanFrame) (at_ : Nat)
  | queueDrain (n : Fin 6)
  | transmitChoice (n : Fin 6) (at_ : Nat)
  | frameTransmitted (n : Fin 6) (at_ : Nat)
  | frameError (n : Fin 6) (e : CanErr)
  | recover (w : Writer) (n : Fin 6) (arg : BitVec 24)
  | recoveryComplete (n : Fin 6)
  | referenceMessage (n : Fin 6) (f : CanFrame) (at_ : Nat)
  | tmLost (n : Fin 6)
  | tmMaster (n : Fin 6)
  | ethLinkChange (x : Fin 4) (up : Bool) (speed : BitVec 2)
  | sync (x : Fin 4) (offset : Int) (domain : BitVec 8) (at_ : Nat)
  | telegramReceived (x : Fin 4) (t : Telegram)
  | inauguration (r : Inauguration)
  | poll (x : Fin 4)
  | serialResponse (x : Fin 4) (r : SerialReply)
  | respTimeout (x : Fin 4)
  | measurement
  | tim0Edge (at_ : Nat)
  | srcLost (tb : Fin 3) (src : Nat)
  | holdExpired (tb : Fin 3)
  | timeSet (w : Writer) (arg : BitVec 24)
  | pulseInstant (k : Fin 2) (at_ : Nat)
  | captureEdge (k : Fin 4) (src : Fin 3) (rising : Bool) (at_ : Nat)
  | cardReadCompletion (d : CardData)
  | readTimeout
  | cardRequest (slot : Fin 32) (link : Fin 4) (r : CardReq)
  | lockedSequence (slot : Fin 32)
  | lockTimeout
  | statusPacket (slot : Fin 32) (sub : Fin 17) (p : CardStatus)
  | hlkLinkDown (n : Fin 4)
  | cardAbsent (slot : Fin 32)
  | cardPresence (slot : Fin 32)
  | rescan (w : Writer) (arg : BitVec 24)
  | clkFail (f : ClkFinding)
  | referenceQualified
  | clockSourceChange
  | refUnqual
  | slewComplete
  | recordWrite
  | tokenRefill (code : W16)
  | challenge (purpose : Bool) (nonce : Nat)
  | challengeResponse (d : SignedDoc) (at_ : Nat)
  | lockoutExpiry
  | unlockToken (d : SignedDoc)
  | diagnosticsRead (r : DiagRead)
  | debugIntrusive
  | returnRequest (consent : Option SignedDoc) (vendor : SignedDoc) (at_ : Nat)
  | erasureComplete (ok : Bool)
  | lock (w : Writer) (arg : BitVec 24)
  | closeService (w : Writer) (arg : BitVec 24)
  | package (p : Package)
  | apply (w : Writer) (arg : BitVec 24)
  | activate (w : Writer) (arg : BitVec 24)
  | confirm (w : Writer) (arg : BitVec 24)
  | abort (w : Writer) (arg : BitVec 24)
  | acceptChange (w : Writer) (arg : BitVec 24)
  | restartHandover (w : Writer) (arg : BitVec 24)
  | trialExpired
  | pfWarn
  | powerReturn
  | shutdown
  | resetEntry (cause : ResetCause)
  | externalReset (us : Nat)
  | presenceOpen
  | brownout
  | watchdog
  | safeRestart
  | moduleReset (w : Writer) (arg : BitVec 24)
  | strapChanged (straps : BitVec 13)
  | tempHigh (temp : Int)
  | tempCrit (temp : Int)
  | sweetpeaLinkChange (k : Fin 2) (up : Bool)
  | copyAcknowledged (ack : CopyAck)
  | hollyhockLinkUp (n : Fin 4)
  | svcSession (opened : Bool) (peer : W32)
  | breakCleared (ch : Fin 18)
  | fieldSupplyRecovered (brakes : Bool)
  | junctionCooled (m : Fin 8)
  | openLoadCleared (m : Fin 8)
  | busIntegration (n : Fin 6)
  | pathDelayMeasurement (x : Fin 4) (ns : W32)
  | bestMasterClock (x : Fin 4) (master : Bool)
deriving DecidableEq, Repr

end Sys2Proof
end

