-- ==== Sys2Proof/Machine/Units.lean ====
section
/-! DEFINITION. The unit tree: handles, bases, windows, types, parents and members (R43 to R51, R244, R377, R420). -/

namespace Sys2Proof.Machine

open Sys2Proof

/-- The unit handle (R48, R49, R244, Tables NET-1 and HLK-1). -/
def handleOf : UnitId → Nat
  | .sys => 0x0000 | .tick => 0x0001 | .place => 0x0002 | .voter => 0x0003 | .pair => 0x0004
  | .flt => 0x0005 | .safe => 0x0006 | .can n => 0x0010 + n | .net => 0x0020 | .time => 0x0030
  | .hlk => 0x0040 | .clk => 0x0050 | .evr => 0x0060 | .lcs => 0x0070 | .pwr => 0x0080
  | .lane l => 0x0300 + l.idx | .eth x => 0x0400 + x | .ser x => 0x0404 + x | .svc => 0x0408
  | .link n => 0x0440 + n
  | .card slot sub => 0x1000 + slot * 0x80 + sub
  | .pairUnit => 0x2000 | .partner => 0x2001
  | .composite k => 0x8000 + k

/-- The base address (Tables UNIT-7, NET-1, HLK-1, R244). -/
def baseOf : UnitId → Nat
  | .sys => 0xF0000000 | .tick => 0xF0010000 | .place => 0xF0020000 | .voter => 0xF0030000
  | .pair => 0xF0040000 | .flt => 0xF0050000 | .safe => 0xF0060000 | .can n => 0xF0100000 + n * 0x10000
  | .net => 0xF0200000 | .time => 0xF0300000 | .hlk => 0xF0400000 | .clk => 0xF0500000
  | .evr => 0xF0600000 | .lcs => 0xF0700000 | .pwr => 0xF0800000
  | .lane l => 0xF0038000 + l.idx * 0x1000
  | .eth x => 0xF0204000 + x * 0x1000 | .ser x => 0xF0208000 + x * 0x1000 | .svc => 0xF020C000
  | .link n => 0xF0404000 + n * 0x1000
  | .card slot sub => 0xF1000000 + slot * 0x100000 + sub * 0x2000
  | .pairUnit => 0xF4000000 | .partner => 0xF4010000
  | .composite k => 0xF8000000 + k * 0x1000

/-- The length of a unit's window in bytes. -/
def windowOf : UnitId → Nat
  | .lane _ | .eth _ | .ser _ | .svc | .link _ | .composite _ => 0x1000
  | .card _ _ => 0x2000
  | _ => 0x10000

/-- A control-space address lies inside a unit's window, or inside that of a child within it (R49). -/
def insideWindow (u : UnitId) (addr : Nat) : Bool := decide (baseOf u ≤ addr) && decide (addr < baseOf u + windowOf u)

/-- UCB_ID.TYPE (Tables UNIT-7, NET-1, HLK-1, R244). -/
def typeOf : UnitId → Nat
  | .sys => 0x01 | .tick => 0x02 | .place => 0x03 | .voter => 0x04 | .pair => 0x05 | .flt => 0x06
  | .safe => 0x07 | .can _ => 0x10 | .net => 0x20 | .time => 0x30 | .hlk => 0x40 | .clk => 0x50
  | .evr => 0x60 | .lcs => 0x70 | .pwr => 0x80 | .lane _ => 0x08 | .eth _ => 0x21 | .ser _ => 0x22
  | .svc => 0x23 | .link _ => 0x41 | .card _ _ => 0xC0 | .pairUnit => 0xE0 | .partner => 0xE1
  | .composite _ => 0xF0

/-- UCB_ID.ORIGIN (Table UNIT-2). -/
def originOf : UnitId → Nat
  | .lane _ | .eth _ | .ser _ | .svc | .link _ => 1
  | .card _ _ => 2 | .pairUnit => 3 | .partner => 4 | .composite _ => 5
  | _ => 0

/-- A Fin below n, if the number is. -/
def fin? (n k : Nat) : Option (Fin n) := if h : k < n then some ⟨k, h⟩ else none

/-- The unit that a handle names, whether or not the unit is in the tree now (R48). -/
def unitOfHandle (h : Nat) : Option UnitId :=
  match h with
  | 0 => some .sys | 1 => some .tick | 2 => some .place | 3 => some .voter | 4 => some .pair
  | 5 => some .flt | 6 => some .safe | 0x20 => some .net | 0x30 => some .time | 0x40 => some .hlk
  | 0x50 => some .clk | 0x60 => some .evr | 0x70 => some .lcs | 0x80 => some .pwr
  | 0x300 => some (.lane .a) | 0x301 => some (.lane .b) | 0x302 => some (.lane .c) | 0x408 => some .svc
  | 0x2000 => some .pairUnit | 0x2001 => some .partner
  | h =>
    if 0x10 ≤ h && h < 0x16 then (fin? 6 (h - 0x10)).map .can
    else if 0x400 ≤ h && h < 0x404 then (fin? 4 (h - 0x400)).map .eth
    else if 0x404 ≤ h && h < 0x408 then (fin? 4 (h - 0x404)).map .ser
    else if 0x440 ≤ h && h < 0x444 then (fin? 4 (h - 0x440)).map .link
    else if 0x1000 ≤ h && h < 0x2000 then
      match fin? 32 ((h - 0x1000) / 0x80), fin? 17 ((h - 0x1000) % 0x80) with
      | some s, some i => some (.card s i)
      | _, _ => none
    else if 0x8000 ≤ h then (fin? 32767 (h - 0x8000)).map .composite
    else none

/-- The unit whose window holds a control-space address, and the offset within it (Table UNIT-7); the window of a child
lies inside its parent's. -/
def unitOfAddr (a : Nat) : Option (UnitId × Nat) :=
  if a < 0xF0000000 || 0x100000000 ≤ a then none
  else if 0xF8000000 ≤ a then
    (fin? 32767 ((a - 0xF8000000) / 0x1000)).map fun k => (.composite k, a % 0x1000)
  else if 0xF4000000 ≤ a then
    if a < 0xF4010000 then some (.pairUnit, a % 0x10000)
    else if a < 0xF4020000 then some (.partner, a % 0x10000) else none
  else if 0xF1000000 ≤ a then
    match fin? 32 ((a - 0xF1000000) / 0x100000), fin? 17 (((a - 0xF1000000) % 0x100000) / 0x2000) with
    | some s, some i => some (.card s i, a % 0x2000)
    | _, _ => none
  else
    let off := a % 0x10000
    match a / 0x10000 with
    | 0xF000 => some (.sys, off) | 0xF001 => some (.tick, off) | 0xF002 => some (.place, off)
    | 0xF003 =>
      if 0x8000 ≤ off && off < 0xB000 then
        (Lane.ofNat? ((off - 0x8000) / 0x1000)).map fun l => (.lane l, off % 0x1000)
      else some (.voter, off)
    | 0xF004 => some (.pair, off) | 0xF005 => some (.flt, off) | 0xF006 => some (.safe, off)
    | 0xF020 =>
      if 0x4000 ≤ off && off < 0x8000 then (fin? 4 ((off - 0x4000) / 0x1000)).map fun x => (.eth x, off % 0x1000)
      else if 0x8000 ≤ off && off < 0xC000 then (fin? 4 ((off - 0x8000) / 0x1000)).map fun x => (.ser x, off % 0x1000)
      else if 0xC000 ≤ off && off < 0xD000 then some (.svc, off % 0x1000)
      else some (.net, off)
    | 0xF030 => some (.time, off)
    | 0xF040 =>
      if 0x4000 ≤ off && off < 0x8000 then (fin? 4 ((off - 0x4000) / 0x1000)).map fun n => (.link n, off % 0x1000)
      else some (.hlk, off)
    | 0xF050 => some (.clk, off) | 0xF060 => some (.evr, off) | 0xF070 => some (.lcs, off)
    | 0xF080 => some (.pwr, off)
    | p => if 0xF010 ≤ p && p < 0xF016 then (fin? 6 (p - 0xF010)).map fun n => (.can n, off) else none

/-- The top-level on-module units other than SYS, by ascending handle (R50). -/
def topUnits : List UnitId :=
  [.tick, .place, .voter, .pair, .flt, .safe, .can 0, .can 1, .can 2, .can 3, .can 4, .can 5, .net, .time, .hlk,
    .clk, .evr, .lcs, .pwr]

def netUnits : List UnitId :=
  [.eth 0, .eth 1, .eth 2, .eth 3, .ser 0, .ser 1, .ser 2, .ser 3, .svc]

def linkUnits : List UnitId := [.link 0, .link 1, .link 2, .link 3]

def laneUnits : List UnitId := [.lane .a, .lane .b, .lane .c]

/-- Every on-module unit. -/
def moduleUnits : List UnitId := .sys :: topUnits ++ laneUnits ++ netUnits ++ linkUnits

end Sys2Proof.Machine
end

