-- ==== Sys2Proof/Machine/FaultKinds.lean ====
section
/-! DEFINITION. The class and base level of every fault kind (R279, R282, R283, Tables FLT-2 to FLT-4, FLT-6 and the fault-kind
tables of the units' chapters). -/

namespace Sys2Proof.Machine

open Sys2Proof

/-- Class and base level of the common kinds 0xF0 to 0xF4. -/
def commonKind : Nat → Nat × Nat
  | 0xF2 | 0xF4 => (1, 2)
  | _ => (1, 1)

/-- TICK (Tables TICK-8, FLT-2, FLT-3). -/
def tickKind : Nat → Nat × Nat
  | 1 | 3 | 5 => (3, 4) | 2 | 9 => (3, 1) | 4 | 6 => (2, 1) | 7 => (2, 2) | _ => (0, 1)

/-- PLACE (Tables PLACE-13, FLT-2, FLT-3). -/
def placeKind : Nat → Nat × Nat
  | 1 | 8 => (8, 2) | 2 | 3 => (8, 3) | 4 => (2, 1) | 5 | 6 => (10, 2) | 7 | 9 => (8, 1) | _ => (0, 1)

/-- LANE/VOTER and the lane units; program exceptions of a non-safety instance (Tables VOTE-12, FLT-2, FLT-3). -/
def voterKind : Nat → Nat × Nat
  | 1 | 2 | 3 | 0xB | 0xD => (5, 3) | 6 | 8 => (5, 2) | 4 | 5 | 7 | 9 | 0xC => (6, 4) | 0xA => (7, 0)
  | _ => (4, 2)

/-- PAIR (Tables PAIR-8, FLT-2, FLT-3). -/
def pairKind : Nat → Nat × Nat
  | 2 | 3 => (9, 1) | 6 => (9, 3) | 0xA => (10, 2) | 0xB => (0, 1) | _ => (9, 2)

/-- FLT (Table FLT-6). -/
def fltKind : Nat → Nat × Nat
  | 1 | 2 => (15, 4) | _ => (0, 1)

/-- SAFE/FIO (Tables SAF-7 and FIO-6). -/
def safeKind : Nat → Nat × Nat
  | 1 | 3 | 5 | 9 | 0xA => (13, 3) | 2 | 8 => (13, 4) | 4 | 7 => (13, 2) | 0xD => (2, 4) | 0xE => (0, 1) | _ => (13, 1)

/-- CANn (Table CAN-10). -/
def canKind : Nat → Nat × Nat
  | 2 => (7, 0) | 3 => (11, 2) | 8 => (0, 1) | _ => (11, 1)

/-- NET and its members (Table NET-7). -/
def netKind : Nat → Nat × Nat
  | 3 => (11, 0) | 7 => (0, 1) | _ => (11, 1)

/-- TIME (Table TIME-8). -/
def timeKind : Nat → Nat × Nat
  | 6 => (14, 0) | 7 => (0, 1) | _ => (14, 1)

/-- HLK, its links and the cards' bridge kinds (Table HLK-10). -/
def hlkKind : Nat → Nat × Nat
  | 2 | 3 | 4 => (12, 2) | 5 => (12, 4) | 0xA => (0, 1) | _ => (12, 1)

/-- CLK (Table CLK-10). -/
def clkKind : Nat → Nat × Nat
  | 1 => (14, 4) | 2 => (14, 2) | 7 => (0, 1) | _ => (14, 1)

/-- EVR (Table EVR-6). -/
def evrKind : Nat → Nat × Nat
  | 1 => (14, 2) | 2 => (7, 0) | 5 => (0, 1) | _ => (14, 1)

/-- LCS/UPD (Table LCS-7 and the update kinds of chapter 20). -/
def lcsKind : Nat → Nat × Nat
  | 2 | 3 | 4 | 0x23 => (14, 4) | 0x21 | 0x24 => (14, 2) | 5 => (0, 1) | _ => (14, 1)

/-- PWR (Table PWR-9). -/
def pwrKind : Nat → Nat × Nat
  | 4 => (14, 4) | 5 => (0, 1) | _ => (14, 1)

/-- Class and base level of a kind, by the reporting unit. -/
def kindOf (u : UnitId) (kind : Nat) : Nat × Nat :=
  if 0xF0 ≤ kind then commonKind kind else
  match u with
  | .tick => tickKind kind | .place => placeKind kind | .voter | .lane _ => voterKind kind | .pair => pairKind kind
  | .flt => fltKind kind | .safe => safeKind kind | .can _ => canKind kind
  | .net | .eth _ | .ser _ | .svc => netKind kind | .time => timeKind kind
  | .hlk | .link _ | .card _ _ => hlkKind kind | .clk => clkKind kind | .evr => evrKind kind | .lcs => lcsKind kind
  | .pwr => pwrKind kind | .composite _ => voterKind kind
  | .sys | .pairUnit | .partner => (14, 1)

end Sys2Proof.Machine
end

