-- ==== Sys2Proof/Machine/Maps.lean ====
section
/-! DEFINITION. Finite maps from numbers as strictly rising lists of (key, value) pairs, and the byte stores in their one
canonical form. -/

namespace Sys2Proof.Machine

/-- A finite map: pairs in strictly rising order of key. -/
abbrev NMap (α : Type) := List (Nat × α)

/-- The value at a key, if the map lists it. -/
def mapGet? (k : Nat) : NMap α → Option α
  | [] => none
  | (j, v) :: m => if j = k then some v else mapGet? k m

/-- The value at a key, or a default. -/
def mapGetD (m : NMap α) (k : Nat) (d : α) : α := (mapGet? k m).getD d

/-- The map with a value put at a key. -/
def mapPut (k : Nat) (v : α) : NMap α → NMap α
  | [] => [(k, v)]
  | (j, w) :: m =>
    if k < j then (k, v) :: (j, w) :: m
    else if k = j then (k, v) :: m
    else (j, w) :: mapPut k v m

/-- The map without a key. -/
def mapErase (k : Nat) : NMap α → NMap α
  | [] => []
  | (j, w) :: m => if j = k then mapErase k m else (j, w) :: mapErase k m

/-- The entries of `top` put over those of `base`. -/
def mapMerge (base top : NMap α) : NMap α := top.foldl (fun m p => mapPut p.1 p.2 m) base

/-- The keys of a map rise strictly. -/
def mapSorted : NMap α → Bool
  | [] => true
  | [_] => true
  | (j, _) :: (k, w) :: m => decide (j < k) && mapSorted ((k, w) :: m)

/-- A list in the order of a relation, equal elements in their given order. -/
def sortBy (le : α → α → Bool) (l : List α) : List α := l.foldr (insertBy le) []
where
  insertBy (le : α → α → Bool) (x : α) : List α → List α
    | [] => [x]
    | y :: ys => if le x y then x :: y :: ys else y :: insertBy le x ys

/-! ### Byte stores (log entry 4): an unlisted address reads as 0, and no listed byte is 0. -/

abbrev Memory := List (Nat × Byte)

/-- What an unlisted address reads as (log entry 4). -/
def Memory.blank : Byte := 0

/-- The canonical form: addresses strictly rising, no entry equal to what an unlisted address reads as. -/
def Memory.wf (m : Memory) : Bool := mapSorted m && m.all (fun c => c.2 != Memory.blank)

def Memory.readByte (m : Memory) (a : Nat) : Byte := mapGetD m a Memory.blank

/-- One byte written, the canonical form kept. -/
def Memory.writeByte (m : Memory) (a : Nat) (b : Byte) : Memory :=
  if b = Memory.blank then mapErase a m else mapPut a b m

/-- `len` bytes from an address upwards. -/
def Memory.readBytes (m : Memory) (a : Nat) : Nat → List Byte
  | 0 => []
  | len + 1 => Memory.readByte m a :: Memory.readBytes m (a + 1) len

/-- Bytes written from an address upwards. -/
def Memory.writeBytes (m : Memory) (a : Nat) : List Byte → Memory
  | [] => m
  | b :: bs => Memory.writeBytes (Memory.writeByte m a b) (a + 1) bs

/-- The number that `len` bytes at an address spell (R11). -/
def Memory.readNat (m : Memory) (a len : Nat) : Nat := fromLE (Memory.readBytes m a len)

/-- `len` bytes of a number written at an address (R11). -/
def Memory.writeNat (m : Memory) (a len v : Nat) : Memory := Memory.writeBytes m a (bytesLE len v)

/-- A range of bytes returned to what an unlisted address reads as. -/
def Memory.clearRange (m : Memory) (lo len : Nat) : Memory := m.filter fun c => !(lo ≤ c.1 && c.1 < lo + len)

end Sys2Proof.Machine
end

