-- ==== Sys2Proof/Machine/State.lean ====
section
/-! DEFINITION. The state of the module as plain data: every unit's registers and engines, the lanes and the voter, the
memories, the queues and the pins, the queue of waiting commands, the ways a step can stop, and the state after power-on
reset. Registers that are RW or RWS and hold a setting stand in `regs` and `regsPending`, keyed by address and object; an
unlisted one holds its reset value. What a read-only register shows is computed from the structured state. -/

namespace Sys2Proof.Machine

open Sys2Proof

/-! ### Units: the control block of R26 and R27, and the held fault message of R281 -/

/-- A result window (R41): VALID, FRESH, LOST and the value field [28:0]. -/
structure ResultWindow where
  valid : Bool := false
  fresh : Bool := false
  lost : Bool := false
  value : Nat := 0
deriving DecidableEq, Repr

/-- What an exception report carries beside the message (R124, R465). -/
structure ExcInfo where
  pc : Nat
  inst : Nat
  lanes : Nat
  space : Nat
  addr : Nat
deriving DecidableEq, Repr

/-- A fault message (Table FLT-1); `injected` marks one that INJECT caused (R299). -/
structure FaultMsg where
  source : Nat
  kind : Nat
  cls : Nat
  level : Nat
  conseq : Bool := false
  address : Nat
  injected : Bool := false
  exc : Option ExcInfo := none
deriving DecidableEq, Repr

/-- A command that a unit is executing (UCB_STATUS.BUSY). -/
structure Running where
  code : Nat
  arg : Nat
  writer : Writer
deriving DecidableEq, Repr

/-- The unit control block (Tables UNIT-1 and UNIT-2); UCB_ID and the GROUP and MIXED bits are computed when read. `heldAt` is the TB3
instant at which the held message was sent (R281). -/
structure Ucb where
  state : UState := .off
  prev : UState := .off
  busy : Bool := false
  code : Status := .ok
  cmd : Nat := 0
  refused : Nat := 0
  forced : Bool := false
  draining : Bool := false
  gateOpen : Bool := false
  fKind : Nat := 0
  fClass : Nat := 0
  fLevel : Nat := 0
  fConseq : Bool := false
  sent : Nat := 0
  result : ResultWindow := {}
  token : Option (Activity × Nat) := none
  running : Option Running := none
  held : Option FaultMsg := none
  heldAt : Nat := 0
  waiting : List FaultMsg := []
  faultClass : Option Nat := none
  faultTaken : Bool := false
deriving DecidableEq, Repr

/-! ### The fault collector (chapter 10) -/

/-- A history entry (R296, Table FLT-12). -/
structure HistEntry where
  msg : FaultMsg
  seq : Nat
  tick : Nat
  acked : Bool
  severe : Bool
  escalated : Bool
  reaction : Reaction
  primary : Nat
deriving DecidableEq, Repr

/-- A reaction window (R294), with what UNIT_RESET keeps for the restart of its subject (R292) and the class of
its primary. -/
structure ReactWindow where
  subject : UnitId
  primary : Nat
  openedAt : Nat
  endsAt : Nat
  restart : Bool
  prevRun : Bool
  image : NMap W32
  closing : Bool
  cls : Nat
deriving DecidableEq, Repr

/-- An error injection under way (R299, R300). -/
structure InjectRun where
  checker : Nat
  arg : Nat
deriving DecidableEq, Repr

/-- FLT: what Tables FLT-11 and FLT-12 show that is no setting, and the collector's records. `unack` holds by class the highest
level of its unacknowledged non-consequential entries, `unackAll` that of all its unacknowledged entries. -/
structure FltState where
  seq : Nat := 0
  history : List HistEntry := []
  histCopy : NMap HistEntry := []
  unack : NMap Nat := []
  unackAll : NMap Nat := []
  arrivals : NMap (List Nat) := []
  windows : List ReactWindow := []
  taken : Nat := 0
  conseqTaken : Nat := 0
  selfEvents : Nat := 0
  newBits : Nat := 0
  newMax : Nat := 0
  newCount : Nat := 0
  inject : Option InjectRun := none
  degraded : List (UnitId × Nat) := []
  degradedUnits : List UnitId := []
deriving DecidableEq, Repr

/-! ### The event recorder (chapter 18) -/

/-- A record as offered and stamped (Table EVR-1). -/
structure EvrRecord where
  seq : Nat
  code : Nat
  source : Nat
  tb3 : Nat
  tb4Sec : Nat
  tb4Ns : Nat
  tb4Epoch : Nat
  csn : Nat
  repeats : Nat
  lost : Nat
  data : List Byte
deriving DecidableEq, Repr

/-- A code's token bucket and suppressed count (R466). -/
structure Bucket where
  tokens : Nat
  suppressed : Nat
deriving DecidableEq, Repr

/-- EVR: the recorder store as its words (R462), the queue (R467), the buckets, the newest record of each code (R466) and the
counters of Table EVR-5. -/
structure EvrState where
  store : NMap (List W32) := []
  scanned : Bool := false
  next : Nat := 0
  qmax : Nat := 0
  queue : List EvrRecord := []
  rewrites : NMap Nat := []
  newest : NMap EvrRecord := []
  buckets : NMap Bucket := []
  dropQueue : Nat := 0
  dropPriv : Nat := 0
deriving DecidableEq, Repr

/-! ### The tick sequencer (chapter 03) -/

/-- What TICK_TASK_TIME and TICK_TASK_SKIP show of one task, and whether its next activation is left out (R78). -/
structure TaskStat where
  last : Nat := 0
  max : Nat := 0
  skips : Nat := 0
  leaveOut : Bool := false
deriving DecidableEq, Repr

/-- TICK: Tables TICK-5 and TICK-6. `next` is TICK_NEXT, kept in MRAM; `begun` says that boundaries have begun since the reset;
`guardOpen` that the guard has started and its comparison waits for lanes that have not come to the leading lane's instruction (R134). -/
structure TickState where
  period : Nat := 20
  next : W32 := 20
  stopped : Bool := false
  retLag : Bool := false
  rephased : Bool := false
  warm : Bool := false
  align : Align := .free
  phase : Nat := 0
  n : Nat := 0
  time : Nat := 0
  lag : Nat := 0
  lagMax : Nat := 0
  bph : Nat := 0
  bphMax : Nat := 0
  slack : Nat := 0
  slackMin : Nat := 0xFFFF
  stopTask : Nat := 0
  stopCause : Nat := 0
  tasks : NMap TaskStat := []
  running : Bool := false
  begun : Bool := false
  rephaseDue : Bool := false
  restart : Option Bool := none
  reinit : Bool := false
  slackStart : Nat := 0
  guardOpen : Bool := false
deriving DecidableEq, Repr

/-! ### The time bases (chapter 15) -/

/-- A pending SET (R405). -/
inductive SetReq
  | value (sec ns : Nat)
  | source
deriving DecidableEq, Repr

/-- One time base: its value in units of 2⁻⁴⁰ ns at the TB3 instant `anchor`, its rates in units of 2⁻⁴⁰ (R398, R400). -/
structure TimeBase where
  val : Nat := 0
  anchor : Nat := 0
  r : Int := 0
  f : Int := 0
  epoch : Nat := 0
  state : TbState := .none
  source : Option Nat := none
  stepped : Bool := false
  good : Nat := 0
  bad : Nat := 0
  oPrev : Int := 0
  ofs : Int := 0
  lastAt : NMap Int := []
  row : NMap Nat := []
  current : List Nat := []
  everLocked : Bool := false
  lastGood : Nat := 0
  holdSaid : Bool := false
  setReq : Option SetReq := none
deriving DecidableEq, Repr

/-- A pulse generator (R409, R410): its next instant in its time base's nanoseconds, and the TB3 instant at which its
signal falls. -/
structure PulseGen where
  next : Option Nat := none
  highUntil : Nat := 0
  missed : Nat := 0
  pulses : Nat := 0
deriving DecidableEq, Repr

/-- A stamp: seconds, nanoseconds, epoch, whether the time base was NONE or ACQUIRING, and the TB3 instant. -/
structure Stamp where
  sec : Nat
  ns : Nat
  epoch : Nat
  bad : Bool
  at_ : Nat := 0
deriving DecidableEq, Repr

/-- A capture channel (R412). -/
structure Capture where
  stamps : List Stamp := []
  dropped : Nat := 0
  latchDropped : Nat := 0
  events : Nat := 0
  lastSec : Nat := 0
  lastNs : Nat := 0
deriving DecidableEq, Repr

/-- A banked snapshot (TIME_SNAP_RES to TIME_SNAP_EPOCH). -/
structure Snap where
  result : ResultWindow := {}
  sec : Nat := 0
  ns : Nat := 0
  epoch : Nat := 0
deriving DecidableEq, Repr

/-- A measurement handed over by a port, a channel or TIM0 (R400): the time base 0 to 2, the source code of Table TIME-1, the
offset in nanoseconds, whether the source marks a discontinuity, and the TB3 instant. -/
structure Handed where
  tb : Nat
  src : Nat
  offset : Int
  disc : Bool
  at_ : Nat
deriving DecidableEq, Repr

/-- TIME: `now` is TB3 in nanoseconds. -/
structure TimeState where
  now : Nat := 0
  handed : List Handed := []
  tb0 : TimeBase := {}
  tb1 : TimeBase := {}
  tb2 : TimeBase := {}
  tb4 : TimeBase := {}
  pg0 : PulseGen := {}
  pg1 : PulseGen := {}
  caps : NMap Capture := []
  snaps : NMap Snap := []
deriving DecidableEq, Repr

/-! ### The clock system (chapter 17) -/

/-- A clock-source change (R448): the reference it moves to, and whether the candidate has qualified. -/
structure ClkChange where
  target : Nat
  slewing : Bool
  back : Bool
deriving DecidableEq, Repr

/-- CLK: Tables CLK-7 and CLK-8. `failed` is CLK_MON.FAILED; `due` is a change that waits for its tokens. -/
structure ClkState where
  compat : Bool := false
  refInUse : Nat := 0
  fallenBack : Bool := false
  qualified : Bool := false
  change : Option ClkChange := none
  due : Option ClkChange := none
  failed : Nat := 0
  tim2Failed : Bool := false
  armed : Bool := false
  oscReady : Nat := 0
  linkStop : Bool := true
  canSilent : Bool := true
  sysFrc : Bool := true
  coreFrc : Bool := true
  sysForced : Bool := false
  coreForced : Bool := false
  recPpb : Int := 0
  swres : ResultWindow := {}
  forcedCount : Nat := 0
  fallbackCount : Nat := 0
  returnedCount : Nat := 0
  changeCount : Nat := 0
  outLow : Bool := false
deriving DecidableEq, Repr

/-! ### Life cycle (chapter 19) -/

/-- The purpose of an open challenge (R481, R483). -/
inductive ChallengeFor | service | returning
deriving DecidableEq, Repr

/-- An open challenge: its 32-byte nonce and when it was issued. -/
structure Challenge where
  nonce : Nat
  issued : Nat
  purpose : ChallengeFor
deriving DecidableEq, Repr

/-- LCS: the fuses, the key store (a key is held as its SHA-384 digest), the service session, the lockout and the debug
access (Tables LCS-4 and LCS-5a). `nextState` is a stored transition that waits for the module reset (Table LCS-2).
`lockoutEnd` is a TB3 instant; 0 says that no lockout runs. `answer` is what the SVC port answered last. -/
structure LcsState where
  stored : LifeCycle := .blank
  pending : Bool := false
  relocks : Nat := 15
  nextState : Option LifeCycle := none
  ikey : Option Nat := none
  fkey : Option Nat := none
  service : Option Bool := none
  fails : Nat := 0
  lockoutEnd : Nat := 0
  challenge : Option Challenge := none
  applied : Bool := false
  intrusive : Bool := false
  sessions : Nat := 0
  erasing : Bool := false
  answer : Option W32 := none
deriving DecidableEq, Repr

/-! ### Update (chapter 20) -/

/-- One generation of the retentive store (R82): its bytes by global offset, and the image digest it carries. -/
structure RetGen where
  bytes : Memory := []
  image : Nat := 0
  tick : Nat := 0
deriving DecidableEq, Repr

/-- An image slot (Table UPD-3). -/
structure ImageSlot where
  valid : Bool := false
  fw : Option FwImage := none
  pgm : Option ProgramImage := none
  changes : List ChangeSet := []
  profile : Option ProfileSet := none
  saved : Option RetGen := none
deriving DecidableEq, Repr

/-- LCS/UPD's update part (Tables UPD-4 and UPD-6). `slotB` says which slot is active, `newlyApplied` that this start is the first
with a program image that the start before did not have (R500). -/
structure UpdState where
  slotB : Bool := false
  a : ImageSlot := {}
  b : ImageSlot := {}
  trial : Bool := false
  trialMin : Nat := 0
  trialLeft : Nat := 0
  trialRun : Option Nat := none
  trials : Nat := 0
  safeOnTrial : Bool := false
  fallbackAt : Option Nat := none
  fallenBack : Bool := false
  pkg : Option Package := none
  prepared : Bool := false
  prepBegun : Bool := false
  pendingBoot : Bool := false
  applying : Bool := false
  reason : Nat := 0
  secFw : Nat := 0
  secPgm : Nat := 0
  partnerPrep : Bool := false
  cardPrep : List Nat := []
  cardTrial : List Nat := []
  handover : Option Nat := none
  newlyApplied : Bool := false
deriving DecidableEq, Repr

/-! ### Power, reset and straps (chapter 21) -/

/-- PWR: Tables PWR-6 and PWR-8, and where the start has come. `safeSince` is the TB3 instant at which the safe state or
STOPPED was entered, with the restart time in force then (R520); `autoEnds` are the instants at which the counted restarts
leave the last 3,600 s. -/
structure PwrState where
  inReset : Bool := true
  pf : Bool := false
  ac : Bool := false
  hold : Bool := false
  shutdown : Bool := false
  cause : Nat := 1
  prior : Nat := 0
  step : Nat := 0
  failed : Nat := 0
  reason : Nat := 0
  startMs : Nat := 0
  strap : W32 := 0
  strapChanged : Bool := false
  strapNow : W32 := 0
  vin : Nat := 0
  bulk : Nat := 0
  temp : Int := 0
  tempMax : Int := 0
  starts : Nat := 0
  pfCount : Nat := 0
  autoEnds : List Nat := []
  safeSince : Option (Nat × Nat) := none
  resetDue : Option ResetCause := none
deriving DecidableEq, Repr

/-! ### Safety functions and field I/O (chapters 11 and 12) -/

/-- The first cause of the safe state (SAFE_CAUSE). -/
structure SafeCause where
  source : Nat := 0
  kind : Nat := 0
  cls : Nat := 0
  path : Nat := 0
deriving DecidableEq, Repr

/-- A brake test under way (R322). `phase` counts the changes made: 1 the bank switch opened, 2 closed again, 3 and 4 the
on-pulses of BK0 and BK1, 5 and 6 release and apply of BK0, 7 and 8 release and apply of BK1. -/
structure BrakeTest where
  elec : Bool
  startUp : Bool
  phase : Nat
deriving DecidableEq, Repr

/-- A brake's driven change whose feedback is awaited (R321). -/
structure BrakeWatch where
  release : Bool
  from_ : Nat
deriving DecidableEq, Repr

/-- One brake output with its readback, feedback and measured times. -/
structure Brake where
  cmd : Bool := false
  drv : Bool := false
  rb : Bool := false
  bf : Bool := false
  watch : Option BrakeWatch := none
  relMs : Nat := 0
  appMs : Nat := 0
deriving DecidableEq, Repr

/-- One input channel: DI0 to DI15, BF0 and BF1 (Table FIO-5). `edgesLatch` counts since the previous latch; `acceptedAt` is the TB3
instant of the last accepted edge, and `stampBefore` the stamp before it (R68). -/
structure DiState where
  current : Nat := 0
  edges : Nat := 0
  edgesLatch : Nat := 0
  tag : Tag := .good
  settling : Bool := false
  overvolt : Bool := false
  brk : Bool := false
  raw : Bool := false
  accepted : Bool := false
  acceptedAt : Nat := 0
  stamp : Nat := 0
  stampBefore : Nat := 0
deriving DecidableEq, Repr

/-- One DO channel (Table FIO-5). `zeroSeen` and `hot` serve the latch-off rule of R342. -/
structure DoState where
  cmd : Bool := false
  feed : Bool := false
  rb : Bool := false
  overtemp : Bool := false
  overload : Bool := false
  isOpen : Bool := false
  latched : Bool := false
  drv : Bool := false
  zeroSeen : Bool := false
  hot : Bool := false
  current : Nat := 0
  currentMax : Nat := 0
deriving DecidableEq, Repr

/-- SAFE/FIO: Tables SAF-5 and FIO-5. `openA` and `openB` are the group switches of the DO and brake banks; the `held`
fields say that a switch stays open until module reset (R330). `lastTest` is the instant of the last passed full test. `word` is the
brake word received last and `wordOut` the one sent last (R263). `groupCheck` lists the banks (true: the brakes') whose switch closed
at entry to RUN and waits for its check (R330). -/
structure SafeState where
  safe : Bool := false
  cause : SafeCause := {}
  degradeFrom : Option Nat := none
  degradeTime : Nat := 0
  openA : Bool := true
  openB : Bool := true
  heldA : Bool := false
  heldB : Bool := false
  bk0 : Brake := {}
  bk1 : Brake := {}
  word : Bool × Bool := (false, false)
  wordOut : Option (Bool × Bool) := none
  wordsMissed : Nat := 0
  stbyApply : Bool := false
  pw : Nat := 6
  pwNext : Option Nat := none
  slot : Nat := 0
  pulse : Option OutCh := none
  rounds : Nat := 0
  skipped : Nat := 0
  lastPulsed : Nat := 0
  skipRuns : NMap Nat := []
  btest : Option BrakeTest := none
  groupCheck : List Bool := []
  btestWin : ResultWindow := {}
  lastTest : Option Int := none
  due : Bool := false
  dueSaid : Bool := false
  di : NMap DiState := []
  douts : NMap DoState := []
  lpaVolt : Nat := 0
  lpbVolt : Nat := 0
  lpaLow : Bool := false
  lpbLow : Bool := false
  lpaHigh : Bool := false
  lpbHigh : Bool := false
deriving DecidableEq, Repr

/-! ### CAN channels (chapter 13) -/

/-- A frame cell: the descriptor of Table CAN-11 and the payload. `got` is the TB3 instant at which its reception ended (R68). -/
structure FrameCell where
  ext : Bool
  fd : Bool
  brs : Bool
  esi : Bool
  object : Nat
  ident : Nat
  stamp : Nat
  csn : Nat
  data : List Byte
  got : Nat := 0
deriving DecidableEq, Repr

/-- A filter entry (Table CAN-4), with its count of matches. -/
structure FilterEntry where
  kind : Nat
  ext : Bool
  format : Nat
  dest : Nat
  buffer : Nat
  object : Nat
  a : Nat
  b : Nat
  hits : Nat
deriving DecidableEq, Repr

/-- Why the frame on the bus is not chosen again (R363, R364, R368). -/
inductive Withdrawn | no | cancelled | superseded | moved
deriving DecidableEq, Repr

/-- The frame on the bus: its place (buffer 0 to 31, 32 the transmit queue, 33 the reference message). -/
structure Sending where
  place : Nat
  cell : FrameCell
  withdrawn : Withdrawn := .no
deriving DecidableEq, Repr

/-- A cancel that waits for the end of a frame (R364). -/
structure CancelWait where
  object : Nat
  frames : Nat
deriving DecidableEq, Repr

/-- A reference message that a channel received or sent last (R371); `epoch` is TB2's epoch when an own one was sent. -/
structure RefSeen where
  cycle : Nat
  tb2 : Nat
  at_ : Nat
  epoch : Nat := 0
deriving DecidableEq, Repr

/-- A banked fetch of a record or entry: the result window and its words. -/
structure Fetch where
  sel : Nat := 0
  result : ResultWindow := {}
  busy : Bool := false
  words : List W32 := []
deriving DecidableEq, Repr

/-- One CAN channel: Tables CAN-7 and CAN-8 and the message RAM. `state` codes CANn_STATUS.STATE. -/
structure CanState where
  state : Nat := 0
  tec : Nat := 0
  rec_ : Nat := 0
  recov : Nat := 0
  lec : Nat := 0
  dlec : Nat := 0
  act : Nat := 0
  loopDly : Nat := 0
  busoff : Nat := 0
  passive : Nat := 0
  pexc : Nat := 0
  recovered : Nat := 0
  txBufs : NMap (List FrameCell) := []
  txQueue : List FrameCell := []
  sending : Option Sending := none
  superseded : Nat := 0
  undelivered : Nat := 0
  replaced : Nat := 0
  txOk : Nat := 0
  cancelled : Nat := 0
  late : Nat := 0
  cancel : Option CancelWait := none
  cres : ResultWindow := {}
  rxBufs : NMap (List FrameCell) := []
  queueS : List FrameCell := []
  queueN : List FrameCell := []
  rxOk : Nat := 0
  overrun : Nat := 0
  badLen : Nat := 0
  noMatch : Nat := 0
  remote : Nat := 0
  queueOvf : Nat := 0
  filter : List FilterEntry := []
  ramUsed : Nat := 0
  fetch : NMap Fetch := []
  cfgHeld : Option W32 := none
  marked : List Nat := []
  tmState : Nat := 0
  tmMaster : Nat := 0
  tmCycle : Nat := 0
  tmChanges : Nat := 0
  tmMissed : Nat := 0
  tmOfs : Int := 0
  tmSof : Nat := 0
  tmLast : Option RefSeen := none
  tmSent : Option RefSeen := none
  tmFirst : Bool := true
  tmHeard : Nat := 0
  refDue : Option FrameCell := none
deriving DecidableEq, Repr

/-! ### Network and serial ports (chapter 14) -/

/-- A node directory entry (R387). -/
structure DirEntry where
  ip : Nat
  consist : Nat
  vehicle : Nat
  station : Nat
  learned : Bool
  label : Nat
deriving DecidableEq, Repr

/-- One Ethernet port. `txq` holds the frames queued for the line: 0 stands for a gratuitous ARP announcement, k + 1 for
telegram slot k. -/
structure EthState where
  link : Bool := false
  speed : Nat := 0
  ptp : Nat := 0
  path : Nat := 0
  measured : Option Nat := none
  lastSync : Nat := 0
  accepted : Nat := 0
  fcs : Nat := 0
  rejected : Nat := 0
  skipped : Nat := 0
  undel : Nat := 0
  txq : List Nat := []
deriving DecidableEq, Repr

/-- A telegram that a slot received: the header fields that R385 uses, the TB3 instant of its reception, and the data that the slot held
before (R68). -/
structure TelegramSeen where
  seq : Nat
  tick : Nat
  data : List Byte
  at_ : Nat
  before : Option (List Byte) := none
deriving DecidableEq, Repr

/-- A published telegram as built (R384). -/
structure TelegramSent where
  slot : Nat
  seq : Nat
  etb : Nat
  optrn : Nat
  data : List Byte
deriving DecidableEq, Repr

/-- A poll of a serial port's list: its object, and the attempts left. -/
structure PollItem where
  object : Nat
  retries : Nat
deriving DecidableEq, Repr

/-- One serial port; the head of `polls` is the exchange in progress while `running`; `rx` is the receive staging by
object, each response with the TB3 instant of its end, `marked` the objects that lost a response to a full ring. -/
structure SerState where
  active : Bool := false
  running : Bool := false
  polls : List PollItem := []
  next : List PollItem := []
  overruns : Nat := 0
  listUs : Nat := 0
  listStart : Nat := 0
  rx : NMap (List (Nat × List Byte)) := []
  marked : List Nat := []
  okCount : Nat := 0
  timeouts : Nat := 0
  errors : Nat := 0
deriving DecidableEq, Repr

/-- NET and its members (Tables NET-4 and NET-5). -/
structure NetState where
  eth : NMap EthState := []
  ser : NMap SerState := []
  svcLink : Bool := false
  svcSessions : Nat := 0
  inaug : Bool := false
  etbTopo : Nat := 0
  opTrnTopo : Nat := 0
  dir : List DirEntry := []
  inaugDue : Option Inauguration := none
  fetch : NMap Fetch := []
  slots : NMap TelegramSeen := []
  sent : NMap TelegramSent := []
deriving DecidableEq, Repr

/-! ### Hollyhock backplane and bridge (chapter 16) -/

/-- A card slot: the record last read, whether its CRC checked, presence, loss, and the latches without an input image;
`placed` is TYPE and the capability bytes in the unit-tree input of the map set in force (R433); `imageAt` is the TB3 instant at which
the image arrived, `imageBefore` the one before it and `newBefore` whether that one had come since the last latch (R68). -/
structure CardState where
  record : List Byte := []
  valid : Bool := false
  present : Bool := false
  lost : Bool := false
  line : Bool := false
  misses : Nat := 0
  image : List Byte := []
  imageNew : Bool := false
  imageAt : Nat := 0
  imageBefore : List Byte := []
  newBefore : Bool := false
  inUnit : Bool := false
  placed : List Byte := []
  mailbox : Memory := []
deriving DecidableEq, Repr

/-- Who opened a near-side transaction (R422): a context of the program, a register write that comes as a command of its own, the bridge
itself, or an update. -/
inductive NearBy | program (l : Lane) (k : CtxKind) | writer | bridge | update
deriving DecidableEq, Repr

/-- A near-side transaction in the request queue. -/
structure NearReq where
  addr : Nat
  write : Option W32
  by_ : NearBy
deriving DecidableEq, Repr

/-- A prefetch entry (R428, R429): the block, its bytes, the words marked SIDE and those consumed. -/
structure Prefetch where
  block : Nat
  data : List W32
  side : Nat
  consumed : Nat
  slot : Nat
deriving DecidableEq, Repr

/-- One Hollyhock link. -/
structure LinkState where
  up : Bool := false
  repeats : Nat := 0
  crc : Nat := 0
  locked : Bool := false
deriving DecidableEq, Repr

/-- A record read that RESCAN or a presence line started (R435, R438): the slots to come and the records read so far. -/
structure RescanRun where
  slots : List Nat
  ok : Nat
deriving DecidableEq, Repr

/-- HLK (Tables HLK-7 and HLK-8). `claims` holds by slot the claim number that was sent to the card last (R253). -/
structure HlkState where
  links : NMap LinkState := []
  cards : NMap CardState := []
  backplane : List Byte := []
  bpOk : Bool := false
  rescan : Option RescanRun := none
  queue : List NearReq := []
  heldRead : Option NearReq := none
  posted : List NearReq := []
  outMax : Nat := 0
  retry : Nat := 0
  lockTo : Nat := 0
  readTo : Nat := 0
  prefetch : List Prefetch := []
  pfAddr : Nat := 0
  pfCount : Nat := 0
  pfSlot : Nat := 0
  fetch : NMap Fetch := []
  lockedSlot : Option Nat := none
  claims : NMap W16 := []
deriving DecidableEq, Repr

/-! ### Lanes (chapters 04 to 06 and 08) -/

/-- An effect record (R217): the fields that the comparators see, the context that issued it, and what an exception report
carries beside them (R124). `at_` is the TB3 instant at which the record reached the voter; it orders the effects of SPLIT (R223). -/
structure EffectRec where
  kind : Nat
  size : Nat
  last : Bool
  safety : Bool
  tag : Tag
  addr : Nat
  beats : List Nat
  ctx : CtxKind
  info : Option ExcInfo := none
  at_ : Nat := 0
deriving DecidableEq, Repr

/-- What a context waits for (R131): a URD with what the read gave, a FENCE, a TWAIT until a TB3 instant (`over` when the
target lies at or after the guard start), the rest of an emission, the vote on its exception event, or the vote on a write to a
composite unit (R115, log entry 36). -/
inductive Wait
  | none
  | urd (rd : Nat) (addr : Nat) (got : Option (Nat × Bool))
  | fence
  | twait (target : Nat)
  | emit
  | exception
  | composite
deriving DecidableEq, Repr

/-- An outstanding bulk-store load (R132), with the value it will deliver. -/
structure BulkLoad where
  rd : Nat
  value : W64
deriving DecidableEq, Repr

/-- An MSEND whose message waits for the context's next emission (R158). -/
structure SentMsg where
  object : Nat
  data : List Byte
  tag : Tag
deriving DecidableEq, Repr

/-- One execution context of a lane (R94): the registers of Table PGM-1, the running top-level instance and those to come in
map order, the input buffer it reads, and the output buffer of the running task. `opened` counts the safety windows that have
opened and whose instances have not started. `outTags` holds the tag of the last store to each declared value, by offset.
`share` numbers the context's share of the stack region (log entry 10), and `ending` says that the emission in progress ends the
task. `count` counts the instructions that the context has begun; by it the later lanes of the voted set stop where the leading lane
stopped (R134). -/
structure LaneCtx where
  busy : Bool := false
  gs : Vector W64 32 := Vector.replicate 32 0
  pc : W32 := 0
  ib : W16 := 0
  sp : W32 := 0
  tk : W64 := 0
  cf : Byte := 0
  qf : Byte := 0
  depth : Nat := 0
  task : Nat := 0xFFFF
  inst : Nat := 0
  todo : List (Nat × Nat) := []
  opened : Nat := 0
  buf : Nat := 0
  time : Nat := 0
  out : NMap Byte := []
  outTags : NMap Tag := []
  sends : NMap Nat := []
  msgs : List SentMsg := []
  uwrErr : Bool := false
  wait : Wait := .none
  loads : List BulkLoad := []
  yielded : Bool := false
  began : Nat := 0
  share : Nat := 0
  ending : Bool := false
  count : Nat := 0
deriving DecidableEq, Repr

/-- The messages of an RX object in an input buffer and the status bits that MSTAT reads (R156, R159). -/
structure MsgArea where
  msgs : List (List Byte × Tag) := []
  overrun : Bool := false
  rerouted : Bool := false
  undelivered : Bool := false
deriving DecidableEq, Repr

/-- An input buffer (R67): the boundary that latched it, its tick-consistent time, its bytes, the tags of its declared values by
offset, and its message areas by object. -/
structure InBuf where
  n : Nat := 0
  time : Nat := 0
  bytes : Memory := []
  tags : NMap Tag := []
  areas : NMap MsgArea := []
deriving DecidableEq, Repr

/-- One lane. `mem` holds the near-store placement area at 0, the lane-store placement area at 0x100_0000 and the stack region
at 0x200_0000 (log entry 10); `tracked` are the 64-byte lines of it that the digest covers (R231); `spill` is the rest of an
emission that waits for room in the effect queue (R133). `stops` are the suspensions that the leading lane has made and this lane has
still to make: the number of instructions at which each falls, and the safety instance that it gives way to, none for the guard (R134). -/
structure LaneSt where
  role : LaneRole := .voting
  bist : Bool := false
  current : Option CtxKind := none
  safety : LaneCtx := {}
  timed : LaneCtx := {}
  skip : LaneCtx := {}
  free : LaneCtx := {}
  mem : Memory := []
  tracked : List Nat := []
  in0 : InBuf := {}
  in1 : InBuf := {}
  in2 : InBuf := {}
  queue : List EffectRec := []
  spill : List EffectRec := []
  excl : Nat := 0
  latent : Nat := 0
  stops : List (Nat × Option Nat) := []
  dis : Nat := 0
  corrected : Nat := 0
  uncorrected : Nat := 0
deriving DecidableEq, Repr

/-! ### The voter (chapter 08) -/

/-- A mode change that takes effect at step 1 of the next boundary (R235). -/
inductive ModeChange
  | exclude (l : Lane)
  | split
  | merge (warm : Bool)
deriving DecidableEq, Repr

/-- A rejoin or resync (R234, R239): due and waiting for its tokens, or copying since a tick. -/
structure Rejoin where
  lane : Lane
  resync : Bool
  commanded : Bool
  since : Option Nat := none
  copying : Bool := false
  recopy : Bool := false
  kibLeft : Nat := 0
  ready : Bool := false
  pages : List Nat := []
deriving DecidableEq, Repr

/-- A single-sourced read that later lanes of the voted set still take from the replay buffer (R16, R215): the context that reads, and
a control-space address, or the key and length of a load from the bulk store. The value of a load is what the first lane received. -/
structure Replay where
  ctx : CtxKind
  len : Nat := 0
  addr : Nat
  value : Nat
  ok : Bool
  left : List Lane
deriving DecidableEq, Repr

/-- A passed output-image value or message of an emission group. -/
structure OutWrite where
  prog : Nat
  msg : Bool
  key : Nat
  data : List Byte
  tag : Tag
  csn : Nat
deriving DecidableEq, Repr

/-- An emission group (R160): the stream it belongs to, what has passed, and the CSN of its last effect once it is whole. -/
structure EmitGroup where
  prog : Nat
  ctx : CtxKind
  writes : List OutWrite
  done : Option Nat
deriving DecidableEq, Repr

/-- LANE/VOTER: Tables VOTE-8 and VOTE-9, the replay buffer, output staging and the timer translation of R169. `halted` says
that nothing passes any more after NO_MAJORITY, VOTER_SELF or DIGEST_SPLIT (R221). -/
structure VoterState where
  mode : LaneMode := .triple
  out : Option Lane := none
  planned : Bool := false
  degraded : Bool := false
  change : Option ModeChange := none
  fenced : List Lane := []
  latentDue : List Lane := []
  csn : Nat := 0
  mark : Nat := 0
  disLane : Option Lane := none
  disHow : Nat := 0
  disKind : Nat := 0
  disPos : Nat := 0
  disAddr : Nat := 0
  digest : W64 := 0
  rejoin : Option Rejoin := none
  fox : ResultWindow := {}
  foxRun : Bool := false
  foxDue : Bool := false
  qmax : Nat := 0
  pos : Nat := 0
  replay : List Replay := []
  groups : List EmitGroup := []
  halted : Bool := false
  gen : Nat := 1
  xlate : Option Int := none
deriving DecidableEq, Repr

/-! ### The placement engine (chapter 07) -/

/-- An instance record (Table PLACE-9): position and window start by tick pattern, for the patterns in which its task
activates. -/
structure InstRec where
  index : Nat
  task : Nat
  tier : Tier
  safety : Bool
  noTask : Bool
  first : Nat
  at_ : NMap (Nat × Nat)
  win : Nat
  off : Nat
deriving DecidableEq, Repr

/-- An item record (Table PLACE-9). -/
structure ItemRec where
  index : Nat
  space : Space
  tier : Option Tier
  offset : Nat
  size : Nat
  off : Nat
deriving DecidableEq, Repr

/-- A route record. -/
structure RouteRec where
  index : Nat
  port : Option Port
  slot : Option (Fin 32)
  buffer : Nat
  cand : Option Nat
deriving DecidableEq, Repr

/-- A placement map (R181) of Table PLACE-7. `laneSet` is the code of Table PLACE-15; digests are byte lists; `staging` says that the map
holds the copy-staging area of the bulk store (Table PLACE-2). -/
structure PMap where
  index : Nat
  laneSet : Nat
  loss : W32
  lossCard : W32
  period : Nat
  total : Nat
  insts : List InstRec
  items : List ItemRec
  phases : NMap Nat
  routes : List RouteRec
  digest : List Byte
  inDigest : List Byte
  staging : Bool := true
deriving DecidableEq, Repr

/-- What the engine computes a map from, beside the program (Table PLACE-1): algorithm revision, image digest, adopted profile, the
unit-tree bytes of Table PLACE-15, PERIOD, the slots that hold a card, and the speed of each Ethernet port in Mbit/s (R383). -/
structure PlaceInput where
  alg : Nat
  image : Nat
  profile : Option ProfileSet
  units : List Byte
  period : Nat
  cards : List (Fin 32)
  expected : List (Nat × Nat)
  speeds : List Nat := []
deriving DecidableEq, Repr

/-- A REBALANCE under way (R207): the set it computed once that is done, from which inputs, the tick at the end of step 2, whether the
standby has computed the same set, and the boundary announced for the switch in a pair, 0 before that. -/
structure Rebalance where
  input : Option PlaceInput := none
  peerOk : Bool := false
  set : List PMap := []
  setDigest : List Byte := []
  since : Option Nat := none
  moved : Bool := false
  adopted : Bool := false
  at_ : Nat := 0
deriving DecidableEq, Repr

/-- PLACE: Tables PLACE-8 and PLACE-10. `lost` is what is reported lost now; `returning` counts the healthy boundaries of each
returning resource (R204); `inForce` are the losses in force; `combinedAt` is when the computation of
a combined loss's map began; `splitMaps` are SPLIT maps of a combined loss, and `next` and
`nextSplit` the maps of a combined loss that wait for the next boundary. `loaded` is the set that a restart computed (R206), with its
inputs; `input` are the inputs of the set in force (R180), and `copyLost` is the loss set of the last state copy applied (R205). -/
structure PlaceState where
  set : List PMap := []
  input : Option PlaceInput := none
  setDigest : List Byte := []
  map : Option PMap := none
  lost : List Resource := []
  inForce : List Resource := []
  returning : List (Resource × Nat) := []
  returnNow : List Resource := []
  combined : Bool := false
  combinedAt : Nat := 0
  next : Option PMap := none
  splitMaps : List PMap := []
  nextSplit : List PMap := []
  computing : Bool := false
  migrating : Bool := false
  adopted : Bool := false
  us : Nat := 0
  overLast : Nat := 0
  overCount : Nat := 0
  fetch : NMap Fetch := []
  capturing : Option Nat := none
  captured : Option ProfileSet := none
  ticks : Nat := 0
  rebalance : Option Rebalance := none
  loaded : Option (PlaceInput × List PMap) := none
  copyLost : List Resource := []
deriving DecidableEq, Repr

/-! ### Module pairs (chapter 09) -/

/-- A copy sent and not yet acknowledged (R262). -/
structure SentCopy where
  tick : Nat
  kib : Nat
  started : Nat
deriving DecidableEq, Repr

/-- A remote station (R270 to R272); `unrouted` says that its route has been lost since it was last present. -/
structure StationSt where
  present : Bool := true
  tag : Tag := .good
  waitFresh : Bool := false
  undelivered : Bool := false
  missed : Nat := 0
  held : List (Nat × Tagged) := []
  fresh : Bool := false
  unrouted : Bool := false
deriving DecidableEq, Repr

/-- PAIR: Tables PAIR-5 and PAIR-6. `seizeLeft` counts the boundaries with ROLE SEIZE still to come (R266); `missing` counts
consecutive missing copies; `takeover` is a confirmed cause; `peerUp` says that beacons arrive; `copied` that a copy has been applied
after the full copy; `heard` is the partner's identity while its resync waits for tokens; `beacon` the beacon of the last boundary;
`bytesOut` counts what the next copy carries beside its pages; `times` holds the tick-consistent times of the last boundaries;
`dirtyBulk` lists the pages dirtied since the last copy began and `dirtyOld` those of the copy under way. -/
structure PairPart where
  role : Role := .none
  state : PairState := .alone
  link0 : Bool := false
  link1 : Bool := false
  deposed : Bool := false
  seizeLeft : Nat := 0
  revertDue : Bool := false
  peerRevertDue : Bool := false
  handover : Nat := 0
  finalSent : Bool := false
  coalescing : Bool := false
  missing : Nat := 0
  coalesced : Nat := 0
  own : W16 := 0
  peer : W16 := 0
  peerUp : Bool := false
  peerState : Nat := 0
  sync : ResultWindow := {}
  format : Nat := 0
  copyMax : Nat := 0
  copyLast : Nat := 0
  usMax : Nat := 0
  usLast : Nat := 0
  takeovers : Nat := 0
  missCount : Nat := 0
  coalCount : Nat := 0
  lostCount : Nat := 0
  applied : Nat := 0
  revertSec : Nat := 0
  revertTicks : Nat := 0
  takeover : Bool := false
  resyncDue : Bool := false
  syncing : Bool := false
  higher : Nat := 0
  sent : Option SentCopy := none
  dirtyOld : List Nat := []
  dirtyBulk : List Nat := []
  copied : Bool := false
  times : NMap Nat := []
  follow : Option (Nat × Nat) := none
  stations : NMap StationSt := []
  heard : Option PeerIdentity := none
  beacon : Option Beacon := none
  bytesOut : Nat := 0
  testAge : Option Nat := none
deriving DecidableEq, Repr

/-! ### The whole machine -/

/-- The program in place: its image, the committed output values, the change sets recorded and those that wait for the next boundary
(R118), the two retentive generations and the emission into the inactive one (R82); `retMore` says that a tick's emission was not its
last. -/
structure ProgState where
  image : Option ProgramImage := none
  outs : NMap Tagged := []
  changes : List ChangeSet := []
  txUndelivered : List Nat := []
  firstTick : Bool := false
  retA : RetGen := {}
  retB : RetGen := {}
  retValid : Option Bool := none
  retLeft : Nat := 0
  retDone : Bool := false
  retMore : Bool := false
  changesDue : List ChangeSet := []
deriving DecidableEq, Repr

/-- Why a step can stop without a next state. No command of this block does: every constructor of `Instr` answers a next state
(log entry 1). -/
inductive Fault
  /-- Raised by no command; the interface asks for a type. Safe. -/
  | none
deriving DecidableEq, Repr

/-- Why a command has no meaning. -/
inductive Refusal
  /-- Raised by an arm of `exec` for a command without a meaning, by the name of its row; safe, since nothing follows. -/
  | notModelled (mnemonic : String)
deriving DecidableEq, Repr

/-- The machine. `pending` is the queue of waiting commands, first in, first out; `freeCount` numbers the open choices made so
far (log entry 6); `bulk` is the bulk store by program and reference (log entry 4). -/
structure State where
  pending : List Instr := []
  freeCount : Nat := 0
  regs : NMap W32 := []
  regsPending : NMap W32 := []
  ucbs : NMap Ucb := []
  flt : FltState := {}
  evr : EvrState := {}
  tick : TickState := {}
  time : TimeState := {}
  clk : ClkState := {}
  lcs : LcsState := {}
  upd : UpdState := {}
  pwr : PwrState := {}
  safe : SafeState := {}
  cans : NMap CanState := []
  net : NetState := {}
  hlk : HlkState := {}
  laneA : LaneSt := {}
  laneB : LaneSt := {}
  laneC : LaneSt := {}
  voter : VoterState := {}
  place : PlaceState := {}
  pair : PairPart := {}
  prog : ProgState := {}
  bulk : Memory := []
deriving DecidableEq, Repr

/-- The module right after power-on reset, before reset release: every register at the value the manual states, image slots
blank, no image, every output in its harmless state, the queue empty. Values the manual does not state are those of log
entry 5. -/
def State.reset : State := {}

end Sys2Proof.Machine
end

