-- ==== Sys2Proof/Machine/Regs.lean ====
section
/-! DEFINITION. The registers of every unit (Tables UNIT-8, TICK-5, PLACE-8, VOTE-8, VOTE-10, PAIR-5, FLT-11, SAF-4, FIO-4, CAN-7,
NET-4, TIME-4, HLK-7, CLK-6, CLK-7, EVR-4, LCS-4, UPD-4 and PWR-6): offset, repetition, the bits of each access type and the reset
value of what can be written. -/

namespace Sys2Proof.Machine

open Sys2Proof

/-- A row of a register table: `count` registers from `off` at `stride`; `rw`, `rws` and `wo` mask the bits of that access type
(Table SCO-4), all others being read-only or reserved (R10); `ro` masks read-only fields of a register that also holds settings. -/
structure RegDef where
  off : Nat
  count : Nat := 1
  stride : Nat := 4
  rw : W32 := 0
  rws : W32 := 0
  wo : W32 := 0
  ro : W32 := 0
  reset : W32 := 0
deriving DecidableEq, Repr

def roReg (off : Nat) : RegDef := { off }
def roRegs (off count stride : Nat) : RegDef := { off, count, stride }
def rwReg (off : Nat) (mask reset : W32) : RegDef := { off, rw := mask, reset }
def rwsReg (off : Nat) (mask reset : W32) : RegDef := { off, rws := mask, reset }
def rwsRegs (off count stride : Nat) (mask reset : W32) : RegDef := { off, count, stride, rws := mask, reset }

/-- Table UNIT-8. -/
def sysRegs : List RegDef := [roRegs 0x100 3 4, rwReg 0x110 0xFFFF 0, roRegs 0x114 4 4]

/-- Table TICK-5. -/
def tickRegs : List RegDef :=
  [roReg 0x100, rwReg 0x104 0x800001FF 0, rwsReg 0x108 0xFFFFFFFF 0, roRegs 0x10C 9 4, rwReg 0x130 0xFF 0,
    roRegs 0x134 3 4]

/-- Table PLACE-8. -/
def placeRegs : List RegDef :=
  [roRegs 0x100 2 4, rwsReg 0x108 0xFFFF 0x3E8, roRegs 0x10C 3 4, rwReg 0x118 0xFFFFFFFF 0, roRegs 0x11C 5 4,
    roRegs 0x130 2 4, roRegs 0x140 24 4]

/-- Table VOTE-8. -/
def voterRegs : List RegDef := [roReg 0x100, rwsReg 0x104 0x10F 0x103, roRegs 0x108 12 4]

/-- Table VOTE-10. -/
def laneRegs : List RegDef := [roRegs 0x100 3 4]

/-- Table PAIR-5. -/
def pairRegs : List RegDef :=
  [roReg 0x100, rwsReg 0x104 0xF0FFF 0x4003C, roRegs 0x108 10 4, rwReg 0x130 0xFFF 0, roReg 0x134]

/-- Table FLT-10: the reset value of FLT_CLASSn. -/
def classReset : Nat → W32
  | 0 | 2 | 7 => 0x14000048
  | 5 => 0x140000D9
  | 6 | 15 => 0x1400016D
  | 8 | 9 | 10 => 0x14000049
  | 11 | 12 => 0x28000111
  | 13 => 0x14000151
  | _ => 0x14000149

/-- Table FLT-11. -/
def fltRegs : List RegDef :=
  [roRegs 0x100 2 4, rwsReg 0x108 0xFFFF00FF 0x27100000, rwReg 0x10C 0xFFFF 0, rwsReg 0x110 0xFFFF80FF 0, roReg 0x114,
    rwsRegs 0x120 16 4 0xFF0001FF 0, rwReg 0x180 0xF 0, roRegs 0x184 6 4, roRegs 0x1A0 2 4]

/-- Tables SAF-4 and FIO-4. -/
def safeRegs : List RegDef :=
  [roRegs 0x100 2 4, rwsReg 0x108 0x3FFFF 0x7080, roRegs 0x10C 2 4, rwsReg 0x114 0x7 0, rwsReg 0x118 0x0FFF0FFF 0x012C01F4,
    roRegs 0x11C 6 4, rwsReg 0x134 0xFF 0x18,
    rwsRegs 0x200 16 0x10 0x00FF0003 0x001E0000, rwsRegs 0x300 2 0x10 0x00FF0002 0x001E0000, roRegs 0x204 18 0x10, roRegs 0x208 18 0x10, roRegs 0x20C 18 0x10,
    rwsRegs 0x400 8 0x10 0x1 0, roRegs 0x404 8 0x10, roRegs 0x408 8 0x10, rwsRegs 0x500 4 4 0x3 0, roReg 0x510]

/-- Table CAN-7. -/
def canRegs : List RegDef :=
  [rwsReg 0x100 0x313 0x100, rwsReg 0x104 0xFFFFFF7F 0x009F0F0F, rwsReg 0x108 0x1F1F1F0F 0x001E0707,
    { off := 0x10C, rws := 0x807F0000, ro := 0x7F }, roRegs 0x110 6 4, { off := 0x128, wo := 0xFFFFFFFF }, roRegs 0x12C 4 4,
    rwReg 0x13C 0x3FF 0, roRegs 0x140 4 4, rwsReg 0x150 0xFFFFFF73 0, rwsReg 0x154 0x9FFFFFFF 0, roRegs 0x158 6 4]

/-- Table NET-4, NET. -/
def netRegs : List RegDef := [roRegs 0x100 3 4, rwReg 0x10C 0x3FFF 0, roRegs 0x110 5 4]

/-- Table NET-4, ETHx. -/
def ethRegs : List RegDef :=
  [rwsReg 0x100 0x313 0x10, rwsReg 0x104 0xFF00FF03 0x8000, rwsReg 0x108 0xFFFF 0, roRegs 0x10C 4 4]

/-- Table NET-4, SERx. -/
def serRegs : List RegDef :=
  [rwsReg 0x100 0xFFFF00F0 0x00C80010, rwsReg 0x104 0xFFFFFF03 0x00640400, roRegs 0x108 2 4]

/-- Table NET-4, SVC. -/
def svcRegs : List RegDef := [roRegs 0x100 2 4]

/-- Table TIME-4. -/
def timeRegs : List RegDef :=
  [rwReg 0x100 0x7 0, roRegs 0x104 5 4, rwReg 0x120 0xFFFFFFFF 0, rwReg 0x124 0xFFFF 0, rwReg 0x128 0xFFFFFFFF 0,
    rwsReg 0x130 0x13 0,
    rwsRegs 0x200 5 0x20 0xFFFFF1FF 0x002580C8, roRegs 0x204 5 0x20, roRegs 0x208 5 0x20, roRegs 0x20C 5 0x20,
    roRegs 0x210 5 0x20,
    rwsRegs 0x300 2 0x20 0xC0000007 0, rwsRegs 0x304 2 0x20 0xFFFFFFFF 0, rwsRegs 0x308 2 0x20 0xFFFF 0,
    rwsRegs 0x30C 2 0x20 0xFFFFFFFF 0, rwsRegs 0x310 2 0x20 0xFFFFFFFF 0x3B9ACA00,
    rwsRegs 0x314 2 0x20 0xFFFFFFFF 0x05F5E100, roRegs 0x318 2 0x20,
    rwsRegs 0x400 4 0x10 0x80000337 0, roRegs 0x404 4 0x10, roRegs 0x408 4 0x10, roRegs 0x40C 4 0x10]

/-- Table HLK-7. -/
def hlkRegs : List RegDef :=
  [roReg 0x100, rwsReg 0x104 0xF 0x3, roRegs 0x108 6 4, rwReg 0x120 0x3F3F 0, roRegs 0x124 2 4,
    rwsRegs 0x200 32 4 0x1FFFF 0]

/-- Table CLK-7 and the 7100 mirror of Table CLK-6; CLK_REF, CLK_OUT and C71_CLKOUT have a reset value that depends on
the CLK_COMPAT strap. -/
def clkRegs (compat : Bool) : List RegDef :=
  [roReg 0x100, rwsReg 0x104 0x00FF010F (if compat then 0x00640000 else 0x00640100), rwsReg 0x108 0xFFFF 0,
    rwsReg 0x10C 0xFFFF000F (if compat then 4 else 0), roRegs 0x110 5 4, roRegs 0x140 4 4, rwsReg 0x150 0xFFFF 0,
    roRegs 0x800 7 4]

/-- Table EVR-4. -/
def evrRegs : List RegDef :=
  [roRegs 0x100 4 4, rwReg 0x110 0xFFFFFFFF 0, rwReg 0x114 0xFFFF 0, rwReg 0x118 0xFFFF 0, rwsReg 0x11C 0x00FFFFFF 0x00100064,
    roReg 0x120, roRegs 0x140 16 4]

/-- Tables LCS-4 and UPD-4. -/
def lcsRegs : List RegDef :=
  [roRegs 0x100 5 4, rwsReg 0x114 0x3 0x3, roReg 0x200, rwsReg 0x204 0x7FF 0xA, roRegs 0x208 9 4, roRegs 0x240 8 4]

/-- Table PWR-6. -/
def pwrRegs : List RegDef := [roRegs 0x100 7 4, rwsReg 0x11C 0xFFFF 0, roReg 0x120]

/-- The registers of a unit. Cards, the pair unit, the partner proxy and composite blocks present none of their own here. -/
def regsOf (compat : Bool) : UnitId → List RegDef
  | .sys => sysRegs | .tick => tickRegs | .place => placeRegs | .voter => voterRegs | .lane _ => laneRegs
  | .pair => pairRegs | .flt => fltRegs | .safe => safeRegs | .can _ => canRegs | .net => netRegs | .eth _ => ethRegs
  | .ser _ => serRegs | .svc => svcRegs | .time => timeRegs | .hlk => hlkRegs | .link _ => [roRegs 0x100 2 4] | .clk => clkRegs compat
  | .evr => evrRegs | .lcs => lcsRegs | .pwr => pwrRegs
  | .card _ _ | .pairUnit | .partner | .composite _ => []

/-- A register definition covers an offset. -/
def RegDef.covers (d : RegDef) (off : Nat) : Bool :=
  d.off ≤ off && (off - d.off) % d.stride == 0 && (off - d.off) / d.stride < d.count

/-- The definition of the register at an offset of a unit's window. -/
def findReg (compat : Bool) (u : UnitId) (off : Nat) : Option RegDef := (regsOf compat u).find? fun d => d.covers off

/-- Where a setting stands in `regs`: the register's address, and the object for a register that is kept per bank, per source
handle or per record code. -/
def regKey (addr obj : Nat) : Nat := addr * 0x100000 + obj

end Sys2Proof.Machine
end

