-- ==== Sys2Proof/Machine/Ops.lean ====
section
/-! DEFINITION. The operations that every unit shares: unit control blocks, settings, the offer of a record, the sending of a
fault message, maintenance tokens, and entry to the safe state. -/

namespace Sys2Proof.Machine

open Sys2Proof

abbrev Out := Host.Outcome State Fault Refusal

/-! ### Lanes, programs and places in the state -/

def State.lane (s : State) : Lane → LaneSt
  | .a => s.laneA | .b => s.laneB | .c => s.laneC

def State.setLane (s : State) (l : Lane) (x : LaneSt) : State :=
  match l with
  | .a => { s with laneA := x } | .b => { s with laneB := x } | .c => { s with laneC := x }

def LaneSt.ctx (x : LaneSt) : CtxKind → LaneCtx
  | .safety => x.safety | .timed => x.timed | .skip => x.skip | .free => x.free

def LaneSt.setCtx (x : LaneSt) (k : CtxKind) (c : LaneCtx) : LaneSt :=
  match k with
  | .safety => { x with safety := c } | .timed => { x with timed := c } | .skip => { x with skip := c }
  | .free => { x with free := c }

/-- A change made to every lane. -/
def State.mapLanes (s : State) (f : Lane → LaneSt → LaneSt) : State :=
  { s with laneA := f .a s.laneA, laneB := f .b s.laneB, laneC := f .c s.laneC }

/-- The lanes that take part in the vote, lowest-lettered first. -/
def voteSet (s : State) : List Lane := Lane.all.filter fun l => (s.lane l).role = .voting

/-- The lanes that execute code: the voted set, or all three in SPLIT. -/
def runSet (s : State) : List Lane := Lane.all.filter fun l => (s.lane l).role = .voting || (s.lane l).role = .split

def emptyProgram : Program := {}

/-- The image's main program. -/
def mainProg (s : State) : Program := (s.prog.image.map (·.main)).getD emptyProgram

/-- The SPLIT program of a lane (R237). -/
def splitProg (s : State) (l : Lane) : Program :=
  match s.prog.image.bind (·.split) with
  | some (a, b, c) => match l with | .a => a | .b => b | .c => c
  | none => emptyProgram

/-- The program that a lane runs. -/
def laneProg (s : State) (l : Lane) : Program := if s.voter.mode = .split then splitProg s l else mainProg s

/-- Which program's spaces a lane uses: 0 for the main program, 1 to 3 for the SPLIT programs (R103). -/
def progNo (s : State) (l : Lane) : Nat := if s.voter.mode = .split then 1 + l.idx else 0

/-- The program of a number. -/
def progOf (s : State) : Nat → Program
  | 1 => splitProg s .a | 2 => splitProg s .b | 3 => splitProg s .c | _ => mainProg s

/-- The programs that run: the main program, or the three SPLIT programs. -/
def progsInForce (s : State) : List Nat := if s.voter.mode = .split then [1, 2, 3] else [0]

/-- The key of an offset of a program's space in a map over all programs. -/
def progKey (p off : Nat) : Nat := p * 0x100000000 + off

/-- The CAN channel n. -/
def State.can (s : State) (n : Fin 6) : CanState := mapGetD s.cans n {}

def State.setCan (s : State) (n : Fin 6) (c : CanState) : State := { s with cans := mapPut n c s.cans }

def State.eth (s : State) (x : Fin 4) : EthState := mapGetD s.net.eth x {}

def State.setEth (s : State) (x : Fin 4) (e : EthState) : State :=
  { s with net := { s.net with eth := mapPut x e s.net.eth } }

def State.ser (s : State) (x : Fin 4) : SerState := mapGetD s.net.ser x {}

def State.setSer (s : State) (x : Fin 4) (e : SerState) : State :=
  { s with net := { s.net with ser := mapPut x e s.net.ser } }

def State.card (s : State) (slot : Nat) : CardState := mapGetD s.hlk.cards slot {}

def State.setCard (s : State) (slot : Nat) (c : CardState) : State :=
  { s with hlk := { s.hlk with cards := mapPut slot c s.hlk.cards } }

def State.link (s : State) (n : Nat) : LinkState := mapGetD s.hlk.links n {}

def State.setLink (s : State) (n : Nat) (k : LinkState) : State :=
  { s with hlk := { s.hlk with links := mapPut n k s.hlk.links } }

/-- The next free value of the open choices (log entry 6). -/
def State.free (s : State) : Nat × State := (Config.freeNat s.freeCount, { s with freeCount := s.freeCount + 1 })

/-- TB3 advances to the instant that an event carries (log entry 3). -/
def State.at_ (s : State) (t : Nat) : State := { s with time := { s.time with now := max s.time.now t } }

/-- One system-clock cycle: TB3 counts on by 5 ns, or by 10 ns while the system domain runs on the FRC; in reset it stands still
(log entry 2). -/
def clockTick (s : State) : State :=
  if s.pwr.inReset then s
  else { s with time := { s.time with now := s.time.now + (if s.clk.sysFrc then 10 else 5) } }

/-! ### Unit control blocks -/

def State.ucb (s : State) (u : UnitId) : Ucb := mapGetD s.ucbs (handleOf u) {}

def State.setUcb (s : State) (u : UnitId) (f : Ucb → Ucb) : State :=
  { s with ucbs := mapPut (handleOf u) (f (s.ucb u)) s.ucbs }

/-- A unit takes a state, and PREV the one it held. -/
def Ucb.toState (b : Ucb) (t : UState) : Ucb := { b with prev := b.state, state := t }

/-- The gate opens or closes with the state: closed in OFF (R38). -/
def Ucb.gated (b : Ucb) (t : UState) : Ucb := { b.toState t with gateOpen := decide (t ≠ .off) }

/-- A result delivered to a window (R41, R42): LOST when the previous one had not been read. -/
def ResultWindow.deliver (w : ResultWindow) (v : Nat) : ResultWindow :=
  { valid := true, fresh := true, lost := w.fresh, value := v }

/-- An operation starts: VALID and the value clear; FRESH stays so that an unread result shows as LOST (R42). -/
def ResultWindow.start (w : ResultWindow) : ResultWindow := { w with valid := false, lost := false, value := 0 }

/-- A read (R41): the window as it stands; FRESH clears once a result is present. -/
def ResultWindow.word (w : ResultWindow) : W32 :=
  if w.valid then pack [(1, 31), (b2n w.fresh, 30), (b2n w.lost, 29), (w.value, 0)] else 0

def ResultWindow.consume (w : ResultWindow) : ResultWindow := if w.valid then { w with fresh := false } else w

/-- UCB_RESULT's value field: CODE, CMD, DATA. -/
def resultValue (code : Status) (cmd data : Nat) : Nat := code.code * 0x1000000 + cmd * 0x10000 + data % 0x10000

/-- The final outcome of a command of a unit (R32). -/
def State.finish (s : State) (u : UnitId) (code : Status) (data : Nat) : State :=
  s.setUcb u fun b =>
    match b.running with
    | some r => { b with busy := false, draining := false, running := none,
                         result := b.result.deliver (resultValue code r.code data) }
    | none => b

/-- A command that passes every check and completes later (R32): BUSY, and the result window starts. -/
def State.begin_ (s : State) (u : UnitId) (w : Writer) (cmd arg : Nat) : State :=
  s.setUcb u fun b => { b with busy := true, code := .ok, cmd := cmd, result := b.result.start,
                               running := some { code := cmd, arg := arg, writer := w } }

/-- What RESET leaves of the UCB's counts and fault fields (R30); FORCED, the identity and the token stay. -/
def Ucb.resetFields (b : Ucb) : Ucb :=
  { b with refused := 0, fKind := 0, fClass := 0, fLevel := 0, fConseq := false, sent := 0, faultClass := none, faultTaken := false }

/-- A command that completes within the write (R32). -/
def State.complete (s : State) (u : UnitId) (cmd : Nat) (code : Status) (data : Nat) : State :=
  s.setUcb u fun b => { b with code := .ok, cmd := cmd,
                               result := b.result.start.deliver (resultValue code cmd data) }

/-! ### Settings -/

/-- The bank of a writer or reader (R51): one for the voted set, one for each lane's program in SPLIT. The module itself
and SVC use the first. -/
def bankOf : Writer → Nat
  | .split l => l.idx
  | _ => 0

def resetValue (s : State) (u : UnitId) (off : Nat) : W32 :=
  match u with
  | .flt => if 0x120 ≤ off && off < 0x160 then classReset ((off - 0x120) / 4)
            else ((findReg s.clk.compat u off).map (·.reset)).getD 0
  | _ => ((findReg s.clk.compat u off).map (·.reset)).getD 0

/-- The active value of a setting. -/
def State.reg (s : State) (u : UnitId) (off : Nat) (obj : Nat := 0) : W32 :=
  mapGetD s.regs (regKey (baseOf u + off) obj) (resetValue s u off)

def State.setReg (s : State) (u : UnitId) (off obj : Nat) (v : W32) : State :=
  { s with regs := mapPut (regKey (baseOf u + off) obj) v s.regs }

def State.setRegPending (s : State) (u : UnitId) (off obj : Nat) (v : W32) : State :=
  { s with regsPending := mapPut (regKey (baseOf u + off) obj) v s.regsPending }

/-- The value that a setting holds or is about to take: its pending write, or else its active value. -/
def State.regNext (s : State) (u : UnitId) (off : Nat) (obj : Nat := 0) : W32 :=
  (mapGet? (regKey (baseOf u + off) obj) s.regsPending).getD (s.reg u off obj)

/-- The settings of a unit's own window. -/
def keyOfUnit (u : UnitId) (k : Nat) : Bool :=
  let a := k / 0x100000
  match unitOfAddr a with
  | some (v, _) => v = u
  | none => false

/-- Every unit-specific register returns to its reset value and every pending write is discarded (R30). -/
def State.dropSettings (s : State) (u : UnitId) : State :=
  { s with regs := s.regs.filter (fun c => !keyOfUnit u c.1),
           regsPending := s.regsPending.filter (fun c => !keyOfUnit u c.1) }

/-- A field of a setting. -/
def State.regField (s : State) (u : UnitId) (off hi lo : Nat) (obj : Nat := 0) : Nat := field (s.reg u off obj) hi lo

/-! ### The unit tree -/

/-- The declaration with a composite's declaration index, with the number of its program: of the programs in force, the first that
declares the index (log entry 54). -/
def compositeInst (s : State) (k : Nat) : Option (Nat × InstDecl) :=
  (progsInForce s).findSome? fun p => ((progOf s p).insts.find? fun i => i.unitIndex = some k).map fun d => (p, d)

/-- The instance of an index in a program. -/
def progInst (p : Program) (i : Nat) : Option InstDecl := p.insts.find? fun d => d.index = i

def progType (p : Program) (i : Nat) : Option TypeDecl := p.types.find? fun d => d.index = i

/-- The number of sub-units that a card's record declares (Table HLK-5, capability field). -/
def cardSubs (c : CardState) : Nat := min 16 (c.record.getD 0x18 0).toNat

/-- A handle is assigned to a unit that is in the tree (R48). -/
def inTree (s : State) (u : UnitId) : Bool :=
  match u with
  | .card slot sub => (s.card slot).inUnit && sub.val ≤ cardSubs (s.card slot)
  | .composite k => (compositeInst s k).isSome
  | _ => true

/-- Enclosing instances, innermost first, by PARENT (R111); `n` bounds the walk. -/
def enclosing (p : Program) : Nat → Nat → List InstDecl
  | 0, _ => []
  | n + 1, i =>
    match progInst p i with
    | none => []
    | some d => if d.top then [d] else d :: enclosing p n d.parent

/-- The innermost composite unit that encloses an instance, itself included (R123, R124). -/
def composite? (p : Program) (i : Nat) : Option (Fin 32767) :=
  match (enclosing p 65 i).find? (fun d => d.unitIndex.isSome) with
  | some d => d.unitIndex.bind (fin? 32767)
  | none => none

/-- The unit of a composite instance. -/
def unitAt (d : InstDecl) : Option (Fin 32767) := d.unitIndex.bind (fin? 32767)

/-- The instances of a program that lie directly or more deeply inside an instance. -/
def instsInside (p : Program) (d : InstDecl) : List InstDecl :=
  p.insts.filter fun e => e.index ≠ d.index && (enclosing p 65 e.index).any fun f => f.index = d.index

/-- The composite unit that encloses a composite's instance next (R47). -/
def outerComposite? (p : Program) (i : Nat) : Option (Fin 32767) :=
  ((enclosing p 65 i).drop 1).findSome? unitAt

/-- The composite units that lie directly or more deeply inside a composite (R294, Table FLT-9). -/
def innerComposites (s : State) (k : Nat) : List UnitId :=
  match compositeInst s k with
  | none => []
  | some (p, d) => (instsInside (progOf s p) d).filterMap fun e => (unitAt e).map .composite

/-- The composite units of the programs in force that lie inside none. -/
def outerComposites (s : State) : List UnitId :=
  (progsInForce s).flatMap fun p => (progOf s p).insts.filterMap fun e =>
    if (outerComposite? (progOf s p) e.index).isNone then (unitAt e).map .composite else none

/-- The sub-units of a card that are in the tree. -/
def cardMembers (s : State) (slot : Fin 32) : List UnitId :=
  (List.finRange 17).filterMap fun i =>
    if 0 < i.val && inTree s (.card slot i) then some (.card slot i) else none

/-- The slots that hold a card unit, ascending. -/
def cardSlots (s : State) : List (Fin 32) := (List.finRange 32).filter fun t => (s.card t).inUnit

/-- The members of a group unit (R43, R50, R244). -/
def membersOf (s : State) (u : UnitId) : List UnitId :=
  match u with
  | .sys => topUnits
  | .net => netUnits
  | .card slot sub => if sub = 0 then cardMembers s slot else []
  | .pairUnit => [.sys, .partner]
  | .composite k =>
    match compositeInst s k with
    | none => []
    | some (p, d) => (progOf s p).insts.filterMap fun e =>
        if (outerComposite? (progOf s p) e.index).map (·.val) = d.unitIndex then (unitAt e).map .composite else none
  | _ => []

/-- The partner is in sync, so the pair unit exists (R46). -/
def synced (s : State) : Bool := s.pair.state = .synced

/-- The state of a group from its members' states (R43). -/
def groupState (ms : List UState) : UState :=
  if ms.any (· = .fault) then .fault
  else if ms.any (· = .maint) then .maint
  else if ms.any (· = .test) then .test
  else if ms.all (· = .run) then .run
  else if ms.all (· = .off) then .off
  else .quiesced

/-- Members are not all in one state (R43). -/
def mixed : List UState → Bool
  | [] => false
  | m :: ms => ms.any (· ≠ m)

/-- UCB_STATE.STATE of a unit: its own, or that of a group derived from its members; NET's members count in NET's state. A composite
unit has a state of its own (R47), and shows FAULT while a composite inside it is in FAULT (R43). `n` bounds the nesting. -/
def stateOf (s : State) : Nat → UnitId → UState
  | 0, u => (s.ucb u).state
  | n + 1, u =>
    match u with
    | .pairUnit => if synced s then groupState [stateOf s n .sys, (s.ucb .partner).state] else .off
    | .partner => if synced s then (s.ucb .partner).state else .off
    | .sys => groupState (topUnits.map (stateOf s n))
    | .net => groupState (netUnits.map fun v => (s.ucb v).state)
    | .card slot sub =>
      if sub = 0 && !(cardMembers s slot).isEmpty then groupState ((cardMembers s slot).map fun v => (s.ucb v).state)
      else (s.ucb u).state
    | .composite k => if (innerComposites s k).any fun v => (s.ucb v).state = .fault then .fault else (s.ucb u).state
    | _ => (s.ucb u).state

/-- The state that a unit shows. -/
def State.stateOf (s : State) (u : UnitId) : UState := Machine.stateOf s 3 u

/-- NET's TEST ends when its last member has left TEST, whatever took it out (R44); the finding is a failure of any. -/
def netTestEnd (s : State) : State :=
  match (s.ucb .net).running with
  | some r =>
    if r.code = 5 && !(netUnits.any fun v => (s.ucb v).state = .test) then
      s.finish .net .ok (b2n (netUnits.any fun v => (s.ucb v).state = .fault))
    else s
  | none => s

/-- A group's own control block follows its members (R43): STATE as derived, PREV the one before. -/
def noteGroup (s : State) (u : UnitId) : State :=
  if (s.ucb u).state = s.stateOf u then s else s.setUcb u (·.gated (s.stateOf u))

/-- Every group on the module, cards before NET, SYS and the pair unit. -/
def noteGroups (s : State) : State :=
  let s := netTestEnd s
  (((cardSlots s).filter fun t => !(cardMembers s t).isEmpty).map (fun t => UnitId.card t 0) ++ [UnitId.net, UnitId.sys, UnitId.pairUnit]).foldl noteGroup s

/-- A unit takes a state, and the groups follow. -/
def State.unitTo (s : State) (u : UnitId) (t : UState) : State := noteGroups (s.setUcb u (·.gated t))

/-- A TIMED_DEGRADED unit is back in RUN, and its degrade condition ends (R293). -/
def backInRun (s : State) (u : UnitId) : State :=
  { s with flt := { s.flt with degradedUnits := s.flt.degradedUnits.filter (· ≠ u) } }

/-! ### The event recorder's intake (R463 to R467) -/

/-- A code that needs no token (Table EVR-2, Tables LCS-6, UPD-7 and PWR-8). -/
def privileged (code : Nat) : Bool :=
  (1 ≤ code && code ≤ 4) || (0x100 ≤ code && code < 0x200 && code ≠ 0x102)

def burstOf (s : State) (code : Nat) : Nat := s.regField .evr 0x11C 23 16 code

def bucketOf (s : State) (code : Nat) : Bucket := mapGetD s.evr.buckets code ⟨burstOf s code, 0⟩

/-- The TB3 instant in nanoseconds. -/
def State.tb3 (s : State) : Nat := s.time.now

/-- A time base's value in whole nanoseconds at a TB3 instant (R398, R400): it runs on from its anchor at its rate. -/
def TimeBase.ns (b : TimeBase) (t : Nat) : Nat :=
  ((b.val : Int) + ((t - b.anchor : Nat) : Int) * (2 ^ 40 + b.r)).toNat / 2 ^ 40

/-- The 12 DATA bytes, padded with zeros. -/
def data12 (d : List Byte) : List Byte := (d ++ List.replicate 12 0).take 12

/-- A record as stamped at acceptance (R463). -/
def stampRecord (s : State) (seq code source lost : Nat) (d : List Byte) : EvrRecord :=
  { seq, code, source, tb3 := s.tb3, tb4Sec := s.time.tb4.ns s.tb3 / 1000000000,
    tb4Ns := s.time.tb4.ns s.tb3 % 1000000000, tb4Epoch := s.time.tb4.epoch, csn := s.voter.csn, repeats := 0,
    lost := lost, data := data12 d }

def EvrState.setBucket (e : EvrState) (code : Nat) (b : Bucket) : EvrState := { e with buckets := mapPut code b e.buckets }

/-- The record enters the queue with the next number, or without one until the scan ends (R472). -/
def enqueue (s : State) (code source : Nat) (d : List Byte) : State :=
  let b := bucketOf s code
  let seq := if s.evr.scanned then s.evr.next else 0
  let r := stampRecord s seq code source b.suppressed d
  let e := s.evr.setBucket code { b with suppressed := 0 }
  { s with evr := { e with queue := e.queue ++ [r], newest := mapPut code r e.newest,
                           next := if e.scanned then e.next + 1 else e.next,
                           qmax := max e.qmax (e.queue.length + 1) } }

def suppress (s : State) (code : Nat) : State :=
  let b := bucketOf s code
  { s with evr := s.evr.setBucket code { b with suppressed := min 0xFFFF (b.suppressed + 1) } }

/-- A merge adds to REPEAT of the newest record of the code, queued or written (R466). -/
def mergeRecord (s : State) (r : EvrRecord) : State :=
  let r' := { r with repeats := r.repeats + 1 }
  let queued := s.evr.queue.any fun q => q.code = r.code && q.seq = r.seq && q.tb3 = r.tb3
  { s with evr := { s.evr with
      newest := mapPut r.code r' s.evr.newest,
      queue := s.evr.queue.map fun q => if q.code = r.code && q.seq = r.seq && q.tb3 = r.tb3 then r' else q,
      rewrites := if queued then s.evr.rewrites else mapPut r.seq r'.repeats s.evr.rewrites } }

/-- UCB_FAULT's sending half (R278, R281): held until the collector takes it, or waiting behind the held one. -/
def Ucb.send (b : Ucb) (now : Nat) (m : FaultMsg) : Ucb :=
  let sent := satUp 0xFFFF b.sent
  match b.held with
  | none => { b with held := some m, heldAt := now, fKind := m.kind, fClass := m.cls, sent := sent }
  | some _ => { b with waiting := b.waiting ++ [m], sent := sent }

/-- The masked set of a reaction window (R294, Table FLT-9). -/
def maskedSet (s : State) (subject : UnitId) : List UnitId :=
  match subject with
  | .hlk => .hlk :: (List.finRange 32).flatMap (fun t => (List.finRange 17).map (.card t))
  | .card slot sub => if sub = 0 then (List.finRange 17).map (.card slot) else [subject]
  | .net => .net :: netUnits
  | .composite k => subject :: innerComposites s k
  | _ => [subject]

/-- A unit lies in the masked set of an open window, so that its detectors raise no message (R294). -/
def masked (s : State) (u : UnitId) : Bool := s.flt.windows.any fun w => decide (u ∈ maskedSet s w.subject)

/-- A unit reports a fault with the class and base level of its kind (R278, R279). -/
def raiseAs (s : State) (u : UnitId) (kind cls level address : Nat) (exc : Option ExcInfo := none)
    (injected : Bool := false) : State :=
  if masked s u then s else
    s.setUcb u fun b => b.send s.tb3 { source := handleOf u, kind, cls, level, address := address % 2 ^ 32, exc, injected }

def raise (s : State) (u : UnitId) (kind address : Nat) : State :=
  raiseAs s u kind (kindOf u kind).1 (kindOf u kind).2 address

/-- A fault whose kind's table names nothing for ADDRESS: the address is open (R279, log entry 6). -/
def raiseOpen (s : State) (u : UnitId) (kind : Nat) : State :=
  let (v, s) := s.free
  raise s u kind v

/-- The address of EVR_DROP, which PRIV_DROPPED reports as the register it concerns (R280, R475, Table EVR-4). -/
def evrDropAddr : Nat := baseOf .evr + 0x10C

/-- An offer that needs no token (R466, R467). -/
def offerPrivileged (s : State) (code source : Nat) (d : List Byte) : State :=
  match mapGet? code s.evr.newest with
  | some r =>
    if r.source = source && r.data = data12 d && r.repeats < 32767 then mergeRecord s r
    else if s.evr.queue.length < 128 then enqueue s code source d
    else
      let s := suppress s code
      raise { s with evr := { s.evr with dropPriv := satUp 0xFFFF s.evr.dropPriv } } .evr 1 evrDropAddr
  | none =>
    if s.evr.queue.length < 128 then enqueue s code source d
    else
      let s := suppress s code
      raise { s with evr := { s.evr with dropPriv := satUp 0xFFFF s.evr.dropPriv } } .evr 1 evrDropAddr

/-- An offer under a token bucket; the queue level is checked first (R467). -/
def offerLimited (s : State) (code source : Nat) (d : List Byte) : State :=
  let b := bucketOf s code
  if 96 ≤ s.evr.queue.length then
    let s := suppress s code
    { s with evr := { s.evr with dropQueue := satUp 0xFFFF s.evr.dropQueue } }
  else if b.tokens = 0 then suppress s code
  else enqueue { s with evr := s.evr.setBucket code { b with tokens := b.tokens - 1 } } code source d

/-- A unit offers a record. -/
def offer (s : State) (code : Nat) (u : UnitId) (d : List Byte) : State :=
  if privileged code then offerPrivileged s code (handleOf u) d else offerLimited s code (handleOf u) d

/-- A refusal (R31, R34): UCB_STATUS shows it; ILLEGAL_STATE is counted and recorded; a member's refusal writes UCB_RESULT (R44). -/
def refuse (s : State) (u : UnitId) (code : Nat) (st : Status) (member : Option UnitId) : State :=
  let s := s.setUcb u fun b => { b with code := st, cmd := code, refused := if st = .illegalState then satUp 0xFFFF b.refused else b.refused }
  let s := match member with
    | some m => s.setUcb u fun b => { b with result := b.result.deliver (resultValue st code (handleOf m)) }
    | none => s
  if st = .illegalState then offer s 0x10 u (bytesLE 2 code ++ [BitVec.ofNat 8 (s.stateOf u).code]) else s

/-! ### Maintenance tokens (R52 to R55, Table UNIT-6) -/

def footprint : Activity → List UnitId
  | .foxglove => [.voter, .flt, .evr, .tick]
  | .brakeTest => [.safe, .pair]
  | .splitJoin => [.voter, .place, .tick, .pair]
  | .clockChange => [.clk, .time, .tick]
  | .firmwareApply => [.lcs, .pair]
  | .partnerResync => [.pair, .place]
  | .offPulseRetime => [.safe]

def tokensFree (s : State) (a : Activity) : Bool := (footprint a).all fun u => (s.ucb u).token.isNone

/-- Every token of the footprint in one step; the holder is the unit that runs the activity. -/
def takeTokens (s : State) (a : Activity) (holder : UnitId) : State :=
  (footprint a).foldl (fun s u => s.setUcb u fun b => { b with token := some (a, handleOf holder) }) s

/-- The activity ends: its tokens are released together, and the units it had put into MAINT return to PREV (R28, R52). -/
def releaseTokens (s : State) (a : Activity) : State :=
  (footprint a).foldl (fun s u => s.setUcb u fun b =>
    match b.token with
    | some (a', _) => if a' = a then { b with token := none } else b
    | none => b) s

/-- A unit leaves MAINT for the state recorded in PREV (R28). -/
def leaveMaint (s : State) (u : UnitId) : State :=
  noteGroups (s.setUcb u fun b => if b.state = .maint then b.gated b.prev else b)

/-- The unit that runs an activity that the program or the module commands. -/
def runner : Activity → UnitId
  | .foxglove => .voter | .brakeTest => .safe | .splitJoin => .voter | .clockChange => .clk | .firmwareApply => .lcs
  | .partnerResync => .pair | .offPulseRetime => .safe

def holds (s : State) (a : Activity) : Bool :=
  (footprint a).any fun u => match (s.ucb u).token with | some (a', _) => a' = a | none => false

/-- A command code that belongs to an activity. -/
def activityCommand (a : Activity) (code : Nat) : Bool :=
  match a with
  | .foxglove => code = 0x84
  | .brakeTest => code = 0x80
  | .splitJoin => code ∈ [0x80, 0x81, 0x82, 0x83]
  | .clockChange => code = 0x80
  | .firmwareApply => code = 0x90
  | .partnerResync => code = 0x81
  | .offPulseRetime => code = 0x81

/-- A rejoin or resync ends before its lane has entered: the lane stays excluded, and a resync is due again (R55). -/
def dropRejoin (s : State) : State :=
  match s.voter.rejoin with
  | none => s
  | some r =>
    let x := s.lane r.lane
    let s := s.setLane r.lane { x with role := if x.role = .rejoining || x.role = .resync then .excluded else x.role }
    { s with voter := { s.voter with rejoin := if r.resync then some { lane := r.lane, resync := true, commanded := false, pages := r.pages }
                                               else none } }

/-- CLK_SWRES's value field. -/
def swresValue (code : Status) (ref : Nat) : Nat := code.code * 2 ^ 24 + ref

/-- An activity is ended by a safety reaction (R54): its result carries FAULTED and its tokens are free again. -/
def endActivity (s : State) (a : Activity) : State :=
  if !holds s a then s else
  let u := runner a
  let s := match (s.ucb u).running with
    | some r => if activityCommand a r.code then s.finish u .faulted 0 else s
    | none => s
  let s := releaseTokens s a
  match a with
  | .brakeTest => { s with safe := { s.safe with btest := none } }
  | .offPulseRetime => { s with safe := { s.safe with pwNext := none } }
  | .splitJoin =>
    laneUnits.foldl leaveMaint (dropRejoin { s with voter := { s.voter with change := none } })
  | .foxglove => (.voter :: laneUnits).foldl leaveMaint { s with voter := { s.voter with foxRun := false, foxDue := false } }
  | .partnerResync => { s with pair := { s.pair with syncing := false } }
  | .clockChange => { s with clk := { s.clk with change := none, swres := s.clk.swres.deliver (swresValue .faulted s.clk.refInUse) } }
  | .firmwareApply => { s with upd := { s.upd with applying := false } }

/-! ### Losses to placement (R202) -/

/-- A resource is reported lost; it returns only by being reported healthy (R204). -/
def State.lose (s : State) (r : Resource) : State :=
  { s with place := { s.place with
      lost := if r ∈ s.place.lost then s.place.lost else s.place.lost ++ [r],
      returning := s.place.returning.filter (fun c => c.1 ≠ r),
      returnNow := s.place.returnNow.filter (· ≠ r) } }

/-- A lost resource reports healthy; the count of R204 starts. -/
def State.healthy (s : State) (r : Resource) : State :=
  if r ∈ s.place.lost && !(s.place.returning.any fun c => c.1 = r) then
    { s with place := { s.place with returning := s.place.returning ++ [(r, 0)] } }
  else s

/-! ### The safe state (R305 to R308) -/

/-- The output value of the first of some programs that drives an onboard output, with the number of its program. -/
def outputIn (s : State) (ps : List Nat) (b : OutBind) : Option (Nat × OutValue) :=
  ps.findSome? fun p => ((progOf s p).outputs.find? fun (v : OutValue) => v.bind = b).map fun (v : OutValue) => (p, v)

/-- The output value that drives an onboard output: of a program that runs, or else of the main program. -/
def boundOut (s : State) (b : OutBind) : Option (Nat × OutValue) := outputIn s (progsInForce s ++ [0]) b

/-- The safe value of a DO channel is 1 (R307). -/
def doSafe (s : State) (m : Fin 8) : Bool := ((boundOut s (.dout m)).map (fun v => v.2.safeValue % 2 == 1)).getD false

/-- An output value that has a SAFE_VALUE (R307). -/
def hasSafe (v : OutValue) : Bool :=
  match v.bind with
  | .dout _ | .bk _ | .card _ _ => true
  | _ => false

/-- The safe value of an output-image value: apply for a brake, else that of the image. -/
def safeOf (v : OutValue) : Nat := match v.bind with | .bk _ => 0 | _ => v.safeValue

def State.dout (s : State) (m : Nat) : DoState := mapGetD s.safe.douts m {}

def State.setDout (s : State) (m : Nat) (d : DoState) : State :=
  { s with safe := { s.safe with douts := mapPut m d s.safe.douts } }

/-- The committed values of outputs with a SAFE_VALUE become it, and the output stages follow (R306, R307). -/
def commitSafe (s : State) (ps : List Nat) : State :=
  let outs := ps.foldl (fun outs p => (progOf s p).outputs.foldl (fun outs v =>
    if hasSafe v then mapPut (progKey p v.off) ⟨safeOf v, .good⟩ outs else outs) outs) s.prog.outs
  { s with prog := { s.prog with outs } }

/-- A brake output de-energised outside step 3; where that changes its driven state, an off-pulse apart, its apply is awaited from now
on (R321). -/
def Brake.off (b : Brake) (pulsed : Bool) (now : Nat) : Brake :=
  { b with drv := false, rb := false, watch := if b.drv || pulsed then some { release := false, from_ := now } else b.watch }

/-- Both brake outputs off outside step 3. -/
def brakesOff (s : State) : State :=
  { s with safe := { s.safe with bk0 := s.safe.bk0.off (s.safe.pulse = some (.bk 0)) s.tb3,
                                 bk1 := s.safe.bk1.off (s.safe.pulse = some (.bk 1)) s.tb3 } }

/-- Every onboard output at its safe value (R306, R307); outside RUN no channel is energised (R326). -/
def driveSafe (s : State) : State :=
  let s := brakesOff s
  let s := { s with safe := { s.safe with bk0 := { s.safe.bk0 with cmd := false }, bk1 := { s.safe.bk1 with cmd := false } } }
  (List.finRange 8).foldl (fun s (m : Fin 8) =>
    let d := s.dout m
    let v := doSafe s m && !d.latched && !s.safe.openA && (s.ucb .safe).state = .run
    s.setDout m.val { d with cmd := doSafe s m, drv := v, rb := v }) s

/-- SAFE_CAUSE as a word. -/
def SafeCause.word (c : SafeCause) : W32 := pack [(c.source, 16), (c.kind, 8), (c.cls, 4), (c.path, 0)]

/-- TICK_N [31:0] as bytes. -/
def tickBytes (s : State) : List Byte := bytesLE 4 (s.tick.n % 2 ^ 32)

/-- Emissions that no commit has taken are discarded (R77, R306). -/
def discardEmissions (s : State) : State := { s with voter := { s.voter with groups := [] } }

/-- HEALTH.RUNNING clears in the own claim (Table PAIR-2), which goes with the safe values to every card that the last commit reached
(R253, R306). -/
def clearRunning (s : State) : State :=
  let own := s.pair.own &&& 0xDFFF
  { s with pair := { s.pair with own }, hlk := { s.hlk with claims := s.hlk.claims.map fun e => (e.1, own) } }

/-- Entry to the safe state (R306). The first cause is recorded and later ones do not overwrite it (R305). -/
def enterSafe (s : State) (cause : SafeCause) : State :=
  let first := !s.safe.safe
  let s := if first then { s with safe := { s.safe with safe := true, cause := cause } } else s
  let s := driveSafe s
  let s := commitSafe s [0, 1, 2, 3]
  let zero := (List.finRange 8).all fun m => !doSafe s m
  let s := { s with safe := { s.safe with
    openB := true, heldB := true, openA := s.safe.openA || zero, heldA := s.safe.heldA || zero } }
  let s := clearRunning (discardEmissions s)
  let s := endActivity (endActivity s .brakeTest) .offPulseRetime
  if first then
    let s := { s with pwr := { s.pwr with safeSince := some (s.pwr.safeSince.getD (s.tb3, s.regField .pwr 0x11C 15 0)) },
                      upd := { s.upd with safeOnTrial := s.upd.safeOnTrial || s.upd.trial } }
    offer s 2 .safe (bytesLE 4 cause.word.toNat ++ tickBytes s)
  else s

/-- A fault of a unit whose module action is the safe state: the message, and the entry with the fault as cause. -/
def raiseSafe (s : State) (u : UnitId) (kind address : Nat) : State :=
  enterSafe (raise s u kind address) ⟨handleOf u, kind, (kindOf u kind).1, 1⟩

/-- The same for a kind without a named ADDRESS. -/
def raiseSafeOpen (s : State) (u : UnitId) (kind : Nat) : State :=
  enterSafe (raiseOpen s u kind) ⟨handleOf u, kind, (kindOf u kind).1, 1⟩

/-- The controller runs: neither stopped nor in the safe state (Table PAIR-2). -/
def running (s : State) : Bool := !s.tick.stopped && !s.safe.safe

/-- A mode change takes effect at the next boundary. -/
def modePending (s : State) : Bool :=
  s.voter.change.isSome || !s.voter.fenced.isEmpty || !s.voter.latentDue.isEmpty || (s.voter.rejoin.any (·.ready))

/-! ### Fencing (R220, R221) -/

/-- The largest occupancy of an effect queue so far. -/
def queuePeak (s : State) : Nat := Lane.all.foldl (fun n l => max n (s.lane l).queue.length) s.voter.qmax

/-- The occupancy is noted. -/
def noteQueues (s : State) : State := { s with voter := { s.voter with qmax := queuePeak s } }

/-- A lane stops: its records are discarded and it takes no further data (R220). -/
def stopLane (x : LaneSt) : LaneSt := { x with role := .fenced, current := none, queue := [], spill := [], stops := [] }

/-- NO_MAJORITY, VOTER_SELF, DIGEST_SPLIT: the safe state, and nothing more passes (R221). -/
def voterStop (s : State) (kind address : Nat) : State :=
  raiseSafe { s with voter := { s.voter with halted := true } } .voter kind address

/-- A lane that executes code is fenced (R220). A second one before the exclusion of the first brings NO_MAJORITY. -/
def fenceLane (s : State) (l : Lane) : State :=
  if !((s.lane l).role = .voting || (s.lane l).role = .split) then s
  else if s.voter.mode ≠ .split && (s.voter.fenced ++ s.voter.latentDue).any (· ≠ l) then voterStop s 4 s.voter.disAddr
  else
    let s := (noteQueues s).setLane l (stopLane (s.lane l))
    { s with voter := { s.voter with
        fenced := s.voter.fenced ++ [l],
        replay := s.voter.replay.map fun r => { r with left := r.left.filter (· ≠ l) } } }

/-- The module action of a lane fault (R220, R221): the lane is fenced; in PAIR the module enters the safe state. -/
def fenceOrSafe (s : State) (l : Lane) (cause : SafeCause) : State :=
  if s.voter.mode = .pair then
    (if (s.lane l).role = .voting then enterSafe { s with voter := { s.voter with halted := true } } cause else s)
  else fenceLane s l

/-- A lane fault with its message. -/
def laneFault (s : State) (l : Lane) (kind address : Nat) : State :=
  let s := raise s (.lane l) kind address
  fenceOrSafe s l ⟨handleOf (.lane l), kind, (kindOf (.lane l) kind).1, 1⟩

end Sys2Proof.Machine
end

