-- ==== Sys2Proof/Machine/Crc.lean ====
section
/-! DEFINITION. The CRC-32 of identity records and event records (R436, R462). -/

namespace Sys2Proof.Machine

open Sys2Proof

/-- One bit of the reflected CRC-32 with polynomial 0x04C1_1DB7. -/
def crc32Bit (c : Nat) : Nat := if c % 2 = 1 then Nat.xor (c / 2) 0xEDB88320 else c / 2

def crc32Bits : Nat → Nat → Nat
  | 0, c => c
  | k + 1, c => crc32Bits k (crc32Bit c)

def crc32Byte (c : Nat) (b : Byte) : Nat := crc32Bits 8 (Nat.xor c b.toNat)

/-- CRC-32 as the Ethernet frame check sequence (R436). -/
def crc32 (l : List Byte) : Nat := Nat.xor (l.foldl crc32Byte 0xFFFFFFFF) 0xFFFFFFFF

end Sys2Proof.Machine
end

