-- ==== Sys2Proof/Machine/Evr.lean ====
section
/-! DEFINITION. EVR: the writing of records to the store, the start-up scan, token refill and the shown registers (chapter 18). -/

namespace Sys2Proof.Machine

open Sys2Proof

/-- Words of 4 bytes, the last padded with zeros. -/
def toWords : Nat → List Byte → List W32
  | 0, _ => []
  | n + 1, l => BitVec.ofNat 32 (fromLE (l.take 4)) :: toWords n (l.drop 4)

/-- Bytes 0x00 to 0x37 of a record (Table EVR-1). -/
def EvrRecord.body (r : EvrRecord) : List Byte :=
  bytesLE 6 r.seq ++ bytesLE 2 r.code ++ bytesLE 8 r.tb3 ++ bytesLE 6 r.tb4Sec ++ bytesLE 2 r.source ++ bytesLE 4 r.tb4Ns
    ++ bytesLE 4 r.tb4Epoch ++ bytesLE 8 r.csn ++ bytesLE 2 r.repeats ++ bytesLE 2 r.lost ++ data12 r.data

/-- MARK of a record. -/
def markOf (seq repeats : Nat) : W32 := pack [(1, 31), (repeats % 32768, 16), (seq % 65536, 0)]

/-- The 16 words of a record, CRC and MARK last. -/
def EvrRecord.words (r : EvrRecord) : List W32 :=
  toWords 14 r.body ++ [BitVec.ofNat 32 (crc32 r.body), markOf r.seq r.repeats]

/-- A slot's bytes below the CRC. -/
def slotBody (ws : List W32) : List Byte := (ws.take 14).flatMap fun w => bytesLE 4 w.toNat

def slotSeq (ws : List W32) : Nat := fromLE ((slotBody ws).take 6)

/-- A slot is valid when MARK and CRC agree with its record (Table EVR-3). -/
def slotValid (ws : List W32) : Bool :=
  let m := ws.getD 15 0
  bitAt m 31 && field m 15 0 = slotSeq ws % 65536 && (ws.getD 14 0).toNat = crc32 (slotBody ws)

/-- A slot with another REPEAT (R468). -/
def slotRepeat (ws : List W32) (k : Nat) : List W32 :=
  let w10 : W32 := BitVec.ofNat 32 ((ws.getD 10 0).toNat / 65536 * 65536 + k % 32768)
  let ws := ws.set 10 w10
  (ws.set 14 (BitVec.ofNat 32 (crc32 (slotBody ws)))).set 15 (markOf (slotSeq ws) k)

/-- One write turn (R466, R467): the oldest queued record, or else one due rewrite. -/
def writeTurn (e : EvrState) : EvrState :=
  if !e.scanned then e else
  match e.queue with
  | r :: q => { e with queue := q, store := mapPut (r.seq % 65536) r.words e.store }
  | [] =>
    match e.rewrites with
    | [] => e
    | (seq, k) :: rest =>
      let ws := mapGetD e.store (seq % 65536) []
      { e with rewrites := rest,
               store := if slotSeq ws = seq && slotValid ws then mapPut (seq % 65536) (slotRepeat ws k) e.store else e.store }

def execRecordWrite (s : State) : Out := .next { s with evr := writeTurn s.evr }

def writeTurns : Nat → EvrState → EvrState
  | 0, e => e
  | n + 1, e => writeTurns n (writeTurn e)

/-- The queue drains and every due rewrite is made (R467, R512, R520). -/
def drainRecorder (s : State) : State :=
  { s with evr := writeTurns (s.evr.queue.length + s.evr.rewrites.length) s.evr }

/-- A code's bucket gains a token, up to BURST (R466). -/
def refill (s : State) (code : Nat) : State :=
  let b := bucketOf s code
  if (s.ucb .evr).state ≠ .run then s
  else { s with evr := s.evr.setBucket code { b with tokens := min (burstOf s code) (b.tokens + 1) } }

def execTokenRefill (code : W16) (s : State) : Out := .next (refill s code.toNat)

/-- A new EVR_CODE_CFG takes hold: the bucket is filled to BURST. -/
def bucketSwap (s : State) (code : Nat) : State :=
  { s with evr := s.evr.setBucket code { bucketOf s code with tokens := burstOf s code } }

/-- Numbers given to the offers held for the scan. -/
def numberFrom (n : Nat) : List EvrRecord → List EvrRecord
  | [] => []
  | r :: rs => { r with seq := n } :: numberFrom (n + 1) rs

/-- The scan ends (R472): EVR_NEXT is set, START takes the first number and the held offers follow; void slots are reported once. -/
def scanRecorder (s : State) : State :=
  if s.evr.scanned || s.pwr.inReset || s.pwr.step < 2 then s
  else
    let next := s.evr.store.foldl (fun n c => if slotValid c.2 then max n (slotSeq c.2 + 1) else n) 1
    let void := (s.evr.store.filter fun c => !slotValid c.2).length
    let q := s.evr.queue.filter (·.code = 1) ++ s.evr.queue.filter (·.code ≠ 1)
    let q := numberFrom next q
    let newest := q.foldl (fun m r => mapPut r.code r m) s.evr.newest
    let s := { s with evr := { s.evr with scanned := true, next := next + q.length, queue := q, newest := newest } }
    if void = 0 then s else raise s .evr 4 void

/-- A code that Table EVR-2 assigns. -/
def codeAssigned (code : Nat) : Bool :=
  (1 ≤ code && code ≤ 4) || (0x10 ≤ code && code ≤ 0x14) || (0x100 ≤ code && code < 0x200) || (0x1000 ≤ code && code < 0x2000)

/-- A value that Table EVR-5 admits for the code's bucket (R473). -/
def evrSettingOk (off code : Nat) (v : W32) : Bool := if off = 0x11C then !privileged code && 1 ≤ field v 15 0 else true

/-- What a read-only register of EVR shows; a window word is read from the store (R470). -/
def evrRead (s : State) (bank off : Nat) : W32 :=
  let e := s.evr
  let next := if e.scanned then e.next else 0
  match off with
  | 0x100 => pack [(b2n e.scanned, 31), (e.qmax, 16), (e.queue.length, 0)]
  | 0x104 => BitVec.ofNat 32 next
  | 0x108 => BitVec.ofNat 32 (next / 2 ^ 32 % 2 ^ 16)
  | 0x10C => pack [(e.dropQueue, 16), (e.dropPriv, 0)]
  | 0x120 =>
    let code := (s.reg .evr 0x118 bank).toNat
    let b := bucketOf s code
    pack [(b2n (privileged code), 31), (b2n (codeAssigned code), 30), (b.tokens, 16), (b.suppressed, 0)]
  | _ =>
    let cur := (s.reg .evr 0x110 bank).toNat + (s.reg .evr 0x114 bank).toNat * 2 ^ 32
    (mapGetD e.store (cur % 65536) []).getD ((off - 0x140) / 4) 0

end Sys2Proof.Machine
end

