-- ==== Sys2Proof/Machine/Reset.lean ====
section
/-! DEFINITION. Module reset: what flash, fuses and MRAM keep, the choice of a fallback start, and the state in reset (R513 to R515,
R499, R509 and the reset rules of the units' chapters). -/

namespace Sys2Proof.Machine

open Sys2Proof

/-- The active and the inactive image slot. -/
def activeSlot (u : UpdState) : ImageSlot := if u.slotB then u.b else u.a
def inactiveSlot (u : UpdState) : ImageSlot := if u.slotB then u.a else u.b

def UpdState.setActive (u : UpdState) (x : ImageSlot) : UpdState := if u.slotB then { u with b := x } else { u with a := x }
def UpdState.setInactive (u : UpdState) (x : ImageSlot) : UpdState := if u.slotB then { u with a := x } else { u with b := x }

/-- Seconds left of the trial window (R497). -/
def trialSeconds (s : State) : Nat :=
  match s.upd.trialRun with
  | some t => s.upd.trialLeft - (s.tb3 - t) / 1000000000
  | none => s.upd.trialLeft

/-- What the update part keeps through a reset (R509): a preparation is no longer one, all else of flash and MRAM stays. -/
def keepUpd (s : State) : UpdState :=
  let u := s.upd
  let u := if u.prepBegun && !u.prepared then u.setInactive { inactiveSlot u with valid := false } else u
  { u with trialLeft := trialSeconds s, trialRun := none, prepared := false, prepBegun := false,
           applying := false, reason := 0, partnerPrep := false, cardPrep := [], cardTrial := u.cardTrial, handover := none,
           fallbackAt := none, fallenBack := false }

/-- The slot that was on trial is left for the one it came from, and its saved retentive generation is restored (R499). -/
def fallBack (s : State) : State :=
  let u := s.upd
  let left := activeSlot u
  let u := { (u.setActive { left with valid := false }) with
    slotB := !u.slotB, trial := false, trials := 0, trialLeft := 0, trialRun := none, safeOnTrial := false, fallenBack := true,
    pendingBoot := false, newlyApplied := false }
  let saved := (activeSlot u).saved
  let s := { s with upd := u }
  match saved with
  | some g => { s with prog := { s.prog with retA := g, retValid := some false } }
  | none => s

/-- A reset after a safe state entered on trial is a fallback (R499). -/
def fallsBack (s : State) (cause : ResetCause) : Bool := cause = .fallback || (s.upd.trial && s.upd.safeOnTrial)

/-- What LCS keeps: fuses, the key store, a session unless the supply went, FAILS and the remaining lockout (R478, R482, R488). -/
def keepLcs (s : State) (cause : ResetCause) : LcsState :=
  let l := s.lcs
  { stored := l.stored, pending := l.pending, relocks := l.relocks, nextState := l.nextState, ikey := l.ikey, fkey := l.fkey,
    service := if cause = .powerOn || cause = .powerFail then none else l.service, fails := l.fails,
    lockoutEnd := l.lockoutEnd - s.tb3, applied := false }

/-- PWR_CAUSE of several causes within one reset: the lowest code (R515). -/
def causeCode (s : State) (cause : ResetCause) : Nat :=
  if s.pwr.inReset && s.pwr.cause ≠ 0x10 then min s.pwr.cause cause.code else cause.code

/-- PWR_CAUSE.PRIOR of a fallback start after a further cause: what would otherwise have been recorded (R515). -/
def priorCode (s : State) (cause : ResetCause) : Nat :=
  if cause = .fallback then s.pwr.prior else if s.pwr.prior = 0 then cause.code else min s.pwr.prior cause.code

/-- Reset entry (R513): every register at its reset value, every pin harmless, what MRAM, flash and fuses hold kept. The queue of
commands and the count of open choices are the model's own. -/
def enterReset (s : State) (cause : ResetCause) : State :=
  if s.pwr.inReset then
    if s.pwr.cause = 0x10 then { s with pwr := { s.pwr with prior := priorCode s cause } }
    else { s with pwr := { s.pwr with cause := causeCode s cause } }
  else
    let fb := fallsBack s cause
    let kept : State :=
      { pending := s.pending, freeCount := s.freeCount,
        evr := { store := s.evr.store },
        tick := { next := s.tick.next },
        lcs := keepLcs s cause,
        upd := keepUpd s,
        prog := { retA := s.prog.retA, retB := s.prog.retB, retValid := s.prog.retValid },
        pwr := { inReset := true, cause := if fb then 0x10 else cause.code,
                 prior := if fb && cause ≠ .fallback then cause.code else 0,
                 strap := s.pwr.strap, strapNow := s.pwr.strapNow, starts := s.pwr.starts, pfCount := s.pwr.pfCount,
                 autoEnds := s.pwr.autoEnds.map (· - s.tb3) } }
    if fb && s.upd.trial then fallBack kept else kept

/-- Every output in its harmless state of Table PWR-2: both brakes and every DO channel off, both group switches open; a brake test or
Foxglove test that the start runs ends. -/
def harmless (s : State) : State :=
  let s := (List.finRange 8).foldl (fun s (m : Fin 8) => s.setDout m { s.dout m with cmd := false, drv := false, rb := false }) s
  let off (b : Brake) : Brake := { b with cmd := false, drv := false, rb := false, watch := none }
  let s := { s with safe := { s.safe with openA := true, openB := true, bk0 := off s.safe.bk0, bk1 := off s.safe.bk1, pulse := none } }
  endActivity (endActivity s .brakeTest) .foxglove

/-- The start stops at a step and the reason is recorded (R23, R518); outputs are held in their harmless state. A start on trial that
stops resets the module at once, into a fallback start (R499). -/
def stopStart (s : State) (step reason : Nat) : State :=
  let s := harmless s
  let s := { s with pwr := { s.pwr with failed := step, reason := reason } }
  if s.upd.trial then enterReset s .fallback else s

/-- In reset nothing answers but the supervisor: what MRAM, flash and fuses hold stays, whatever reached the pins meanwhile (R513). -/
def wakeUp (s : State) : State :=
  { pending := s.pending, freeCount := s.freeCount, evr := { store := s.evr.store }, tick := { next := s.tick.next }, lcs := s.lcs,
    upd := { s.upd with safeOnTrial := false },
    prog := { retA := s.prog.retA, retB := s.prog.retB, retValid := s.prog.retValid },
    pwr := { s.pwr with safeSince := none, resetDue := none } }

/-- What a unit does only outside reset. -/
def outsideReset (s : State) (f : State → State) : State := if s.pwr.inReset then s else f s

/-- Any reset cause puts every pin into its harmless state. -/
def execResetEntry (cause : ResetCause) (s : State) : Out := .next (enterReset s cause)

/-- A low pulse on RST_N: at least 10 µs resets, below 2 µs is ignored, and between them either may come (R515). -/
def externalReset (s : State) (us : Nat) : State :=
  if 10 ≤ us then enterReset s .external
  else if us < 2 then s
  else
    let (v, s) := s.free
    if v % 2 = 1 then enterReset s .external else s

def execExternalReset (us : Nat) (s : State) : Out := .next (externalReset s us)

/-- PRES_N opens (R514). -/
def execPresenceOpen (s : State) : Out := .next (enterReset s .presence)

/-- An internal rail leaves its tolerance while the input is present. -/
def execBrownout (s : State) : Out := .next (enterReset s .brownout)

/-- No step 5 of a boundary for 4 × P or 40 ms, from step 9 onwards (R518). -/
def execWatchdog (s : State) : Out := .next (if s.pwr.step = 9 then enterReset s .watchdog else s)

end Sys2Proof.Machine
end

