-- ==== Sys2Proof/Machine/FieldIo.lean ====
section
/-! DEFINITION. SAFE/FIO: field inputs and outputs, their diagnostics, off-pulse testing, brake outputs and feedback, and the
brake test's steps (chapters 11 and 12). -/

namespace Sys2Proof.Machine

open Sys2Proof

/-! ### Channels, banks and drive -/

def safeRun (s : State) : Bool := (s.ucb .safe).state = .run

def State.bk (s : State) (x : Fin 2) : Brake := if x = 0 then s.safe.bk0 else s.safe.bk1

def State.setBk (s : State) (x : Fin 2) (b : Brake) : State :=
  if x = 0 then { s with safe := { s.safe with bk0 := b } } else { s with safe := { s.safe with bk1 := b } }

def State.di (s : State) (ch : Nat) : DiState := mapGetD s.safe.di ch {}

def State.setDi (s : State) (ch : Nat) (d : DiState) : State :=
  { s with safe := { s.safe with di := mapPut ch d s.safe.di } }

/-- A channel is in the off-pulse schedule (R317). -/
def scheduled (s : State) : OutCh → Bool
  | .bk _ => true
  | .dout m => ((boundOut s (.dout m)).map (·.2.safety)).getD false

def energised (s : State) : OutCh → Bool
  | .bk x => (s.bk x).drv
  | .dout m => (s.dout m).drv

/-- What a channel is commanded to (R318). -/
def commanded (s : State) : OutCh → Bool
  | .bk x => (s.bk x).cmd
  | .dout m => (s.dout m).cmd

/-- A brake output driven or not; the bank's switch and the unit's state bound it (R326, R330). -/
def driveBrake (s : State) (x : Fin 2) (on : Bool) : State :=
  let d := on && !s.safe.openB && safeRun s
  s.setBk x { s.bk x with drv := d, rb := d }

def driveDo (s : State) (m : Fin 8) (on : Bool) : State :=
  let d := s.dout m
  let v := on && !d.latched && !s.safe.openA && safeRun s
  s.setDout m { d with drv := v, rb := v, isOpen := d.isOpen && !v, feed := d.feed && !v }

def drive (s : State) (ch : OutCh) (on : Bool) : State :=
  match ch with
  | .bk x => driveBrake s x on
  | .dout m => driveDo s m on

/-- Every channel of the DO bank, of the brake bank, off. -/
def bankOff (s : State) (brakes : Bool) : State :=
  if brakes then brakesOff s
  else (List.finRange 8).foldl (fun s (m : Fin 8) => driveDo s m false) s

def isBrakeCh : OutCh → Bool
  | .bk _ => true
  | .dout _ => false

/-- A channel's readback as it is observed (R314). -/
def setReadback (s : State) (ch : OutCh) (high : Bool) : State :=
  match ch with
  | .bk x => s.setBk x { s.bk x with rb := high }
  | .dout m => s.setDout m { s.dout m with rb := high }

/-- A group switch opens and is held open until module reset (R318, R330). -/
def holdOpen (s : State) (brakes : Bool) : State :=
  let s := if brakes then { s with safe := { s.safe with openB := true, heldB := true } }
           else { s with safe := { s.safe with openA := true, heldA := true } }
  bankOff s brakes

/-- SAFE/FIO leaves RUN (R326): every channel off and both switches open. No edge is accepted from here on (R347), so no brake
feedback is awaited. -/
def fieldStop (s : State) : State :=
  let s := bankOff (bankOff { s with safe := { s.safe with openA := true, openB := true, pulse := none } } true) false
  { s with safe := { s.safe with groupCheck := [], bk0 := { s.safe.bk0 with watch := none },
                                 bk1 := { s.safe.bk1 with watch := none } } }

/-- SAFE/FIO enters RUN (R330, R347): the switches that are not held close, and each input, the brake feedbacks among them, takes the
level that its filter has accepted, without an edge. The check of step 1 of Table SAF-2 runs on each bank whose switch closes. -/
def fieldStart (s : State) : State :=
  { s with safe := { s.safe with
      groupCheck := (if s.safe.openA && !s.safe.heldA then [false] else []) ++ if s.safe.openB && !s.safe.heldB then [true] else [],
      openA := s.safe.heldA, openB := s.safe.heldB,
      bk0 := { s.safe.bk0 with bf := (s.di 16).raw }, bk1 := { s.safe.bk1 with bf := (s.di 17).raw },
      di := s.safe.di.map fun c => (c.1, { c.2 with accepted := c.2.raw }) } }

/-! ### Commits (R319, R341, R342) -/

/-- A pulse ends without evaluation (R319). -/
def skipPulse (s : State) (ch : OutCh) : State :=
  if s.safe.pulse = some ch then
    { s with safe := { s.safe with pulse := none, skipped := satUp 0xFFFF s.safe.skipped,
                                   skipRuns := mapPut ch.code (mapGetD s.safe.skipRuns ch.code 0 + 1) s.safe.skipRuns } }
  else s

/-- Step 3 drives a DO channel with a value (R341, R342). -/
def commitDo (s : State) (m : Fin 8) (v : Bool) : State :=
  let d := s.dout m
  let s := if d.cmd ≠ v then skipPulse s (.dout m) else s
  let freed := d.latched && v && d.zeroSeen && !d.hot
  let d := { d with cmd := v, zeroSeen := if d.latched && !freed then d.zeroSeen || !v else false,
                    latched := d.latched && !freed, overload := d.overload && !freed,
                    overtemp := d.overtemp && !freed }
  let s := s.setDout m d
  if s.safe.pulse = some (.dout m) then s else driveDo s m v

/-- A brake's driven state changes (R321): the change awaits its feedback. -/
def watchBrake (s : State) (x : Fin 2) (release : Bool) : State :=
  s.setBk x { s.bk x with watch := some { release, from_ := s.tb3 } }

/-- Step 3 commits a brake command: release or apply. While a test runs the output is held by it (R322). -/
def commitBrake (s : State) (x : Fin 2) (release : Bool) : State :=
  let b := s.bk x
  let before := b.drv || s.safe.pulse = some (.bk x)
  let s := if b.cmd ≠ release then skipPulse s (.bk x) else s
  let s := s.setBk x { s.bk x with cmd := release }
  if s.safe.btest.isSome || s.safe.pulse = some (.bk x) then s
  else
    let s := driveBrake s x release
    if (s.bk x).drv ≠ before then watchBrake s x (s.bk x).drv else s

/-! ### Off-pulse testing (R317 to R320) -/

/-- The slots of a round, in turn (R317). -/
def slotOrder : List OutCh :=
  [.bk 0, .dout 0, .dout 1, .dout 2, .dout 3, .bk 1, .dout 4, .dout 5, .dout 6, .dout 7]

/-- A round begins: a new pulse width takes effect and its token is released (R320). -/
def roundStart (s : State) : State :=
  let s := if s.safe.slot = 10 then { s with safe := { s.safe with rounds := satUp 0xFFFF s.safe.rounds } } else s
  match s.safe.pwNext with
  | some w =>
    let s := { s with safe := { s.safe with pw := w, pwNext := none } }
    releaseTokens (s.finish .safe .ok 0) .offPulseRetime
  | none => s

/-- A channel's slot starts (R317). -/
def offPulse (s : State) : State :=
  let i := s.safe.slot % 10
  let s := if i = 0 then roundStart s else s
  let s := { s with safe := { s.safe with slot := i + 1 } }
  let ch := slotOrder.getD i (.bk 0)
  if scheduled s ch && energised s ch && safeRun s && !(isBrakeCh ch && s.safe.btest.isSome) then
    let s := drive s ch false
    { s with safe := { s.safe with pulse := some ch, lastPulsed := ch.code } }
  else s

def execOffPulse (s : State) : Out := .next (offPulse s)

/-- EXT_FEED with its immediate action (Table SAF-1). -/
def extFeed (s : State) (ch : OutCh) : State := holdOpen (raise s .safe 1 ch.code) (isBrakeCh ch)

/-- CROSS with its immediate action: both banks' switches open. -/
def crossFeed (s : State) (ch y : OutCh) : State :=
  holdOpen (holdOpen (raise s .safe 3 (ch.code * 256 + y.code)) (isBrakeCh ch)) (isBrakeCh y)

/-- The readbacks are judged and the pulse ends (R318). -/
def offPulseEvaluate (s : State) (own : Bool) (low : List OutCh) : State :=
  match s.safe.pulse with
  | none => s
  | some ch =>
    let others := low.filter fun y => y ≠ ch && energised s y
    let s := if own then extFeed s ch else s
    let s := others.foldl (fun s y => crossFeed s ch y) s
    let s := { s with safe := { s.safe with pulse := none, skipRuns := mapErase ch.code s.safe.skipRuns } }
    let s := drive s ch (commanded s ch)
    if own then setReadback s ch true else s

def execOffPulseEvaluation (own : Bool) (low : List OutCh) (s : State) : Out := .next (offPulseEvaluate s own low)

/-- The readback of a pulsed channel is still high 1 ms after its switch opened (R318). -/
def execExtFeedPersist (ch : OutCh) (s : State) : Out :=
  .next (if (if isBrakeCh ch then s.safe.openB else s.safe.openA) then raiseSafe s .safe 2 ch.code else s)

/-- The continuous check of a scheduled channel between pulses (R318); the readback shows what is observed (R314). -/
def readbackCheck (s : State) (ch : OutCh) (high : Bool) : State :=
  if !scheduled s ch || s.safe.pulse.isSome then s
  else
    let s := if high && !commanded s ch then extFeed s ch
      else if !high && energised s ch then raise s .safe 4 ch.code
      else s
    setReadback s ch high

def execReadbackCheck (ch : OutCh) (high : Bool) (s : State) : Out := .next (readbackCheck s ch high)

/-- PULSE_STARVED once a channel's pulse has been skipped in 8 consecutive rounds (R319). -/
def execPulseStarved (ch : OutCh) (s : State) : Out :=
  .next (if 8 ≤ mapGetD s.safe.skipRuns ch.code 0 then
      raise { s with safe := { s.safe with skipRuns := mapErase ch.code s.safe.skipRuns } } .safe 6 ch.code
    else s)

/-! ### Brake feedback (R321) -/

/-- The module drives its brakes from its own commits: it is active or single. -/
def ownCommits (s : State) : Bool := s.pair.role ≠ .standby

def bfReleased (s : State) (x : Fin 2) (level : Bool) : Bool := level != bitAt (s.reg .safe 0x114) x.val

def series (s : State) : Bool := bitAt (s.reg .safe 0x114) 2

def tRel (s : State) : Nat := s.regField .safe 0x118 11 0
def tApp (s : State) : Nat := s.regField .safe 0x118 27 16

/-- T_REL or T_APP has passed without the expected change, by the clock or by the stamp of a later edge; with SERIES wiring and no
synced partner the release check is suppressed. -/
def brakeLateFault (s : State) (x : Fin 2) (release : Bool) : State :=
  if release then (if series s && !synced s then s else raise s .safe 7 x.val) else raiseSafe s .safe 8 x.val

/-- T_REL or T_APP in nanoseconds. -/
def brakeLimit (s : State) (release : Bool) : Nat := (if release then tRel s else tApp s) * 1000000

/-- A BF edge; the level is kept as it stands at the terminal, and BF_POL is applied where it is read (R314). It is judged against the brake's last driven change; during a test the step judges it (R322), and
outside RUN no edge counts (R347). -/
def brakeFeedback (s : State) (x : Fin 2) (level : Bool) (t : Nat) : State :=
  let s := s.at_ t
  let released := bfReleased s x level
  let b := s.bk x
  let s := s.setBk x { b with bf := level }
  let s := s.setDi (16 + x) { s.di (16 + x) with raw := level }
  if b.bf = level || !ownCommits s || s.safe.btest.isSome || !safeRun s then s
  else
    match b.watch with
    | some w =>
      if w.release = released then
        let s := s.setBk x { s.bk x with watch := none }
        if t < w.from_ + 10000000 then raise s .safe 9 x.val
        else if w.from_ + brakeLimit s released < t then brakeLateFault s x released else s
      else if released then raiseSafe s .safe 8 x.val else raise s .safe 9 x.val
    | none => if released then raiseSafe s .safe 8 x.val else raise s .safe 9 x.val

def execBrakeFeedbackCheck (x : Fin 2) (level : Bool) (at_ : Nat) (s : State) : Out :=
  .next (brakeFeedback s x level at_)

/-- T_REL or T_APP passes without the expected change. -/
def brakeLate (s : State) (x : Fin 2) : State :=
  match (s.bk x).watch with
  | none => s
  | some w =>
    let s := s.setBk x { s.bk x with watch := none }
    if !ownCommits s then s else brakeLateFault s x w.release

def execBrakeNorel (x : Fin 2) (s : State) : Out := .next (brakeLate s x)

/-! ### The brake test (R322 to R324) -/

/-- SAFE_BTEST's value field. -/
def btestValue (pass : Bool) (failStep : Nat) (elec : Bool) : Nat :=
  b2n pass * 2 ^ 28 + failStep * 2 ^ 24 + b2n elec * 2 ^ 16

/-- The step of Table SAF-2 that a phase belongs to. -/
def stepOfPhase : Nat → Nat
  | 1 | 2 => 1 | 3 | 4 => 7 | 5 => 2 | 6 => 3 | 7 => 4 | _ => 5

/-- A test begins: SAFE_BTEST starts, and the first change is due at the next boundary. -/
def beginBrakeTest (s : State) (elec startUp : Bool) : State :=
  { s with safe := { s.safe with btest := some { elec, startUp, phase := 0 }, btestWin := s.safe.btestWin.start } }

/-- The test ends; the outputs follow the committed commands from the next boundary. -/
def endBrakeTest (s : State) (t : BrakeTest) (pass : Bool) (failStep : Nat) : State :=
  let s := { s with safe := { s.safe with
    btest := none, btestWin := s.safe.btestWin.deliver (btestValue pass failStep t.elec) } }
  let s := brakesOff s
  let s := if pass && !t.elec then
      { s with safe := { s.safe with lastTest := some (s.tb3 : Int), due := false, dueSaid := false } } else s
  let s := if pass then (if t.startUp then { s with pwr := { s.pwr with step := 9 } } else s)
    else if t.startUp then stopStart s 8 1
    else raise s .safe 10 0x81
  releaseTokens (s.finish .safe .ok 0) .brakeTest

/-- Measured times go to SAFE_BTEST_BKx (R322). -/
def recordTime (s : State) (phase ms : Nat) : State :=
  match phase with
  | 5 => s.setBk 0 { s.bk 0 with relMs := min 0xFFF ms }
  | 6 => s.setBk 0 { s.bk 0 with appMs := min 0xFFF ms }
  | 7 => s.setBk 1 { s.bk 1 with relMs := min 0xFFF ms }
  | 8 => s.setBk 1 { s.bk 1 with appMs := min 0xFFF ms }
  | _ => s

/-- A phase passes when its observation lies in the limits of Table SAF-2. -/
def phasePasses (s : State) (phase : Nat) (o : BrakeObs) : Bool :=
  match phase with
  | 0 => true
  | 5 | 7 => o.passed && 10 ≤ o.ms && o.ms ≤ tRel s
  | 6 | 8 => o.passed && 10 ≤ o.ms && o.ms ≤ tApp s
  | _ => o.passed

/-- The change of a phase: a group switch or a brake output (Table SAF-2). -/
def phaseChange (s : State) (t : BrakeTest) (phase : Nat) : State :=
  match phase with
  | 1 =>
    let s := { s with safe := { s.safe with openB := true, openA := s.safe.openA || t.startUp } }
    bankOff (if t.startUp then bankOff s false else s) true
  | 2 => { s with safe := { s.safe with openB := s.safe.heldB, openA := if t.startUp then s.safe.heldA else s.safe.openA } }
  | 5 => s.setBk 0 { s.bk 0 with drv := !s.safe.openB, rb := !s.safe.openB }
  | 6 => s.setBk 0 { s.bk 0 with drv := false, rb := false }
  | 7 => s.setBk 1 { s.bk 1 with drv := !s.safe.openB, rb := !s.safe.openB }
  | 8 => s.setBk 1 { s.bk 1 with drv := false, rb := false }
  | _ => s

/-- The last phase of a test. -/
def lastPhase (t : BrakeTest) : Nat := if t.elec then 4 else 8

/-- GROUP_FAIL with its immediate action: the bank's switch stays open. -/
def groupFail (s : State) (brakes : Bool) : State := holdOpen (raise s .safe 5 (if brakes then 0x81 else 0x80)) brakes

/-- The check of a bank whose switch closed as SAFE/FIO entered RUN again is judged, the DO bank's first (R330). -/
def groupChecked (s : State) (passed : Bool) : State :=
  match s.safe.groupCheck with
  | [] => s
  | brakes :: rest =>
    let s := { s with safe := { s.safe with groupCheck := rest } }
    if passed then s else groupFail s brakes

/-- A step becomes due at a boundary: the running phase is judged, and the next change is made or the test ends. With no test under
way it is the check of a group switch at entry to RUN. -/
def brakeTestStep (s : State) (o : BrakeObs) : State :=
  match s.safe.btest with
  | none => groupChecked s o.passed
  | some t =>
    let s := if o.passed then recordTime s t.phase o.ms else s
    if 5 ≤ t.phase && o.otherMoved then endBrakeTest s t false 6
    else if !phasePasses s t.phase o then
      let s := if t.phase = 1 || t.phase = 2 then groupFail s !(o.doBank && t.startUp) else s
      let s := if 5 ≤ t.phase && o.passed && o.ms < 10 then raise s .safe 9 (if t.phase ≤ 6 then 0 else 1) else s
      endBrakeTest s t false (stepOfPhase t.phase)
    else if t.phase = lastPhase t then endBrakeTest s t true 0
    else
      let s := phaseChange s t (t.phase + 1)
      { s with safe := { s.safe with btest := some { t with phase := t.phase + 1 } } }

def execBrakeTestStep (obs : BrakeObs) (s : State) : Out := .next (brakeTestStep s obs)

/-- SAFE_BTEST_AGE: minutes since the last passed full test, saturating. -/
def btestAge (s : State) : Nat :=
  match s.safe.lastTest with
  | none => 0xFFFFFFFF
  | some t => min 0xFFFFFFFF (((s.tb3 : Int) - t) / 60000000000).toNat

/-- BTEST_DUE, once (R324). -/
def btestDue (s : State) : State :=
  if safeRun s && !s.safe.dueSaid && s.regField .safe 0x134 7 0 * 60 < btestAge s then
    raise { s with safe := { s.safe with due := true, dueSaid := true } } .safe 11 0x81
  else s

def execBtestDue (s : State) : Out := .next (btestDue s)

/-! ### The standby's brake outputs (R316) -/

def execBrakeWord (bk0 bk1 : Bool) (s : State) : Out :=
  .next (if s.pair.role = .standby then
      let s := { s with safe := { s.safe with word := (bk0, bk1), wordsMissed := 0, stbyApply := false } }
      driveBrake (driveBrake s 0 bk0) 1 bk1
    else s)

/-- A word is missing; the second consecutive one applies both brakes. -/
def brakeWordMissed (s : State) : State :=
  if s.pair.role ≠ .standby then s else
  let n := s.safe.wordsMissed + 1
  let s := { s with safe := { s.safe with wordsMissed := n } }
  if n = 2 then
    let s := driveBrake (driveBrake s 0 false) 1 false
    raise { s with safe := { s.safe with stbyApply := true } } .safe 12 0x81
  else s

def execBrakeWordTimeout (s : State) : Out := .next (brakeWordMissed s)

/-! ### Digital inputs (R329 to R339) -/

/-- A channel is BAD (R339). -/
def diBad (s : State) (ch : Nat) : Bool :=
  let d := s.di ch
  d.brk || d.overvolt || d.settling || !safeRun s

def diStat (ch : Nat) : Nat := baseOf .safe + 0x204 + 0x10 * ch

/-- When a channel leaves BAD, its level is taken without an edge (R337). -/
def diSettle (s : State) (ch : Nat) : State :=
  if diBad s ch then s else s.setDi ch { s.di ch with accepted := (s.di ch).raw }

/-- The time for which a new level of a channel has to hold: FILTER × 100 µs, and at least 1 ms for a transition to 0 with BREAK_EN
(R335, R337). -/
def diHold (s : State) (ch : Nat) (level : Bool) : Nat :=
  let filter := s.regField .safe (0x200 + 0x10 * ch) 23 16 * 100000
  if !level && bitAt (s.reg .safe (0x200 + 0x10 * ch)) 1 then max 1000000 filter else filter

/-- A level has held for the filter time (R335 to R337): it is accepted then, and never before the edge is known. -/
def diEdge (s : State) (ch : Nat) (level : Bool) (began : Nat) : State :=
  let d := { s.di ch with raw := level }
  if diBad s ch || d.accepted = level then s.setDi ch d
  else s.setDi ch { d with accepted := level, acceptedAt := max s.tb3 (began + diHold s ch level), stamp := began / 1000 * 1000, stampBefore := d.stamp, edges := (d.edges + 1) % 256,
                           edgesLatch := satUp 255 d.edgesLatch }

def execEdge (ch : Fin 18) (level : Bool) (began : Nat) (s : State) : Out := .next (diEdge s ch level began)

def breakEn (s : State) (ch : Nat) : Bool := bitAt (s.reg .safe (0x200 + 0x10 * ch)) 1

/-- A break is declared on a channel that expects a sensor resistor (R333). -/
def execDiBreak (ch : Fin 18) (s : State) : Out :=
  .next (if breakEn s ch && !(s.di ch).brk then raise (s.setDi ch { s.di ch with brk := true }) .safe 0x10 (diStat ch) else s)

def execBreakCleared (ch : Fin 18) (s : State) : Out := .next (diSettle (s.setDi ch { s.di ch with brk := false }) ch)

/-- The range of a channel's group; BF0 and BF1 are fixed to 24 V (R331). -/
def diRange (s : State) (ch : Nat) : Nat := if ch < 16 then s.regField .safe (0x500 + 4 * (ch / 4)) 1 0 else 0

/-- Over-voltage begins or ends (R332); range 2 has no such limit. -/
def diOvervolt (s : State) (ch : Nat) (active : Bool) : State :=
  if active then
    if diRange s ch = 2 || (s.di ch).overvolt then s
    else raise (s.setDi ch { s.di ch with overvolt := true }) .safe 0x11 (diStat ch)
  else diSettle (s.setDi ch { s.di ch with overvolt := false }) ch

def execDiOvervolt (ch : Fin 18) (active : Bool) (s : State) : Out := .next (diOvervolt s ch active)

def execRangeSettled (ch : Fin 18) (s : State) : Out := .next (diSettle (s.setDi ch { s.di ch with settling := false }) ch)

/-! ### Field supplies (R329) -/

def supplyAddr : Nat := baseOf .safe + 0x510

def execSupplyLow (brakes : Bool) (s : State) : Out :=
  .next (raise { s with safe := if brakes then { s.safe with lpbLow := true } else { s.safe with lpaLow := true } }
    .safe 0x16 supplyAddr)

def execSupplyHigh (brakes : Bool) (s : State) : Out :=
  .next (raise { s with safe := if brakes then { s.safe with lpbHigh := true } else { s.safe with lpaHigh := true } }
    .safe 0x17 supplyAddr)

def execFieldSupplyRecovered (brakes : Bool) (s : State) : Out :=
  .next { s with safe := if brakes then { s.safe with lpbLow := false, lpbHigh := false }
                         else { s.safe with lpaLow := false, lpaHigh := false } }

/-! ### Digital outputs (R342 to R344) -/

def doStat (m : Nat) : Nat := baseOf .safe + 0x404 + 0x10 * m

/-- A trip switches an energised channel off and latches it. -/
def doTrip (s : State) (m : Fin 8) (temp : Bool) : State :=
  let d := s.dout m
  if !d.drv then s else
  let s := s.setDout m { d with latched := true, zeroSeen := false, drv := false, rb := false,
                                overload := d.overload || !temp, overtemp := d.overtemp || temp, hot := d.hot || temp }
  raise s .safe (if temp then 0x13 else 0x12) (doStat m)

def execDoOverload (m : Fin 8) (s : State) : Out := .next (doTrip s m false)

def execDoOvertemp (m : Fin 8) (s : State) : Out := .next (doTrip s m true)

def execJunctionCooled (m : Fin 8) (s : State) : Out := .next (s.setDout m { s.dout m with hot := false })

/-- The off-state test finds no load (R343). -/
def execDoOpen (m : Fin 8) (s : State) : Out :=
  let d := s.dout m
  .next (if bitAt (s.reg .safe (0x400 + 0x10 * m)) 0 && !d.drv && !s.safe.openA && s.safe.pulse ≠ some (.dout m)
            && !d.isOpen then
      raise (s.setDout m { d with isOpen := true }) .safe 0x14 (doStat m)
    else s)

def execOpenLoadCleared (m : Fin 8) (s : State) : Out := .next (s.setDout m { s.dout m with isOpen := false })

/-- The readback of an unscheduled off channel stays high (R344). -/
def execDoFeed (m : Fin 8) (s : State) : Out :=
  let d := s.dout m
  .next (if !scheduled s (.dout m) && !d.cmd && !s.safe.openA && !d.feed then
      raise (s.setDout m { d with feed := true, rb := true }) .safe 0x15 (doStat m)
    else s)

/-! ### Settings and shown registers (R310, R325, R345) -/

/-- A value that the ranges of Tables SAF-5 and FIO-5 admit. -/
def safeSettingOk (s : State) (off : Nat) (v : W32) : Bool :=
  if off = 0x108 then
    let x := field v 17 0
    1 ≤ x && x ≤ 259200 && (s.safe.degradeFrom.isNone || x ≤ s.regField .safe 0x108 17 0)
  else if off = 0x118 then
    let a := field v 27 16
    let r := field v 11 0
    50 ≤ a && a ≤ 2000 && 50 ≤ r && r ≤ 2000
  else if off = 0x134 then 1 ≤ field v 7 0 && field v 7 0 ≤ 168
  else if 0x200 ≤ off && off < 0x320 then 1 ≤ field v 23 16 && field v 23 16 ≤ 200
  else if 0x500 ≤ off && off < 0x510 then field v 1 0 ≠ 3
  else true

def bits2 (b1 b0 : Bool) : Nat := b2n b1 * 2 + b2n b0

/-- What a read-only register of SAFE/FIO shows. -/
def safeRead (s : State) (off : Nat) : W32 :=
  if off = 0x100 then
    pack [(b2n s.safe.safe, 15), (b2n s.safe.degradeFrom.isSome, 14), (b2n (s.voter.planned && s.voter.mode = .pair), 13),
      (b2n s.safe.btest.isSome, 12), (b2n s.safe.due, 11), (b2n s.safe.stbyApply, 10), (b2n s.safe.openB, 9),
      (b2n s.safe.openA, 8)]
  else if off = 0x104 then s.safe.cause.word
  else if off = 0x10C then BitVec.ofNat 32 s.safe.degradeTime
  else if off = 0x110 then
    pack [(bits2 (bfReleased s 1 s.safe.bk1.bf) (bfReleased s 0 s.safe.bk0.bf), 10), (bits2 s.safe.bk1.rb s.safe.bk0.rb, 8),
      (bits2 s.safe.bk1.drv s.safe.bk0.drv, 4), (bits2 s.safe.bk1.cmd s.safe.bk0.cmd, 0)]
  else if off = 0x11C then pack [(s.safe.rounds, 16), (s.safe.pw, 0)]
  else if off = 0x120 then pack [(s.safe.skipped, 16), (s.safe.lastPulsed, 12)]
  else if off = 0x124 then s.safe.btestWin.word
  else if off = 0x128 then pack [(s.safe.bk0.appMs, 16), (s.safe.bk0.relMs, 0)]
  else if off = 0x12C then pack [(s.safe.bk1.appMs, 16), (s.safe.bk1.relMs, 0)]
  else if off = 0x130 then BitVec.ofNat 32 (btestAge s)
  else if off = 0x510 then
    pack [(s.safe.lpaVolt, 24), (s.safe.lpbVolt, 16), (b2n s.safe.lpbLow, 3), (b2n s.safe.lpaLow, 2),
      (b2n s.safe.lpbHigh, 1), (b2n s.safe.lpaHigh, 0)]
  else if 0x200 ≤ off && off < 0x320 then
    let d := s.di ((off - 0x200) / 0x10)
    match off % 0x10 with
    | 4 => pack [(d.current, 24), (d.edges, 16), (d.tag.code, 6), (b2n d.settling, 5), (b2n d.overvolt, 4), (b2n d.brk, 3),
             (b2n d.raw, 2), (b2n d.accepted, 0)]
    | 8 => BitVec.ofNat 32 d.stamp
    | _ => BitVec.ofNat 32 (d.stamp / 2 ^ 32)
  else if 0x400 ≤ off && off < 0x480 then
    let d := s.dout ((off - 0x400) / 0x10)
    match off % 0x10 with
    | 4 => pack [(b2n d.cmd, 8), (b2n d.feed, 7), (b2n d.rb, 6), (b2n s.safe.openA, 5), (b2n d.overtemp, 4),
             (b2n d.overload, 3), (b2n d.isOpen, 2), (b2n d.latched, 1), (b2n d.drv, 0)]
    | _ => pack [(d.currentMax, 16), (d.current, 0)]
  else 0

end Sys2Proof.Machine
end

