-- ==== Sys2Proof/Machine/Grid.lean ====
section
/-! DEFINITION. The grid of boundaries: where the next boundary falls, which number it takes, and where the guard starts (R58 to R62,
R64, R167, R168, R258, R403). -/

namespace Sys2Proof.Machine

open Sys2Proof

def periodNs (s : State) : Nat := s.tick.period * Config.periodUnit

/-- TICK_OFFSET. -/
def gridOffset (s : State) : Nat := (s.reg .tick 0x108).toNat

/-- TB0 is locked: it has reached lock and has not lost its master (R403). -/
def tb0Locked (s : State) : Bool :=
  let b := s.time.tb0
  b.state = .locked || b.state = .master || (b.state = .tracking && b.everLocked)

def alignNow (s : State) : Align := if s.time.tb0.state = .holdover then .holdover else .aligned

/-- The first TB3 instant, not before the base's anchor, at which a time base reads a value. -/
def TimeBase.instantOf (b : TimeBase) (v : Nat) : Nat :=
  let rate : Nat := ((2 ^ 40 : Int) + b.r).toNat
  b.anchor + (v * 2 ^ 40 - b.val + (rate - 1)) / rate

/-- The TB3 instant of boundary `n` of the grid on TB0. -/
def gridInstant (s : State) (n : Nat) : Nat := s.time.tb0.instantOf (n * periodNs s + gridOffset s)

/-- The first number of the grid on TB0 whose instant is not before a TB3 instant. -/
def gridNumber (s : State) (t : Nat) : Nat := (s.time.tb0.ns t + (periodNs s - 1) - gridOffset s) / periodNs s

/-- How a boundary comes to its number: by the active module's marker, as the next of the grid, as the first of a new grid, or as the
next on TB3 after a re-phase that the count does not allow (R59, R60, R258). -/
inductive GridMove | follow | count | rephase | behind
deriving DecidableEq, Repr

/-- A boundary's nominal instant as a TB3 reading, and its number. -/
structure GridPoint where
  time : Nat
  n : Nat
  move : GridMove
deriving DecidableEq, Repr

/-- A standby in sync takes the boundary after the one before from the active module's last marker (R258). -/
def followPoint (s : State) : Option GridPoint :=
  if s.pair.role = .standby && (s.pair.state = .syncing || s.pair.state = .synced) then
    s.pair.follow.map fun f =>
      let k := (s.tick.time + periodNs s / 2 - f.2 + (periodNs s - 1)) / periodNs s
      ⟨f.2 + k * periodNs s, f.1 + k, .follow⟩
  else none

/-- The boundary that ends the tick under way. -/
def nextPoint (s : State) : GridPoint :=
  match followPoint s with
  | some g => g
  | none =>
    let t := s.tick.time + periodNs s
    if s.tick.rephaseDue && s.tick.align ≠ .behind then
      let n := gridNumber s t
      if n ≤ s.tick.n then ⟨t, s.tick.n + 1, .behind⟩ else ⟨max t (gridInstant s n), n, .rephase⟩
    else if s.tick.align = .aligned || s.tick.align = .holdover then
      ⟨max (s.tick.time + 1) (gridInstant s (s.tick.n + 1)), s.tick.n + 1, .count⟩
    else ⟨t, s.tick.n + 1, .count⟩

/-- The first boundary after a module reset, which step 9 reaches at `t`: on the grid of train time where TB0 is locked, else number 0. -/
def firstPoint (s : State) (t : Nat) : GridPoint :=
  match followPoint s with
  | some g => ⟨t, g.n, .follow⟩
  | none => if tb0Locked s then ⟨max t (gridInstant s (gridNumber s t)), gridNumber s t, .rephase⟩ else ⟨t, 0, .count⟩

/-- The guard start of the current tick, as a TB3 instant: the last 0.05 P before the next boundary (R62, R64). -/
def guardInstant (s : State) : Nat := (nextPoint s).time - periodNs s / 20

end Sys2Proof.Machine
end

