-- ==== Sys2Proof/Machine/Can.lean ====
section
/-! DEFINITION. The CAN channels and CAN time (chapter 13). Message objects are named by their program's number times 8,192 plus
their object number, so that the three SPLIT programs keep their own (log entry 18). -/

namespace Sys2Proof.Machine

open Sys2Proof

/-! ### Message objects and their routes, shared by every port -/

/-- The map that places a program: the map in force, or the SPLIT map of its lane (R200). -/
def mapFor (s : State) (p : Nat) : Option PMap :=
  if p = 0 then s.place.map else (s.place.splitMaps ++ s.place.set).find? fun m => m.laneSet = 3 + p

def objKey (p index : Nat) : Nat := p * 0x2000 + index

def msgDecl (s : State) (key : Nat) : Option MsgDecl :=
  (progOf s (key / 0x2000)).msgs.find? fun m => m.index = key % 0x2000

def PMap.route (m : PMap) (index : Nat) : Option RouteRec := m.routes.find? fun r => r.index = index

def routeOf (s : State) (key : Nat) : Option RouteRec := (mapFor s (key / 0x2000)).bind (·.route (key % 0x2000))

/-- The message objects that the maps in force route to a port, by program and index. -/
def routedTo (s : State) (port : Port) : List (Nat × MsgDecl × RouteRec) :=
  (progsInForce s).flatMap fun p =>
    match mapFor s p with
    | none => []
    | some m => (progOf s p).msgs.filterMap fun d =>
        match m.route d.index with
        | some r => if r.port = some port then some (objKey p d.index, d, r) else none
        | none => none

/-- The module is a standby: it runs no program and drives nothing (R258). -/
def programHeld (s : State) : Bool := s.pair.role = .standby

/-- STBY_HOLD of a CAN channel: the module is a standby, or LINKED or REFUSED and not running the program (R353). -/
def canHeld (s : State) : Bool :=
  programHeld s || ((s.pair.state = .linked || s.pair.state = .refused) && !(s.tick.running && running s))

/-! ### Settings and modes -/

def canUnit (n : Fin 6) : UnitId := .can n

/-- CANn_CFG in effect: a change waits for the end of the frame on the bus (R352). -/
def canCfg (s : State) (n : Fin 6) : W32 := (s.can n).cfgHeld.getD (s.reg (.can n) 0x100)

def canFd (s : State) (n : Fin 6) : Bool := bitAt (canCfg s n) 4

/-- The mode in effect (Table CAN-3): MONITOR under STBY_HOLD, 3 during the loopback self-test. -/
def canMode (s : State) (n : Fin 6) : Nat :=
  if (s.ucb (.can n)).state = .test then 3
  else if canHeld s then 2
  else field (canCfg s n) 1 0

def canRun (s : State) (n : Fin 6) : Bool := (s.ucb (.can n)).state = .run && !s.clk.canSilent

def canBusOff (c : CanState) : Bool := c.state = 2 || c.state = 3

/-- A value that the ranges of Table CAN-2 and R373 admit. -/
def canSettingOk (s : State) (n : Fin 6) (off : Nat) (v : W32) : Bool :=
  let nominal (w : W32) := (field w 31 23 + 1) * (3 + field w 22 15 + field w 14 8)
  let data (w : W32) := (field w 28 24 + 1) * (3 + field w 20 16 + field w 12 8)
  if off = 0x100 then field v 1 0 ≠ 3
  else if off = 0x104 then
    1 ≤ field v 22 15 && field v 6 0 ≤ field v 14 8 && 80 ≤ nominal v && nominal v ≤ 8000
  else if off = 0x108 then
    field v 3 0 ≤ field v 12 8 && field v 12 8 ≤ 15 && 10 ≤ data v && data v ≤ nominal (s.regNext (.can n) 0x104)
  else if off = 0x150 then
    field v 1 0 ≠ 3 && (field v 1 0 = 0 || (1 ≤ field v 31 16 && field v 31 16 ≤ 10000 && 1 ≤ field v 15 8))
  else if off = 0x154 then bitAt v 31 || field v 28 11 = 0
  else true

/-! ### Filter list and message RAM (R354, R355) -/

/-- The test of an entry's KIND (R356). -/
def FilterEntry.admits (e : FilterEntry) (f : CanFrame) : Bool :=
  e.ext = f.ext && (e.format = 0 || (e.format = 1 && !f.fd) || (e.format = 2 && f.fd)) &&
    (match e.kind with
     | 1 => f.ident = e.a || f.ident = e.b
     | 2 => e.a ≤ f.ident && f.ident ≤ e.b
     | 4 => Nat.land f.ident e.b = Nat.land e.a e.b
     | _ => false)

/-- The destination that a buffer code gives (R194, R209). -/
def destOf (buffer : Nat) : Nat × Nat :=
  if buffer = 0x300 then (1, 0) else if buffer = 0x301 then (2, 0) else (0, buffer - 0x200)

def entryOf (key : Nat) (d : MsgDecl) (r : RouteRec) : FilterEntry :=
  { kind := d.filter.1, ext := d.ext, format := d.format, dest := (destOf r.buffer).1, buffer := (destOf r.buffer).2,
    object := key, a := d.filter.2.1, b := d.filter.2.2, hits := 0 }

/-- PAIR before SPAN before MASK, then ascending A, then object number (R356). -/
def entryBefore (x y : FilterEntry) : Bool :=
  x.kind < y.kind || (x.kind = y.kind && (x.a < y.a || (x.a = y.a && x.object ≤ y.object)))

def filterList (s : State) (n : Fin 6) : List FilterEntry :=
  sortBy entryBefore (((routedTo s (.can n)).filter fun t => !t.2.1.tx).map fun t => entryOf t.1 t.2.1 t.2.2)

/-- Blocks of one frame cell. -/
def cellBlocks (len : Nat) : Nat := if len ≤ 48 then 1 else 2

def longest (l : List Nat) : Nat := l.foldl max 0

/-- The blocks that the channel's objects take (R354). -/
def allotBlocks (objects : List (Nat × MsgDecl × RouteRec)) : Nat :=
  let tx := objects.filter fun t => t.2.1.tx
  let rx := objects.filter fun t => !t.2.1.tx
  let queued (code : Nat) := (objects.filter fun t => t.2.2.buffer = code).map (·.2.1.len)
  (rx.length + 3) / 4
    + ((tx.filter fun t => t.2.2.buffer < 0x100).map fun t => t.2.1.sendMax * cellBlocks t.2.1.len).sum
    + (if (queued 0x100).isEmpty then 0 else 32 * cellBlocks (longest (queued 0x100)))
    + ((rx.filter fun t => t.2.2.buffer < 0x300).map fun t => (t.2.1.rxDepth + 1) * cellBlocks t.2.1.len).sum
    + (if (queued 0x300).isEmpty then 0 else 64 * cellBlocks (longest (queued 0x300)))
    + (if (queued 0x301).isEmpty then 0 else 64 * cellBlocks (longest (queued 0x301)))
    + 16

/-- The channel lays out its RAM from the maps in force; hit counts of entries that stay are kept unless it starts. -/
def canLayout (s : State) (n : Fin 6) (fresh : Bool) : State :=
  let c := s.can n
  let fl := (filterList s n).map fun e =>
    if fresh then e
    else match c.filter.find? fun o => o.object = e.object with | some o => { e with hits := o.hits } | none => e
  s.setCan n { c with filter := fl, ramUsed := allotBlocks (routedTo s (.can n)) }

/-! ### Error state (R365 to R367) -/

/-- Error active or passive from the counters; entry to passive is counted and offered (R365). -/
def canErrState (s : State) (n : Fin 6) (c : CanState) : State :=
  if canBusOff c then s.setCan n c
  else
    let p := 128 ≤ c.tec || 128 ≤ c.rec_
    if p && c.state = 0 then
      offer (s.setCan n { c with state := 1, passive := satUp 255 c.passive }) 0x13 (.can n)
        (bytesLE 2 c.tec ++ bytesLE 1 c.rec_)
    else s.setCan n { c with state := if p then 1 else 0 }

/-- The frame on the bus returns to the front of its place, or is dropped when it is not to be chosen again. -/
def CanState.putBack (c : CanState) (x : Sending) : CanState :=
  if x.withdrawn ≠ .no then c
  else if x.place < 32 then { c with txBufs := mapPut x.place (x.cell :: mapGetD c.txBufs x.place []) c.txBufs }
  else if x.place = 32 then { c with txQueue := x.cell :: c.txQueue }
  else { c with refDue := some (c.refDue.getD x.cell) }

/-- CANn_TX_CRES's value field (Table CAN-5). -/
def cresValue (outcome frames object : Nat) : Nat := outcome * 2 ^ 24 + frames % 256 * 2 ^ 16 + object % 8192

/-- The frame on the bus ends without success: a waiting cancel is answered WITHDRAWN, a superseded frame is not chosen again, a
moved one is undelivered (R363, R364, R368). -/
def canAbandon (c : CanState) : CanState :=
  match c.sending with
  | none => c
  | some x =>
    let c := { (c.putBack x) with sending := none }
    match x.withdrawn with
    | .no => c
    | .superseded => c
    | .moved => { c with undelivered := satUp 255 c.undelivered }
    | .cancelled =>
      match c.cancel with
      | some w => { c with cancel := none, cancelled := min 255 (c.cancelled + 1),
                           cres := c.cres.deliver (cresValue 3 (w.frames + 1) w.object) }
      | none => c

/-- The end of a frame lets a waiting change of timing or mode take hold, after which the channel integrates (R352). -/
def CanState.frameEnd (c : CanState) (idle : Nat) : CanState :=
  if c.cfgHeld.isSome then { c with cfgHeld := none, act := 0 } else { c with act := idle }

/-- Bus-off (R366). -/
def canEnterBusOff (s : State) (n : Fin 6) (c : CanState) : State :=
  let auto := bitAt (s.reg (.can n) 0x100) 8
  let s := s.setCan n { c with tec := 256, state := if auto then 3 else 2, recov := 0, act := 0,
                               busoff := satUp 255 c.busoff }
  (raise s (.can n) 1 (baseOf (.can n))).lose (.port (.can n))

/-- An error that moves the counters; in RESTRICTED and MONITOR they do not move (Table CAN-3). -/
def canError (s : State) (n : Fin 6) (lec : Nat) (dataPhase sending : Bool) (by_ : Nat) : State :=
  let c := s.can n
  let c := if dataPhase then { c with dlec := lec } else { c with lec := lec }
  let passive := c.state = 1
  let c := (canAbandon c).frameEnd 1
  if canMode s n ≠ 0 then s.setCan n c
  else if sending then
    let c := if lec = 6 && passive then c else { c with tec := min 256 (c.tec + 8) }
    if 255 < c.tec then canEnterBusOff s n c else canErrState s n c
  else canErrState s n { c with rec_ := min 128 (c.rec_ + by_) }

/-- A protocol exception: counted and offered, then integration, or a form error with PEX_FORM (R352). -/
def canException (s : State) (n : Fin 6) : State :=
  let c := s.can n
  let s := s.setCan n { c with pexc := satUp 255 c.pexc }
  let s := offer s 0x14 (.can n) (bytesLE 1 c.lec ++ bytesLE 1 c.dlec)
  if bitAt (canCfg s n) 9 then canError s n 4 false c.sending.isSome 1
  else
    let c := canAbandon (s.can n)
    s.setCan n { c with act := 0, cfgHeld := none }

def canFrameError (s : State) (n : Fin 6) (e : CanErr) : State :=
  if !canRun s n || canBusOff (s.can n) then s else
  match e with
  | .arbitration =>
    if (s.can n).sending.isNone then s else s.setCan n { canAbandon (s.can n) with act := 2 }
  | .send lec dp => if (s.can n).sending.isNone then s else canError s n lec dp true 0
  | .receive lec dp k => canError s n lec dp false k
  | .exception => canException s n

def execFrameError (n : Fin 6) (e : CanErr) (s : State) : Out := .next (canFrameError s n e)

/-- Recovery completes: error active with both counters at 0 (R367). -/
def canRecovered (s : State) (n : Fin 6) : State :=
  let c := s.can n
  if c.state = 3 && (s.ucb (.can n)).state = .run then
    (s.setCan n { c with state := 0, tec := 0, rec_ := 0, recov := 128, act := 1, recovered := satUp 255 c.recovered }).healthy
      (.port (.can n))
  else s

def execRecoveryComplete (n : Fin 6) (s : State) : Out := .next (canRecovered s n)

/-- 11 recessive bits have been seen (R352). -/
def execBusIntegration (n : Fin 6) (s : State) : Out :=
  .next (if canRun s n && (s.can n).act = 0 && !canBusOff (s.can n) then s.setCan n { s.can n with act := 1 } else s)

/-! ### Reception (R356 to R358) -/

/-- A ring of `depth` frames: a full one loses its oldest. -/
def ringPush (ring : List FrameCell) (depth : Nat) (f : FrameCell) : List FrameCell × Bool :=
  if ring.length < depth then (ring ++ [f], false) else (ring.drop 1 ++ [f], true)

def mark (l : List Nat) (k : Nat) : List Nat := if k ∈ l then l else l ++ [k]

/-- A frame that became valid at `t` goes into the shadow cell: the ring stands frozen from the nominal instant of the next boundary
until its latch (R357). -/
def shadowed (s : State) (t : Nat) : Bool := s.tick.begun && (nextPoint s).time ≤ t

/-- A frame goes into the ring of its object, the oldest leaving a full one with OVERRUN marked (R357, R358), or into its shadow. -/
def canStage (s : State) (n : Fin 6) (key : Nat) (f : FrameCell) : State :=
  let c := s.can n
  let depth := ((msgDecl s key).map (·.rxDepth)).getD 1
  let old := mapGetD c.rxBufs key []
  let (ring, full) := if shadowed s f.got then (old ++ [f], false) else ringPush old depth f
  s.setCan n { c with rxBufs := mapPut key ring c.rxBufs,
                      overrun := if full then satUp 255 c.overrun else c.overrun,
                      marked := if full then mark c.marked key else c.marked }

/-- A receive queue of 64 cells takes a frame or drops it (R358). -/
def canQueue (s : State) (n : Fin 6) (safety : Bool) (key : Nat) (f : FrameCell) : State :=
  let c := s.can n
  let q := if safety then c.queueS else c.queueN
  if q.length < 64 then
    s.setCan n (if safety then { c with queueS := q ++ [f] } else { c with queueN := q ++ [f] })
  else
    raise (s.setCan n { c with queueOvf := satUp 255 c.queueOvf, marked := mark c.marked key }) (.can n) 4
      (baseOf (.can n))

/-- REC after a valid frame, as ISO 11898-1 prescribes; from above 127 it falls to a value from 119 to 127 that the
standard leaves open. -/
def recDown (s : State) (c : CanState) : State × CanState :=
  if 127 < c.rec_ then
    let (v, s) := s.free
    (s, { c with rec_ := 119 + v % 9 })
  else (s, { c with rec_ := c.rec_ - 1 })

/-- A matched frame is counted in HITS and stored when its length is the object's. -/
def canAccept (s : State) (n : Fin 6) (e : FilterEntry) (f : CanFrame) (t : Nat) : State :=
  let c := s.can n
  let c := { c with filter := c.filter.map fun x => if x = e then { x with hits := (x.hits + 1) % 2 ^ 32 } else x }
  let len := ((msgDecl s e.object).map (·.len)).getD 0
  if f.data.length ≠ len then s.setCan n { c with badLen := satUp 255 c.badLen }
  else
    let cell : FrameCell := { ext := f.ext, fd := f.fd, brs := f.brs, esi := f.esi, object := e.object, ident := f.ident,
                              stamp := t, csn := 0, data := f.data, got := s.tb3 }
    let s := s.setCan n { c with rxOk := (c.rxOk + 1) % 65536 }
    match e.dest with
    | 0 => canStage s n e.object cell
    | 1 => canQueue s n true e.object cell
    | _ => canQueue s n false e.object cell

/-- A valid frame on the bus. -/
def canReceive (s : State) (n : Fin 6) (f : CanFrame) (t : Nat) : State :=
  let s := s.at_ t
  if !canRun s n || canBusOff (s.can n) || (s.can n).act = 0 || (f.fd && !canFd s n) then s else
  let c := s.can n
  let (s, c) := if canMode s n = 0 then recDown s c else (s, c)
  let c := if c.act = 2 then c.frameEnd 1 else c
  let s := canErrState s n c
  let c := s.can n
  if f.remote then s.setCan n { c with remote := satUp 255 c.remote }
  else
    match c.filter.find? fun e => e.admits f with
    | none => s.setCan n { c with noMatch := (c.noMatch + 1) % 65536 }
    | some e => canAccept s n e f t

def execCanFrameReceived (n : Fin 6) (f : CanFrame) (at_ : Nat) (s : State) : Out := .next (canReceive s n f at_)

/-- One frame leaves the receive queues, S before N (R358). -/
def canDrain (s : State) (n : Fin 6) : State :=
  let c := s.can n
  match c.queueS, c.queueN with
  | f :: q, _ => canStage (s.setCan n { c with queueS := q }) n f.object f
  | [], f :: q => canStage (s.setCan n { c with queueN := q }) n f.object f
  | [], [] => s

def execQueueDrain (n : Fin 6) (s : State) : Out := .next (canDrain s n)

/-! ### Transmission (R361 to R364) -/

/-- What arbitration compares: the base identifier, then base before extended, then the extension. -/
def arbKey (c : FrameCell) : Nat :=
  if c.ext then c.ident / 2 ^ 18 * 2 ^ 19 + 2 ^ 18 + c.ident % 2 ^ 18 else c.ident * 2 ^ 19

/-- The pending candidates: the head of each dedicated buffer, and the head of the queue as buffer 32. -/
def txCandidates (c : CanState) : List (Nat × FrameCell) :=
  (c.txBufs.filterMap fun b => b.2.head?.map fun f => (b.1, f)) ++ (c.txQueue.head?.map fun f => (32, f)).toList

/-- The candidate that would win arbitration; a tie goes to the lower buffer. -/
def bestTx : List (Nat × FrameCell) → Option (Nat × FrameCell)
  | [] => none
  | x :: xs =>
    match bestTx xs with
    | none => some x
    | some y => if arbKey y.2 < arbKey x.2 then some y else some x

def CanState.take (c : CanState) (place : Nat) : CanState :=
  if place < 32 then { c with txBufs := mapPut place ((mapGetD c.txBufs place []).drop 1) c.txBufs }
  else if place = 32 then { c with txQueue := c.txQueue.drop 1 }
  else { c with refDue := none }

/-- The frame to send at a point at which one may start (R362). -/
def txChoice (c : CanState) : Option (Nat × FrameCell) :=
  match c.refDue with
  | some f => some (33, f)
  | none => bestTx (txCandidates c)

/-- The channel chooses its next frame; a draining one starts none (R38). -/
def canChoose (s : State) (n : Fin 6) (t : Nat) : State :=
  let s := s.at_ t
  let c := s.can n
  if !canRun s n || (s.ucb (.can n)).draining || canMode s n ≠ 0 || canBusOff c || c.act ≠ 1 || c.sending.isSome then s
  else
    match txChoice c with
    | none => s
    | some (p, f) =>
      s.setCan n { c.take p with sending := some { place := p, cell := { f with stamp := t, esi := c.state = 1 } }, act := 3 }

def execTransmitChoice (n : Fin 6) (at_ : Nat) (s : State) : Out := .next (canChoose s n at_)

/-- TB2 in nanoseconds at a TB3 instant. -/
def tb2At (s : State) (t : Nat) : Nat := s.time.tb2.ns t

/-- A cancel that waited for this frame reports CANCEL_LATE (Table CAN-5). -/
def canCancelLate (s : State) (n : Fin 6) (x : Sending) : State :=
  let c := s.can n
  match c.cancel with
  | some w =>
    if x.withdrawn = .cancelled && w.object = x.cell.object then
      let s := s.setCan n { c with cancel := none, late := satUp 255 c.late,
                                   cres := c.cres.deliver (cresValue 2 w.frames w.object) }
      offer s 0x11 (.can n) (bytesLE 2 (w.object % 8192) ++ bytesLE 1 n.val)
    else s
  | none => s

/-- A sent frame completes. -/
def canSent (s : State) (n : Fin 6) (t : Nat) : State :=
  let s := s.at_ t
  let c := s.can n
  match c.sending with
  | none => s
  | some x =>
    let (v, s) := if bitAt (s.reg (.can n) 0x10C) 31 && x.cell.fd then s.free else (c.loopDly, s)
    let c := { c with sending := none, txOk := (c.txOk + 1) % 65536, tec := c.tec - 1, loopDly := v % 128 }
    let c := if x.place = 33 then
        { c with tmSent := some { cycle := field (BitVec.ofNat 8 (x.cell.data.headD 0).toNat) 5 0,
                                  tb2 := tb2At s x.cell.stamp, at_ := x.cell.stamp, epoch := s.time.tb2.epoch },
                 tmSof := tb2At s x.cell.stamp, tmFirst := false }
      else c
    let s := canErrState s n (c.frameEnd 1)
    canCancelLate s n x

def execFrameTransmitted (n : Fin 6) (at_ : Nat) (s : State) : Out := .next (canSent s n at_)

/-- The pending frames of an object leave the channel's buffers. -/
def CanState.removeObject (c : CanState) (key : Nat) : CanState × List FrameCell :=
  let inBufs := c.txBufs.flatMap fun b => b.2.filter fun f => f.object = key
  let inQueue := c.txQueue.filter fun f => f.object = key
  ({ c with txBufs := c.txBufs.map fun b => (b.1, b.2.filter fun f => f.object ≠ key),
            txQueue := c.txQueue.filter fun f => f.object ≠ key }, inBufs ++ inQueue)

/-- A cancel of an object's pending frames (R364). A cancel that waits already refuses another. -/
def canCancel (s : State) (n : Fin 6) (key : Nat) : Option State :=
  let c := s.can n
  if c.cancel.isSome then none
  else
    let (c, gone) := c.removeObject key
    let k := gone.length
    let c := { c with cancelled := min 255 (c.cancelled + k), cres := c.cres.start }
    match c.sending with
    | some x =>
      if x.cell.object = key && x.place ≠ 33 then
        some (s.setCan n { c with sending := some { x with withdrawn := .cancelled },
                                  cancel := some { object := key, frames := k } })
      else some (s.setCan n { c with cres := c.cres.deliver (cresValue (if k = 0 then 0 else 1) k key) })
    | none => some (s.setCan n { c with cres := c.cres.deliver (cresValue (if k = 0 then 0 else 1) k key) })

/-- A commit supersedes the frames of the object's dedicated buffer that have not sent start of frame (R363). -/
def canSupersede (s : State) (n : Fin 6) (buffer : Nat) : State :=
  let c := s.can n
  let old := mapGetD c.txBufs buffer []
  let c := { c with txBufs := mapPut buffer [] c.txBufs, superseded := min 255 (c.superseded + old.length) }
  s.setCan n (match c.sending with
    | some x => if x.place = buffer && x.withdrawn = .no then { c with sending := some { x with withdrawn := .superseded } }
                else c
    | none => c)

/-- A committed message enters its buffer or the queue; whether it did (R361, R363). -/
def canEnter (s : State) (n : Fin 6) (d : MsgDecl) (r : RouteRec) (cell : FrameCell) : State × Bool :=
  let c := s.can n
  if d.fd && !canFd s n then (s, false)
  else if r.buffer < 0x100 then
    (s.setCan n { c with txBufs := mapPut r.buffer (mapGetD c.txBufs r.buffer [] ++ [cell]) c.txBufs }, true)
  else if c.txQueue.length < 32 then (s.setCan n { c with txQueue := c.txQueue ++ [cell] }, true)
  else (s, false)

def canUndelivered (s : State) (n : Fin 6) : State :=
  s.setCan n { s.can n with undelivered := satUp 255 (s.can n).undelivered }

/-- The pending frames of an object move from one channel to another (R368). -/
def canMove (s : State) (n m : Fin 6) (key : Nat) (d : MsgDecl) (r : RouteRec) : State :=
  let (c, frames) := (s.can n).removeObject key
  let c := match c.sending with
    | some x => if x.cell.object = key && x.withdrawn = .no then { c with sending := some { x with withdrawn := .moved } }
                else c
    | none => c
  if frames.isEmpty then s.setCan n c
  else
    let k := frames.length
    let s := s.setCan n { c with replaced := min 255 (c.replaced + k) }
    let s := s.setCan m { s.can m with replaced := min 255 ((s.can m).replaced + k) }
    let s := offer s 0x12 (.can n) (bytesLE 2 (key % 8192) ++ bytesLE 1 n.val ++ bytesLE 1 m.val ++ bytesLE 1 k)
    frames.foldl (fun s f =>
      let (s, ok) := canEnter s m d r f
      if ok then s else canUndelivered s m) s

/-! ### CAN time (R369 to R372) -/

def tmRole (s : State) (n : Fin 6) : Nat :=
  let r := s.regField (.can n) 0x150 1 0
  if r = 0 then 0 else if programHeld s then 1 else r

def tmRank (s : State) (n : Fin 6) : Nat := s.regField (.can n) 0x150 6 4

/-- The frame is a reference message of the channel's setting (R369). -/
def isReference (s : State) (n : Fin 6) (f : CanFrame) : Bool :=
  let id := s.reg (.can n) 0x154
  !f.fd && !f.remote && f.data.length = 8 && f.ext = bitAt id 31 && f.ident / 8 = field id 28 0 / 8

/-- The representative of an offset modulo 2⁵⁶ nearest zero. -/
def nearZero (v : Int) : Int :=
  let m := v % (2 ^ 56 : Int)
  if m < 2 ^ 55 then m else m - 2 ^ 56

/-- The payload of a reference message (Table CAN-6). -/
def refPayload (disc fu : Bool) (cycle time : Nat) : List Byte :=
  BitVec.ofNat 8 (b2n disc * 128 + b2n fu * 64 + cycle % 64) :: bytesLE 7 (time % 2 ^ 56)

/-- A slave takes a reference: stamps, gaps in CYCLE, a change of master, and the offset that goes to TIME (R371). A reference of its
own is withdrawn, one on the bus is not chosen again (R370). -/
def tmTake (s : State) (n : Fin 6) (f : CanFrame) (t : Nat) : State :=
  let c := s.can n
  let b0 := f.data.headD 0
  let cycle := field b0 5 0
  let rank := f.ident % 8
  let stamp := tb2At s t
  let fu := fromLE (f.data.drop 1)
  let next := match c.tmLast with | some l => (l.cycle + 1) % 64 = cycle | none => false
  let changed := (c.tmLast.isSome || 0 < c.tmHeard || c.tmState = 3) && c.tmMaster ≠ rank
  let offset := match c.tmLast with | some l => nearZero ((fu : Int) - l.tb2) | none => 0
  let measured := bitAt b0 6 && next
  let c := { c with tmState := 2, tmMaster := rank, tmCycle := cycle, tmSof := stamp, tmHeard := t,
                    sending := c.sending.map fun x => if x.place = 33 then { x with withdrawn := .superseded } else x,
                    tmLast := some { cycle, tb2 := stamp, at_ := t }, refDue := none,
                    tmMissed := if c.tmLast.isSome && !next then satUp 255 c.tmMissed else c.tmMissed,
                    tmChanges := if changed then satUp 255 c.tmChanges else c.tmChanges,
                    tmOfs := if measured then offset else c.tmOfs }
  let s := s.setCan n c
  let s := if changed then raise s (.can n) 6 (baseOf (.can n)) else s
  if measured then
    { s with time := { s.time with handed := s.time.handed ++ [{ tb := 2, src := n.val, offset, disc := bitAt b0 7, at_ := t }] } }
  else s

/-- A reference message arrives. A master yields only to a lower rank number (R370). -/
def tmReference (s : State) (n : Fin 6) (f : CanFrame) (t : Nat) : State :=
  let s := s.at_ t
  if tmRole s n = 0 || !canRun s n || canBusOff (s.can n) || !isReference s n f then s
  else if (s.can n).tmState = 3 && tmRank s n ≤ f.ident % 8 then s
  else tmTake s n f t

/-- No valid reference for TIMEOUT: back to WAITING (R371). -/
def tmLostAt (s : State) (n : Fin 6) : State :=
  if tmRole s n ≠ 0 && (s.can n).tmState ≠ 3 then
      raise (s.setCan n { s.can n with tmState := 1, tmLast := none }) (.can n) 5 (baseOf (.can n))
  else s

/-- A potential master's timeout passes (R370). -/
def tmBecome (s : State) (n : Fin 6) : State :=
  if tmRole s n = 2 && canRun s n && !canBusOff (s.can n) && (s.can n).tmState ≠ 3 then
      let c := s.can n
      raise (s.setCan n { c with tmState := 3, tmMaster := tmRank s n, tmFirst := true, tmSent := none,
                                 tmChanges := satUp 255 c.tmChanges }) (.can n) 6 (baseOf (.can n))
  else s

/-- A master queues its reference at a boundary with b mod REF_TICKS = 0 (R370): FU_VALID when its previous reference completed, DISC in
its first and where its TB2 was set since its last. -/
def tmQueue (s : State) (n : Fin 6) (b : Nat) : State :=
  let c := s.can n
  let every := s.regField (.can n) 0x150 31 16
  if tmRole s n = 2 && c.tmState = 3 && canRun s n && canMode s n = 0 && !canBusOff c && every ≠ 0 && b % every = 0 then
    let cycle := (c.tmCycle + 1) % 64
    let fu := !c.tmFirst && (c.tmSent.map (·.cycle)) = some c.tmCycle
    let set := match c.tmSent with | some x => x.epoch ≠ s.time.tb2.epoch | none => false
    let time := match c.tmSent with | some x => x.tb2 | none => 0
    let id := s.reg (.can n) 0x154
    let cell : FrameCell := { ext := bitAt id 31, fd := false, brs := false, esi := false, object := 0,
                              ident := field id 28 0 / 8 * 8 + tmRank s n, stamp := 0, csn := 0,
                              data := refPayload (c.tmFirst || set) fu cycle time }
    s.setCan n { c with refDue := some cell, tmCycle := cycle }
  else s

/-! ### Shown registers, fetches, the units' start and stop -/

def fetchOf (m : NMap Fetch) (bank : Nat) : Fetch := mapGetD m bank {}

/-- A started fetch: the result window starts and the words clear (R41). -/
def Fetch.begin_ (f : Fetch) (sel : Nat) : Fetch := { f with sel, busy := true, result := f.result.start, words := [] }

def Fetch.done (f : Fetch) (value : Nat) (words : List W32) : Fetch :=
  { f with busy := false, result := f.result.deliver value, words }

/-- The words of a filter entry (Table CAN-4). -/
def FilterEntry.words (e : FilterEntry) : List W32 :=
  [pack [(e.kind, 28), (b2n e.ext, 27), (e.format, 25), (e.dest, 23), (e.buffer, 13), (e.object % 8192, 0)],
    BitVec.ofNat 32 e.a, BitVec.ofNat 32 e.b, BitVec.ofNat 32 e.hits]

/-- A filter fetch completes (R373). -/
def canFetchDone (s : State) (n : Fin 6) (bank : Nat) : State :=
  let c := s.can n
  let f := fetchOf c.fetch bank
  if !f.busy then s else
  let e := c.filter[f.sel]?
  let value := b2n e.isSome * 2 ^ 16 + f.sel
  s.setCan n { c with fetch := mapPut bank (f.done value ((e.map (·.words)).getD [])) c.fetch }

def bufferPending (c : CanState) (b : Nat) : Bool :=
  !(mapGetD c.txBufs b []).isEmpty || (match c.sending with | some x => x.place = b | none => false)

/-- What a read-only register of a channel shows. -/
def canRead (s : State) (n : Fin 6) (bank off : Nat) : W32 :=
  let c := s.can n
  let f := fetchOf c.fetch bank
  match off with
  | 0x10C => pack [(c.loopDly, 0)]
  | 0x110 => pack [(c.recov, 24), (c.dlec, 12), (c.lec, 8), (b2n (canHeld s), 7), (c.act, 4), (canMode s n, 2), (c.state, 0)]
  | 0x114 => pack [(b2n (128 ≤ c.rec_), 23), (min 127 c.rec_, 16), (c.tec, 0)]
  | 0x118 => pack [(c.busoff, 24), (c.passive, 16), (c.pexc, 8), (c.recovered, 0)]
  | 0x11C => pack ((List.range 32).map fun b => (b2n (bufferPending c b), b))
  | 0x120 => pack [(c.superseded, 24), (c.txQueue.length, 16), (c.undelivered, 8), (c.replaced, 0)]
  | 0x124 => pack [(c.txOk, 16), (c.cancelled, 8), (c.late, 0)]
  | 0x12C => c.cres.word
  | 0x130 => pack [(c.rxOk, 16), (c.overrun, 8), (c.badLen, 0)]
  | 0x134 => pack [(c.noMatch, 16), (c.remote, 8), (c.queueOvf, 0)]
  | 0x138 => pack [(c.filter.length, 16), (c.ramUsed, 0)]
  | 0x140 => f.result.word
  | 0x144 => f.words.getD 0 0
  | 0x148 => f.words.getD 1 0
  | 0x14C => f.words.getD 2 0
  | 0x158 => pack [(c.tmChanges, 24), (c.tmMissed, 16), (c.tmCycle, 8), (c.tmMaster, 4), (c.tmState, 0)]
  | 0x15C => BitVec.ofInt 32 c.tmOfs
  | 0x160 => BitVec.ofInt 32 (c.tmOfs / 2 ^ 32)
  | 0x164 => BitVec.ofNat 32 c.tmSof
  | 0x168 => BitVec.ofNat 32 (c.tmSof / 2 ^ 32)
  | 0x16C => f.words.getD 3 0
  | _ => 0

/-- A read of CANn_STATUS leaves LEC and DLEC at 7, no error since (Table CAN-8). -/
def canReadEffect (s : State) (n : Fin 6) (bank off : Nat) : State :=
  let c := s.can n
  match off with
  | 0x110 => s.setCan n { c with lec := 7, dlec := 7 }
  | 0x12C => s.setCan n { c with cres := c.cres.consume }
  | 0x140 =>
    let f := fetchOf c.fetch bank
    s.setCan n { c with fetch := mapPut bank { f with result := f.result.consume } c.fetch }
  | _ => s

/-- A change at the shadow swap waits for the end of the frame on the bus, and the channel then integrates (R352). -/
def canSwap (s : State) (n : Fin 6) (before : W32) (timing : Bool) : State :=
  let c := s.can n
  let now := s.reg (.can n) 0x100
  if !timing && Nat.land before.toNat 0x213 = Nat.land now.toNat 0x213 then s
  else if c.act = 2 || c.act = 3 then s.setCan n { c with cfgHeld := some (c.cfgHeld.getD before) }
  else s.setCan n { c with act := 0 }

/-- Each commit whose frames are pending counts as undelivered when GATE_OFF or RESET discards them (R374). -/
def canDiscard (s : State) (n : Fin 6) : State :=
  let c := s.can n
  let keys := ((c.txBufs.flatMap (·.2)) ++ c.txQueue ++ (c.sending.map (·.cell)).toList).map (·.object)
  let s := s.setCan n { c with txBufs := [], txQueue := [], sending := none, refDue := none, act := 0,
                               undelivered := min 255 (c.undelivered + (keys.foldl mark []).length) }
  { s with prog := { s.prog with txUndelivered := keys.foldl mark s.prog.txUndelivered } }

/-- A frame on the bus is abandoned at once, and not sent again, when the channel quiesces (R374). -/
def canQuiesce (s : State) (n : Fin 6) : State :=
  let c := s.can n
  let drop (x : Sending) : Sending := if x.withdrawn = .no then { x with withdrawn := .superseded } else x
  let c := canAbandon { c with sending := c.sending.map drop }
  s.setCan n { c with act := 0 }

/-- START lays out the RAM, with HITS at 0, and the channel integrates (R354, R355). -/
def canStart (s : State) (n : Fin 6) : State :=
  let s := canLayout s n true
  let c := s.can n
  s.setCan n { c with act := 0, tmState := if tmRole s n = 0 then 0 else 1 }

end Sys2Proof.Machine
end

