-- ==== Sys2Proof/Machine/Links.lean ====
section
/-! DEFINITION. What it means for a link or a card to be lost or back, shared by the network, the backplane, the pair links and the
clock domains (R202, R379, R420, R432, R445). -/

namespace Sys2Proof.Machine

open Sys2Proof

/-! ### Ethernet -/

/-- ETHx_CFG.ROLE in force (Table NET-2). -/
def ethRole (s : State) (x : Fin 4) : Nat := s.regField (.eth x) 0x100 1 0

def ptpOn (s : State) (x : Fin 4) : Bool := bitAt (s.reg (.eth x) 0x100) 4

/-- An Ethernet link goes down: LINK_DOWN on a port with a role, and the port lost to placement. -/
def ethDown (s : State) (x : Fin 4) : State :=
  let e := s.eth x
  if !e.link then s else
  let s := s.setEth x { e with link := false, speed := 0, ptp := if ptpOn s x then 1 else 0, txq := [] }
  let s := if ethRole s x ≠ 0 then raise s (.eth x) 1 (baseOf (.eth x)) else s
  s.lose (.port (.eth x))

/-- A port that is silent and receives nothing (Table NET-2, R258). -/
def ethSilent (s : State) (x : Fin 4) : Bool := ethRole s x = 0 || (s.ucb (.eth x)).state ≠ .run || !(s.eth x).link

/-! ### Sweetpea -/

def splUp (s : State) (k : Fin 2) : Bool := if k = 0 then s.pair.link0 else s.pair.link1

/-- A single Sweetpea link goes down: the copy budget is halved and the port is lost (R252, R261). Beside the loss of the partner
the port is no further loss, as Sequence PAIR-1 shows (log entry 32). -/
def splDown (s : State) (k : Fin 2) : State :=
  if !splUp s k then s else
  let s := { s with pair := if k = 0 then { s.pair with link0 := false } else { s.pair with link1 := false } }
  let s := raiseOpen s .pair 7
  if Resource.partner ∈ s.place.lost then s else s.lose (.port (.spl k))

/-! ### Hollyhock links and cards -/

/-- SLOT_ID as sampled (Table PWR-4). -/
def slotId (s : State) : Nat := field s.pwr.strap 12 8

def pairPrio (s : State) : Nat := field s.pwr.strap 7 5

/-- The backplane record's route bytes for a slot from this module's processor slot: primary and alternate end (Table HLK-6). -/
def cardEnds (s : State) (slot : Nat) : List (Fin 4) :=
  let b (i : Nat) : Nat := (s.hlk.backplane.getD i 0).toNat
  let base := 0x20 + 4 * slot + (if b 0x19 = slotId s then 0 else 2)
  [b base, b (base + 1)].filterMap fun e => if e = 0xFF then none else fin? 4 (e / 8 % 4)

/-- A link unit in RUN, or on its way there, whose link is trained. -/
def hlkUp (s : State) (n : Fin 4) : Bool := (s.link n).up

/-- The end that carries a card's traffic: the first whose link is up (R419). -/
def cardEnd (s : State) (slot : Nat) : Option (Fin 4) := (cardEnds s slot).find? fun n => hlkUp s n

/-- A prefetch entry leaves (R429): a SIDE word that was never consumed is logged. -/
def logSide (s : State) (e : Prefetch) : State :=
  match (List.range 8).find? fun i => e.side.testBit i && !e.consumed.testBit i with
  | none => s
  | some i =>
    let a := e.block + 8 * i
    raise { s with hlk := { s.hlk with pfAddr := a, pfSlot := e.slot, pfCount := satUp 0xFFFF s.hlk.pfCount } } .hlk 8 a

/-- Every prefetch entry that meets a condition is discarded. -/
def dropPrefetch (s : State) (p : Prefetch → Bool) : State :=
  let gone := s.hlk.prefetch.filter p
  gone.foldl logSide { s with hlk := { s.hlk with prefetch := s.hlk.prefetch.filter fun e => !p e } }

/-- A card counts as lost (R202, R432): its proxies show OFF, its prefetched blocks go, and it is lost to placement. -/
def cardGone (s : State) (slot : Fin 32) : State :=
  let c := s.card slot
  let s := s.setCard slot { c with present := false, lost := true, misses := 0, imageNew := false }
  let s := (List.finRange 17).foldl (fun s i =>
    if inTree s (.card slot i) then s.setUcb (.card slot i) fun b =>
      { (if b.state = .off then b else b.toState .off) with busy := false, running := none, gateOpen := false }
    else s) s
  (dropPrefetch s fun e => e.slot = slot.val).lose (.card slot)

/-- A card is reported absent (R432). -/
def cardLost (s : State) (slot : Fin 32) : State :=
  if !(s.card slot).inUnit || (s.card slot).lost then s else raise (cardGone s slot) .hlk 2 (baseOf (.card slot 0))

/-- The cards that no end with a link up reaches any more (R432). -/
def dropUnreached (s : State) : State :=
  (cardSlots s).foldl (fun s (t : Fin 32) => if (s.card t).present && (cardEnd s t).isNone then cardLost s t else s) s

/-- A Hollyhock link goes down (R418, R420). -/
def hlkDown (s : State) (n : Fin 4) : State :=
  if !hlkUp s n then s else
  let s := s.setLink n { s.link n with up := false, locked := false }
  let s := (raise s (.link n) 1 (baseOf (.link n))).lose (.port (.hlk n))
  dropUnreached s

/-- The link domain stops: every Sweetpea, Hollyhock and Ethernet link is down (R445). -/
def stopLinkDomain (s : State) : State :=
  let s := { s with clk := { s.clk with linkStop := true } }
  let s := (List.finRange 4).foldl ethDown s
  let s := (List.finRange 4).foldl hlkDown s
  (List.finRange 2).foldl splDown s

end Sys2Proof.Machine
end

