-- ==== Sys2Proof/Machine/Time.lean ====
section
/-! DEFINITION. TIME: the time bases and their steering, SET and epochs, pulse generators and capture (chapter 15). -/

namespace Sys2Proof.Machine

open Sys2Proof

def second : Nat := 1000000000

/-! ### Time bases -/

def State.tb (s : State) : Nat → TimeBase
  | 0 => s.time.tb0
  | 1 => s.time.tb1
  | 2 => s.time.tb2
  | 3 => { val := s.time.now * 2 ^ 40, anchor := s.time.now, state := .free }
  | _ => s.time.tb4

def State.setTb (s : State) (i : Nat) (b : TimeBase) : State :=
  match i with
  | 0 => { s with time := { s.time with tb0 := b } }
  | 1 => { s with time := { s.time with tb1 := b } }
  | 2 => { s with time := { s.time with tb2 := b } }
  | 3 => s
  | _ => { s with time := { s.time with tb4 := b } }

/-- The value in units of 2⁻⁴⁰ ns at a TB3 instant. -/
def TimeBase.fine (b : TimeBase) (t : Nat) : Int := (b.val : Int) + ((t - b.anchor : Nat) : Int) * (2 ^ 40 + b.r)

/-- The base takes a new rate from an instant on (R400). -/
def TimeBase.rateTo (b : TimeBase) (t : Nat) (r : Int) : TimeBase :=
  { b with val := (b.fine t).toNat, anchor := max t b.anchor, r := r }

/-- The base takes a new value, in units of 2⁻⁴⁰ ns, at an instant, and stamps of earlier measurements move with it. -/
def TimeBase.jumpTo (b : TimeBase) (t : Nat) (v : Nat) : TimeBase :=
  let d := (v : Int) - b.fine t
  { b with val := v, anchor := t, lastAt := b.lastAt.map fun c => (c.1, c.2 + d) }

/-- Register addresses of Table TIME-4. -/
def tbStateReg (i : Nat) : Nat := baseOf .time + 0x204 + 0x20 * i
def pgStatReg (k : Nat) : Nat := baseOf .time + 0x318 + 0x20 * k
def capStatReg (k : Nat) : Nat := baseOf .time + 0x404 + 0x10 * k

def tbCfg (s : State) (i : Nat) : W32 := s.reg .time (0x200 + 0x20 * i)

/-- SLEW in units of 2⁻⁴⁰, rounded toward zero. -/
def slew (s : State) (i : Nat) : Int := ((field (tbCfg s i) 8 0 * 2 ^ 40 / 1000000 : Nat) : Int)

def clamp (lim v : Int) : Int := max (-lim) (min lim v)

/-- A source is eligible (Table TIME-1). -/
def eligible (s : State) (i src : Nat) : Bool :=
  bitAt (tbCfg s i) (24 + src) &&
    match i with
    | 0 => match fin? 4 src with
      | some x => (ethRole s x = 1 || ethRole s x = 3) && ptpOn s x
      | none => src = 4
    | 1 => match fin? 4 src with | some x => ethRole s x = 2 && ptpOn s x | none => false
    | 2 => match fin? 6 src with | some n => tmRole s n = 1 || tmRole s n = 2 | none => false
    | _ => false

/-- A source of the SRC set is PTP master for this base, or CAN time master (Table TIME-2). -/
def tbMastered (s : State) (i : Nat) : Bool :=
  (List.range 6).any fun src => eligible s i src &&
    match i with
    | 2 => match fin? 6 src with | some n => (s.can n).tmState = 3 | none => false
    | _ => match fin? 4 src with | some x => (s.eth x).ptp = 4 | none => false

/-! ### The tick grid's view of TB0 (R58 to R61, R403) -/

/-- TB0 reaches lock while FREE: the sequencer re-phases (R59). -/
def tb0Locks (s : State) : State :=
  if s.tick.align = .free then { s with tick := { s.tick with rephaseDue := true } } else s

/-- ALIGN follows TB0's master: lost, ALIGNED becomes HOLDOVER with ALIGN_LOST; back, ALIGNED again without a re-phase. -/
def followTb0 (s : State) : State :=
  match s.tick.align, s.time.tb0.state with
  | .aligned, .holdover => raiseOpen { s with tick := { s.tick with align := .holdover } } .tick 6
  | .holdover, .locked | .holdover, .tracking | .holdover, .master =>
    { s with tick := { s.tick with align := .aligned } }
  | _, _ => s

/-- TB4 follows TB0's rate once TB0 has stepped or entered MASTER (R399). -/
def followRate (s : State) (t : Nat) : State :=
  if s.time.tb0.stepped || s.time.tb0.everLocked then
    { s with time := { s.time with tb4 := s.time.tb4.rateTo t s.time.tb0.r } }
  else s

/-- A changed base is stored, and what follows TB0 follows. -/
def putTb (s : State) (i t : Nat) (b : TimeBase) : State :=
  let first := i = 0 && !(s.tb 0).everLocked && b.everLocked
  let s := s.setTb i b
  if i = 0 then
    let s := followTb0 (followRate s t)
    if first then tb0Locks s else s
  else s

/-! ### Pulse generators (R409, R410) -/

def State.pg (s : State) (k : Nat) : PulseGen := if k = 0 then s.time.pg0 else s.time.pg1

def State.setPg (s : State) (k : Nat) (g : PulseGen) : State :=
  if k = 0 then { s with time := { s.time with pg0 := g } } else { s with time := { s.time with pg1 := g } }

def pgReg (s : State) (k off : Nat) : W32 := s.reg .time (off + 0x20 * k)
def pgTb (s : State) (k : Nat) : Nat := field (pgReg s k 0x300) 2 0
def pgPeriodic (s : State) (k : Nat) : Bool := bitAt (pgReg s k 0x300) 30
def pgStart (s : State) (k : Nat) : Nat :=
  ((pgReg s k 0x304).toNat + (pgReg s k 0x308).toNat * 2 ^ 32) * second + (pgReg s k 0x30C).toNat
def pgPeriod (s : State) (k : Nat) : Nat := (pgReg s k 0x310).toNat
def pgWidth (s : State) (k : Nat) : Nat := (pgReg s k 0x314).toNat

/-- The first instant of a generator later than a value of its base. -/
def pgFirst (s : State) (k v : Nat) : Option Nat :=
  let st := pgStart s k
  if v < st then some st
  else if pgPeriodic s k then some (st + ((v - st) / pgPeriod s k + 1) * pgPeriod s k)
  else none

def pgMiss (s : State) (k n : Nat) : State :=
  if n = 0 then s
  else raise (s.setPg k { s.pg k with missed := min 0xFFFF ((s.pg k).missed + n) }) .time 5 (pgStatReg k)

/-- Arming at step 1 of a boundary whose nominal instant is a TB3 instant (R409). -/
def pgArm (s : State) (k t : Nat) : State :=
  if !bitAt (pgReg s k 0x300) 31 then s.setPg k { s.pg k with next := none }
  else
    let n := pgFirst s k ((s.tb (pgTb s k)).ns t)
    pgMiss (s.setPg k { s.pg k with next := n }) k (if n.isNone then 1 else 0)

/-- A step of a generator's base (R410): the greater of the held instant and the first later than the new value. -/
def pgStep (s : State) (k i t : Nat) : State :=
  if pgTb s k ≠ i then s else
  match (s.pg k).next with
  | none => s
  | some held =>
    match pgFirst s k ((s.tb i).ns t) with
    | none => pgMiss (s.setPg k { s.pg k with next := none }) k 1
    | some n =>
      if n ≤ held then s
      else pgMiss (s.setPg k { s.pg k with next := some n }) k (if pgPeriodic s k then (n - held) / pgPeriod s k else 1)

/-- A generator reaches its instant and fires its pulse. -/
def pulse (s : State) (k : Fin 2) (t : Nat) : State :=
  let s := s.at_ t
  match (s.pg k).next with
  | none => s
  | some n =>
    if (s.tb (pgTb s k)).ns t < n then s
    else s.setPg k { s.pg k with next := if pgPeriodic s k then some (n + pgPeriod s k) else none,
                                 highUntil := t + pgWidth s k, pulses := ((s.pg k).pulses + 1) % 32768 }

def execPulseInstant (k : Fin 2) (at_ : Nat) (s : State) : Out := .next (pulse s k at_)

/-! ### Steps and SET (R400, R405) -/

/-- A base steps: its value in units of 2⁻⁴⁰ ns, its epoch, the generators on it, and the end of a SET that asked for it. -/
def stepTb (s : State) (i t v : Nat) (b : TimeBase) : State :=
  let set := b.setReq.isSome
  let b := { b.jumpTo t v with epoch := (b.epoch + 1) % 2 ^ 32, stepped := true, setReq := none }
  let s := putTb s i t b
  let s := pgStep (pgStep s 0 i t) 1 i t
  if set then
    let s := if i = 0 && (s.tick.align = .aligned || s.tick.align = .holdover) then
        { s with tick := { s.tick with rephaseDue := true } } else s
    s.finish .time .ok (b.epoch % 65536)
  else s

/-- The state of a base that a SET gives a value: TB4 is FREE, and a base that had not stepped has stepped without a source. -/
def TimeBase.valueSet (b : TimeBase) (i t : Nat) : TimeBase :=
  if i = 4 then { b with state := .free }
  else if b.state = .none then { b with state := .holdover, lastGood := t }
  else { b with lastGood := if b.stepped || b.everLocked then b.lastGood else t }

/-- The VALUE step of a pending SET, at the nominal instant of a boundary (R405). -/
def setAtBoundary (s : State) (i t : Nat) : State :=
  let b := s.tb i
  match b.setReq with
  | some (.value sec ns) =>
    stepTb s i t ((sec * second + ns) * 2 ^ 40) (b.valueSet i t)
  | _ => s

def setsAtBoundary (s : State) (t : Nat) : State := [0, 1, 2, 4].foldl (fun s i => setAtBoundary s i t) s

/-- What SET checks beside the common checks: its argument, and the state of the base (Table TIME-6, R405). -/
def setCheck (s : State) (arg : Nat) : Status :=
  let i := arg % 8
  let src := arg / 8 % 2 == 1
  if 16 ≤ arg || i = 3 || 5 ≤ i || (i = 4 && src) then .badArg
  else if !src && 999999999 < (s.reg .time 0x128).toNat then .badArg
  else if s.pair.role = .standby then .notReady
  else if i = 4 then .ok
  else
    let st := (s.tb i).state
    if src then (if st = .tracking || st = .locked then .ok else .notReady)
    else if st = .none || st = .holdover || st = .master then .ok else .notReady

/-- SET accepted: TIME captures the value registers. -/
def setBegin (s : State) (arg : Nat) : State :=
  let i := arg % 8
  let sec := (s.reg .time 0x120).toNat + (s.reg .time 0x124).toNat * 2 ^ 32
  let req : SetReq := if arg / 8 % 2 = 1 then .source else .value sec (s.reg .time 0x128).toNat
  s.setTb i { s.tb i with setReq := some req }

/-! ### Steering (R400 to R402) -/

/-- A quotient in units of 2⁻⁴⁰ rounded toward zero; a source without a previous valid measurement, or with one at the same
nanosecond, leaves it open (log entry 6). -/
def quot (s : State) (o d : Int) : Int × State :=
  if d = 0 then
    let (v, s) := s.free
    ((v : Int) - 2 ^ 40, s)
  else (Int.tdiv (o * 2 ^ 40) d, s)

/-- The base's state marks the instants at which it was LOCKED or MASTER last, for R408. -/
def TimeBase.toState (b : TimeBase) (t : Nat) (x : TbState) : TimeBase :=
  let was := b.state = .locked || b.state = .master
  let is := x = .locked || x = .master
  { b with state := x, lastGood := if was || is then t else b.lastGood,
           holdSaid := b.holdSaid && !is, everLocked := b.everLocked || is }

def TimeBase.count (b : TimeBase) (o : Int) : TimeBase :=
  { b with good := if o.natAbs ≤ 200 then b.good + 1 else 0, bad := if 1000 < o.natAbs then b.bad + 1 else 0 }

/-- The servo in TRACKING, LOCKED and HOLDOVER (R400); a base in MASTER goes on as from HOLDOVER. -/
def servo (s : State) (i t : Nat) (b : TimeBase) (o d : Int) : State :=
  let b := if b.state = .holdover || b.state = .master then { b.toState t .tracking with good := 0, bad := 0 } else b
  let (q16, s) := quot s o (16 * d)
  let f := clamp (slew s i) (b.f + q16)
  let (q8, s) := quot s o (8 * d)
  let b := { (b.rateTo t (clamp (slew s i) (f + q8))).count o with f := f }
  let b := if b.state = .tracking && 4 ≤ b.good then b.toState t .locked else b
  if b.state = .locked && 4 ≤ b.bad then raise (putTb s i t (b.toState t .tracking)) .time 2 (tbStateReg i)
  else putTb s i t b

/-- A valid measurement of the source in use. -/
def steer (s : State) (i t : Nat) (b : TimeBase) (o d : Int) : State :=
  let stepped (s : State) (b : TimeBase) (f : Int) : State :=
    let v := (b.fine t + o * 2 ^ 40).toNat
    let b := { b.toState t .tracking with f := f, good := 0, bad := 0, lastGood := if b.stepped then b.lastGood else t }
    stepTb s i t v (b.rateTo t f)
  if b.setReq = some .source then stepped s b b.f
  else
    match b.state with
    | .none => putTb s i t { b.toState t .acquiring with oPrev := o }
    | .acquiring =>
      let (q, s) := quot s (o - b.oPrev) d
      stepped s b (clamp (slew s i) q)
    | _ => servo s i t b o d

/-- The source in use changes: no step, the state kept, good and bad from 0, f carried over (R402). -/
def TimeBase.use (b : TimeBase) (src : Option Nat) : TimeBase :=
  if b.source = src then b else { b with source := src, good := 0, bad := 0 }

/-- The source in use after a valid measurement of `src` (R402). -/
def TimeBase.choose (b : TimeBase) (src : Nat) : TimeBase :=
  match b.source with
  | none => b.use (some src)
  | some u => if src < u && 4 ≤ mapGetD b.row src 0 then b.use (some src) else b

/-- A measurement is valid (R400). -/
def measureValid (b : TimeBase) (h : Handed) : Bool :=
  !h.disc && (h.offset.natAbs ≤ second || !b.stepped || b.setReq = some .source)

/-- A measurement that a source delivered reaches its base. -/
def measure (s : State) (h : Handed) : State :=
  let i := h.tb
  let b := s.tb i
  if !eligible s i h.src then s
  else if !measureValid b h then
    raise (s.setTb i { b with row := mapErase h.src b.row }) .time 3 (tbStateReg i)
  else
    let now := b.fine h.at_
    let d := match mapGet? h.src b.lastAt with | some l => (now - l) / 2 ^ 40 | none => 0
    let b := { b with lastAt := mapPut h.src now b.lastAt, row := mapPut h.src (mapGetD b.row h.src 0 + 1) b.row,
                      current := mark b.current h.src, ofs := if b.source = some h.src || b.source.isNone then h.offset else b.ofs }
    let b := b.choose h.src
    if b.source ≠ some h.src then s.setTb i b
    else steer s i h.at_ { b with ofs := h.offset } h.offset d

/-- The oldest measurement handed over. -/
def measureNext (s : State) : State :=
  match s.time.handed with
  | [] => s
  | h :: hs => measure ({ s with time := { s.time with handed := hs } }.at_ h.at_) h

def execMeasurement (s : State) : Out := .next (measureNext s)

/-- A rising edge of TIM0: the distance to the nearest whole second of TB0; halfway between two, which one is open. -/
def tim0 (s : State) (t : Nat) : State :=
  let s := s.at_ t
  let v := (s.tb 0).ns t % second
  let (c, s) := if v = second / 2 then s.free else (0, s)
  let up := second / 2 < v || (v = second / 2 && c % 2 = 1)
  let offset : Int := if up then ((second - v : Nat) : Int) else - (v : Int)
  { s with time := { s.time with handed := s.time.handed ++ [{ tb := 0, src := 4, offset, disc := false, at_ := t }] } }

def execTim0Edge (at_ : Nat) (s : State) : Out := .next (tim0 s at_)

/-- No source delivers measurements: MASTER if a source is master, else HOLDOVER, or NONE from ACQUIRING (R401, R402). -/
def tbAlone (s : State) (i t : Nat) : State :=
  let b := (s.tb i).use none
  if tbMastered s i then
    if b.state = .master then s.setTb i b else putTb s i t ((b.toState t .master).rateTo t b.f)
  else
    match b.state with
    | .none => s.setTb i b
    | .acquiring => putTb s i t { b.toState t .none with oPrev := 0 }
    | .holdover => s.setTb i b
    | _ => putTb s i t ((b.toState t .holdover).rateTo t b.f)

/-- A source stops being current (R402). -/
def dropSource (s : State) (i src t : Nat) : State :=
  let b := s.tb i
  let cur := b.current.filter (· ≠ src)
  let b := { b with current := cur, row := mapErase src b.row }
  let s := s.setTb i b
  if cur.isEmpty then tbAlone s i t
  else if b.source = some src then s.setTb i (b.use (cur.foldl (fun m x => match m with | some y => some (min x y) | none => some x) none))
  else s

/-- A source's timeout passes: PTP_LOST of a PTP port, and SRC_LOST when none is current (R396, R402). -/
def sourceLost (s : State) (i : Fin 3) (src : Nat) : State :=
  if src ∉ (s.tb i).current then s else
  let s := dropSource s i src s.tb3
  let s := if i.val < 2 then
      match fin? 4 src with
      | some x => raise (s.setEth x { s.eth x with ptp := if (s.eth x).ptp = 4 then 4 else 1 }) (.eth x) 2 (baseOf (.eth x))
      | none => s
    else s
  if (s.tb i).current.isEmpty then raise s .time 1 (tbStateReg i) else s

def execSrcLost (tb : Fin 3) (src : Nat) (s : State) : Out := .next (sourceLost s tb src)

/-- The bases enter or leave MASTER as the masters of their sources change (R401). -/
def remaster (s : State) : State :=
  [0, 1, 2].foldl (fun s i => if (s.tb i).current.isEmpty then tbAlone s i s.tb3 else s) s

/-- A change of a base's sources takes hold at a boundary: sources that are no longer eligible are dropped. -/
def resource (s : State) (t : Nat) : State :=
  remaster ([0, 1, 2].foldl (fun s i =>
    (s.tb i).current.foldl (fun s src => if eligible s i src then s else dropSource s i src t) s) s)

/-- HOLD_S seconds have passed since the base was LOCKED or MASTER (R408). -/
def holdOver (s : State) (i t : Nat) : Bool :=
  let b := s.tb i
  (b.state = .tracking || b.state = .holdover) && b.lastGood + field (tbCfg s i) 23 12 * second < t

def execHoldExpired (tb : Fin 3) (s : State) : Out :=
  .next (if holdOver s tb s.tb3 && !(s.tb tb).holdSaid then
      raise (s.setTb tb { s.tb tb with holdSaid := true }) .time 4 (tbStateReg tb)
    else s)

/-- The tag of a base's entry in the time block (R408). -/
def tbTag (s : State) (i t : Nat) : Tag :=
  match i, (s.tb i).state with
  | 3, _ => .good
  | 4, .free => .good
  | 4, _ => .bad
  | _, .locked | _, .master => .good
  | _, .tracking | _, .holdover => if holdOver s i t then .bad else .stale
  | _, _ => .bad

/-- The time block (Table TIME-3): 88 bytes for a nominal instant. -/
def timeBlock (s : State) (t : Nat) : List Byte :=
  ((List.range 5).flatMap fun i =>
      let v := (s.tb i).ns t
      bytesLE 8 (v / second) ++ bytesLE 4 (v % second) ++ bytesLE 4 (s.tb i).epoch)
    ++ (List.range 5).flatMap (fun i => bytesLE 1 (s.tb i).state.code) ++ [0, 0, 0]

/-! ### CAN time masters (R369 to R371) -/

def execReferenceMessage (n : Fin 6) (f : CanFrame) (at_ : Nat) (s : State) : Out := .next (remaster (tmReference s n f at_))

/-- A potential master has heard no reference for its timeout (R370). -/
def execTmMaster (n : Fin 6) (s : State) : Out := .next (remaster (tmBecome s n))

/-- No valid reference for TIMEOUT: back to WAITING (R371). -/
def execTmLost (n : Fin 6) (s : State) : Out := .next (tmLostAt s n)

/-! ### Capture (R412, R413) -/

def State.cap (s : State) (k : Nat) : Capture := mapGetD s.time.caps k {}

def State.setCap (s : State) (k : Nat) (c : Capture) : State := { s with time := { s.time with caps := mapPut k c s.time.caps } }

/-- A capture channel stamps an edge; the ninth stamp of a latch drops the oldest. -/
def capture (s : State) (k : Fin 4) (src : Fin 3) (rising : Bool) (t : Nat) : State :=
  let s := s.at_ t
  let cfg := s.reg .time (0x400 + 0x10 * k.val)
  let edge := field cfg 5 4
  if !bitAt cfg 31 || field cfg 9 8 ≠ src.val || !(if rising then edge % 2 = 1 else 2 ≤ edge) then s
  else
    let b := s.tb (field cfg 2 0)
    let v := b.ns t
    let st : Stamp := { sec := v / second, ns := v % second, epoch := b.epoch,
                        bad := b.state = .none || b.state = .acquiring, at_ := t }
    let c := s.cap k
    let c := { c with events := (c.events + 1) % 65536, lastSec := st.sec, lastNs := st.ns }
    if c.stamps.length < 8 then s.setCap k { c with stamps := c.stamps ++ [st] }
    else raise (s.setCap k { c with stamps := c.stamps.drop 1 ++ [st], dropped := satUp 0xFFFF c.dropped,
                                    latchDropped := satUp 255 c.latchDropped }) .time 6 (capStatReg k)

def execCaptureEdge (k : Fin 4) (src : Fin 3) (rising : Bool) (at_ : Nat) (s : State) : Out :=
  .next (capture s k src rising at_)

/-- The capture block of a channel (R413) at nominal instant `t`: 136 bytes and the block's tag. A later stamp belongs to the next
latch (R68). -/
def captureBlock (s : State) (k t : Nat) : List Byte × Tag :=
  let c := s.cap k
  let taken := c.stamps.filter fun x => decide (x.at_ < t)
  let stamps := taken.flatMap fun x => bytesLE 8 x.sec ++ bytesLE 4 x.ns ++ bytesLE 4 x.epoch
  ((bytesLE 1 taken.length ++ bytesLE 1 c.latchDropped ++ List.replicate 6 0 ++ stamps
      ++ List.replicate 128 0).take 136,
    if taken.any (·.bad) then .bad else .good)

/-- The latch at nominal instant `t` takes a channel's stamps. -/
def captureLatched (t : Nat) (s : State) (k : Nat) : State :=
  s.setCap k { s.cap k with stamps := (s.cap k).stamps.filter (fun x => decide (t ≤ x.at_)), latchDropped := 0 }

/-! ### Settings and shown registers (R414) -/

/-- A value that the ranges of Table TIME-5 admit. -/
def timeSettingOk (s : State) (off : Nat) (v : W32) : Bool :=
  if off = 0x100 then field v 2 0 ≤ 4
  else if 0x200 ≤ off && off < 0x2A0 then
    let src := field v 31 24
    let top := match (off - 0x200) / 0x20 with | 0 => 32 | 1 => 16 | 2 => 64 | _ => 1
    src < top && 1 ≤ field v 8 0 && field v 8 0 ≤ 500
  else if 0x300 ≤ off && off < 0x340 then
    let k := (off - 0x300) / 0x20
    match (off - 0x300) % 0x20 with
    | 0 => field v 2 0 ≤ 4
    | 0xC => v.toNat < second
    | 0x10 => 1000 ≤ v.toNat && v.toNat ≤ 4000000000
    | 0x14 =>
      let p := (s.regNext .time (0x310 + 0x20 * k)).toNat
      100 ≤ v.toNat && (if bitAt (s.regNext .time (0x300 + 0x20 * k)) 30 then v.toNat + 100 ≤ p else v.toNat ≤ 4000000000)
    | _ => true
  else if 0x400 ≤ off && off < 0x440 then
    field v 2 0 ≤ 4 && field v 9 8 ≠ 3 && (!bitAt v 31 || field v 5 4 ≠ 0)
  else true

def Capture.stat (c : Capture) : W32 := pack [(c.events, 16), (c.dropped, 0)]

/-- The low 32 bits of a signed offset, saturating. -/
def satInt32 (v : Int) : W32 := BitVec.ofInt 32 (max (-(2 ^ 31)) (min (2 ^ 31 - 1) v))

/-- What a read-only register of TIME shows. -/
def timeRead (s : State) (bank off : Nat) : W32 :=
  let x := mapGetD s.time.snaps bank {}
  match off with
  | 0x104 => x.result.word
  | 0x108 => BitVec.ofNat 32 x.sec
  | 0x10C => BitVec.ofNat 32 (x.sec / 2 ^ 32 % 2 ^ 16)
  | 0x110 => BitVec.ofNat 32 x.ns
  | 0x114 => BitVec.ofNat 32 x.epoch
  | _ =>
    if 0x200 ≤ off && off < 0x2A0 then
      let b := s.tb ((off - 0x200) / 0x20)
      match (off - 0x200) % 0x20 with
      | 4 => pack [(b.state.code, 28), (b.source.getD 15, 24), (b2n b.stepped, 0)]
      | 8 => BitVec.ofInt 32 b.r
      | 0xC => satInt32 b.ofs
      | _ => BitVec.ofNat 32 b.epoch
    else if 0x300 ≤ off && off < 0x340 then
      let g := s.pg ((off - 0x300) / 0x20)
      pack [(g.missed, 16), (b2n g.next.isSome, 15), (g.pulses, 0)]
    else
      let c := s.cap ((off - 0x400) / 0x10)
      match off % 0x10 with
      | 4 => c.stat
      | 8 => BitVec.ofNat 32 c.lastSec
      | _ => BitVec.ofNat 32 c.lastNs

/-- A write to TIME_SNAP_SEL samples the chosen base, its value and its epoch (R414). -/
def timeSnap (s : State) (bank i : Nat) : State :=
  let x := mapGetD s.time.snaps bank {}
  let b := s.tb i
  let v := b.ns s.tb3
  let x := { x with result := x.result.start.deliver i, sec := v / second, ns := v % second, epoch := b.epoch }
  { s with time := { s.time with snaps := mapPut bank x s.time.snaps } }

/-- TIM1's level (R411): low, a generator, or the clock output, whose level at an instant is open; INV inverts it. -/
def tim1Level (s : State) : Option Bool :=
  let inv := bitAt (s.reg .time 0x130) 4
  match s.regField .time 0x130 1 0 with
  | 0 => some inv
  | 1 => some (inv != decide (s.tb3 < (s.pg 0).highUntil))
  | 2 => some (inv != decide (s.tb3 < (s.pg 1).highUntil))
  | _ => none

end Sys2Proof.Machine
end

