-- ==== Sys2Proof/Machine/Clk.lean ====
section
/-! DEFINITION. CLK: clock failures and forced switches, reference changes, the clock output and the 7100 mirror (chapter 17). -/

namespace Sys2Proof.Machine

open Sys2Proof

def clkMon : Nat := baseOf .clk + 0x110

/-- CLK_REF.SRC in force: the preferred reference (R447). -/
def clkPreferred (s : State) : Nat := s.regField .clk 0x104 3 0

def clkAutoReturn (s : State) : Bool := bitAt (s.reg .clk 0x104) 8

/-- The preferred reference qualifies: the TCXO while its monitor passes, a recovered candidate by R447. -/
def clkQualified (s : State) (target : Nat) : Bool := if target = 0 then !s.clk.failed.testBit 2 else s.clk.qualified

/-- A clock-source change ends: its tokens go and CLK_SWRES becomes valid (R448, R449). -/
def endClkChange (s : State) (code : Status) : State :=
  let s := releaseTokens s .clockChange
  { s with clk := { s.clk with change := none, swres := s.clk.swres.deliver (swresValue code s.clk.refInUse) } }

def clkMonBit : ClockId → Option Nat
  | .frc => some 0 | .src => some 1 | .tcxo => some 2 | .xo32k => some 3 | .recovered => some 4 | .corePll => some 5
  | .systemPll => some 6 | .linkPll => some 7 | .tim2 => none

/-- The bit of CLK_MON.FAILED of the clock output's source; source 5 is the reference in use (Table CLK-8). -/
def clkOutBit (s : State) : Option Nat :=
  match s.regField .clk 0x10C 3 0 with
  | 1 => some 0 | 2 => some 1 | 3 => some 2 | 4 => some 3 | 6 => some 6 | 7 => some 7
  | 5 => some (if s.clk.refInUse = 0 then 2 else if s.clk.refInUse = 8 then 0 else 4)
  | _ => none

/-- The source of the clock output is marked failed: the output is low (R455). -/
def outFailed (s : State) : Bool := match clkOutBit s with | some b => s.clk.failed.testBit b | none => false

/-- A clock is marked failed. -/
def clkMark (s : State) (c : ClockId) : State :=
  let bit := match clkMonBit c with | some b => Nat.lor s.clk.failed (2 ^ b) | none => s.clk.failed
  let s := { s with clk := { s.clk with failed := bit, tim2Failed := s.clk.tim2Failed || decide (c = ClockId.tim2) } }
  { s with clk := { s.clk with outLow := s.clk.outLow || outFailed s } }

/-- A domain switches to FRC without waiting for the failed clock (R453). The monitor's reaction ends every activity that holds a
token of CLK, TIME or TICK. -/
def forcedSwitch (s : State) (core system : Bool) : State :=
  let s := { s with clk := { s.clk with
    coreFrc := s.clk.coreFrc || core, coreForced := s.clk.coreForced || core, canSilent := s.clk.canSilent || core,
    sysFrc := s.clk.sysFrc || system, sysForced := s.clk.sysForced || system,
    forcedCount := min 255 (s.clk.forcedCount + b2n core + b2n system) } }
  endActivity (endActivity (endActivity s .clockChange) .splitJoin) .foxglove

/-- CLK_FAIL, the non-maskable clock event (R454): no reaction window masks it, and the safe state follows. -/
def clkFailMessage (s : State) : State :=
  let s := s.setUcb .clk fun b => b.send s.tb3 { source := handleOf .clk, kind := 1, cls := 14, level := 4, address := clkMon }
  enterSafe s ⟨handleOf .clk, 1, 14, 1⟩

/-- A domain fails: the module resets when FRC has failed already (R452). -/
def domainFail (s : State) (f : State → State) : State := if s.clk.failed.testBit 0 then enterReset s .clock else clkFailMessage (f s)

/-- The TCXO is the reference and has failed: both domains run on FRC, and the PLLs relock to it (Table CLK-5). -/
def tcxoRefFailed (s : State) : State :=
  domainFail s fun s =>
    let s := forcedSwitch (clkMark s .tcxo) (!s.clk.coreFrc) (!s.clk.sysFrc)
    { s with clk := { s.clk with refInUse := 8, outLow := s.clk.outLow || outFailed s } }

/-- The recovered reference in use fails: the PLLs fall back to the TCXO, and a running change ends FAULTED (R449). Where the TCXO has
failed too, it fails as the reference (DEDUCED, log entry 131). -/
def refFallback (s : State) : State :=
  if s.clk.refInUse = 0 || 8 ≤ s.clk.refInUse then { s with clk := { s.clk with qualified := false } } else
  let s := clkMark s .recovered
  let s := { s with clk := { s.clk with refInUse := 0, fallenBack := true, qualified := false,
                                        fallbackCount := satUp 255 s.clk.fallbackCount } }
  let s := if s.clk.change.isSome then endClkChange s .faulted else s
  let s := raise s .clk 4 clkMon
  if s.clk.failed.testBit 2 then tcxoRefFailed s else s

/-- The stream of a recovered candidate goes down: ETH0 to ETH3 are 1 to 4, SPL0 and SPL1 5 and 6 (Table CLK-2). -/
def streamDown (s : State) (src : Nat) : State := if clkPreferred s = src || s.clk.refInUse = src then refFallback s else s

/-- The links stop with their domain, and with them every stream that they carry (R445, R449). -/
def linkStreamsDown (s : State) : State :=
  let carried (src : Nat) : Bool := 1 ≤ src && src ≤ 6
  if carried (clkPreferred s) || carried s.clk.refInUse then refFallback s else s

/-- A clock's monitor is armed: from step 2 of the start, and an oscillator's from the end of its OSC_WAIT (R442, R461); the recovered
reference's is suspended once its witness, the TCXO, has failed (R452). -/
def monitorArmed (s : State) (c : ClockId) : Bool :=
  s.clk.armed && match c with
    | .frc => s.clk.oscReady.testBit 0
    | .src => s.clk.oscReady.testBit 1
    | .tcxo => s.clk.oscReady.testBit 2
    | .xo32k => s.clk.oscReady.testBit 3
    | .tim2 => s.clk.oscReady.testBit 4
    | .recovered => !s.clk.failed.testBit 2
    | .corePll | .systemPll | .linkPll => true

/-- The clock that a finding marks failed: the one named, or, of FRC, TCXO and SRC judging one another two out of three, the one that
disagrees with both others (R451); FRC where all three pairs disagree (DESIGN CHOICE, log entry 129). -/
def clockFailed : ClkFinding → Option ClockId
  | .marked c => some c
  | .compared frcTcxo frcSrc tcxoSrc =>
    if frcTcxo && frcSrc then some .frc
    else if frcTcxo && tcxoSrc then some .tcxo
    else if frcSrc && tcxoSrc then some .src
    else none

/-- A monitor marks a clock failed (R452). -/
def clkFail (s : State) (c : ClockId) : State :=
  if !monitorArmed s c then s else
  match c with
  | .corePll => if s.clk.coreFrc then clkMark s c else domainFail s fun s => forcedSwitch (clkMark s c) true false
  | .systemPll => if s.clk.sysFrc then clkMark s c else domainFail s fun s => forcedSwitch (clkMark s c) false true
  | .linkPll => if s.clk.linkStop then clkMark s c else linkStreamsDown (domainFail s fun s => stopLinkDomain (clkMark s c))
  | .tcxo =>
    if s.clk.failed.testBit 2 then s
    else if s.clk.refInUse = 0 then tcxoRefFailed s
    else clkFailMessage (clkMark s c)
  | .recovered => refFallback s
  | .tim2 => if s.clk.refInUse = 7 then refFallback { s with clk := { s.clk with tim2Failed := true } }
             else
               let s := clkMark s c
               let s := if clkPreferred s = 7 then { s with clk := { s.clk with qualified := false } } else s
               raise s .clk 3 clkMon
  | .frc => if s.clk.failed.testBit 0 then s else raise (clkMark s c) .clk 2 clkMon
  | .src | .xo32k => raise (clkMark s c) .clk 3 clkMon

def execClkFail (f : ClkFinding) (s : State) : Out := .next (match clockFailed f with | some c => clkFail s c | none => s)

/-- The multiplexer takes the reference of a change whose candidate qualifies, and the PLLs slew to it (R448, steps 2 and 3). -/
def slewTo (s : State) (c : ClkChange) : State :=
  { s with clk := { s.clk with refInUse := c.target, change := some { c with slewing := true } } }

/-- The preferred recovered candidate has been within tolerance of the TCXO for 4 windows (R447): a running change to it goes on, and a
reference that fell back returns by itself when AUTO_RETURN = 1 (R448). -/
def refQualified (s : State) : State :=
  if clkPreferred s = 0 || s.clk.failed.testBit 2 then s else
  let s := { s with clk := { s.clk with qualified := true, failed := Nat.land s.clk.failed 0xEF } }
  match s.clk.change with
  | some c => if c.target = clkPreferred s then slewTo s c else s
  | none =>
    if s.clk.fallenBack && clkAutoReturn s && s.clk.due.isNone then
      { s with clk := { s.clk with due := some { target := clkPreferred s, slewing := false, back := true } } }
    else s

def execReferenceQualified (s : State) : Out := .next (refQualified s)

/-- A due change takes the tokens of CLK, TIME and TICK, or waits for the next boundary (R448, R55). -/
def clkChange (s : State) : State :=
  match s.clk.due with
  | none => s
  | some c =>
    if s.clk.change.isSome || !tokensFree s .clockChange then s
    else
      let s := takeTokens s .clockChange .clk
      let s := { s with clk := { s.clk with due := none, swres := s.clk.swres.start, change := some { c with slewing := false } } }
      if clkQualified s c.target then slewTo s c else s

def execClockSourceChange (s : State) : Out := .next (clkChange s)

/-- The candidate has not qualified within 10 s: TIMEOUT, and the reference stays. -/
def refUnqualified (s : State) : State :=
  match s.clk.change with
  | some c => if c.slewing then s else raise (endClkChange s .timeout) .clk 5 clkMon
  | none => s

def execRefUnqual (s : State) : Out := .next (refUnqualified s)

/-- The PLLs have reached the new reference: the change ends OK. -/
def slewDone (s : State) : State :=
  match s.clk.change with
  | some c =>
    if !c.slewing then s
    else endClkChange { s with clk := { s.clk with
      refInUse := c.target, fallenBack := false, changeCount := satUp 255 s.clk.changeCount,
      returnedCount := if c.back then satUp 255 s.clk.returnedCount else s.clk.returnedCount } } .ok
  | none => s

def execSlewComplete (s : State) : Out := .next (slewDone s)

/-! ### Settings and shown registers (R443, R455, R458) -/

/-- The frequency in kHz of a clock-output source. -/
def clkOutKHz : Nat → Nat
  | 1 => 100000 | 2 => 32 | 3 | 5 => 25000 | 4 => 33 | 6 => 200000 | 7 => 125000 | _ => 0

/-- A value that the ranges of Table CLK-8 admit. -/
def clkSettingOk (s : State) (off : Nat) (v : W32) : Bool :=
  if off = 0x104 then
    field v 3 0 ≤ 7 && 10 ≤ field v 23 16 && field v 23 16 ≤ 200 &&
      (field v 3 0 ≠ 7 || ((s.regNext .clk 0x150).toNat ≠ 0 && (s.regNext .clk 0x108).toNat ≠ 0))
  else if off = 0x108 then v.toNat = 0 || (1000 ≤ v.toNat && v.toNat ≤ 50000)
  else if off = 0x10C then field v 3 0 ≤ 7 && clkOutKHz (field v 3 0) ≤ 50000 * (field v 31 16 + 1)
  else true

/-- A new active value of CLK_REF or CLK_OUT takes hold at a boundary: a written SRC starts a change (R448). -/
def clkSwap (s : State) (before : W32) (refWritten outChanged : Bool) : State :=
  let new := clkPreferred s
  let s := if refWritten && (field before 3 0 ≠ new || s.clk.fallenBack) then
      { s with clk := { s.clk with qualified := if field before 3 0 = new then s.clk.qualified else false,
                                   fallenBack := false, due := some { target := new, slewing := false, back := false } } }
    else s
  if outChanged then { s with clk := { s.clk with outLow := outFailed s } } else s

/-- CLK_STATUS.PREF. -/
def prefCode (s : State) : Nat :=
  if s.clk.refInUse = clkPreferred s then 0
  else if s.clk.fallenBack then 3
  else if s.clk.change.isSome then 1
  else 2

/-- C71_CLKOUT's code of a CLK_OUT source, and back (Table CLK-6). -/
def c71Out : Nat → Nat
  | 1 => 1 | 3 => 2 | 4 => 3 | 6 => 4 | _ => 0

def c71OutBack : Nat → Nat
  | 1 => 1 | 2 => 3 | 3 => 4 | 4 => 6 | _ => 0

/-- The reset value of a stored mirror register. -/
def c71PllReset : Nat → W32
  | 0x808 => 0x80002001 | 0x80C => 0x8000C801 | _ => 0x80000801

/-- What a read-only or mirror register of CLK shows. -/
def clkRead (s : State) (off : Nat) : W32 :=
  let c := s.clk
  match off with
  | 0x100 => pack [(c.refInUse, 28), (prefCode s, 24), (b2n c.change.isSome, 23), (b2n c.compat, 22)]
  | 0x110 => BitVec.ofNat 32 c.failed
  | 0x114 => pack [(b2n c.linkStop, 5), (b2n c.canSilent, 4), (b2n c.sysFrc, 3), (b2n c.coreFrc, 2), (b2n c.sysForced, 1),
               (b2n c.coreForced, 0)]
  | 0x118 => BitVec.ofInt 32 c.recPpb
  | 0x11C => c.swres.word
  | 0x120 => pack [(c.forcedCount, 24), (c.fallbackCount, 16), (c.returnedCount, 8), (c.changeCount, 0)]
  | 0x140 => 1 | 0x144 => 10 | 0x148 => 50 | 0x14C => 8000
  | 0x800 => pack ((List.range 4).map fun i => (b2n (!c.failed.testBit i), 3 - i))
  | 0x804 => match clkPreferred s with | 0 => 1 | 7 => 2 | _ => 3
  | 0x808 | 0x80C | 0x810 => mapGetD s.regs (regKey (baseOf .clk + off) 0) (c71PllReset off)
  | 0x814 =>
    let v := s.reg .clk 0x150
    if v.toNat * 10 < 0x10000 then BitVec.ofNat 32 (v.toNat * 10) else Config.mirrorOpen off v
  | 0x818 =>
    let v := s.reg .clk 0x10C
    if field v 3 0 = 0 then 0
    else if c71Out (field v 3 0) = 0 || 256 ≤ field v 31 16 then Config.mirrorOpen off v
    else pack [(field v 31 16, 8), (c71Out (field v 3 0), 0)]
  | _ => 0

end Sys2Proof.Machine
end

