-- ==== Sys2Proof/Machine/Float.lean ====
section
/-! DEFINITION. IEEE 754 binary32 and binary64 with round to nearest, ties to even, and full support of subnormal values (R106),
computed exactly over integers and rounded once. -/

namespace Sys2Proof.Machine

open Sys2Proof

/-- A format: precision in bits, exponent of the lowest bit of a subnormal, exponent of the lowest bit of the largest finite value,
and the width of the exponent field. -/
structure FloatFmt where
  prec : Nat
  qmin : Int
  qmax : Int
  ebits : Nat
deriving DecidableEq, Repr

def binary32 : FloatFmt := ⟨24, -149, 104, 8⟩
def binary64 : FloatFmt := ⟨53, -1074, 971, 11⟩

/-- A decoded value: (-1)^neg × m × 2^e, an infinity, or a NaN. -/
inductive Real
  | nan
  | inf (neg : Bool)
  | fin (neg : Bool) (m : Nat) (e : Int)
deriving DecidableEq, Repr

/-- Fraction bits of a format. -/
def FloatFmt.frac (f : FloatFmt) : Nat := f.prec - 1

def decodeReal (f : FloatFmt) (bits : Nat) : Real :=
  let m := bits % 2 ^ f.frac
  let e := bits / 2 ^ f.frac % 2 ^ f.ebits
  let neg := bits / 2 ^ (f.frac + f.ebits) % 2 = 1
  if e = 2 ^ f.ebits - 1 then (if m = 0 then .inf neg else .nan)
  else if e = 0 then .fin neg m f.qmin
  else .fin neg (2 ^ f.frac + m) (f.qmin + ((e : Int) - 1))

def signBits (f : FloatFmt) (neg : Bool) : Nat := b2n neg * 2 ^ (f.frac + f.ebits)

def infBits (f : FloatFmt) (neg : Bool) : Nat := signBits f neg + (2 ^ f.ebits - 1) * 2 ^ f.frac

def zeroBits (f : FloatFmt) (neg : Bool) : Nat := signBits f neg

/-- The largest finite value (Table PGM-6). -/
def maxBits (f : FloatFmt) (neg : Bool) : Nat := infBits f neg - 1

/-- The bits of m × 2^q, where m < 2^prec and q ≥ qmin, and m ≥ 2^(prec − 1) unless q = qmin. -/
def encodeFin (f : FloatFmt) (neg : Bool) (m : Nat) (q : Int) : Nat :=
  signBits f neg + (q - f.qmin).toNat * 2 ^ f.frac + m

/-- What an operation gives before the overflow mode applies: the bits, an overflow with its sign, or invalid. -/
inductive RealOut
  | val (bits : Nat)
  | ovf (neg : Bool)
  | invalid
deriving DecidableEq, Repr

def bitLen (m : Nat) : Nat := if m = 0 then 0 else Nat.log2 m + 1

/-- m / 2^d rounded to nearest, ties to even; `sticky` says that the exact value lies above m / 2^d by less than one unit of m. -/
def roundShift (m d : Nat) (sticky : Bool) : Nat :=
  let hi := m / 2 ^ d
  let rem := m % 2 ^ d
  if d = 0 then hi
  else
    let half := 2 ^ (d - 1)
    if half < rem || (rem = half && (sticky || hi % 2 = 1)) then hi + 1 else hi

/-- (-1)^neg × m × 2^e rounded to the format (R106). -/
def roundReal (f : FloatFmt) (neg : Bool) (m : Nat) (e : Int) (sticky : Bool) : RealOut :=
  if m = 0 then .val (zeroBits f neg)
  else
    let q := max (e + ((bitLen m : Int) - f.prec)) f.qmin
    let r := if q ≤ e then m * 2 ^ (e - q).toNat else roundShift m (q - e).toNat sticky
    let (r, q) := if r = 2 ^ f.prec then (2 ^ f.frac, q + 1) else (r, q)
    if f.qmax < q then .ovf neg else .val (encodeFin f neg r q)

/-- The signed integer value of a finite number over 2^e, e not above its own exponent. -/
def alignTo (e : Int) (neg : Bool) (m : Nat) (x : Int) : Int :=
  let v : Int := ((m * 2 ^ (x - e).toNat : Nat) : Int)
  if neg then -v else v

/-- An exact sum of two finite numbers, rounded; a zero sum takes the sign that both share, else +0. -/
def sumReal (f : FloatFmt) (na : Bool) (ma : Nat) (ea : Int) (nb : Bool) (mb : Nat) (eb : Int) : RealOut :=
  let e := min ea eb
  let v := alignTo e na ma ea + alignTo e nb mb eb
  if v = 0 then .val (zeroBits f (na && nb)) else roundReal f (decide (v < 0)) v.natAbs e false

def addReal (f : FloatFmt) : Real → Real → RealOut
  | .nan, _ => .invalid
  | _, .nan => .invalid
  | .inf a, .inf b => if a = b then .val (infBits f a) else .invalid
  | .inf a, .fin _ _ _ => .val (infBits f a)
  | .fin _ _ _, .inf b => .val (infBits f b)
  | .fin na ma ea, .fin nb mb eb => sumReal f na ma ea nb mb eb

def negReal : Real → Real
  | .nan => .nan
  | .inf a => .inf (!a)
  | .fin n m e => .fin (!n) m e

def absReal : Real → Real
  | .nan => .nan
  | .inf _ => .inf false
  | .fin _ m e => .fin false m e

/-- An exact product, as a number; invalid is a NaN. -/
def mulExact : Real → Real → Real
  | .nan, _ => .nan
  | _, .nan => .nan
  | .inf a, .inf b => .inf (a != b)
  | .inf a, .fin b m _ => if m = 0 then .nan else .inf (a != b)
  | .fin a m _, .inf b => if m = 0 then .nan else .inf (a != b)
  | .fin a m e, .fin b n g => .fin (a != b) (m * n) (e + g)

/-- A number rounded to the format. -/
def toFmt (f : FloatFmt) : Real → RealOut
  | .nan => .invalid
  | .inf a => .val (infBits f a)
  | .fin n m e => roundReal f n m e false

def mulReal (f : FloatFmt) (a b : Real) : RealOut := toFmt f (mulExact a b)

/-- rd + a × b, rounded once (Table ISA-8). -/
def fmaReal (f : FloatFmt) (c a b : Real) : RealOut := addReal f c (mulExact a b)

/-- A quotient of numbers with a divisor that is not a finite zero, or of an infinity by a zero (R107). -/
def divReal (f : FloatFmt) : Real → Real → RealOut
  | .nan, _ => .invalid
  | _, .nan => .invalid
  | .inf _, .inf _ => .invalid
  | .inf a, .fin b _ _ => .val (infBits f (a != b))
  | .fin a _ _, .inf b => .val (zeroBits f (a != b))
  | .fin a m e, .fin b n g =>
    if n = 0 then (if m = 0 then .invalid else .ovf (a != b))
    else
      let k := f.prec + 2 + bitLen n
      let num := m * 2 ^ k
      roundReal f (a != b) (num / n) (e - g - k) (decide (num % n ≠ 0))

/-- The integer square root of a number below 4^k. -/
def isqrt : Nat → Nat → Nat
  | 0, _ => 0
  | k + 1, m =>
    let r := 2 * isqrt k (m / 4)
    if (r + 1) * (r + 1) ≤ m then r + 1 else r

def sqrtReal (f : FloatFmt) : Real → RealOut
  | .nan => .invalid
  | .inf true => .invalid
  | .inf false => .val (infBits f false)
  | .fin n m e =>
    if m = 0 then .val (zeroBits f n)
    else if n then .invalid
    else
      let k := 2 * (f.prec + 2) + (if e % 2 = 0 then 0 else 1)
      let v := m * 2 ^ k
      let r := isqrt (bitLen v / 2 + 1) v
      roundReal f false r ((e - k) / 2) (decide (r * r ≠ v))

/-- The value of a finite number compared with another's: -1, 0 or 1; none when unordered. -/
def cmpReal : Real → Real → Option Ordering
  | .nan, _ => none
  | _, .nan => none
  | .inf a, .inf b => some (if a = b then .eq else if a then .lt else .gt)
  | .inf a, .fin _ _ _ => some (if a then .lt else .gt)
  | .fin _ _ _, .inf b => some (if b then .gt else .lt)
  | .fin na ma ea, .fin nb mb eb =>
    let e := min ea eb
    some (compare (alignTo e na ma ea) (alignTo e nb mb eb))

def isNeg : Real → Bool
  | .nan => false
  | .inf a => a
  | .fin n _ _ => n

/-- The smaller of two numbers, -0 below +0. -/
def minReal (a b : Real) : Real :=
  match cmpReal a b with
  | some .lt => a
  | some .gt => b
  | _ => if isNeg a then a else b

/-- The larger of two numbers, +0 above -0. -/
def maxReal (a b : Real) : Real :=
  match cmpReal a b with
  | some .gt => a
  | some .lt => b
  | _ => if isNeg a then b else a

/-- The bits of a number that the format holds exactly. -/
def bitsOfReal (f : FloatFmt) (r : Real) : RealOut := toFmt f r

/-- A finite number as an integer, rounded to nearest with ties to even or toward zero (R144). -/
def realToInt (toZero : Bool) (n : Bool) (m : Nat) (e : Int) : Int :=
  let v : Nat :=
    if 0 ≤ e then m * 2 ^ e.toNat
    else if toZero then m / 2 ^ (-e).toNat
    else roundShift m (-e).toNat false
  if n then -(v : Int) else v

/-- An integer rounded to a format. -/
def intToReal (f : FloatFmt) (v : Int) : RealOut := roundReal f (decide (v < 0)) v.natAbs 0 false

/-- The bits say zero of either sign. -/
def realIsZero (f : FloatFmt) (bits : Nat) : Bool := bits % 2 ^ (f.frac + f.ebits) = 0

/-- The bits say a number below zero. -/
def realIsNeg (f : FloatFmt) (bits : Nat) : Bool := !realIsZero f bits && bits / 2 ^ (f.frac + f.ebits) % 2 = 1

end Sys2Proof.Machine
end

