-- ==== Sys2Proof/Machine/Flags.lean ====
section
/-! DEFINITION. What the computing instructions deliver: operand interpretation, register form, condition flags and overflow modes
(R96, R104, R107, R128, R141 to R147). -/

namespace Sys2Proof.Machine

open Sys2Proof

/-! ### Exception kinds (Table PGM-10) and the flag bits (Table PGM-2) -/

def xIllegal : Nat := 0x40
def xSpaceWrite : Nat := 0x41
def xSpaceBound : Nat := 0x42
def xAlign : Nat := 0x43
def xPartition : Nat := 0x44
def xIntOverflow : Nat := 0x45
def xDivZero : Nat := 0x46
def xRealInvalid : Nat := 0x47
def xRealOverflow : Nat := 0x48
def xBoolInvalid : Nat := 0x49
def xStackOverflow : Nat := 0x4A
def xCallDepth : Nat := 0x4B
def xSignature : Nat := 0x4C
def xUserTrap : Nat := 0x4D

def cfZ : Nat := 0
def cfN : Nat := 1
def cfC : Nat := 2
def cfV : Nat := 3
def cfU : Nat := 4
def cfS : Nat := 5
def cfT : Nat := 6

/-- One flag set to a value. -/
def setBit (cf : Byte) (i : Nat) (v : Bool) : Byte :=
  if v then cf ||| BitVec.ofNat 8 (2 ^ i) else cf &&& ~~~(BitVec.ofNat 8 (2 ^ i))

def setT (cf : Byte) (v : Bool) : Byte := setBit cf cfT v

/-- Z and N from a result of `w` bits. -/
def setZN (cf : Byte) (w : Nat) (r : Nat) : Byte :=
  setBit (setBit cf cfZ (r % 2 ^ w = 0)) cfN ((r / 2 ^ (w - 1)) % 2 = 1)

/-- Z, N, C, V of an arithmetic result; S is sticky. -/
def setArith (cf : Byte) (w r : Nat) (c v s : Bool) : Byte :=
  let cf := setBit (setBit (setZN cf w r) cfC c) cfV v
  if s then setBit cf cfS true else cf

/-! ### Operands and results -/

/-- The register form of a value of a type (Table PGM-5): signed types sign-extended, the others zero-extended. -/
def regForm (t : Ty) (raw : Nat) : W64 :=
  let v := raw % 2 ^ t.width
  if t.isSigned then BitVec.ofInt 64 (toSigned t.width v) else BitVec.ofNat 64 v

/-- The low width bits of a register. -/
def rawOf (t : Ty) (x : W64) : Nat := x.toNat % 2 ^ t.width

/-- A register operand as an integer of the type (R128). -/
def intOf (t : Ty) (x : W64) : Int := if t.isSigned then toSigned t.width (rawOf t x) else rawOf t x

def fmtOf (t : Ty) : FloatFmt := if t = .real32 then binary32 else binary64

def realOf (t : Ty) (x : W64) : Real := decodeReal (fmtOf t) (rawOf t x)

/-- Operand b from the extension word (R128): sign-extended for signed types, zero-extended for unsigned ones, a binary32 value for
the real types, widened exactly for REAL64. -/
def extOperand (t : Ty) (e : W32) : W64 :=
  if t.isSigned then BitVec.ofInt 64 (toSigned 32 e.toNat)
  else if t = .real64 then
    match decodeReal binary32 e.toNat with
    | .nan => BitVec.ofNat 64 (infBits binary64 (e.toNat / 2 ^ 31 = 1) + 2 ^ 51 + e.toNat % 2 ^ 22 * 2 ^ 29)
    | r => match toFmt binary64 r with | .val b => BitVec.ofNat 64 b | _ => 0
  else BitVec.ofNat 64 e.toNat

/-- The range of an integer type or TIME. -/
def loOf (t : Ty) : Int := if t.isSigned then -(2 ^ (t.width - 1) : Int) else 0
def hiOf (t : Ty) : Int := if t.isSigned then 2 ^ (t.width - 1) - 1 else 2 ^ t.width - 1

/-- What a computing instruction delivers: an exception, or the value for rd and the new cf. -/
inductive OpRes
  | exc (kind : Nat)
  | res (value : W64) (cf : Byte)
deriving DecidableEq, Repr

/-- An exact integer result fitted to its type (R107, R142): V for signed types and C for unsigned ones say that it lies outside. -/
def fitInt (t : Ty) (trap : Bool) (cf : Byte) (exact : Int) (carry : Bool) : OpRes :=
  let out := exact < loOf t || hiOf t < exact
  if out && trap then .exc xIntOverflow
  else
    let v := max (loOf t) (min (hiOf t) exact)
    let raw := ofSigned t.width v
    .res (regForm t raw) (setArith cf t.width raw (if t.isSigned then carry else out) (t.isSigned && out) out)

/-- A result that sets only Z and N. -/
def plainInt (t : Ty) (cf : Byte) (v : Int) : OpRes :=
  let raw := ofSigned t.width v
  .res (regForm t raw) (setZN cf t.width raw)

/-- Division by zero (Table PGM-6, R142): the largest value of the dividend's sign, 0 for 0 ÷ 0 and for MOD. -/
def divZero (t : Ty) (trap : Bool) (cf : Byte) (a : Int) (isMod : Bool) : OpRes :=
  if trap then .exc xDivZero
  else
    let v := if isMod || a = 0 then 0 else if a < 0 then loOf t else hiOf t
    let raw := ofSigned t.width v
    .res (regForm t raw) (setArith cf t.width raw (!t.isSigned) t.isSigned true)

/-! ### The INT group (Table ISA-7) -/

def intAdd (t : Ty) (trap : Bool) (cf : Byte) (a b : W64) : OpRes :=
  fitInt t trap cf (intOf t a + intOf t b) (2 ^ t.width ≤ rawOf t a + rawOf t b)

def intSub (t : Ty) (trap : Bool) (cf : Byte) (a b : W64) : OpRes :=
  fitInt t trap cf (intOf t a - intOf t b) (rawOf t a < rawOf t b)

def intMul (t : Ty) (trap : Bool) (cf : Byte) (a b : W64) : OpRes := fitInt t trap cf (intOf t a * intOf t b) false

def intDiv (t : Ty) (trap : Bool) (cf : Byte) (a b : W64) : OpRes :=
  if intOf t b = 0 then divZero t trap cf (intOf t a) false else fitInt t trap cf ((intOf t a).tdiv (intOf t b)) false

def intMod (t : Ty) (trap : Bool) (cf : Byte) (a b : W64) : OpRes :=
  if intOf t b = 0 then divZero t trap cf (intOf t a) true else fitInt t trap cf ((intOf t a).tmod (intOf t b)) false

def intNeg (t : Ty) (trap : Bool) (cf : Byte) (a : W64) : OpRes := fitInt t trap cf (-intOf t a) (rawOf t a ≠ 0)

def intAbs (t : Ty) (trap : Bool) (cf : Byte) (a : W64) : OpRes := fitInt t trap cf ((intOf t a).natAbs : Int) false

def intMin (t : Ty) (cf : Byte) (a b : W64) : OpRes := plainInt t cf (min (intOf t a) (intOf t b))

def intMax (t : Ty) (cf : Byte) (a b : W64) : OpRes := plainInt t cf (max (intOf t a) (intOf t b))

/-- MIN(MAX(rd, a), b), which is b when a > b. -/
def intLimit (t : Ty) (cf : Byte) (d a b : W64) : OpRes := plainInt t cf (min (max (intOf t d) (intOf t a)) (intOf t b))

/-- Bits [127:64] of the exact product. -/
def intMulh (t : Ty) (cf : Byte) (a b : W64) : OpRes := plainInt t cf (intOf t a * intOf t b / 2 ^ 64)

/-! ### The REAL group (Table ISA-8) -/

/-- The outcome of a real operation under the overflow mode. -/
def fitReal (t : Ty) (trap : Bool) (cf : Byte) (r : RealOut) : OpRes :=
  let f := fmtOf t
  let flags (bits : Nat) (v s : Bool) : Byte :=
    let cf := setBit (setBit (setBit (setBit cf cfZ (realIsZero f bits)) cfN (realIsNeg f bits)) cfC false) cfV v
    if s then setBit cf cfS true else cf
  match r with
  | .invalid => .exc xRealInvalid
  | .val bits => .res (BitVec.ofNat 64 bits) (flags bits false false)
  | .ovf neg => if trap then .exc xRealOverflow else .res (BitVec.ofNat 64 (maxBits f neg)) (flags (maxBits f neg) true true)

def realAdd (t : Ty) (trap : Bool) (cf : Byte) (a b : W64) : OpRes := fitReal t trap cf (addReal (fmtOf t) (realOf t a) (realOf t b))

def realSub (t : Ty) (trap : Bool) (cf : Byte) (a b : W64) : OpRes :=
  fitReal t trap cf (addReal (fmtOf t) (realOf t a) (negReal (realOf t b)))

def realMul (t : Ty) (trap : Bool) (cf : Byte) (a b : W64) : OpRes := fitReal t trap cf (mulReal (fmtOf t) (realOf t a) (realOf t b))

/-- A finite non-zero value over a zero is DIV_ZERO in TRAP mode (R107). -/
def realDiv (t : Ty) (trap : Bool) (cf : Byte) (a b : W64) : OpRes :=
  match divReal (fmtOf t) (realOf t a) (realOf t b) with
  | .ovf neg =>
    if trap && (match realOf t b with | .fin _ m _ => m = 0 | _ => false) then .exc xDivZero else fitReal t trap cf (.ovf neg)
  | r => fitReal t trap cf r

def realSqrt (t : Ty) (trap : Bool) (cf : Byte) (a : W64) : OpRes := fitReal t trap cf (sqrtReal (fmtOf t) (realOf t a))

def realAbs (t : Ty) (trap : Bool) (cf : Byte) (a : W64) : OpRes := fitReal t trap cf (toFmt (fmtOf t) (absReal (realOf t a)))

def realNeg (t : Ty) (trap : Bool) (cf : Byte) (a : W64) : OpRes := fitReal t trap cf (toFmt (fmtOf t) (negReal (realOf t a)))

/-- An operation on two numbers of which a NaN is invalid. -/
def noNan (a b : Real) (f : Real → Real → Real) : Real := if a = .nan || b = .nan then .nan else f a b

def realMin (t : Ty) (trap : Bool) (cf : Byte) (a b : W64) : OpRes :=
  fitReal t trap cf (toFmt (fmtOf t) (noNan (realOf t a) (realOf t b) minReal))

def realMax (t : Ty) (trap : Bool) (cf : Byte) (a b : W64) : OpRes :=
  fitReal t trap cf (toFmt (fmtOf t) (noNan (realOf t a) (realOf t b) maxReal))

/-- rd + a × b. -/
def realFma (t : Ty) (trap : Bool) (cf : Byte) (d a b : W64) : OpRes :=
  fitReal t trap cf (fmaReal (fmtOf t) (realOf t d) (realOf t a) (realOf t b))

/-- FMIN(FMAX(rd, a), b). -/
def realLimit (t : Ty) (trap : Bool) (cf : Byte) (d a b : W64) : OpRes :=
  fitReal t trap cf (toFmt (fmtOf t) (noNan (noNan (realOf t d) (realOf t a) maxReal) (realOf t b) minReal))

/-! ### CVT and TRUNC (R144) -/

/-- A real source to an integer type: an infinity lies outside every range. DESIGN CHOICE (log entry 125): a conversion to a signed type
or TIME leaves C clear. -/
def realToIntRes (t : Ty) (trap : Bool) (cf : Byte) (toZero : Bool) : Real → OpRes
  | .nan => .exc xRealInvalid
  | .inf neg => fitInt t trap cf (if neg then loOf t - 1 else hiOf t + 1) false
  | .fin n m e => fitInt t trap cf (realToInt toZero n m e) false

/-- A BOOL result of a conversion: no flag is named for it, so that all stay (R96, R144). -/
def boolRes (cf : Byte) (v : Bool) : OpRes := .res (BitVec.ofNat 64 (b2n v)) cf

/-- The integer that a BOOL, integer or TIME source stands for; any non-zero BOOL counts as 1. -/
def convSource (src : Ty) (a : W64) : Int := if src = .bool then (if rawOf .bool a = 0 then 0 else 1) else intOf src a

def convert (src dst : Ty) (toZero trap : Bool) (cf : Byte) (a : W64) : OpRes :=
  if src.isReal then
    let r := realOf src a
    if r = .nan then .exc xRealInvalid
    else if dst = .bool then boolRes cf (match r with | .fin _ m _ => m ≠ 0 | _ => true)
    else if dst.isReal then fitReal dst trap cf (toFmt (fmtOf dst) r)
    else realToIntRes dst trap cf toZero r
  else
    let v := convSource src a
    if dst = .bool then boolRes cf (v ≠ 0)
    else if dst.isReal then fitReal dst trap cf (intToReal (fmtOf dst) v)
    else fitInt dst trap cf v false

/-! ### LOGIC and BIT (R145, R146) -/

/-- A result of the LOGIC or BIT group, from its low width bits. -/
def logicRes (t : Ty) (cf : Byte) (raw : Nat) : OpRes := .res (regForm t raw) (setZN cf t.width raw)

def logicAnd (t : Ty) (cf : Byte) (a b : W64) : OpRes := logicRes t cf (a &&& b).toNat
def logicOr (t : Ty) (cf : Byte) (a b : W64) : OpRes := logicRes t cf (a ||| b).toNat
def logicXor (t : Ty) (cf : Byte) (a b : W64) : OpRes := logicRes t cf (a ^^^ b).toNat
def logicAndn (t : Ty) (cf : Byte) (a b : W64) : OpRes := logicRes t cf (a &&& ~~~b).toNat

/-- NOT a; for BOOL 1 − a. -/
def logicNot (t : Ty) (cf : Byte) (a : W64) : OpRes :=
  if t = .bool then logicRes t cf (1 - a : W64).toNat else logicRes t cf (~~~a).toNat

def logicShl (t : Ty) (cf : Byte) (a b : W64) : OpRes :=
  logicRes t cf (if t.width ≤ b.toNat then 0 else rawOf t a * 2 ^ b.toNat)

def logicShr (t : Ty) (cf : Byte) (a b : W64) : OpRes :=
  logicRes t cf (if t.width ≤ b.toNat then 0 else rawOf t a / 2 ^ b.toNat)

/-- The sign fill is bit width − 1 of a, whatever the type. -/
def logicSar (t : Ty) (cf : Byte) (a b : W64) : OpRes :=
  logicRes t cf (ofSigned t.width (toSigned t.width (rawOf t a) / 2 ^ (min t.width b.toNat)))

def rotateLeft (w raw k : Nat) : Nat := raw * 2 ^ (k % w) % 2 ^ w + raw / 2 ^ (w - k % w)

def logicRol (t : Ty) (cf : Byte) (a b : W64) : OpRes := logicRes t cf (rotateLeft t.width (rawOf t a) (b.toNat % t.width))

def logicRor (t : Ty) (cf : Byte) (a b : W64) : OpRes :=
  logicRes t cf (rotateLeft t.width (rawOf t a) (t.width - b.toNat % t.width))

/-- BTST sets only cf.T. -/
def bitTest (t : Ty) (cf : Byte) (a b : W64) : OpRes :=
  let v := b.toNat < t.width && (rawOf t a).testBit b.toNat
  .res (BitVec.ofNat 64 (b2n v)) (setT cf v)

/-- An operation on bit b; an index beyond the width returns a unchanged. -/
def bitChange (t : Ty) (cf : Byte) (a b : W64) (f : Nat → Nat → Nat) : OpRes :=
  logicRes t cf (if t.width ≤ b.toNat then rawOf t a else f (rawOf t a) (2 ^ b.toNat))

def bitSet (t : Ty) (cf : Byte) (a b : W64) : OpRes := bitChange t cf a b fun x m => Nat.lor x m
def bitInv (t : Ty) (cf : Byte) (a b : W64) : OpRes := bitChange t cf a b fun x m => Nat.xor x m
def bitClr (t : Ty) (cf : Byte) (a b : W64) : OpRes := bitChange t cf a b fun x m => Nat.xor (Nat.lor x m) m

/-- BEXT: zero-extended; bits beyond the width read as 0. -/
def bitExt (t : Ty) (cf : Byte) (a b : W64) : OpRes :=
  let r := rawOf t a / 2 ^ (b.toNat % 256) % 2 ^ (b.toNat / 256 % 256)
  .res (BitVec.ofNat 64 r) (setZN cf t.width r)

/-- BINS: a length of 0 leaves rd unchanged; no bit beyond the width is written. -/
def bitIns (t : Ty) (cf : Byte) (d a b : W64) : OpRes :=
  let pos := b.toNat % 256
  let len := b.toNat / 256 % 256
  if len = 0 then .res d (setZN cf t.width (rawOf t d))
  else
    let m := (2 ^ len - 1) * 2 ^ pos
    let old := rawOf t d
    logicRes t cf (Nat.xor (Nat.lor old m) m + Nat.land (rawOf t a * 2 ^ pos) m)

def popCount : Nat → Nat → Nat
  | 0, _ => 0
  | n + 1, v => v % 2 + popCount n (v / 2)

def bitPop (t : Ty) (cf : Byte) (a : W64) : OpRes := logicRes t cf (popCount t.width (rawOf t a))

def bitClz (t : Ty) (cf : Byte) (a : W64) : OpRes := logicRes t cf (t.width - bitLen (rawOf t a))

/-! ### CMP (R147) -/

/-- The six relations over an order; an unordered pair gives FALSE except for NE. -/
def relation (fn : Nat) (o : Option Ordering) : Bool :=
  match fn, o with
  | 0, some .eq => true
  | 1, some .eq => false
  | 1, _ => true
  | 2, some .lt => true
  | 3, some .lt => true
  | 3, some .eq => true
  | 4, some .gt => true
  | 5, some .gt => true
  | 5, some .eq => true
  | _, _ => false

def cmpRes (cf : Byte) (v : Bool) : OpRes := .res (BitVec.ofNat 64 (b2n v)) (setT cf v)

/-- Integer, TIME and BOOL compares set Z, N, V and C from a − b in the width: C when a is below b unsigned, V on signed overflow of
the width, for every type (log entry 27). -/
def compareInt (t : Ty) (fn : Nat) (cf : Byte) (a b : W64) : OpRes :=
  let d := toSigned t.width (rawOf t a) - toSigned t.width (rawOf t b)
  let v := d < -(2 ^ (t.width - 1) : Int) || (2 ^ (t.width - 1) : Int) ≤ d
  let cf := setArith cf t.width (ofSigned t.width d) (rawOf t a < rawOf t b) v false
  cmpRes cf (relation fn (some (compare (intOf t a) (intOf t b))))

/-- Real compares set Z, N and U and clear V and C. -/
def compareReal (t : Ty) (fn : Nat) (cf : Byte) (a b : W64) : OpRes :=
  let o := cmpReal (realOf t a) (realOf t b)
  let cf := setBit (setBit cf cfZ (o = some .eq)) cfN (o = some .lt)
  let cf := setBit (setBit (setBit cf cfU o.isNone) cfV false) cfC false
  cmpRes cf (relation fn o)

def compareRes (t : Ty) (fn : Nat) (cf : Byte) (a b : W64) : OpRes :=
  if t.isReal then compareReal t fn cf a b else compareInt t fn cf a b

/-- A branch condition (Table ISA-10). -/
def condHolds (cond : Nat) (cf : Byte) : Bool :=
  match cond with
  | 0 => true
  | 1 => bitAt cf cfT | 2 => !bitAt cf cfT
  | 3 => bitAt cf cfZ | 4 => !bitAt cf cfZ
  | 5 => bitAt cf cfN | 6 => !bitAt cf cfN
  | 7 => bitAt cf cfC | 8 => !bitAt cf cfC
  | 9 => bitAt cf cfV | 0xA => !bitAt cf cfV
  | 0xB => bitAt cf cfS | 0xC => !bitAt cf cfS
  | 0xD => bitAt cf cfU | 0xE => !bitAt cf cfU
  | _ => false

end Sys2Proof.Machine
end

