-- ==== Sys2Proof/Machine/Operands.lean ====
section
/-! DEFINITION. What a lane instruction reads and writes: general registers with outstanding loads, addresses, the checks of an
access, the memory spaces behind the placement map, quality tags, and effect records (R91 to R114, R132, R136 to R140, R217). -/

namespace Sys2Proof.Machine

open Sys2Proof

/-! ### General registers (R91, R132) -/

/-- A general register; g0 reads zero. -/
def LaneCtx.rd (c : LaneCtx) (i : Nat) : W64 := if i = 0 then 0 else (c.gs[i]?).getD 0

/-- A general register written; a write of g0 is discarded. -/
def LaneCtx.wr (c : LaneCtx) (i : Nat) (v : W64) : LaneCtx := if i = 0 then c else { c with gs := c.gs.setIfInBounds i v }

/-- Outstanding loads into the listed registers deliver their values. -/
def LaneCtx.settle (c : LaneCtx) (rs : List Nat) : LaneCtx :=
  let due := c.loads.filter fun d => d.rd ∈ rs
  due.foldl (fun c d => c.wr d.rd d.value) { c with loads := c.loads.filter fun d => d.rd ∉ rs }

/-- The oldest outstanding load delivers its value. -/
def LaneCtx.arrive (c : LaneCtx) : LaneCtx :=
  match c.loads with
  | [] => c
  | d :: ds => { c with loads := ds }.wr d.rd d.value

/-- A bulk-store load goes out; a fifth first waits for the oldest (R132). -/
def LaneCtx.fetchBulk (c : LaneCtx) (rd : Nat) (v : W64) : LaneCtx :=
  let c := if 4 ≤ c.loads.length then c.arrive else c
  { c with loads := c.loads ++ [{ rd, value := v }] }

/-! ### Stack shares (R94, log entry 10) -/

/-- The base of the stack region in a lane's local memory. -/
def stackBase : Nat := 0x2000000
def laneBase : Nat := 0x1000000

def roundUp (k n : Nat) : Nat := (n + (k - 1)) / k * k

/-- The stack bytes that the tasks of a context need. -/
def stackNeed (p : Program) (f : TaskDecl → Bool) : Nat := roundUp 16 ((p.tasks.filter f).map (·.stack) |> longest)

/-- The sizes of the four shares: safety timed, the two that timed and suspended non-safety tasks alternate on, F cycle. -/
def shareSizes (p : Program) : List Nat :=
  let timed := stackNeed p fun t => !t.safety && t.cls ≠ .f
  [stackNeed p (·.safety), timed, timed, stackNeed p fun t => t.cls = .f]

/-- Bottom and top of a share, as stack addresses. -/
def shareOf (p : Program) (i : Nat) : Nat × Nat :=
  let lo := ((shareSizes p).take i).sum
  (lo, lo + (shareSizes p).getD i 0)

/-- The near store's part of the stack region in a lane's local memory (R94). -/
def nearStackBase : Nat := 0x800000

/-- A byte of the stack region: the 32 KiB directly below the stack top of the safety timed context lie in the near store, the rest in
the lane store (R94). -/
def stackAddr (p : Program) (off : Nat) : Nat :=
  let top := (shareOf p 0).2
  if off < top && top ≤ off + 0x8000 then nearStackBase + off else stackBase + off

/-! ### Addresses (R98, R112, R136) -/

/-- An address formed by an instruction: the stack, or a space by its code with an instance and an offset. -/
structure Access where
  stack : Bool
  space : Nat
  inst : Nat
  off : Nat
deriving DecidableEq, Repr

/-- The reference of R112: space in [63:61], instance in [47:32], offset in [31:0]. -/
def refOf (space inst off : Nat) : Nat := space * 2 ^ 61 + (if space = 0 then inst * 2 ^ 32 else 0) + off % 2 ^ 32

/-- What a reference names, with a displacement. -/
def refAccess (r : W64) (disp : Nat) : Access :=
  { stack := false, space := field r 63 61, inst := field r 47 32, off := field r 31 0 + disp }

/-- Address formation of format M (Table ISA-6); `size` is that of the type. -/
def formAddress (c : LaneCtx) (f : MFmt) (size : Nat) : Access :=
  let disp := if f.x then f.ext.toNat else f.off.toNat * size
  let a := c.rd f.ra.toNat
  match f.base.toNat with
  | 0 => { stack := false, space := f.space.toNat, inst := c.ib.toNat, off := disp }
  | 1 => { stack := false, space := f.space.toNat, inst := field a 47 32, off := field a 31 0 + disp }
  | 2 => { stack := true, space := 0, inst := 0, off := c.sp.toNat + disp }
  | _ => refAccess a disp

/-- The size of an instance, header included. -/
def instSize (p : Program) (d : InstDecl) : Nat := ((progType p d.ty).map (·.size)).getD 16

/-- Code runs with the part of the instance in ib (R110). -/
def partSafe (p : Program) (c : LaneCtx) : Bool := ((progInst p c.ib.toNat).map (·.safety)).getD false

/-- The declared item that holds every byte of a range. -/
def itemAt (p : Program) (space : Space) (off len : Nat) : Option ItemDecl :=
  p.items.find? fun i => i.space = space && i.off ≤ off && off + len ≤ i.off + i.size

def itemKind (space : Nat) : Space := if space = 3 then .global else if space = 4 then .constant else .parameter

/-- The size of a space (Table PGM-4). -/
def spaceSize : Nat → Nat
  | 1 | 2 => 0x80000 | 3 => 0x10000000 | 4 => 0x4000000 | _ => 0x1000000

/-! ### The checks of an access, in the order of R129 -/

def orElseExc (a : Bool) (kind : Nat) (rest : Option Nat) : Option Nat := if a then some kind else rest

/-- The exception of an access of `len` bytes aligned to `align`, if it raises one (R102, R113, R114). -/
def accessExc (p : Program) (c : LaneCtx) (a : Access) (len align : Nat) (store : Bool) : Option Nat :=
  let bad := a.off % align ≠ 0
  let safe := partSafe p c
  if a.stack then
    let (lo, hi) := shareOf p c.share
    orElseExc bad xAlign (orElseExc (a.off < lo || hi < a.off + len) xSpaceBound none)
  else
    match a.space with
    | 0 =>
      match progInst p a.inst with
      | none => some xSignature
      | some d =>
        orElseExc bad xAlign
          (orElseExc (instSize p d < a.off + len) xSpaceBound
            (orElseExc (store && a.off < 16) xSpaceWrite
              (orElseExc (if store then !safe && d.safety else safe && !d.safety && !d.safeRead) xPartition none)))
    | 1 => orElseExc bad xAlign (orElseExc (spaceSize 1 < a.off + len) xSpaceBound (orElseExc store xSpaceWrite none))
    | 2 =>
      let guarded := p.outputs.any fun v => v.safety && v.off < a.off + len && a.off < v.off + v.ty.size
      orElseExc bad xAlign
        (orElseExc (spaceSize 2 < a.off + len) xSpaceBound (orElseExc (store && !safe && guarded) xPartition none))
    | 3 =>
      match itemAt p .global a.off len with
      | none => some (if bad then xAlign else xSpaceBound)
      | some i =>
        orElseExc bad xAlign
          (orElseExc (if store then !safe && i.safety else safe && !i.safety && !i.safeRead) xPartition none)
    | 4 => orElseExc bad xAlign (orElseExc (itemAt p .constant a.off len).isNone xSpaceBound (orElseExc store xSpaceWrite none))
    | 5 => orElseExc bad xAlign (orElseExc (itemAt p .parameter a.off len).isNone xSpaceBound (orElseExc store xSpaceWrite none))
    | _ => some (if bad then xAlign else xSpaceBound)

/-! ### Where the map puts a datum (R99, R100, R191) -/

/-- A place: a lane's own memory, or the bulk store. -/
inductive Place
  | own (addr : Nat)
  | bulk (key : Nat)
deriving DecidableEq, Repr

/-- The bulk store is addressed by program and reference (log entry 4). -/
def bulkKey (p ref : Nat) : Nat := p * 2 ^ 64 + ref

/-- Tier and area offset of an instance under a map. -/
def instTier (m : Option PMap) (i : Nat) : Tier × Nat :=
  match m.bind fun m => m.insts.find? fun r => r.index = i with
  | some r => (r.tier, r.off)
  | none => (.bulk, 0)

/-- Tier and area offset of the global, or of the per-lane copy of the constant or parameter, at an offset of its space under a map. -/
def itemTier (m : Option PMap) (space : Space) (off : Nat) : Tier × Nat :=
  match m.bind fun m => m.items.find? fun r => r.space = space && r.offset ≤ off && off < r.offset + r.size with
  | some r => (r.tier.getD .bulk, r.off + (off - r.offset))
  | none => (.bulk, 0)

def placeOfTier (t : Tier × Nat) (key : Nat) : Place :=
  match t.1 with
  | .near => .own t.2 | .lane => .own (laneBase + t.2) | .bulk => .bulk key

/-- The place from which a byte is read: that of the instance or global, or for a constant or parameter the per-lane copy that the map
makes, else the master copy (R191). -/
def placeUnder (m : Option PMap) (p space inst off : Nat) : Place :=
  match space with
  | 0 =>
    let t := instTier m inst
    placeOfTier (t.1, t.2 + off) (bulkKey p (refOf 0 inst off))
  | 3 | 4 | 5 => placeOfTier (itemTier m (itemKind space) off) (bulkKey p (refOf space 0 off))
  | _ => .bulk (bulkKey p (refOf space 0 off))

/-- Every place that holds a byte: a constant or parameter has its master copy in the bulk store beside the copy of each lane (R191). -/
def placesUnder (m : Option PMap) (p space inst off : Nat) : List Place :=
  let q := placeUnder m p space inst off
  if space = 4 || space = 5 then [.bulk (bulkKey p (refOf space 0 off)), q].eraseDups else [q]

def placeOf (s : State) (p : Nat) (a : Access) : Place :=
  if a.stack then .own (stackAddr (progOf s p) a.off) else placeUnder (mapFor s p) p a.space a.inst a.off

/-- A lane's own bulk-store stores that the voter has not passed, put over bytes of the store (R100). -/
def overlay (x : LaneSt) (p key : Nat) (bs : List Byte) : List Byte :=
  (x.queue ++ x.spill).foldl (fun bs r =>
    if r.kind ≠ 0 then bs
    else
      let data := r.beats.flatMap fun b => bytesLE (2 ^ r.size) b
      bs.zipIdx.map fun (b, i) =>
        let k := key + i
        let base := bulkKey p r.addr
        if base ≤ k && k < base + data.length then data.getD (k - base) b else b) bs

/-- `len` bytes at a place, as a lane sees them. -/
def readPlace (s : State) (l : Lane) (q : Place) (len : Nat) : List Byte :=
  match q with
  | .own a => Memory.readBytes (s.lane l).mem a len
  | .bulk k => overlay (s.lane l) (progNo s l) k (Memory.readBytes s.bulk k len)

/-! ### Single-sourced reads (R16, R215) -/

/-- The entry of the replay buffer that a lane's read takes: the oldest of its context with the same key and length. A length of 0
marks a URD. -/
def replayFor (s : State) (l : Lane) (k : CtxKind) (len addr : Nat) : Option Replay :=
  if (s.lane l).role ≠ .voting then none
  else s.voter.replay.find? fun r => r.ctx = k && r.len = len && r.addr = addr && decide (l ∈ r.left)

/-- The first entry that a test picks is changed. -/
def mapFirst (p : Replay → Bool) (f : Replay → Replay) : List Replay → List Replay
  | [] => []
  | r :: rs => if p r then f r :: rs else r :: mapFirst p f rs

/-- A lane has taken its entry; an entry that every lane has taken goes. -/
def takeReplay (s : State) (l : Lane) (k : CtxKind) (len addr : Nat) : State :=
  { s with voter := { s.voter with
      replay := (mapFirst (fun r => r.ctx = k && r.len = len && r.addr = addr && decide (l ∈ r.left))
        (fun r => { r with left := r.left.filter (· ≠ l) }) s.voter.replay).filter fun r => !r.left.isEmpty } }

/-- What the first lane of the voted set received waits for the others. -/
def leaveReplay (s : State) (l : Lane) (k : CtxKind) (len addr value : Nat) (ok : Bool) : State :=
  let left : List Lane := if (s.lane l).role = .voting then (voteSet s).filter (· ≠ l) else []
  if left.isEmpty then s
  else { s with voter := { s.voter with replay := s.voter.replay ++ [{ ctx := k, len, addr, value, ok, left }] } }

/-- `len` bytes at a place, as a load of a context receives them: a load from the bulk store is performed once for the voted set, and
a lane's own stores that the voter has not passed come before it (R100, R215). -/
def loadPlace (s : State) (l : Lane) (k : CtxKind) (q : Place) (len : Nat) : List Byte :=
  match q with
  | .own a => Memory.readBytes (s.lane l).mem a len
  | .bulk key =>
    let bs := match replayFor s l k len key with
      | some r => bytesLE len r.value
      | none => Memory.readBytes s.bulk key len
    overlay (s.lane l) (progNo s l) key bs

/-- A load is made: the first lane's stays for the others, and a later lane takes it. -/
def noteLoad (s : State) (l : Lane) (k : CtxKind) (q : Place) (len : Nat) : State :=
  match q with
  | .own _ => s
  | .bulk key =>
    match replayFor s l k len key with
    | some _ => takeReplay s l k len key
    | none => leaveReplay s l k len key (fromLE (loadPlace s l k q len)) true

/-- The 64-byte lines that a local store tracks (R231). -/
def trackLines (ls : List Nat) (a len : Nat) : List Nat :=
  (List.range ((a + len - 1) / 64 + 1 - a / 64)).foldl (fun ls i => mark ls (a / 64 + i)) ls

/-- Bytes put into a lane's own memory by the module, which the digest does not track (R231). -/
def LaneSt.put (x : LaneSt) (a : Nat) (bs : List Byte) : LaneSt := { x with mem := Memory.writeBytes x.mem a bs }

/-- Bytes stored into a lane's own memory. -/
def LaneSt.store (x : LaneSt) (a : Nat) (bs : List Byte) : LaneSt :=
  { x with mem := Memory.writeBytes x.mem a bs, tracked := trackLines x.tracked a bs.length }

/-! ### Effect records (R133, R217) -/

/-- The effect queue takes no record now. -/
def queueFull (x : LaneSt) : Bool := 32 ≤ x.queue.length || !x.spill.isEmpty

/-- A record enters the queue, or waits behind it. -/
def LaneSt.present (x : LaneSt) (r : EffectRec) : LaneSt :=
  if queueFull x then { x with spill := x.spill ++ [r] } else { x with queue := x.queue ++ [r] }

/-- A lane presents a record now. -/
def State.present (s : State) (l : Lane) (r : EffectRec) : State := s.setLane l ((s.lane l).present { r with at_ := s.tb3 })

/-- A store of bytes to a place: local, or one effect of one beat (R100). -/
def storePlace (s : State) (l : Lane) (k : CtxKind) (safety : Bool) (a : Access) (size : Nat) (bs : List Byte) : State :=
  match placeOf s (progNo s l) a with
  | .own addr => s.setLane l ((s.lane l).store addr bs)
  | .bulk _ =>
    s.present l
      { kind := 0, size, last := false, safety, tag := .good, addr := refOf a.space a.inst a.off, beats := [fromLE bs], ctx := k }

/-- A store at this place needs room in the effect queue. -/
def isEffect (s : State) (l : Lane) (a : Access) : Bool :=
  match placeOf s (progNo s l) a with | .own _ => false | .bulk _ => true

/-! ### Images and tags (R101, R109, R137) -/

def LaneSt.inBuf (x : LaneSt) : Nat → InBuf
  | 0 => x.in0 | 1 => x.in1 | _ => x.in2

def LaneSt.setInBuf (x : LaneSt) (i : Nat) (b : InBuf) : LaneSt :=
  match i with
  | 0 => { x with in0 := b } | 1 => { x with in1 := b } | _ => { x with in2 := b }

/-- The declared values of the input image with the blocks that the module writes: offset and length. -/
def inSpans (p : Program) : List (Nat × Nat) :=
  (p.inputs.map fun v => (v.off, v.ty.size))
    ++ (p.summaryAt.toList.map fun o => (o, 16))
    ++ (p.timeAt.toList.flatMap fun o =>
      ((List.range 5).map fun x => (o + 16 * x, 16)) ++ ((List.range 5).map fun x => (o + 80 + x, 1)) ++ [(o + 85, 3)])
    ++ (p.captureAt.map fun c => (c.2, 136))

def outSpans (p : Program) : List (Nat × Nat) := p.outputs.map fun v => (v.off, v.ty.size)

/-- The tag of an access: the largest over its bytes, BAD for a byte outside every declared value (R137). -/
def spanTag (spans : List (Nat × Nat)) (tagAt : Nat → Tag) (off len : Nat) : Tag :=
  (List.range len).foldl (fun t i =>
    match spans.find? fun v => v.1 ≤ off + i && off + i < v.1 + v.2 with
    | some v => Tag.max t (tagAt v.1)
    | none => .bad) .good

/-- The committed value that covers an output-image byte. -/
def committedByte (s : State) (p : Nat) (prog : Program) (off : Nat) : Byte :=
  match prog.outputs.find? fun v => v.off ≤ off && off < v.off + v.ty.size with
  | some v => (bytesLE v.ty.size (((mapGet? (progKey p v.off) s.prog.outs).map (·.value)).getD v.init)).getD (off - v.off) 0
  | none => 0

def committedTag (s : State) (p off : Nat) : Tag := ((mapGet? (progKey p off) s.prog.outs).map (·.tag)).getD .good

/-- An output-image byte as the running task sees it (R69, R101). -/
def outByte (s : State) (p : Nat) (prog : Program) (c : LaneCtx) (off : Nat) : Byte :=
  (mapGet? off c.out).getD (committedByte s p prog off)

/-- Bytes and tag of an access; the tag is GOOD outside the image spaces. -/
def readAccess (s : State) (l : Lane) (k : CtxKind) (c : LaneCtx) (a : Access) (len : Nat) : List Byte × Tag :=
  let p := progNo s l
  let prog := laneProg s l
  if a.stack || (a.space ≠ 1 && a.space ≠ 2) then (loadPlace s l k (placeOf s p a) len, .good)
  else if a.space = 1 then
    let b := (s.lane l).inBuf c.buf
    (Memory.readBytes b.bytes a.off len, spanTag (inSpans prog) (fun o => mapGetD b.tags o .bad) a.off len)
  else
    ((List.range len).map fun i => outByte s p prog c (a.off + i),
      spanTag (outSpans prog) (fun o => mapGetD c.outTags o (committedTag s p o)) a.off len)

/-- What the load of an access leaves in the replay buffer, or takes from it. -/
def noteRead (s : State) (l : Lane) (k : CtxKind) (a : Access) (len : Nat) : State :=
  if a.stack || (a.space ≠ 1 && a.space ≠ 2) then noteLoad s l k (placeOf s (progNo s l) a) len else s

/-- A store into the running task's output buffer with the tag qf.OUT (R109). -/
def LaneCtx.storeOut (c : LaneCtx) (prog : Program) (off : Nat) (bs : List Byte) : LaneCtx :=
  let t := Tag.decode (field c.qf 5 4)
  { c with
    out := bs.zipIdx.foldl (fun m (b, i) => mapPut (off + i) b m) c.out,
    outTags := (prog.outputs.filter fun v => v.off < off + bs.length && off < v.off + v.ty.size).foldl
      (fun m v => mapPut v.off t m) c.outTags }

/-- qf after a load from an image space (R109). -/
def loadTag (qf : Byte) (t : Tag) : Byte :=
  let worst := Tag.max (Tag.decode (field qf 3 2)) t
  BitVec.ofNat 8 (field qf 5 4 * 16 + worst.code * 4 + t.code)

def isImage (a : Access) : Bool := !a.stack && (a.space = 1 || a.space = 2)

/-! ### The overflow mode and the code range -/

/-- The overflow mode of the type of the instance in ib (R107). -/
def trapMode (p : Program) (c : LaneCtx) : Bool :=
  (((progInst p c.ib.toNat).bind fun d => progType p d.ty).map (·.trap)).getD false

end Sys2Proof.Machine
end

