-- ==== Sys2Proof/Machine/Hlk.lean ====
section
/-! DEFINITION. HLK: the bridge's transactions, prefetch, locked sequences, card proxies, presence and identity records
(chapter 16). -/

namespace Sys2Proof.Machine

open Sys2Proof

/-! ### Identity records (R434 to R436) -/

/-- A 256-byte record whose CRC checks. -/
def recordOk (r : List Byte) : Bool := r.length = 256 && fromLE (r.drop 0xFC) = crc32 (r.take 0xFC)

def recByte (r : List Byte) (i : Nat) : Nat := (r.getD i 0).toNat

/-- TYPE and the capability bytes of a card record, as they enter placement (R433, Table PLACE-15). -/
def capability (r : List Byte) : List Byte := (r.drop 4).take 4 ++ (r.drop 0x18).take 0x48

/-- TYPE and the slot map of the backplane record (Table PLACE-15). -/
def bpCapability (r : List Byte) : List Byte := (r.drop 4).take 4 ++ (r.drop 0x18).take 0x88

/-- The type of a 1 KiB region of a card sub-unit: 0 absent, 1 REGISTER, 2 MEMORY (Table HLK-5). -/
def regionType (c : CardState) (sub k : Nat) : Nat := fromLE [c.record.getD (0x28 + 2 * sub) 0, c.record.getD (0x29 + 2 * sub) 0] / 4 ^ k % 4

/-- A region that the bridge prefetches (R428). -/
def isMemory (s : State) (slot : Fin 32) (sub k : Nat) : Bool :=
  regionType (s.card slot) sub k = 2 && !bitAt (s.reg .hlk (0x200 + 4 * slot.val)) sub

/-- Slot, sub-unit and region of a card address at offset 0x100 or above. -/
def cardRegion (addr : Nat) : Option (Fin 32 × Fin 17 × Nat) :=
  match unitOfAddr addr with
  | some (.card slot sub, off) => if off < 0x100 then none else some (slot, sub, off / 0x400)
  | _ => none

/-- A card that answers: in the tree, present, with a link up, while HLK runs and does not drain (R38, R432, R438). -/
def cardReachable (s : State) (slot : Fin 32) : Bool :=
  (s.card slot).inUnit && (s.card slot).present && (cardEnd s slot).isSome && (s.ucb .hlk).state = .run
    && !(s.ucb .hlk).draining

/-! ### The near port (R421 to R423) -/

/-- Transactions outstanding now. -/
def outstanding (h : HlkState) : Nat := h.posted.length + b2n h.heldRead.isSome

def noteOutstanding (s : State) : State := { s with hlk := { s.hlk with outMax := max s.hlk.outMax (outstanding s.hlk) } }

def slotOfAddr (a : Nat) : Nat := (a - 0xF1000000) / 0x100000

/-- A write passes through the bridge: it is posted, and a prefetched block that holds it goes (R422, R428). -/
def forwardWrite (s : State) (r : NearReq) : State :=
  let s := dropPrefetch s fun e => e.block = r.addr / 64 * 64
  noteOutstanding { s with hlk := { s.hlk with posted := s.hlk.posted ++ [r] } }

def forwardRead (s : State) (r : NearReq) : State := noteOutstanding { s with hlk := { s.hlk with heldRead := some r } }

/-- A request waiting in the queue goes out when the near port is open and a transaction is free: a posted write before any
read (R421), writes in their order and a read behind the writes of its card (Table HLK-2). `n` bounds the walk. -/
def pumpQueue : Nat → State → State
  | 0, s => s
  | n + 1, s =>
    if s.hlk.heldRead.isSome || 256 ≤ outstanding s.hlk then s
    else
      match s.hlk.queue.find? (·.write.isSome), s.hlk.queue with
      | some w, _ => pumpQueue n (forwardWrite { s with hlk := { s.hlk with queue := s.hlk.queue.erase w } } w)
      | none, r :: rest => forwardRead { s with hlk := { s.hlk with queue := rest } } r
      | none, [] => s

def pump (s : State) : State := pumpQueue (s.hlk.queue.length + 1) s

/-- A near-side request enters the queue. -/
def nearRequest (s : State) (r : NearReq) : State := pump { s with hlk := { s.hlk with queue := s.hlk.queue ++ [r] } }

/-- The posted writes have been acknowledged (log entry 19). -/
def postedDone (s : State) : State := pump { s with hlk := { s.hlk with posted := [] } }

/-- Read data or an error response reaches the context of the lane that waits in a URD, and the replay buffer for the later lanes of
the voted set (R16, R163). -/
def readArrived (s : State) (l : Lane) (k : CtxKind) (addr value : Nat) (ok : Bool) : State :=
  let x := s.lane l
  match (x.ctx k).wait with
  | .urd rd a none =>
    if a ≠ addr then s
    else leaveReplay (s.setLane l (x.setCtx k { x.ctx k with wait := .urd rd a (some (value, ok)) })) l k 0 addr value ok
  | _ => s

/-- The unit whose transaction a request is: the voter for the program, LCS/UPD for an update, HLK for its own (R280). -/
def initiator : NearBy → UnitId
  | .program _ _ | .writer => .voter
  | .bridge => .hlk
  | .update => .lcs

/-- The base of the card's unit that holds an address (Table UNIT-7). -/
def cardBase (addr : Nat) : Nat := match unitOfAddr addr with | some (.card t i, _) => baseOf (.card t i) | _ => 0

/-- A held read ends with data or an error response, and the near port reopens. -/
def endRead (s : State) (r : NearReq) (value : Nat) (ok : Bool) : State :=
  let s := { s with hlk := { s.hlk with heldRead := none } }
  let s := if ok then s else raise s (initiator r.by_) 0xF4 (cardBase r.addr)
  let s := match r.by_ with
    | .program l k => readArrived s l k r.addr value ok
    | _ => s
  pump s

/-! ### Prefetch (R428, R429) -/

/-- The prefetch entry that holds a word. -/
def prefetched (s : State) (addr : Nat) : Option Prefetch := s.hlk.prefetch.find? fun e => e.block = addr / 64 * 64

/-- A word is consumed from its entry. -/
def consumeWord (s : State) (addr : Nat) : State :=
  { s with hlk := { s.hlk with prefetch := s.hlk.prefetch.map fun e =>
      if e.block = addr / 64 * 64 then { e with consumed := Nat.lor e.consumed (2 ^ (addr % 64 / 8)) } else e } }

/-- A fetched block takes an entry; the oldest of 16 gives way. -/
def installBlock (s : State) (addr slot : Nat) (d : CardData) : State :=
  let s := dropPrefetch s fun e => e.block = addr / 64 * 64
  let s := if s.hlk.prefetch.length < 16 then s
    else match s.hlk.prefetch with
      | e :: _ => dropPrefetch s (fun x => x.block = e.block)
      | [] => s
  let e : Prefetch := { block := addr / 64 * 64, data := d.block, side := d.side.toNat, consumed := 2 ^ (addr % 64 / 8), slot }
  { s with hlk := { s.hlk with prefetch := s.hlk.prefetch ++ [e] } }

/-- The data of the held read returns (R422); without one, a late completion is discarded (R423). -/
def cardData (s : State) (d : CardData) : State :=
  match s.hlk.heldRead with
  | none => s
  | some r =>
    if d.error then endRead s r 0 false
    else
      let s := match cardRegion r.addr with
        | some (slot, sub, k) => if isMemory s slot sub k then installBlock s r.addr slot d else s
        | none => s
      let s := match r.by_ with
        | .update =>
          match s.hlk.lockedSlot with
          | some slot =>
            let s := (List.finRange 4).foldl (fun s (n : Fin 4) => if n ∈ cardEnds s slot then s.setLink n { s.link n with locked := false } else s) s
            forwardWrite { s with hlk := { s.hlk with lockedSlot := none } } r
          | none => s
        | _ => s
      endRead s r d.word.toNat true

def execCardReadCompletion (d : CardData) (s : State) : Out := .next (cardData s d)

/-- 20 µs without a completion (R423). -/
def readTimeout (s : State) : State :=
  match s.hlk.heldRead with
  | none => s
  | some r =>
    let s := raise { s with hlk := { s.hlk with readTo := satUp 255 s.hlk.readTo } } .hlk 6 r.addr
    endRead s r 0 false

def execReadTimeout (s : State) : Out := .next (readTimeout s)

/-! ### Program access to a card (R430, R432, R436) -/

/-- What a URD of a card address at 0x100 or above gives: a value and whether it is good, or nothing yet when the read goes to
the card. -/
def cardRead (s : State) (l : Lane) (k : CtxKind) (addr : Nat) : Option (Nat × Bool) × State :=
  match cardRegion addr with
  | none => (some (0, false), s)
  | some (slot, sub, r) =>
    if !cardReachable s slot || regionType (s.card slot) sub r = 0 || regionType (s.card slot) sub r = 3 then (some (0, false), s)
    else
      match if isMemory s slot sub r then prefetched s addr else none with
      | some e => (some ((e.data.getD (addr % 64 / 4) 0).toNat, true), consumeWord s addr)
      | none => (none, nearRequest s { addr, write := none, by_ := .program l k })

/-- A UWR of a card address: whether it is defined, and the posted write. -/
def cardWrite (s : State) (by_ : NearBy) (addr : Nat) (v : W32) : Bool × State :=
  match cardRegion addr with
  | none => (false, s)
  | some (slot, sub, k) =>
    if !cardReachable s slot || regionType (s.card slot) sub k = 0 || regionType (s.card slot) sub k = 3 then (false, s)
    else (true, nearRequest s { addr, write := some v, by_ })

/-! ### Card-initiated requests (R421, R426, R427) -/

def retry (s : State) : State := { s with hlk := { s.hlk with retry := (s.hlk.retry + 1) % 65536 } }

/-- A held read uses a link when its card's end is that link. -/
def heldOn (s : State) (n : Fin 4) : Bool :=
  match s.hlk.heldRead with
  | some r => cardEnd s (slotOfAddr r.addr) = some n
  | none => false

/-- A card's request is served, or receives RETRY: while the bridge drains, while its link is locked, when no transaction is
free, or when it crosses a held read. A locked sequence ends with an error response. -/
def cardAsks (s : State) (slot : Fin 32) (n : Fin 4) (r : CardReq) : State :=
  if !hlkUp s n || !(s.card slot).present then s
  else if (s.ucb .hlk).state ≠ .run || (s.ucb .hlk).draining || (s.link n).locked || 256 ≤ outstanding s.hlk then retry s
  else
    let c := s.card slot
    match r with
    | .image d =>
      let twice := c.imageNew && c.imageAt = s.tb3
      s.setCard slot { c with image := d, imageNew := true, imageAt := s.tb3,
                              imageBefore := if twice then c.imageBefore else c.image,
                              newBefore := if twice then c.newBefore else c.imageNew }
    | .mailboxWrite off d => s.setCard slot { c with mailbox := Memory.writeBytes c.mailbox (off % 65536) (d.take (65536 - off % 65536)) }
    | .mailboxRead _ => if heldOn s n then retry s else s
    | .locked => s

def execCardRequest (slot : Fin 32) (link : Fin 4) (r : CardReq) (s : State) : Out := .next (cardAsks s slot link r)

/-- LCS/UPD's locked sequence takes the links of the card (R426). -/
def lockSequence (s : State) (slot : Fin 32) : State :=
  if !cardReachable s slot || s.hlk.lockedSlot.isSome || s.hlk.heldRead.isSome || 256 ≤ outstanding s.hlk then s
  else
    let s := (List.finRange 4).foldl (fun s (n : Fin 4) => if n ∈ cardEnds s slot then s.setLink n { s.link n with locked := true } else s) s
    forwardRead { s with hlk := { s.hlk with lockedSlot := some slot } } { addr := baseOf (.card slot 0), write := none, by_ := .update }

def execLockedSequence (slot : Fin 32) (s : State) : Out := .next (lockSequence s slot)

/-- 2 µs have passed: the sequence ends with an error response and the lock is released. -/
def lockTimeout (s : State) : State :=
  match s.hlk.lockedSlot with
  | none => s
  | some slot =>
    let s := (List.finRange 4).foldl (fun s (n : Fin 4) => if n ∈ cardEnds s slot then s.setLink n { s.link n with locked := false } else s) s
    let a := match fin? 32 slot with | some t => baseOf (.card t 0) | none => 0
    let s := raise { s with hlk := { s.hlk with lockedSlot := none, lockTo := satUp 255 s.hlk.lockTo } } .hlk 7 a
    match s.hlk.heldRead with
    | some r => if r.by_ = .update then endRead s r 0 false else s
    | none => s

def execLockTimeout (s : State) : Out := .next (lockTimeout s)

/-! ### Card commands and card status (R292, R430, R431) -/

/-- A command is forwarded to a card that answers (R430): the proxy is BUSY until the card's checks and its completion. -/
def forwardCommand (s : State) (slot : Fin 32) (sub : Fin 17) (w : Writer) (code arg : Nat) : State :=
  s.setUcb (.card slot sub) fun b => { b with busy := true, code := .ok, cmd := code, running := some { code, arg, writer := w } }

/-- The command of a restart did not end OK: the unit enters FAULT, to be acknowledged by the class of its fault (R287, R292). -/
def restartFailed (s : State) (u : UnitId) (cls : Nat) : State :=
  noteGroups (s.setUcb u fun b => { b.gated .fault with faultClass := some cls, faultTaken := true })

/-- The argument by which the module's own ENABLE and START of a reset card carry the class of the fault, and whether START follows. -/
def restartArg (cls : Nat) (start : Bool) : Nat := 2 * cls + b2n start

/-- A card refuses a command at checks 4 or 5 (R34, R430). -/
def cardRefused (s : State) (slot : Fin 32) (sub : Fin 17) (r : Running) (st : Status) : State :=
  let u : UnitId := .card slot sub
  let s := refuse (s.setUcb u fun b => { b with busy := false, running := none }) u r.code st none
  if r.writer = .module && r.code ≤ 2 then restartFailed s u (r.arg / 2) else s

/-- A card reports a command complete. RESET leaves the proxy's fault fields and REFUSED at their reset values, ENABLE clears FORCED
(R27, R30); after the ENABLE of a restart the START follows that its unit is due (R292). -/
def cardDone (s : State) (slot : Fin 32) (sub : Fin 17) (code : Status) (data : Nat) : State :=
  let u : UnitId := .card slot sub
  match (s.ucb u).running with
  | none => s
  | some r =>
    let s := s.finish u code data
    if code ≠ .ok then (if r.writer = .module && r.code ≤ 2 then restartFailed s u (r.arg / 2) else s)
    else if r.code = 7 then s.setUcb u fun b => { b.resetFields with code := .ok, cmd := 7 }
    else if r.code = 1 then
      let s := s.setUcb u fun b => { b with forced := false }
      if r.writer = .module && r.arg % 2 = 1 then forwardCommand s slot sub .module 2 (restartArg (r.arg / 2) false) else s
    else s

/-- A status packet of a sub-unit: its state, the outcome of the card's checks, a completion, or a fault. -/
def status (s : State) (slot : Fin 32) (sub : Fin 17) (p : CardStatus) : State :=
  let u : UnitId := .card slot sub
  if !inTree s u || !cardReachable s slot then s else
  match p with
  | .state st =>
    if (s.ucb u).state = st then s
    else
      let s := noteGroups (s.setUcb u (·.gated st))
      if st = .run then backInRun s u else s
  | .check code =>
    match (s.ucb u).running with
    | none => s
    | some r =>
      if code = 0 then s.setUcb u fun b => { b with code := .ok, result := b.result.start }
      else cardRefused s slot sub r (if code = 5 then .illegalState else if code = 6 then .badArg else .notReady)
  | .done code data =>
    cardDone s slot sub (match code with | 0 => .ok | 7 => .deferred | 8 => .timeout | _ => .faulted) data
  | .fault kind cls level a => raiseAs s u kind (if cls = 13 || cls = 0 then cls else 12) level a.toNat

def execStatusPacket (slot : Fin 32) (sub : Fin 17) (p : CardStatus) (s : State) : Out := .next (status s slot sub p)

/-! ### Links, presence and records (R418, R432 to R435) -/

def execHlkLinkDown (n : Fin 4) (s : State) : Out := .next (hlkDown s n)

def hlkUnit (n : Fin 4) : UnitId := .link n

/-- A link completes training: the port is healthy again (R418). -/
def hlkTrained (s : State) (n : Fin 4) : State :=
  if s.clk.linkStop || (s.ucb (.link n)).state = .off || (s.ucb (.link n)).state = .fault then s
  else (s.setLink n { s.link n with up := true }).healthy (.port (.hlk n))

def execHollyhockLinkUp (n : Fin 4) (s : State) : Out := .next (hlkTrained s n)

def execCardAbsent (slot : Fin 32) (s : State) : Out := .next (cardLost s slot)

/-- A presence line has been active for 50 ms: the slot's record is read (R435). -/
def presence (s : State) (slot : Fin 32) : State :=
  if (s.ucb .hlk).state ≠ .run || (s.card slot).present then s
  else
    let r := s.hlk.rescan.getD { slots := [], ok := 0 }
    let s := s.setCard slot { s.card slot with line := true }
    { s with hlk := { s.hlk with rescan := some { r with slots := mark r.slots slot } } }

def execCardPresence (slot : Fin 32) (s : State) : Out := .next (presence s slot)

/-- RESCAN starts the reads (R438). -/
def rescanBegin (s : State) (arg : Nat) : State :=
  let r := s.hlk.rescan.getD { slots := [], ok := 0 }
  let slots := if arg = 0xFF then ((List.range 32).filter fun t => (s.card t).present || (s.card t).line || (s.card t).inUnit) else [arg]
  { s with hlk := { s.hlk with rescan := some { slots := slots.foldl mark r.slots, ok := 0 } } }

/-- RESCAN's argument and the completion of an empty one. -/
def rescanArgOk (arg : Nat) : Bool := arg < 32 || arg = 0xFF

/-- A record read ends: RESCAN completes with the number of valid records when none is left. -/
def rescanNext (s : State) (slot : Nat) (ok : Bool) : State :=
  match s.hlk.rescan with
  | none => s
  | some r =>
    let r := { r with slots := r.slots.filter (· ≠ slot), ok := r.ok + b2n ok }
    if r.slots.isEmpty then ({ s with hlk := { s.hlk with rescan := none } }).finish .hlk .ok r.ok
    else { s with hlk := { s.hlk with rescan := some r } }

/-- A card's record after start-up: a new card joins the tree, an absent one returns when its type and capability are those in the
map set in force (R433), and a present one is lost when they are not (R202). -/
def cardRecord (s : State) (slot : Fin 32) (rec : List Byte) : State :=
  let base := baseOf (.card slot 0)
  let ok := recordOk rec && recByte rec 1 = 0
  let c := s.card slot
  let s := if !ok then raise (s.setCard slot { c with valid := false }) .hlk 3 base
    else if !c.inUnit then
      s.setCard slot { c with record := rec, valid := true, present := true, lost := false, line := true, inUnit := true }
    else if c.lost then
      if capability rec = c.placed || c.placed.isEmpty then
        (s.setCard slot { c with record := rec, valid := true, present := true, lost := false, line := true,
                                 misses := 0 }).healthy (.card slot)
      else raise (s.setCard slot { c with record := rec, valid := true }) .hlk 4 base
    else
      let s := s.setCard slot { c with record := rec, valid := true }
      if capability rec = c.placed || c.placed.isEmpty then s else raise (cardGone s slot) .hlk 4 base
  rescanNext s slot.val ok

/-- HLK or a link unit leaves RUN (R438): the links count as lost and every card as absent. -/
def hlkStop (s : State) : State :=
  let s := (cardSlots s).foldl cardLost s
  let s := (List.finRange 4).foldl (fun s (n : Fin 4) => s.lose (.port (.hlk n))) s
  let s := match s.hlk.heldRead with | some r => endRead { s with hlk := { s.hlk with queue := [] } } r 0 false | none => s
  { s with hlk := { s.hlk with queue := [], posted := [], lockedSlot := none } }

/-- The image of a card had come when instant `t` began: an image that came at `t` or later belongs to the next latch (R68). -/
def CardState.late (c : CardState) (t : Nat) : Bool := c.imageNew && decide (t ≤ c.imageAt)

/-- What the latch of instant `t` finds of a card: its image, and whether that is new since the latch before. -/
def CardState.imageFor (c : CardState) (t : Nat) : List Byte × Bool :=
  if c.late t then (c.imageBefore, c.newBefore) else (c.image, c.imageNew)

/-- The latch of instant `t` counts each present card without a new input image; CARD_MISS of them lose it (R432). -/
def countMisses (s : State) (t : Nat) : State :=
  (cardSlots s).foldl (fun s (slot : Fin 32) =>
    let c := s.card slot
    if !c.present || c.lost then s
    else if (c.imageFor t).2 then s.setCard slot { c with imageNew := c.late t, newBefore := false, misses := 0 }
    else if s.regField .hlk 0x104 3 0 ≤ c.misses + 1 then cardLost s slot
    else s.setCard slot { c with misses := c.misses + 1 }) s

/-! ### Fetches, settings and shown registers (R437) -/

def heldRecord (s : State) (slot : Nat) : Option (List Byte) :=
  if slot = 32 then (if s.hlk.bpOk then some s.hlk.backplane else none)
  else if (s.card slot).valid then some (s.card slot).record else none

/-- A record-word fetch completes. -/
def hlkFetchDone (s : State) (bank : Nat) : State :=
  let f := fetchOf s.hlk.fetch bank
  if !f.busy then s else
  let r := heldRecord s (f.sel / 256)
  let w : W32 := match r with | some r => BitVec.ofNat 32 (fromLE ((r.drop (4 * (f.sel % 64))).take 4)) | none => 0
  { s with hlk := { s.hlk with fetch := mapPut bank (f.done (b2n r.isSome * 2 ^ 16 + f.sel) [w]) s.hlk.fetch } }

def hlkSettingOk (off : Nat) (v : W32) : Bool :=
  if off = 0x104 then 1 ≤ field v 3 0 else if off = 0x120 then field v 13 8 ≤ 32 else true

/-- The cards that a link carries (HLK_LINKn_STAT.CARDS). -/
def cardsOver (s : State) (n : Fin 4) : Nat :=
  ((cardSlots s).filter fun (t : Fin 32) => (s.card t).present && n ∈ cardEnds s t).length

/-- A segment is dual-ended when one of its slots has two ends (R419). -/
def dualEnded (s : State) (n : Fin 4) : Bool := (List.range 32).any fun t => n ∈ cardEnds s t && (cardEnds s t).length = 2

def bitsOf (p : Nat → Bool) (k : Nat) : W32 := pack ((List.range k).map fun i => (b2n (p i), i))

/-- What a read-only register of HLK or a link unit shows. -/
def hlkRead (s : State) (u : UnitId) (bank off : Nat) : W32 :=
  let h := s.hlk
  let f := fetchOf h.fetch bank
  match u, off with
  | .hlk, 0x100 =>
    pack [(((List.range 32).filter fun t => (s.card t).present).length, 16), ((bitsOf (fun i => (s.link i).up) 4).toNat, 4),
      (b2n h.bpOk, 3), (b2n h.rescan.isSome, 2)]
  | .hlk, 0x108 => bitsOf (fun i => (s.card i).present) 32
  | .hlk, 0x10C => bitsOf (fun i => (s.card i).lost) 32
  | .hlk, 0x110 => pack [(h.outMax, 16), (outstanding h, 0)]
  | .hlk, 0x114 => pack [(h.retry, 16), (h.lockTo, 8), (h.readTo, 0)]
  | .hlk, 0x118 => BitVec.ofNat 32 h.pfAddr
  | .hlk, 0x11C => pack [(h.pfCount, 16), (h.pfSlot, 8)]
  | .hlk, 0x124 => f.result.word
  | .hlk, 0x128 => f.words.getD 0 0
  | .link n, 0x100 => pack [(b2n (hlkUp s n), 31), (b2n (dualEnded s n), 30), (cardsOver s n, 8)]
  | .link n, 0x104 => pack [((s.link n).repeats, 16), ((s.link n).crc, 0)]
  | _, _ => 0

end Sys2Proof.Machine
end

