-- ==== Sys2Proof/Machine/Net.lean ====
section
/-! DEFINITION. NET: Ethernet ports and PTP, TRDP telegrams, the node directory, serial ports and the service port (chapter 14). -/

namespace Sys2Proof.Machine

open Sys2Proof

/-! ### Ethernet links and PTP (R378 to R381) -/

/-- A link comes up with a speed; the port may return to placement. A 10 Mbit/s port is no reference candidate (R443). -/
def ethUp (s : State) (x : Fin 4) (speed : Nat) : State :=
  if s.clk.linkStop || (s.ucb (.eth x)).state = .off then s
  else
    let e := s.eth x
    let s := s.setEth x { e with link := true, speed := speed, ptp := if ptpOn s x then 1 else 0 }
    let s := s.healthy (.port (.eth x))
    if speed = 1 then streamDown s (1 + x) else s

/-- A link change; a stream that goes down is no reference any more (R449). -/
def ethLink (s : State) (x : Fin 4) (up : Bool) (speed : Nat) : State :=
  if up then ethUp s x speed else streamDown (ethDown s x) (1 + x)

def execEthLinkChange (x : Fin 4) (up : Bool) (speed : BitVec 2) (s : State) : Out := .next (ethLink s x up speed.toNat)

/-- A change of ROLE, SPEED or PTP_EN renegotiates the link, which counts as a loss (R394). -/
def ethSwap (s : State) (x : Fin 4) (before : W32) : State :=
  if Nat.land before.toNat 0x313 = Nat.land (s.reg (.eth x) 0x100).toNat 0x313 then s
  else
    let s := streamDown (ethDown s x) (1 + x)
    s.setEth x { s.eth x with ptp := 0 }

/-- The time base that a port's Sync steers: TB1 from an ECN port, else TB0 (Table NET-2). -/
def ptpBase (s : State) (x : Fin 4) : Nat := if ethRole s x = 2 then 1 else 0

/-- The mean path delay in use: on a standby the one measured while active or alone, or else ETHx_PD_DEF (R381). -/
def pathDelay (s : State) (x : Fin 4) : Nat :=
  if s.pair.role = .standby then (s.eth x).measured.getD (s.regField (.eth x) 0x108 15 0) else (s.eth x).path

/-- A Sync is received; `offset` is the master's time less the arrival stamp, before the path delay is added. -/
def sync (s : State) (x : Fin 4) (offset : Int) (domain t : Nat) : State :=
  let s := s.at_ t
  if ethSilent s x || !ptpOn s x || domain ≠ s.regField (.eth x) 0x104 31 24 then s
  else
    let i := ptpBase s x
    let s := s.setEth x { s.eth x with lastSync := t, ptp := if (s.tb i).stepped then 3 else 2 }
    { s with time := { s.time with
        handed := s.time.handed ++ [{ tb := i, src := x.val, offset := offset + pathDelay s x, disc := false, at_ := t }] } }

def execSync (x : Fin 4) (offset : Int) (domain : BitVec 8) (at_ : Nat) (s : State) : Out :=
  .next (sync s x offset domain.toNat at_)

/-- A delay response or peer-delay exchange completes; a standby asks for none (R381). -/
def execPathDelayMeasurement (x : Fin 4) (ns : W32) (s : State) : Out :=
  .next (if ethSilent s x || !ptpOn s x || s.pair.role = .standby then s
    else s.setEth x { s.eth x with path := ns.toNat, measured := some ns.toNat })

/-- The best master clock algorithm makes a master-capable port PTP master, or ends that (R380, R401). -/
def bestMaster (s : State) (x : Fin 4) (master : Bool) : State :=
  if master then
    if ethSilent s x || !ptpOn s x || !bitAt (s.reg (.eth x) 0x104) 1 || s.pair.role = .standby then s
    else remaster (s.setEth x { s.eth x with ptp := 4 })
  else if (s.eth x).ptp = 4 then remaster (s.setEth x { s.eth x with ptp := 1 })
  else s

def execBestMasterClock (x : Fin 4) (master : Bool) (s : State) : Out := .next (bestMaster s x master)

/-- Three gratuitous ARP announcements on every port with a role, ahead of every telegram (R379). -/
def announce (s : State) : State :=
  (List.finRange 4).foldl (fun s x =>
    if ethRole s x = 0 || !(s.eth x).link then s else s.setEth x { s.eth x with txq := [0, 0, 0] ++ (s.eth x).txq }) s

/-! ### TRDP (R382 to R386) -/

/-- The key of a telegram of a program. -/
def telKey (p index : Nat) : Nat := p * 0x10000 + index

/-- The telegrams that the maps in force route to a port: key, program, declaration and slot. -/
def telegramsOn (s : State) (x : Fin 4) : List (Nat × Nat × TelegramDecl × Nat) :=
  (progsInForce s).flatMap fun p =>
    match mapFor s p with
    | none => []
    | some m => (progOf s p).telegrams.filterMap fun d =>
        match m.route d.index with
        | some r => if r.port = some (.eth x) then some (telKey p d.index, p, d, r.buffer) else none
        | none => none

/-- The tests of R385. -/
def telegramOk (s : State) (key : Nat) (d : TelegramDecl) (t : Telegram) : Bool :=
  let n := s.tick.n
  t.fcsOk && t.comId = d.comId && t.src = d.ip && t.data.length = d.len &&
    (t.etb = 0 || t.etb = s.net.etbTopo) && (t.optrn = 0 || t.optrn = s.net.opTrnTopo) &&
    (match mapGet? key s.net.slots with
     | none => true
     | some l => l.seq < t.seq || l.tick + 3 * d.cycle ≤ n)

def reject (s : State) (x : Fin 4) : State := s.setEth x { s.eth x with rejected := satUp 255 (s.eth x).rejected }

/-- A telegram is accepted into its subscribe slot, or discarded and counted; a frame whose own FCS fails counts in FCS. -/
def telegram (s : State) (x : Fin 4) (t : Telegram) : State :=
  if ethSilent s x then s
  else if !t.frameOk then s.setEth x { s.eth x with fcs := satUp 255 (s.eth x).fcs }
  else
  match (telegramsOn s x).find? fun d => !d.2.2.1.publish && d.2.2.2 = t.slot with
  | none => reject s x
  | some (key, _, d, _) =>
    if telegramOk s key d t then
      let s := s.setEth x { s.eth x with accepted := ((s.eth x).accepted + 1) % 65536 }
      { s with net := { s.net with
          slots := mapPut key { seq := t.seq, tick := s.tick.n, data := t.data, at_ := s.tb3,
                                before := (mapGet? key s.net.slots).bind fun x => if x.at_ = s.tb3 then x.before else some x.data }
                     s.net.slots } }
    else reject s x

def execTelegramReceived (x : Fin 4) (t : Telegram) (s : State) : Out := .next (telegram s x t)

/-- The committed values of a telegram's dataset, and whether any carries BAD. -/
def dataset (s : State) (p : Nat) (d : TelegramDecl) : List Byte × Bool :=
  (progOf s p).outputs.foldl (fun acc v =>
    match v.bind with
    | .telegram k off =>
      if k ≠ d.index then acc
      else
        let x := mapGetD s.prog.outs (progKey p v.off) ⟨v.init, .good⟩
        (acc.1.take off ++ bytesLE v.ty.size x.value ++ acc.1.drop (off + v.ty.size), acc.2 || x.tag = .bad)
    | _ => acc) (List.replicate d.len 0, false)

def undelivered (s : State) (x : Fin 4) (skip : Bool) : State :=
  let e := s.eth x
  s.setEth x { e with undel := satUp 0xFFFF e.undel, skipped := if skip then satUp 0xFFFF e.skipped else e.skipped }

/-- One due publish telegram of a boundary: built and queued, skipped for a BAD value, or undelivered, as it is over a port that is
silent, draining or lost (R38, R203). -/
def publish (s : State) (x : Fin 4) (b key p : Nat) (d : TelegramDecl) : State :=
  let (data, bad) := dataset s p d
  if ethSilent s x || (s.ucb (.eth x)).draining || s.safe.safe || Resource.port (.eth x) ∈ s.place.lost then undelivered s x false
  else if bad then undelivered s x true
  else
    let etb := ethRole s x = 1
    let sent : TelegramSent := { slot := d.index, seq := b % 2 ^ 32, etb := if etb then s.net.etbTopo else 0,
                                 optrn := if etb then s.net.opTrnTopo else 0, data := data }
    let s := s.setEth x { s.eth x with txq := (s.eth x).txq ++ [d.index + 1] }
    { s with net := { s.net with sent := mapPut key sent s.net.sent } }

/-- A port's publish telegrams due at boundary b, in slot order: key, program, declaration and slot (R384). -/
def dueTelegrams (s : State) (x : Fin 4) (b : Nat) : List (Nat × Nat × TelegramDecl × Nat) :=
  sortBy (fun a c => decide (a.2.2.2 ≤ c.2.2.2))
    ((telegramsOn s x).filter fun t => t.2.2.1.publish && b % (max 1 t.2.2.1.cycle) = t.2.2.1.ofs)

/-- The due publish telegrams of boundary b. A standby publishes nothing. -/
def publishDue (s : State) (b : Nat) : State :=
  if programHeld s then s else
  (List.finRange 4).foldl (fun s x => (dueTelegrams s x b).foldl (fun s t => publish s x b t.1 t.2.1 t.2.2.1) s) s

/-- The due publish telegrams of a boundary that commits none are undelivered (R306, R384). -/
def missDue (s : State) (b : Nat) : State :=
  if programHeld s then s else
  (List.finRange 4).foldl (fun s x => (dueTelegrams s x b).foldl (fun s _ => undelivered s x false) s) s

/-- The frames queued at the boundary before have left at line rate. -/
def clearTx (s : State) : State := (List.finRange 4).foldl (fun s x => s.setEth x { s.eth x with txq := [] }) s

/-! ### Node directory (R387, R388) -/

/-- An inauguration arrives on a port in the ETB role; a changed topology counter makes it new. -/
def inaugurate (s : State) (i : Inauguration) : State :=
  let etb := (List.finRange 4).any fun x => ethRole s x = 1 && !ethSilent s x
  let known := match s.net.inaugDue with | some d => d.etb | none => s.net.etbTopo
  if etb && (i.etb ≠ known || (!s.net.inaug && s.net.inaugDue.isNone)) then
    { s with net := { s.net with inaugDue := some i } }
  else s

def execInauguration (i : Inauguration) (s : State) : Out := .next (inaugurate s i)

def entryOfNode (learned : Bool) (d : NodeDecl) : DirEntry :=
  { ip := d.ip, consist := d.consist, vehicle := d.vehicle, station := d.station, learned, label := d.label }

/-- The static entries of the image (R397). -/
def loadDirectory (s : State) : State :=
  let nodes := (progsInForce s).flatMap fun p => (progOf s p).nodes
  { s with net := { s.net with dir := (nodes.map (entryOfNode false) ++ s.net.dir.filter (·.learned)).take 16384 } }

/-- The inauguration takes effect at step 1: learned entries and topology counters together. -/
def inaugEffect (s : State) : State :=
  match s.net.inaugDue with
  | none => s
  | some i =>
    let all := s.net.dir.filter (fun e => !e.learned) ++ i.nodes.map (entryOfNode true)
    let s := { s with net := { s.net with inaugDue := none, inaug := true, etbTopo := i.etb, opTrnTopo := i.optrn,
                                          dir := all.take 16384 } }
    let s := raise s .net 3 (baseOf .net)
    if 16384 < all.length then raise s .net 4 (baseOf .net) else s

/-- An address is in the directory, or no inauguration has supplied one (R386). -/
def inDirectory (s : State) (ip : Nat) : Bool := !s.net.inaug || s.net.dir.any fun e => e.ip = ip

def DirEntry.words (e : DirEntry) : List W32 :=
  [BitVec.ofNat 32 e.ip, pack [(e.consist % 256, 8), (e.vehicle % 256, 0)], pack [(e.station % 65536, 16), (b2n e.learned, 0)],
    BitVec.ofNat 32 e.label]

/-- A directory fetch completes (R394). -/
def netFetchDone (s : State) (bank : Nat) : State :=
  let f := fetchOf s.net.fetch bank
  if !f.busy then s else
  let e := s.net.dir[f.sel]?
  { s with net := { s.net with
      fetch := mapPut bank (f.done (b2n e.isSome * 2 ^ 16 + f.sel) ((e.map (·.words)).getD [])) s.net.fetch } }

/-! ### Serial ports (R389 to R392) -/

def serRun (s : State) (x : Fin 4) : Bool := (s.ucb (.ser x)).state = .run

/-- The list ends: its duration is kept, and a list that waits starts. -/
def serNextList (s : State) (x : Fin 4) : State :=
  let p := s.ser x
  let us := min 0xFFFF ((s.tb3 - p.listStart) / 1000)
  if p.next.isEmpty then s.setSer x { p with active := false, running := false, polls := [], listUs := us }
  else s.setSer x { p with running := false, polls := p.next, next := [], listUs := us, listStart := s.tb3 }

/-- The exchange in progress ends. -/
def serEnd (s : State) (x : Fin 4) : State :=
  let p := s.ser x
  let rest := p.polls.drop 1
  if rest.isEmpty then serNextList s x else s.setSer x { p with running := false, polls := rest }

/-- A failed exchange is repeated while attempts are left, or ends. -/
def serFail (s : State) (x : Fin 4) : State :=
  let p := s.ser x
  match p.polls with
  | [] => s
  | q :: qs =>
    if q.retries = 0 then serEnd s x
    else s.setSer x { p with running := false, polls := { q with retries := q.retries - 1 } :: qs }

/-- Step 3 forms the poll list (R390); a list that still runs is cut to its exchange in progress (R391). -/
def serList (s : State) (x : Fin 4) (objects : List Nat) : State :=
  let p := s.ser x
  let list := (sortBy (fun a b => decide (a ≤ b)) objects).map fun k => ({ object := k, retries := s.regField (.ser x) 0x104 1 0 } : PollItem)
  if !p.active then
    if list.isEmpty then s
    else s.setSer x { p with active := true, running := false, polls := list, next := [], listStart := s.tb3 }
  else
    let left := if p.running then p.polls.drop 1 else p.polls
    let s := raise s (.ser x) 5 (baseOf (.ser x))
    let s := { s with prog := { s.prog with txUndelivered := (left ++ p.next).foldl (fun l (q : PollItem) => mark l q.object) s.prog.txUndelivered } }
    let p := { p with overruns := satUp 255 p.overruns }
    if p.running then
      s.setSer x { p with polls := (p.polls.take 1).map (fun (q : PollItem) => { q with retries := 0 }), next := list }
    else serNextList (s.setSer x { p with polls := [], next := list }) x

/-- An exchange starts. A port held by the pair role, or one that drains, starts none (R38, R392). -/
def poll (s : State) (x : Fin 4) : State :=
  let p := s.ser x
  if serRun s x && !(s.ucb (.ser x)).draining && p.active && !p.running && !p.polls.isEmpty && !programHeld s then s.setSer x { p with running := true } else s

def execPoll (x : Fin 4) (s : State) : Out := .next (poll s x)

/-- A valid response enters the RX object's staging; a full ring loses its oldest (R390, R156). -/
def serStage (s : State) (x : Fin 4) (key : Nat) (data : List Byte) : State :=
  let p := s.ser x
  let ring := mapGetD p.rx key []
  let depth := ((msgDecl s key).map (·.rxDepth)).getD 1
  let full := depth ≤ ring.length
  s.setSer x { p with rx := mapPut key ((if full then ring.drop 1 else ring) ++ [(s.tb3, data)]) p.rx,
                      marked := if full then mark p.marked key else p.marked, okCount := (p.okCount + 1) % 65536 }

/-- The RX object of a poll's response. -/
def answerOf (s : State) (key : Nat) : Option Nat :=
  (msgDecl s key).bind fun d => d.answer.map fun a => objKey (key / 0x2000) a

/-- The polls routed to a port whose device address is the given one. -/
def pollsOfAddress (s : State) (x : Fin 4) (a : Nat) : Option Nat :=
  ((routedTo s (.ser x)).find? fun t => t.2.1.tx && t.2.1.address = a).map (·.1)

/-- A response arrives and is checked. A held port listens to the active module's traffic (R392). -/
def serReply (s : State) (x : Fin 4) (r : SerialReply) : State :=
  if !serRun s x then s
  else if programHeld s then
    match (pollsOfAddress s x r.address).bind (answerOf s) with
    | some k => if r.ok then serStage s x k r.data else s.setSer x { s.ser x with errors := satUp 255 (s.ser x).errors }
    | none => s
  else
    let p := s.ser x
    match p.running, p.polls with
    | true, q :: _ =>
      if !r.ok then serFail (s.setSer x { p with errors := satUp 255 p.errors }) x
      else if ((msgDecl s q.object).map (·.address)) ≠ some r.address then s
      else
        match answerOf s q.object with
        | some k => serEnd (serStage s x k r.data) x
        | none => serEnd (s.setSer x { p with okCount := (p.okCount + 1) % 65536 }) x
    | _, _ => s

def execSerialResponse (x : Fin 4) (r : SerialReply) (s : State) : Out := .next (serReply s x r)

/-- RESP_US passes without a valid response. -/
def serTimeout (s : State) (x : Fin 4) : State :=
  let p := s.ser x
  if serRun s x && p.running then serFail (s.setSer x { p with timeouts := satUp 255 p.timeouts }) x else s

def execRespTimeout (x : Fin 4) (s : State) : Out := .next (serTimeout s x)

/-- Quiescence abandons the exchange on the line; its poll and those to come are undelivered (R395). -/
def serStop (s : State) (x : Fin 4) : State :=
  let p := s.ser x
  let s := s.setSer x { p with active := false, running := false, polls := [], next := [] }
  { s with prog := { s.prog with txUndelivered := (p.polls ++ p.next).foldl (fun l (q : PollItem) => mark l q.object) s.prog.txUndelivered } }

/-- Quiescence abandons the frames on the line; their telegrams are undelivered (R395). -/
def ethStop (s : State) (x : Fin 4) : State :=
  let e := s.eth x
  let k := (e.txq.filter (· ≠ 0)).length
  let s := s.setEth x { e with txq := [], ptp := 0, undel := min 0xFFFF (e.undel + k) }
  remaster s

/-! ### Settings and shown registers (R394) -/

/-- A value that the ranges of Table NET-5 admit. -/
def netSettingOk (u : UnitId) (off : Nat) (v : W32) : Bool :=
  match u, off with
  | .ser _, 0x100 => 20 ≤ field v 31 16 && field v 6 5 ≠ 3
  | .ser _, 0x104 => 1 ≤ field v 31 16 && 1 ≤ field v 15 8
  | _, _ => true

/-- The SVC port's address: from the image, or 169.254.147.(SLOT_ID + 1) (R393). -/
def svcIp (s : State) : Nat := (mainProg s).svcIp.getD (0xA9FE9300 + slotId s + 1)

/-- What a read-only register of NET or a member shows. -/
def netRead (s : State) (u : UnitId) (bank off : Nat) : W32 :=
  let n := s.net
  let f := fetchOf n.fetch bank
  match u, off with
  | .net, 0x100 => pack [(min 0xFFFF n.dir.length, 16), (b2n n.inaug, 0)]
  | .net, 0x104 => BitVec.ofNat 32 n.etbTopo
  | .net, 0x108 => BitVec.ofNat 32 n.opTrnTopo
  | .net, 0x110 => f.result.word
  | .net, 0x114 => f.words.getD 0 0
  | .net, 0x118 => f.words.getD 1 0
  | .net, 0x11C => f.words.getD 2 0
  | .net, 0x120 => f.words.getD 3 0
  | .eth x, 0x10C =>
    let e := s.eth x
    pack [(b2n e.link, 31), (e.speed, 29), (b2n (programHeld s), 28), (e.ptp, 24)]
  | .eth x, 0x110 => BitVec.ofNat 32 (s.eth x).path
  | .eth x, 0x114 => pack [((s.eth x).accepted, 16), ((s.eth x).fcs, 8), ((s.eth x).rejected, 0)]
  | .eth x, 0x118 => pack [((s.eth x).skipped, 16), ((s.eth x).undel, 0)]
  | .ser x, 0x108 =>
    let p := s.ser x
    pack [(b2n p.active, 31), (b2n (programHeld s), 30), (p.overruns, 16), (p.listUs, 0)]
  | .ser x, 0x10C => pack [((s.ser x).okCount, 16), ((s.ser x).timeouts, 8), ((s.ser x).errors, 0)]
  | .svc, 0x100 => pack [(b2n n.svcLink, 31), (min 255 n.svcSessions, 0)]
  | .svc, 0x104 => BitVec.ofNat 32 (svcIp s)
  | _, _ => 0

end Sys2Proof.Machine
end

