-- ==== Sys2Proof/Machine/LaneRun.lean ====
section
/-! DEFINITION. How a lane runs: which context it executes, the start and end of instances and tasks, emission, exceptions, and the
issue of one instruction (R69, R74, R75, R92 to R94, R120, R121, R127, R160, R190). -/

namespace Sys2Proof.Machine

open Sys2Proof

/-! ### The context that runs -/

/-- The module has sent the final copy of a hand-over and runs nothing any more (R268). -/
def handedOver (s : State) : Bool := s.pair.finalSent && s.pair.role ≠ .standby

/-- The program executes instructions: the module is in step 9, not stopped, safe, restarting, waiting for its first tick, handing
over, or under a Foxglove test, and no such test has failed (R242). -/
def programRuns (s : State) : Bool := s.tick.running && running s && !s.voter.foxRun && !s.voter.halted && !handedOver s

/-- The lane's running context, unless it waits. -/
def runCtx (s : State) (l : Lane) : Option (CtxKind × LaneCtx) :=
  let x := s.lane l
  if !programRuns s || l ∉ runSet s then none
  else
    match x.current with
    | none => none
    | some k =>
      let c := x.ctx k
      if c.busy && c.wait = .none && !c.yielded && !c.ending then some (k, c) else none

def State.setCtx (s : State) (l : Lane) (k : CtxKind) (c : LaneCtx) : State := s.setLane l ((s.lane l).setCtx k c)

/-- The registers of a context as the bytes that the lane store keeps of a suspended one (R94, log entry 10). -/
def LaneCtx.saved (c : LaneCtx) : List Byte :=
  (c.gs.toList.flatMap fun g => bytesLE 8 g.toNat) ++ bytesLE 4 c.pc.toNat ++ bytesLE 4 c.sp.toNat ++ bytesLE 2 c.ib.toNat
    ++ [c.cf, c.qf] ++ bytesLE 4 0 ++ bytesLE 8 c.tk.toNat

def saveBase : Nat := 0x3000000

/-- A suspended or pre-empted context's registers are stored in the lane store, where the digest covers them (R231). -/
def saveCtx (x : LaneSt) (k : CtxKind) : LaneSt :=
  if (x.ctx k).busy then x.store (saveBase + k.idx * 0x1000) (x.ctx k).saved else x

/-! ### Instances and tasks -/

/-- The entry pc of an instance's type. -/
def typeEntry (p : Program) (i : Nat) : Nat := (((progInst p i).bind fun d => progType p d.ty).map (·.entry)).getD 0

/-- The registers at instance start (Table PGM-1). -/
def LaneCtx.startInst (c : LaneCtx) (p : Program) (b : InBuf) (i : Nat) : LaneCtx :=
  { c with busy := true, gs := Vector.replicate 32 0, pc := BitVec.ofNat 32 (typeEntry p i), ib := BitVec.ofNat 16 i,
           sp := BitVec.ofNat 32 (shareOf p c.share).2, tk := BitVec.ofNat 64 b.n, cf := 0, qf := 0, depth := 0, inst := i,
           time := b.time, loads := [], wait := .none, yielded := false, ending := false }

/-- The task of a context that runs none. -/
def noTask : Nat := 0xFFFF

/-- A task begins: nothing stored, nothing sent. -/
def LaneCtx.startTask (c : LaneCtx) (t now : Nat) : LaneCtx :=
  { c with task := t, out := [], outTags := [], sends := [], msgs := [], began := now }

/-- The next instance of a context's list starts, as the first of its task where the task changes. An F cycle is one activation. -/
def startNext (s : State) (l : Lane) (k : CtxKind) (c : LaneCtx) : LaneCtx :=
  match c.todo with
  | [] => c
  | (t, i) :: rest =>
    let c := if c.task ≠ t && k ≠ .free then c.startTask t s.tb3 else { c with task := t }
    ({ c with todo := rest }).startInst (laneProg s l) ((s.lane l).inBuf c.buf) i

/-- The instant at which an instance's window starts in the tick under way (R189, R190). -/
def windowStart (s : State) (l : Lane) (i : Nat) : Nat :=
  let r := (((mapFor s (progNo s l)).map (·.insts)).getD []).find? fun r => r.index = i
  s.tick.time + ((r.bind fun r => (mapGet? (s.tick.n % 8) r.at_).or (r.at_.head?.map (·.2))).map (·.2)).getD 0

/-- A timed instance starts no earlier than its window, and TB3 has then reached the start of the window (R190, log entry 128). -/
def awaitWindow (s : State) (l : Lane) (c : LaneCtx) : State :=
  match c.todo with
  | [] => s
  | (_, i) :: _ => s.at_ (windowStart s l i)

/-- The input buffer latched last. -/
def newestBuf (x : LaneSt) : Nat :=
  if x.in0.n < x.in1.n then (if x.in1.n < x.in2.n then 2 else 1) else (if x.in0.n < x.in2.n then 2 else 0)

/-- The F tasks' instances of a lane's program in the order of R74, as the map lists them. -/
def freeTodo (s : State) (l : Lane) : List (Nat × Nat) :=
  let p := laneProg s l
  let recs := ((mapFor s (progNo s l)).map (·.insts)).getD []
  let ts := sortBy (fun (a b : TaskDecl) => a.index ≤ b.index) (p.tasks.filter fun t => t.cls = .f)
  ts.flatMap fun t =>
    let is := t.insts.filter fun i => recs.any fun r => r.index = i
    (sortBy (fun (a b : Nat × Nat) => a.2 ≤ b.2)
      (is.map fun i => (i, ((recs.find? fun r => r.index = i).map (·.first)).getD 0))).map fun e => (t.index, e.1)

/-- A new F cycle (R74). -/
def startFree (s : State) (l : Lane) : LaneSt :=
  let x := s.lane l
  match freeTodo s l with
  | [] => x
  | (t, i) :: rest =>
    let b := newestBuf x
    let c : LaneCtx := { x.free.startTask t s.tb3 with todo := rest, buf := b, share := 3 }
    x.setCtx .free (c.startInst (laneProg s l) (x.inBuf b) i)

/-- What a lane runs next (R19, R75, R190): a safety instance whose window has opened, the non-safety timed tasks once no safety
instance is to come, the task resumed after SKIP, the F cycle. In the guard only a lane runs that has not come to the leading lane's
instruction (R64, R134). -/
def choose (s : State) (l : Lane) : State :=
  let x := s.lane l
  if !programRuns s || l ∉ runSet s || s.tick.phase = 0 || (s.tick.phase = 3 && x.stops.isEmpty) then s.setLane l { x with current := none }
  else if x.safety.busy then s.setLane l { x with current := some .safety }
  else if !x.safety.todo.isEmpty && 0 < x.safety.opened then
    let s := awaitWindow s l x.safety
    let c := startNext s l .safety x.safety
    s.setLane l { x.setCtx .safety { c with opened := c.opened - 1 } with current := some .safety }
  else if x.timed.busy then s.setLane l { x with current := some .timed }
  else if !x.safety.todo.isEmpty then s.setLane l { x with current := none }
  else if !x.timed.todo.isEmpty then
    let s := awaitWindow s l x.timed
    s.setLane l { x.setCtx .timed (startNext s l .timed x.timed) with current := some .timed }
  else if x.skip.busy then s.setLane l { x with current := some .skip }
  else if !x.skip.todo.isEmpty then
    s.setLane l { x.setCtx .skip (startNext s l .skip x.skip) with current := some .skip }
  else if x.free.yielded then s.setLane l { x with current := none }
  else if x.free.busy then s.setLane l { x with current := some .free }
  else
    let y := startFree s l
    s.setLane l { y with current := if y.free.busy then some .free else none }

/-- A lane has ended the timed work of the tick. -/
def timedDone (x : LaneSt) : Bool :=
  !x.safety.busy && x.safety.todo.isEmpty && !x.timed.busy && x.timed.todo.isEmpty && !x.skip.busy && x.skip.todo.isEmpty

/-- The task phase ends when every lane has ended its timed work (Table TICK-3). -/
def notePhase (s : State) : State :=
  if s.tick.phase = 1 && (runSet s).all (fun l => timedDone (s.lane l)) then
    { s with tick := { s.tick with phase := 2, slackStart := s.tb3 } }
  else s

def resched (s : State) (l : Lane) : State := notePhase (choose s l)

/-! ### Emission (R69, R158, R160) -/

def log2Size : Nat → Nat
  | 1 => 0 | 2 => 1 | 4 => 2 | _ => 3

/-- The output-image writes of an emission, by ascending offset. -/
def outRecords (s : State) (l : Lane) (k : CtxKind) (c : LaneCtx) : List EffectRec :=
  let prog := laneProg s l
  let vs := sortBy (fun (a b : OutValue) => a.off ≤ b.off) (prog.outputs.filter fun v => (mapGet? v.off c.outTags).isSome)
  vs.map fun v =>
    { kind := 1, size := log2Size v.ty.size, last := false, safety := partSafe prog c, tag := mapGetD c.outTags v.off .good,
      addr := v.off, beats := [fromLE ((List.range v.ty.size).map fun i => outByte s (progNo s l) prog c (v.off + i))], ctx := k }

/-- The data beats of a payload. -/
def beatsOf : Nat → List Byte → List Nat
  | 0, _ => []
  | n + 1, l => fromLE (l.take 8) :: beatsOf n (l.drop 8)

def msgRecords (s : State) (l : Lane) (k : CtxKind) (c : LaneCtx) : List EffectRec :=
  c.msgs.map fun m =>
    { kind := 2, size := 3, last := false, safety := partSafe (laneProg s l) c, tag := m.tag, addr := m.object,
      beats := beatsOf ((m.data.length + 7) / 8) m.data, ctx := k }

/-- The last effect of the group carries LAST. -/
def markLast : List EffectRec → List EffectRec
  | [] => []
  | [r] => [{ r with last := true }]
  | r :: rs => r :: markLast rs

def emission (s : State) (l : Lane) (k : CtxKind) (c : LaneCtx) : List EffectRec :=
  markLast (outRecords s l k c ++ msgRecords s l k c)

/-- The emission goes into the queue; what finds no room waits, and so does the context. -/
def emit (s : State) (l : Lane) (k : CtxKind) (c : LaneCtx) : State :=
  let s := (emission s l k c).foldl (fun s r => s.present l r) s
  s.setCtx l k { c with out := [], outTags := [], msgs := [], wait := if (s.lane l).spill.isEmpty then .none else .emit }

/-! ### The end of a task (R74, R76, R150) -/

/-- The lane whose times TICK shows for its program. -/
def leads (s : State) (l : Lane) : Bool := s.voter.mode = .split || (runSet s).head? = some l

def taskKey (p t : Nat) : Nat := p * 256 + t

def taskStat (s : State) (p t : Nat) : TaskStat := mapGetD s.tick.tasks (taskKey p t) {}

/-- TICK_TASK_TIME of a task whose run has ended. -/
def noteRun (s : State) (p t us : Nat) : State :=
  let r := taskStat s p t
  let us := min 0xFFFF us
  { s with tick := { s.tick with tasks := mapPut (taskKey p t) { r with last := us, max := max r.max us } s.tick.tasks } }

/-- A task, or the F cycle, has ended and emitted. -/
def taskEnded (s : State) (l : Lane) (k : CtxKind) : State :=
  let c := (s.lane l).ctx k
  let us := (s.tb3 - c.began) / 1000
  let p := progNo s l
  let ts := if k = .free then ((laneProg s l).tasks.filter fun t => t.cls = .f).map (·.index) else [c.task]
  let s := if leads s l then ts.foldl (fun s t => noteRun s p t us) s else s
  s.setCtx l k { c with busy := false, ending := false, wait := .none, sends := [], loads := [], task := noTask }

/-- The last instance of the task has ended: the emission, and the end once all of it stands in the queue. -/
def endTask (s : State) (l : Lane) (k : CtxKind) (c : LaneCtx) : State :=
  let s := emit s l k c
  if ((s.lane l).ctx k).wait = .none then resched (taskEnded s l k) l
  else s.setCtx l k { (s.lane l).ctx k with ending := true }

/-- The next instance belongs to the same activation. -/
def sameTask (k : CtxKind) (c : LaneCtx) : Bool :=
  match c.todo with
  | [] => false
  | (t, _) :: _ => k = .free || t = c.task

/-- The top-level instance ends (R150). A safety instance waits for its own window. -/
def instanceEnds (s : State) (l : Lane) (k : CtxKind) (c : LaneCtx) : State :=
  if !sameTask k c then endTask s l k c
  else if k = .safety then resched (s.setCtx l k { c with busy := false }) l
  else
    let s := if k = .timed then awaitWindow s l c else s
    s.setCtx l k (startNext s l k c)

/-- A program exception ends the activation (R123): what it stored and sent since its last emission is discarded. After one in the F
cycle a new cycle starts in the next slack. -/
def abortTask (s : State) (l : Lane) (k : CtxKind) : State :=
  let c := (s.lane l).ctx k
  let c := { c with out := [], outTags := [], msgs := [], todo := if k = .free then [] else c.todo.filter fun e => e.1 ≠ c.task,
                    yielded := k = .free || c.yielded }
  resched (taskEnded (s.setCtx l k c) l k) l

/-- Room in the queue again: what waited enters, and the context that waited goes on. -/
def refillQueue (s : State) (l : Lane) : State :=
  let x := s.lane l
  let room := 32 - x.queue.length
  let x := { x with queue := x.queue ++ (x.spill.take room).map fun r => { r with at_ := s.tb3 }, spill := x.spill.drop room }
  let s := s.setLane l x
  if !x.spill.isEmpty then s
  else
    [CtxKind.safety, .timed, .skip, .free].foldl (fun s k =>
      let c := (s.lane l).ctx k
      if c.wait ≠ .emit then s
      else
        let s := s.setCtx l k { c with wait := .none }
        if c.ending then resched (taskEnded s l k) l else s) s

/-! ### Exceptions (R120, R121) -/

/-- An exception event; the context stops there until the voter has decided. A full queue stalls it first. -/
def except (s : State) (l : Lane) (k : CtxKind) (c : LaneCtx) (kind : Nat) (space addr : Nat := 0) : State :=
  if queueFull (s.lane l) then s
  else
    let r : EffectRec :=
      { kind := 4, size := 3, last := false, safety := partSafe (laneProg s l) c, tag := .good, addr := c.pc.toNat,
        beats := [kind], ctx := k,
        info := some { pc := c.pc.toNat, inst := c.ib.toNat, lanes := 0, space, addr } }
    let s := s.present l r
    s.setCtx l k { (s.lane l).ctx k with wait := .exception, count := c.count }

/-! ### Suspension in every lane at one instruction (R64, R134) -/

/-- A lane suspends the context that it runs and stores its registers. -/
def suspendLane (x : LaneSt) : LaneSt :=
  match x.current with
  | some k => { saveCtx x k with current := none }
  | none => x

/-- The windows of a lane's safety instances have opened up to and with one instance. -/
def openWindows (c : LaneCtx) (i : Nat) : LaneCtx :=
  match c.todo.findIdx? fun (e : Nat × Nat) => e.2 = i with
  | some k => { c with opened := max c.opened (k + 1) }
  | none => c

/-- TWAIT ends with its outcome in T. -/
def LaneCtx.twaitEnd (c : LaneCtx) (reached : Bool) : LaneCtx := ({ c with cf := setT c.cf reached, wait := .none, pc := c.pc + 4 })

/-- The F cycle waits no longer: it resumes in the next slack, with T clear where the target lies at or after the guard. -/
def endFreeWait (guardAt : Nat) (x : LaneSt) : LaneSt :=
  match x.free.wait with
  | .twait target => { x with free := x.free.twaitEnd (decide (target < guardAt)) }
  | _ => x

/-- A lane gives way to a safety instance whose window has opened, or stops for the guard. -/
def stopFor (guardAt : Nat) (x : LaneSt) (w : Option Nat) : LaneSt :=
  match w with
  | none => suspendLane (endFreeWait guardAt x)
  | some i =>
    let x := { x with safety := openWindows x.safety i }
    if x.safety.opened = 0 || x.current = some .safety then x else suspendLane x

/-- The instructions that a lane has begun. -/
def LaneSt.total (x : LaneSt) : Nat := x.safety.count + x.timed.count + x.skip.count + x.free.count

/-- The instruction at which the leading lane of a lane's voted set stands. The lane that has come furthest leads (log entry 109). -/
def leadCount (s : State) (l : Lane) : Nat :=
  if s.voter.mode = .split then (s.lane l).total else ((voteSet s).map fun m => (s.lane m).total).foldl max (s.lane l).total

/-- A lane's suspension: at once where it stands with the leading lane, else once it comes to that lane's instruction (R134). -/
def LaneSt.suspend (x : LaneSt) (guardAt lead : Nat) (w : Option Nat) : LaneSt :=
  if x.stops.isEmpty && lead ≤ x.total then stopFor guardAt x w else { x with stops := x.stops ++ [(lead, w)] }

/-- No stop lies before the lane's instruction after the next one. -/
def LaneSt.onward (x : LaneSt) : Bool := x.stops.all fun e => x.total + 1 < e.1

/-- A lane that comes to an instruction at which the leading lane stopped stops there too. -/
def arrived (s : State) (guardAt : Nat) (l : Lane) : State :=
  let x := s.lane l
  let due := x.stops.takeWhile fun e => decide (e.1 ≤ x.total)
  if due.isEmpty then s
  else
    let x := { x with stops := x.stops.drop due.length }
    resched (s.setLane l (due.foldl (fun x e => stopFor guardAt x e.2) x)) l

/-- Every lane has come to the instruction at which the leading lane stopped. -/
def caughtUp (s : State) : Bool := (runSet s).all fun l => (s.lane l).stops.isEmpty

/-! ### Issue of one instruction (R125, R127) -/

/-- The instruction at pc is a word of the image's code (R125, R127). -/
def fetchOk (p : Program) (pc len : Nat) : Bool := pc % 4 = 0 && p.codeLo ≤ pc && pc + len ≤ p.codeHi

/-- An instruction more has begun. -/
def LaneCtx.counted (c : LaneCtx) : LaneCtx := { c with count := c.count + 1 }

/-- pc advances past the instruction. -/
def LaneCtx.past (c : LaneCtx) (len : Nat) : LaneCtx := { c with pc := c.pc + BitVec.ofNat 32 len }

/-- One instruction on the lane's running context, after the loads that it depends on; an encoding that is not assigned, or a fetch
outside the code, raises ILLEGAL_OP. A lane that runs nothing leaves the state as it is (log entry 1). -/
def issue (s : State) (l : Lane) (len : Nat) (regs : List Nat) (legal : Bool) (body : CtxKind → LaneCtx → State) : State :=
  match runCtx s l with
  | none => s
  | some (k, c) =>
    let c := (c.settle regs).counted
    let t := if !legal || !fetchOk (laneProg s l) c.pc.toNat len then except s l k c xIllegal else body k c
    if (s.lane l).onward then t else arrived t (guardInstant s) l

/-- An instruction that only computes: rd and cf, or an exception. -/
def compute (s : State) (l : Lane) (len rd : Nat) (regs : List Nat) (legal : Bool) (f : Program → LaneCtx → OpRes) : State :=
  issue s l len (rd :: regs) legal fun k c =>
    match f (laneProg s l) c with
    | .exc kind => except s l k c kind
    | .res v cf => s.setCtx l k (({ c with cf := cf }.wr rd v).past len)

/-! ### Format R (Table ISA-1, R128) -/

def RFmt.len (f : RFmt) : Nat := if f.i then 8 else 4
def RFmt.regs (f : RFmt) : List Nat := [f.ra.toNat, f.rb.toNat]
def RFmt.type? (f : RFmt) : Option Ty := Ty.ofCode f.ty.toNat

/-- TY names a type that the group accepts. -/
def RFmt.tyIs (f : RFmt) (ok : Ty → Bool) : Bool := match RFmt.type? f with | some t => ok t | none => false

def RFmt.theTy (f : RFmt) : Ty := (RFmt.type? f).getD .bool

/-- Operand b in a register or in the extension word; RB is zero then, and a BOOL word holds 0 or 1. -/
def RFmt.bOk (f : RFmt) : Bool :=
  !f.i || (f.rb = 0 && (if RFmt.type? f = some .bool then f.ext.toNat < 2 else true))

/-- An instruction of operand a only. -/
def RFmt.aOnly (f : RFmt) : Bool := !f.i && f.rb = 0

/-- No field but the opcode and those named. -/
def RFmt.plain (f : RFmt) (rd ra rb : Bool) : Bool :=
  !f.i && f.ty = 0 && (rd || f.rd = 0) && (ra || f.ra = 0) && (rb || f.rb = 0)

def aOf (c : LaneCtx) (f : RFmt) : W64 := c.rd f.ra.toNat
def bOf (c : LaneCtx) (f : RFmt) : W64 := if f.i then extOperand (RFmt.theTy f) f.ext else c.rd f.rb.toNat
def dOf (c : LaneCtx) (f : RFmt) : W64 := c.rd f.rd.toNat

/-- An instruction of format R that computes. -/
def computeR (s : State) (l : Lane) (f : RFmt) (legal : Bool) (g : Program → LaneCtx → OpRes) : Out :=
  .next (compute s l (RFmt.len f) f.rd.toNat (RFmt.regs f) legal g)

end Sys2Proof.Machine
end

