-- ==== Sys2Proof/Machine/Lcs.lean ====
section
/-! DEFINITION. LCS: the life-cycle states, field service, debug access and the entry to RETURN (chapter 19). A document is the key
it verifies under and the fields it is bound to (log entry 9). -/

namespace Sys2Proof.Machine

open Sys2Proof

/-- The state in force: FIELD-SERVICE overlays FIELD (R477). -/
def lifeCycle (s : State) : LifeCycle :=
  if s.lcs.stored = .field && s.lcs.service.isSome then .fieldService else s.lcs.stored

def serialNo : Nat := Config.serial.toNat

/-- An LCS_CHANGE record (Table LCS-5). -/
def lcsChange (s : State) (old new : LifeCycle) : State :=
  offer s 0x100 .lcs (bytesLE 1 old.code ++ bytesLE 1 new.code ++ bytesLE 1 s.lcs.relocks)

/-- Bits [31:0] of a key digest: its first four bytes (R208). -/
def keyWord (k : Option Nat) : Nat := (k.getD 0) % 2 ^ 32

/-- Every debug connection closes and the intrusive grant goes (R482). -/
def closeDebug (s : State) : State := { s with lcs := { s.lcs with sessions := 0, intrusive := false } }

def lockoutRuns (s : State) : Bool := s.tb3 < s.lcs.lockoutEnd

def lockoutSeconds (s : State) : Nat := (s.lcs.lockoutEnd - s.tb3 + 999999999) / 1000000000

/-- SVC requests a challenge (R481, R483): a fresh nonce voids the one before; none during a lockout, and one for field service only in
FIELD (Table LCS-3). -/
def challenge (s : State) (returning : Bool) (nonce : Nat) : State :=
  let l := lifeCycle s
  let open_ := if returning then l ≠ .manufacture && l ≠ .returned else l = .field
  if !open_ || lockoutRuns s then s
  else { s with lcs := { s.lcs with challenge := some { nonce, issued := s.tb3,
                                                        purpose := if returning then .returning else .service } } }

def execChallenge (purpose : Bool) (nonce : Nat) (s : State) : Out := .next (outsideReset s (challenge · purpose nonce))

/-- A document verifies under a key and is bound to this module. -/
def docOk (d : SignedDoc) (key : Option Nat) : Bool :=
  key.isSome && d.signedBy = key && d.hwType = Config.hwType && d.serial = serialNo

/-- A failed verification (R482): the third in a row starts the lockout. -/
def authFail (s : State) : State :=
  let fails := min 3 (s.lcs.fails + 1)
  raiseOpen { s with lcs := { s.lcs with fails, lockoutEnd := if fails = 3 then s.tb3 + 600000000000 else s.lcs.lockoutEnd } }
    .lcs 1

/-- A response is refused (R481): no field-service key, SERVICE_ALLOW 0, or a lockout. -/
def responseRefused (s : State) : Bool := s.lcs.fkey.isNone || !bitAt (s.reg .lcs 0x114) 1 || lockoutRuns s

/-- A response verifies against the open challenge, in time. -/
def responseOk (s : State) (d : SignedDoc) : Bool :=
  match s.lcs.challenge with
  | some c => c.purpose = .service && s.tb3 ≤ c.issued + 120000000000 && docOk d s.lcs.fkey && d.nonce = c.nonce && d.purpose ≤ 1
  | none => false

/-- A signed response; each challenge accepts one (R481). -/
def respond (s : State) (d : SignedDoc) (t : Nat) : State :=
  let s := s.at_ t
  if lifeCycle s ≠ .field then s
  else if responseRefused s then { s with lcs := { s.lcs with challenge := none } }
  else if responseOk s d then
    let s := { s with lcs := { s.lcs with challenge := none, fails := 0, service := some (d.purpose = 1) } }
    let s := lcsChange s .field .fieldService
    offer s 0x101 .lcs (bytesLE 1 d.purpose ++ bytesLE 4 (keyWord s.lcs.fkey))
  else authFail { s with lcs := { s.lcs with challenge := none } }

def execChallengeResponse (d : SignedDoc) (at_ : Nat) (s : State) : Out := .next (outsideReset s (respond · d at_))

/-- The lockout ends; FAILS stays until a success (R482). -/
def execLockoutExpiry (s : State) : Out :=
  .next (if s.lcs.lockoutEnd = 0 || s.pwr.inReset then s
    else
      let s := s.at_ s.lcs.lockoutEnd
      { s with lcs := { s.lcs with lockoutEnd := 0 } })

/-- An unlock token returns FIELD to INTEGRATION at the next module reset, at most 15 times (R478). -/
def unlock (s : State) (d : SignedDoc) : State :=
  if lifeCycle s ≠ .field then s
  else if !docOk d s.lcs.ikey then raiseOpen s .lcs 1
  else if s.lcs.relocks = 0 || s.lcs.nextState.isSome then s
  else { s with lcs := { s.lcs with nextState := some .integration, relocks := s.lcs.relocks - 1 } }

def execUnlockToken (d : SignedDoc) (s : State) : Out := .next (outsideReset s (unlock · d))

/-- Debug access beyond reads is open in this state (Table LCS-3). -/
def intrusiveOpen (s : State) : Bool :=
  match lifeCycle s with
  | .manufacture | .integration | .returned => true
  | .fieldService => s.lcs.service = some true
  | .blank | .field => false

/-- An intrusive request: before the first grant of a session the module enters the safe state (R480). -/
def debugIntrusive (s : State) : State :=
  if !intrusiveOpen s || s.lcs.intrusive then s
  else
    let s := raiseSafeOpen s .lcs 2
    { s with lcs := { s.lcs with intrusive := true, sessions := min 255 (s.lcs.sessions + 1) } }

def execDebugIntrusive (s : State) : Out := .next (outsideReset s debugIntrusive)

/-- A service session on SVC opens or closes (R480, Table LCS-5). -/
def svcSession (s : State) (opened : Bool) (peer : Nat) : State :=
  if !opened && s.net.svcSessions = 0 then s
  else
    let n := if opened then s.net.svcSessions + 1 else s.net.svcSessions - 1
    let s := { s with net := { s.net with svcSessions := n, svcLink := 0 < n } }
    let s := if opened then s else { s with lcs := { s.lcs with sessions := s.lcs.sessions - 1, intrusive := false } }
    offer s 0x102 .lcs (bytesLE 4 peer ++ bytesLE 1 (b2n opened))

def execSvcSession (opened : Bool) (peer : W32) (s : State) : Out := .next (outsideReset s (svcSession · opened peer.toNat))

/-! ### RETURN (R483, R484) -/

/-- The purpose code that a consent carries: the state RETURN. -/
def purposeReturn : Nat := LifeCycle.code .returned

/-- Steps 2 to 5 of Sequence LCS-1. -/
def eraseSecrets (s : State) : State :=
  let wipe (x : LaneSt) : LaneSt := { x with mem := [], tracked := [] }
  { s with lcs := { s.lcs with ikey := none, fkey := none, erasing := true },
           prog := { s.prog with retA := {}, retB := {}, retValid := none },
           upd := { s.upd with a := {}, b := {}, prepared := false, prepBegun := false, pendingBoot := false, pkg := none },
           bulk := [], laneA := wipe s.laneA, laneB := wipe s.laneB, laneC := wipe s.laneC }

/-- A vendor token bound to an open RETURN challenge of the last 10 minutes. -/
def vendorOk (s : State) (d : SignedDoc) : Bool :=
  match s.lcs.challenge with
  | some c => c.purpose = .returning && s.tb3 ≤ c.issued + 600000000000 && docOk d (some 0) && d.nonce = c.nonce
  | none => false

def consentOk (s : State) (d : Option SignedDoc) : Bool :=
  if s.lcs.stored = .blank then true
  else match d with
    | some d => docOk d s.lcs.ikey && d.purpose = purposeReturn
    | none => false

/-- A request to enter RETURN: refused unless the start is held and the token of LCS/UPD free; then the erasure begins. -/
def returnRequest (s : State) (consent : Option SignedDoc) (vendor : SignedDoc) (t : Nat) : State :=
  let s := s.at_ t
  let l := lifeCycle s
  let answer (s : State) (c : Status) : State := { s with lcs := { s.lcs with answer := some (BitVec.ofNat 32 c.code) } }
  if l = .manufacture || l = .returned || s.lcs.pending then s
  else if (s.ucb .lcs).token.isSome then answer s .busyMaint
  else if !s.pwr.hold then answer s .notReady
  else if vendorOk s vendor && consentOk s consent then
    eraseSecrets (answer { s with lcs := { s.lcs with pending := true, challenge := none } } .ok)
  else raiseOpen s .lcs 1

def execReturnRequest (consent : Option SignedDoc) (vendor : SignedDoc) (at_ : Nat) (s : State) : Out :=
  .next (outsideReset s (returnRequest · consent vendor at_))

/-- Steps 6 to 8: every erased region reads as zero, the RETURN fuses are blown and the module resets; a mismatch stops the
start. The recorder writes the record before the reset. -/
def erased (s : State) (ok : Bool) : State :=
  if !s.lcs.erasing || s.pwr.inReset then s
  else if ok then
    let old := lifeCycle s
    let s := { s with lcs := { s.lcs with stored := .returned, erasing := false, service := none } }
    enterReset (drainRecorder (lcsChange s old .returned)) .lifecycle
  else
    let s := raiseOpen { s with lcs := { s.lcs with erasing := false } } .lcs 4
    { s with pwr := { s.pwr with failed := 5, reason := 1 } }

def execErasureComplete (ok : Bool) (s : State) : Out := .next (erased s ok)

/-! ### LOCK and CLOSE_SERVICE (Table LCS-6) -/

/-- INTEGRATION to FIELD at once; the debug sessions close. -/
def lockNow (s : State) : State :=
  closeDebug (lcsChange { s with lcs := { s.lcs with stored := .field } } .integration .field)

/-- Back to FIELD: every debug connection closes (R482). -/
def closeService (s : State) : State :=
  closeDebug (lcsChange { s with lcs := { s.lcs with service := none } } .fieldService .field)

/-! ### Shown registers (Tables LCS-4 and LCS-5a) -/

/-- The test header answers more than IDCODE and BYPASS (Table LCS-3). -/
def tapFull (s : State) : Bool := s.lcs.applied && lifeCycle s ≠ .field

/-- EXTEST is granted while the start is held or has stopped before step 9 (R480). -/
def extest (s : State) : Bool := tapFull s && (s.pwr.hold || s.pwr.failed ≠ 0)

def lcsRead (s : State) (off : Nat) : W32 :=
  let l := s.lcs
  match off with
  | 0x100 => pack [((lifeCycle s).code, 28), (b2n l.pending, 27), (l.relocks, 20)]
  | 0x104 => pack [(b2n (tapFull s), 31), (b2n (0 < l.sessions), 30), (b2n l.intrusive, 29), (b2n (extest s), 28), (l.sessions, 0)]
  | 0x108 => pack [(b2n (lifeCycle s = .fieldService), 31), (b2n (l.service = some true), 30), (l.fails, 24), (lockoutSeconds s, 0)]
  | 0x10C => BitVec.ofNat 32 (keyWord l.ikey)
  | 0x110 => BitVec.ofNat 32 (keyWord l.fkey)
  | _ => 0

end Sys2Proof.Machine
end

