-- ==== Sys2Proof/Machine/Pwr.lean ====
section
/-! DEFINITION. PWR: the supply input, straps, temperature and the automatic restart (chapter 21). -/

namespace Sys2Proof.Machine

open Sys2Proof

/-- What a read-only register of PWR shows. -/
def pwrAuto (s : State) : Nat := min 3 (s.pwr.autoEnds.filter fun e => s.tb3 < e).length

def supplyWord (s : State) : W32 := pack [(s.pwr.vin, 16), (s.pwr.bulk, 0)]

def pwrRead (s : State) (off : Nat) : W32 :=
  let p := s.pwr
  match off with
  | 0x100 => pack [(b2n p.pf, 31), (b2n p.ac, 30), (b2n p.hold, 29), (b2n p.shutdown, 28)]
  | 0x104 => pack [(p.cause, 24), (p.prior, 16)]
  | 0x108 => pack [(p.step, 28), (p.failed, 24), (p.reason, 16), (p.startMs, 0)]
  | 0x10C => pack [(b2n p.strapChanged, 31), (p.strap.toNat % 2 ^ 13, 0)]
  | 0x110 => pack [(p.strapNow.toNat % 2 ^ 13, 0)]
  | 0x114 => supplyWord s
  | 0x118 => pack [(ofSigned 16 p.tempMax, 16), (ofSigned 16 p.temp, 0)]
  | 0x120 => pack [(p.starts % 65536, 16), (p.pfCount, 8), (pwrAuto s, 0)]
  | _ => 0

def pwrSettingOk (off : Nat) (v : W32) : Bool := if off = 0x11C then field v 15 0 ≤ 3600 else true

def pwrSupply : Nat := baseOf .pwr + 0x114

/-- POWER_FAIL and POWER_RETURN records (Table PWR-9). -/
def supplyRecord (s : State) (code : Nat) : State := offer s code .pwr (bytesLE 4 (supplyWord s).toNat ++ tickBytes s)

/-- The input has been below the input-loss threshold for 1 ms (R511). -/
def pfWarn (s : State) : State :=
  if s.pwr.pf || s.pwr.inReset then s
  else
    let s := { s with pwr := { s.pwr with pf := true, pfCount := satUp 255 s.pwr.pfCount } }
    supplyRecord (raise s .pwr 1 pwrSupply) 0x120

def execPfWarn (s : State) : Out := .next (pfWarn s)

/-- The input has been above the start threshold for 10 ms before shutdown (R511). -/
def powerReturn (s : State) : State :=
  if !s.pwr.pf || s.pwr.shutdown then s else supplyRecord { s with pwr := { s.pwr with pf := false } } 0x121

def execPowerReturn (s : State) : Out := .next (powerReturn s)

/-- The bulk rail falls to 200 V (R512): the recorder's queue drains and the module enters reset. -/
def shutdown (s : State) : State :=
  if s.pwr.inReset then s
  else enterReset (drainRecorder { s with pwr := { s.pwr with shutdown := true } }) .powerFail

def execShutdown (s : State) : Out := .next (shutdown s)

/-- SAFE_RESET_S seconds have passed in the safe state or STOPPED (R520). -/
def safeRestart (s : State) : State :=
  match s.pwr.safeSince with
  | none => s
  | some (t, secs) =>
    if secs = 0 || s.tb3 < t + secs * 1000000000 || s.pwr.inReset then s
    else if s.lcs.sessions ≠ 0 || pwrAuto s = 3 then s
    else if s.upd.trial then enterReset { s with upd := { s.upd with safeOnTrial := true } } .safeRestart
    else
      let s := offer s 0x122 .pwr (bytesLE 4 s.safe.cause.word.toNat ++ bytesLE 1 (pwrAuto s))
      let s := { s with pwr := { s.pwr with autoEnds := s.pwr.autoEnds ++ [s.tb3 + 3600000000000] } }
      enterReset (drainRecorder s) .safeRestart

def execSafeRestart (s : State) : Out := .next (safeRestart s)

/-- A strap reading differs for three consecutive samples (R517). -/
def strapsRead (s : State) (straps : BitVec 13) : State :=
  let now : W32 := straps.setWidth 32
  let s := { s with pwr := { s.pwr with strapNow := now } }
  if now = s.pwr.strap || s.pwr.strapChanged || s.pwr.inReset then s
  else raise { s with pwr := { s.pwr with strapChanged := true } } .pwr 2 (baseOf .pwr + 0x10C)

def execStrapChanged (straps : BitVec 13) (s : State) : Out := .next (strapsRead s straps)

/-- The board temperature in 0.1 °C. -/
def setTemp (s : State) (t : Int) : State :=
  { s with pwr := { s.pwr with temp := t, tempMax := max t s.pwr.tempMax } }

/-- Above 95 °C for 1 s (Table PWR-10). -/
def execTempHigh (temp : Int) (s : State) : Out :=
  .next (if temp ≤ 950 then setTemp s temp else raise (setTemp s temp) .pwr 3 (baseOf .pwr + 0x118))

/-- Above 105 °C for 1 s: the safe state. -/
def execTempCrit (temp : Int) (s : State) : Out :=
  .next (if temp ≤ 1050 then setTemp s temp else raiseSafe (setTemp s temp) .pwr 4 (baseOf .pwr + 0x118))

/-- MODULE_RESET takes effect at the nominal instant of the next boundary (R521). -/
def resetAtBoundary (s : State) (cause : ResetCause) : State := { s with pwr := { s.pwr with resetDue := some cause } }

end Sys2Proof.Machine
end

