-- ==== Sys2Proof/Machine/Upd.lean ====
section
/-! DEFINITION. UPD: packages, slots, apply and activate, trial and fallback, change sets, partner and card updates (chapter 20). -/

namespace Sys2Proof.Machine

open Sys2Proof

/-! ### Packages (R489 to R491) -/

/-- The stored integrator key, or in BLANK the key of the package's own key block (Table UPD-1). -/
def programKey (s : State) (p : Package) : Option Nat := if s.lcs.stored = .blank then p.keyBlock else s.lcs.ikey

/-- A reason code of Table UPD-5 for a key that is absent or differs, 0 otherwise. -/
def keyReason (s : State) (p : Package) : Nat :=
  let differs := match p.keyBlock, s.lcs.ikey with | some k, some i => k ≠ i | _, _ => false
  match p.payload with
  | .firmware _ => if differs then 0x0B else 0
  | .program _ => if (programKey s p).isNone || differs then 0x0B else 0
  | .change _ => if s.lcs.ikey.isNone || differs then 0x0B else 0
  | .card _ => if differs then 0x0B else 0

def signatureOk (s : State) (p : Package) : Bool :=
  match p.payload with
  | .firmware _ => p.signedBy = some 0
  | .program _ => p.signedBy.isSome && p.signedBy = programKey s p
  | .change _ => p.signedBy.isSome && p.signedBy = s.lcs.ikey
  | .card _ => p.signedBy = some 0 || (p.signedBy.isSome && p.signedBy = s.lcs.ikey)

/-- Bytes that the package area and the area of its kind hold (Table UPD-3). -/
def sizeLimit (p : Package) : Nat :=
  match p.payload with
  | .firmware _ => if p.delta then 0x4000000 - 480 else 0x2000000
  | .change _ => 0x3000000
  | _ => 0x4000000 - 480

def secverFloor (s : State) (p : Package) : Nat :=
  match p.payload with
  | .firmware _ => s.upd.secFw
  | .program _ => s.upd.secPgm
  | _ => 0

/-- The checks on delivery, in the order of Table UPD-5; 0 when all pass. -/
def packageReason (s : State) (p : Package) : Nat :=
  let isCard := match p.payload with | .card _ => true | _ => false
  if !p.headerOk then 0x0C
  else if sizeLimit p < p.len then 0x0A
  else if keyReason s p ≠ 0 then 0x0B
  else if !signatureOk s p then 0x01
  else if !isCard && p.hwType ≠ Config.hwType then 0x02
  else if p.serial ≠ 0 && p.serial ≠ serialNo then 0x03
  else if p.secver < secverFloor s p then 0x07
  else 0

/-! ### Preparing a slot (R493) -/

/-- The inactive slot starts as a copy of the active slot's firmware and program areas. -/
def prepareSlot (s : State) : State :=
  if s.upd.prepBegun then s
  else
    let a := activeSlot s.upd
    let x : ImageSlot := { fw := a.fw, pgm := a.pgm }
    { s with upd := { (s.upd.setInactive x) with prepBegun := true, prepared := false } }

/-- The write begins: the slot is invalid until the digest checks. -/
def applyBegin (s : State) : State :=
  let s := prepareSlot s
  { s with upd := { (s.upd.setInactive { inactiveSlot s.upd with valid := false }) with applying := true, prepared := false } }

/-- The active slot's image digest of a package's kind. -/
def baseDigest (s : State) (p : Package) : Option Nat :=
  match p.payload with
  | .firmware _ => (activeSlot s.upd).fw.map (·.digest)
  | .program _ => (activeSlot s.upd).pgm.map (·.digest)
  | _ => none

def resultDigest (p : Package) : Nat :=
  match p.payload with
  | .firmware f => f.digest
  | .program g => g.digest
  | _ => p.target

/-- Why an apply fails: the base or the result differs. -/
def applyReason (s : State) (p : Package) : Nat :=
  if p.delta && baseDigest s p ≠ some p.base then 0x04 else if resultDigest p ≠ p.target then 0x05 else 0

/-- The record area of the prepared slot: the active slot's, unless the program changed (R493). -/
def fillRecords (s : State) (x : ImageSlot) : ImageSlot :=
  let a := activeSlot s.upd
  if (x.pgm.map (·.digest)) = (a.pgm.map (·.digest)) then { x with changes := a.changes, profile := a.profile }
  else { x with changes := [], profile := none }

/-- The image of the current package stands in the area of its kind. -/
def writeImage (s : State) (p : Package) : State :=
  let x := inactiveSlot s.upd
  let x := match p.payload with
    | .firmware f => { x with fw := some f }
    | .program g => { x with pgm := some g }
    | _ => x
  let x := { fillRecords s x with valid := true, saved := none }
  { s with upd := { (s.upd.setInactive x) with applying := false, prepared := true } }

/-- An update record (Table UPD-8): the target and a number. -/
def updRecord (s : State) (code target v : Nat) : State := offer s code .lcs (bytesLE 1 target ++ bytesLE 4 v)

/-- A firmware apply to the module itself ends: its result, and its record or APPLY_FAIL. -/
def applySelf (s : State) (p : Package) (written : Bool) : Bool × State :=
  let r := if !written then 0x09 else applyReason s p
  if r = 0 then (true, updRecord (writeImage s p) 0x110 0 p.version)
  else (false, raiseOpen { s with upd := { s.upd with applying := false, prepared := false, reason := r } } .lcs 0x21)

/-! ### Activating (R494, R495) -/

/-- The prepared program accepts the prepared firmware, and both meet their floors. -/
def compatible (s : State) : Bool :=
  let x := inactiveSlot s.upd
  match x.fw, x.pgm with
  | some f, some g => g.peerMin ≤ f.version && f.version ≤ g.peerMax && s.upd.secFw ≤ f.secver && s.upd.secPgm ≤ g.secver
  | some f, none => s.upd.secFw ≤ f.secver
  | none, _ => false

/-- Why ACTIVATE refuses a prepared slot (Table UPD-5). -/
def activateReason (s : State) : Nat :=
  let x := inactiveSlot s.upd
  match x.fw, x.pgm with
  | some f, some g => if g.peerMin ≤ f.version && f.version ≤ g.peerMax then 0x07 else 0x06
  | _, _ => 0x07

def validGeneration (s : State) : Option RetGen :=
  match s.prog.retValid with
  | some false => some s.prog.retA
  | some true => some s.prog.retB
  | none => none

/-- The prepared slot boots at the next module reset; a later APPLY prepares anew (R493, R494). -/
def activateSelf (s : State) (resetNow : Bool) : State :=
  let u := s.upd.setActive { activeSlot s.upd with saved := validGeneration s }
  let s := { s with upd := { u with pendingBoot := true, prepBegun := false, trialMin := s.regField .lcs 0x204 10 0 } }
  let s := updRecord s 0x111 0 (((inactiveSlot s.upd).pgm.map (·.version)).getD 0)
  if resetNow then resetAtBoundary s .update else s

/-- A module that runs no program: in BLANK, held under BOOT_HOLD, or stopped at step 5 (R496). -/
def runsNoProgram (s : State) : Bool := s.lcs.stored = .blank || s.pwr.hold || s.pwr.failed = 5

/-- It applies and activates a current image package by itself and resets into it. -/
def autoApply (s : State) (p : Package) : State :=
  match p.payload with
  | .firmware _ | .program _ =>
    let (ok, s) := applySelf (applyBegin s) p true
    if !ok then s
    else if !compatible s then raiseOpen { s with upd := { s.upd with reason := activateReason s } } .lcs 0x22
    else enterReset (activateSelf s false) .update
  | _ => s

/-- SVC delivers packages in this state (Table LCS-3). -/
def deliveryOpen (s : State) : Bool := lifeCycle s ≠ .returned

/-- A delivered package is checked and becomes the current package, or is discarded (R491). -/
def deliver (s : State) (p : Package) : State :=
  if !deliveryOpen s || s.lcs.pending then s
  else
    let r := packageReason s p
    if r ≠ 0 then raise { s with upd := { s.upd with reason := r } } .lcs 0x20 r
    else
      let s := { s with upd := { s.upd with pkg := some p } }
      if runsNoProgram s && s.pwr.step ≥ 5 then autoApply s p else s

def execPackage (p : Package) (s : State) : Out := .next (outsideReset s (deliver · p))

/-! ### Trial (R497 to R499) -/

/-- The window expires unconfirmed: the safe state, and a fallback at the first boundary at least 10 ms later. -/
def trialExpired (s : State) : State :=
  if !s.upd.trial || s.upd.fallbackAt.isSome || s.pwr.inReset then s
  else
    let s := raiseSafeOpen s .lcs 0x23
    { s with upd := { s.upd with trialLeft := 0, trialRun := none, safeOnTrial := true, fallbackAt := some (s.tb3 + 10000000) } }

def execTrialExpired (s : State) : Out := .next (trialExpired s)

/-- CONFIRM for the module itself: the trial ends and the floors rise (R498). -/
def confirmSelf (s : State) : State :=
  let a := activeSlot s.upd
  let fw := (a.fw.map (·.secver)).getD 0
  let pgm := (a.pgm.map (·.secver)).getD 0
  let s := { s with upd := { s.upd with trial := false, trials := 0, trialLeft := 0, trialRun := none, safeOnTrial := false,
                                        secFw := max s.upd.secFw fw, secPgm := max s.upd.secPgm pgm } }
  updRecord s 0x112 0 ((a.pgm.map (·.version)).getD 0)

/-- ABORT discards the preparation and PENDING. -/
def abortUpdate (s : State) : State :=
  let x := inactiveSlot s.upd
  let u := if s.upd.prepBegun || s.upd.prepared then s.upd.setInactive { x with valid := false } else s.upd
  { s with upd := { u with prepared := false, prepBegun := false, pendingBoot := false } }

/-! ### Change sets (R117, R118, R501) -/

/-- Two byte ranges meet. -/
def overlap (a n b m : Nat) : Bool := a < b + m && b < a + n

/-- An item of the image is one that a change set may address: an ONLINE variable, or a whole constant or parameter item, of the same data
type (R117). -/
def changeItemOk (p : Program) (i : ChangeItem) : Bool :=
  match i.space with
  | .inst =>
    match progInst p i.inst with
    | some d => match progType p d.ty with
      | some t => (t.vars.any fun v => v.online && v.off = i.off && v.size = i.data.length && v.ty = i.ty) &&
          !(t.cells.any fun c => overlap i.off i.data.length c.off c.kind.size) && 16 ≤ i.off
      | none => false
    | none => false
  | .global => p.items.any fun d => d.space = .global && d.online && d.off = i.off && d.size = i.data.length && d.ty = i.ty
  | .constant => p.items.any fun d => d.space = .constant && d.off = i.off && d.size = i.data.length && d.ty = i.ty
  | .parameter => p.items.any fun d => d.space = .parameter && d.off = i.off && d.size = i.data.length && d.ty = i.ty
  | .input | .output => false

/-- The checks of R117 and R501. -/
def changeOk (s : State) (base : Nat) (lane : Option Lane) (c : ChangeSet) : Bool :=
  let p := match lane with | some l => splitProg s l | none => mainProg s
  base = ((s.prog.image.map (·.digest)).getD 0) && s.prog.image.isSome && !s.upd.trial && c.items.length ≤ 4096 &&
    (c.items.map (·.data.length)).sum ≤ 0x100000 && (c.items.all (changeItemOk p)) &&
    (((activeSlot s.upd).changes.map (·.size)).sum + c.size ≤ 0x3000000)

/-- An accepted change set is recorded with the image and waits for the next boundary. -/
def acceptChange (s : State) (c : ChangeSet) : State :=
  let a := activeSlot s.upd
  let s := { s with upd := { (s.upd.setActive { a with changes := a.changes ++ [c] }) with pkg := none },
                    prog := { s.prog with changes := s.prog.changes ++ [c], changesDue := s.prog.changesDue ++ [c] } }
  updRecord s 0x114 0 c.size

/-! ### Shown registers (Tables UPD-4 and UPD-6) -/

/-- Word k of a digest held as a number: bytes 4k to 4k + 3 (R208). -/
def digestWord (d k : Nat) : W32 := BitVec.ofNat 32 (d / 2 ^ (32 * k))

def slotFw (x : ImageSlot) : Nat := if x.valid then (x.fw.map (·.version)).getD 0 else 0
def slotPgm (x : ImageSlot) : Nat := if x.valid then (x.pgm.map (·.version)).getD 0 else 0

def updRead (s : State) (off : Nat) : W32 :=
  let u := s.upd
  match off with
  | 0x200 => pack [(b2n u.slotB, 31), (b2n u.trial, 30), (b2n u.prepared, 29), (b2n u.pkg.isSome, 28), (b2n u.fallenBack, 27),
               (b2n u.pendingBoot, 26), (b2n u.applying, 25), (min 3 u.trials, 22)]
  | 0x208 => BitVec.ofNat 32 (trialSeconds s)
  | 0x20C => match u.pkg with
    | some p => pack [(p.payload.kind, 28), (b2n p.delta, 27), (b2n (p.serial ≠ 0), 26), (min 65536 ((p.len + 1023) / 1024), 0)]
    | none => 0
  | 0x210 => BitVec.ofNat 32 ((u.pkg.map (·.version)).getD 0)
  | 0x214 => BitVec.ofNat 32 (((activeSlot u).fw.map (·.version)).getD 0)
  | 0x218 => BitVec.ofNat 32 (((activeSlot u).pgm.map (·.version)).getD 0)
  | 0x21C => BitVec.ofNat 32 (slotFw (inactiveSlot u))
  | 0x220 => BitVec.ofNat 32 (slotPgm (inactiveSlot u))
  | 0x224 => pack [(u.secFw, 16), (u.secPgm, 0)]
  | 0x228 => BitVec.ofNat 32 u.reason
  | _ => if 0x240 ≤ off && off < 0x260 then digestWord (((activeSlot u).pgm.map (·.digest)).getD 0) ((off - 0x240) / 4) else 0

/-- A value that Tables LCS-5a and UPD-6 admit. -/
def lcsSettingOk (off : Nat) (v : W32) : Bool := if off = 0x204 then 1 ≤ field v 10 0 && field v 10 0 ≤ 1440 else true

end Sys2Proof.Machine
end

