-- ==== Sys2Proof/Machine/ProgMem.lean ====
section
/-! DEFINITION. The program's data in the module's memories: instance images with their headers, writes to the places that the map
gives, online changes, restarts and the retentive generations (R80 to R82, R111, R115, R117 to R119, R179). -/

namespace Sys2Proof.Machine

open Sys2Proof

/-! ### Instance images (R111, Table PGM-8) -/

def typeOfInst (p : Program) (d : InstDecl) : TypeDecl :=
  (progType p d.ty).getD { index := d.ty, entry := 0, size := 16, layout := 0, trap := false, composite := false, cells := [], vars := [] }

/-- An instance holds variables or cells that its layout marks retentive (RETAIN). -/
def holdsRetentive (p : Program) (d : InstDecl) : Bool :=
  let t := typeOfInst p d
  t.cells.any (·.retentive) || t.vars.any (·.retentive)

/-- The 16-byte header. -/
def headerBytes (p : Program) (d : InstDecl) : List Byte :=
  let t := typeOfInst p d
  bytesLE 4 (d.ty % 4096 * 2 ^ 20 + t.layout % 2 ^ 20)
    ++ bytesLE 4 (d.index * 2 ^ 16 + b2n (d.safeRead && !d.safety) * 32 + b2n d.top * 16 + b2n d.unitIndex.isSome * 8 + b2n t.composite * 4
        + b2n (holdsRetentive p d) * 2 + b2n d.safety)
    ++ bytesLE 4 (d.parent % 2 ^ 16 * 2 ^ 16 + t.size / 8 % 2 ^ 14)
    ++ bytesLE 4 ((match d.unitIndex with | some k => 0x8000 + k | none => 0xFFFF) * 2 ^ 16)

/-- Listed bytes put into a memory at a base. -/
def putBytes (m : Memory) (base : Nat) (bs : Bytes) : Memory := bs.foldl (fun m b => Memory.writeByte m (base + b.1) b.2) m

/-- The data of the recorded change sets for one variable space, in their order (R119). -/
def changedBytes (cs : List ChangeSet) (space : Space) (inst : Nat) : List (Nat × Byte) :=
  cs.flatMap fun c => c.items.flatMap fun i =>
    if i.space = space && (space ≠ .inst || i.inst = inst) then i.data.zipIdx.map fun (b, k) => (i.off + k, b) else []

/-- The change sets that address a program. -/
def changesOf (s : State) (p : Nat) : List ChangeSet :=
  s.prog.changes.filter fun c => p = (match c.lane with | some l => 1 + l.idx | none => 0)

/-- The initial content of an instance: the image's, with accepted changes, under the header. -/
def instContent (s : State) (pn : Nat) (p : Program) (d : InstDecl) : Memory :=
  let m := putBytes (putBytes [] 0 d.init) 0 (changedBytes (changesOf s pn) .inst d.index)
  Memory.writeBytes m 0 (headerBytes p d)

/-- The initial content of an item, from its offset. -/
def itemContent (s : State) (pn : Nat) (i : ItemDecl) : Memory :=
  let m := putBytes [] 0 i.init
  putBytes m 0 ((changedBytes (changesOf s pn) i.space 0).filterMap fun b =>
    if i.off ≤ b.1 && b.1 < i.off + i.size then some (b.1 - i.off, b.2) else none)

/-! ### Writes to the places that the map gives -/

/-- The lanes whose memories hold a program: all of the voted set, or one lane in SPLIT. -/
def lanesOf (s : State) (p : Nat) : List Lane :=
  match p with
  | 1 => [.a] | 2 => [.b] | 3 => [.c] | _ => Lane.all.filter fun l => (s.lane l).role = .voting

/-- Bytes written into the bulk store; their 4 KiB pages are dirty for the state copy (R259). -/
def State.writeBulk (s : State) (key : Nat) (bs : List Byte) : State :=
  { s with bulk := Memory.writeBytes s.bulk key bs,
           pair := { s.pair with dirtyBulk := mark (mark s.pair.dirtyBulk (key / 4096)) ((key + bs.length - 1) / 4096) } }

/-- Bytes written to a place in every lane of a program, or in the bulk store: no write that a digest tracks (R231). -/
def writePlace (s : State) (p : Nat) (q : Place) (bs : List Byte) : State :=
  if bs.isEmpty then s else
  match q with
  | .own a => (lanesOf s p).foldl (fun s l => s.setLane l ((s.lane l).put a bs)) s
  | .bulk k => s.writeBulk k bs

/-- Bytes written to each of some places. -/
def writePlaces (s : State) (p : Nat) (qs : List Place) (bs : List Byte) : State := qs.foldl (fun s q => writePlace s p q bs) s

def instPlace (s : State) (p i off : Nat) : Place := placeUnder (mapFor s p) p 0 i off

/-- A whole instance written. -/
def putInst (s : State) (pn : Nat) (p : Program) (d : InstDecl) (m : Memory) : State :=
  writePlace s pn (instPlace s pn d.index 0) (Memory.readBytes m 0 (instSize p d))

/-- The places of an item, its master copy among them. -/
def itemPlaces (s : State) (pn : Nat) (i : ItemDecl) : List Place := placesUnder (mapFor s pn) pn i.space.code 0 i.off

/-- A composite unit and every instance inside it return to the image (R115). -/
def resetComposite (s : State) (k : Nat) : State :=
  match compositeInst s k with
  | none => s
  | some (pn, d) =>
    let p := progOf s pn
    (d :: instsInside p d).foldl (fun s e => putInst s pn p e (instContent s pn p e)) s

/-! ### Migration copies (R207, R217) -/

/-- The address of a migration copy: tier and area offset, with the space code whose area it is in [63:61] (log entry 114). -/
def migrationAddr (space : Nat) (t : Tier) (off : Nat) : Nat := space * 2 ^ 61 + t.code * 2 ^ 56 + off

/-- The bulk-store key that a migration copy into the bulk store names under a map. -/
def migrationKey (m : PMap) (addr : Nat) : Option Nat :=
  let space := addr / 2 ^ 61
  let off := addr % 2 ^ 56
  if space = 0 then
    (m.insts.find? fun r => r.tier = .bulk && r.off ≤ off && off < r.off + 0x10000 &&
        !(m.insts.any fun q => q.tier = .bulk && r.off < q.off && q.off ≤ off)).map
      fun r => bulkKey 0 (refOf 0 r.index (off - r.off))
  else
    (m.items.find? fun r => r.space.code = space && r.tier = some .bulk && r.off ≤ off && off < r.off + r.size).map
      fun r => bulkKey 0 (refOf space 0 (r.offset + (off - r.off)))

/-! ### Online changes (R117, R118) -/

/-- Bytes at a key put over the bulk-store stores that wait in a lane's effect queue, so that a store made before them cannot
overwrite them (R118). -/
def overrideStore (p key : Nat) (bs : List Byte) (r : EffectRec) : EffectRec :=
  if r.kind ≠ 0 then r
  else
    let base := bulkKey p r.addr
    let one (j : Nat) (beat : Nat) : Nat :=
      fromLE ((bytesLE (2 ^ r.size) beat).zipIdx.map fun (b, i) =>
        let k := base + j * 2 ^ r.size + i
        if key ≤ k && k < key + bs.length then bs.getD (k - key) b else b)
    { r with beats := r.beats.zipIdx.map fun (v, j) => one j v }

def overrideStores (s : State) (pn key : Nat) (bs : List Byte) : State :=
  (lanesOf s pn).foldl (fun s l =>
    let x := s.lane l
    s.setLane l { x with queue := x.queue.map (overrideStore pn key bs), spill := x.spill.map (overrideStore pn key bs) }) s

/-- The program that a change set addresses. -/
def changeProg (c : ChangeSet) : Nat := match c.lane with | some l => 1 + l.idx | none => 0

/-- One change item takes effect, over every store that the program made to it before. -/
def applyItem (s : State) (pn : Nat) (i : ChangeItem) : State :=
  let qs := placesUnder (mapFor s pn) pn i.space.code i.inst i.off
  let s := writePlaces s pn qs i.data
  qs.foldl (fun s q => match q with | .bulk k => overrideStores s pn k i.data | .own _ => s) s

/-- Every item of an accepted change set takes effect together; an item in the bulk store is one effect and takes one CSN, whatever its
length (DESIGN CHOICE, log entry 113). -/
def applyChange (s : State) (c : ChangeSet) : State :=
  let p := changeProg c
  c.items.foldl (fun s i =>
    let bulk := (placesUnder (mapFor s p) p i.space.code i.inst i.off).any fun q => match q with | .bulk _ => true | .own _ => false
    applyItem (if bulk then { s with voter := { s.voter with csn := s.voter.csn + 1 } } else s) p i) s

/-! ### Retentive data (R82, R179) -/

/-- The retentive variables of a program: space, instance, offset and size (R82). Cells count by their kind. -/
def retentiveSpans (p : Program) : List (Space × Nat × Nat × Nat) :=
  ((sortBy (fun (a b : InstDecl) => a.index ≤ b.index) p.insts).flatMap fun d =>
    let t := typeOfInst p d
    (t.vars.filter (·.retentive)).map (fun v => (Space.inst, d.index, v.off, v.size))
      ++ (t.cells.filter (·.retentive)).map fun c => (Space.inst, d.index, c.off, c.kind.size))
    ++ (p.items.filter fun i => i.space = .global && i.retentive).map fun i => (Space.global, 0, i.off, i.size)

/-- Where each span lies in a generation: one after the other from offset 0 (log entry 29). -/
def retentiveLayout (p : Program) : List (Nat × Space × Nat × Nat × Nat) :=
  ((retentiveSpans p).foldl (fun (acc : List (Nat × Space × Nat × Nat × Nat) × Nat) v =>
    (acc.1 ++ [(acc.2, v)], acc.2 + v.2.2.2)) ([], 0)).1

/-- The valid generation, if there is one. -/
def validGen (s : State) : Option RetGen :=
  match s.prog.retValid with
  | some true => some s.prog.retB
  | some false => some s.prog.retA
  | none => none

/-- A byte of an edge or counter or timer cell under a warm restart: SEED is set, and GEN of a kept timer is 0 (Table TMR-8). -/
def warmCell (kind : CellKind) (kept : Bool) (m : Memory) (off : Nat) : Memory :=
  let ctrl := match kind with | .timer => off + 24 | .counter => off + 8 | .edge => off
  let m := Memory.writeByte m ctrl (Memory.readByte m ctrl ||| 0x80)
  if kept && kind = .timer then Memory.writeBytes m (off + 28) [0, 0, 0, 0] else m

/-- An instance's content after a warm restart: the image's, with the retentive bytes of the generation. -/
def warmContent (s : State) (pn : Nat) (p : Program) (g : RetGen) (lay : List (Nat × Space × Nat × Nat × Nat)) (d : InstDecl) : Memory :=
  let m := instContent s pn p d
  let m := (lay.filter fun e => e.2.1 = .inst && e.2.2.1 = d.index).foldl (fun m e =>
    Memory.writeBytes m e.2.2.2.1 (Memory.readBytes g.bytes e.1 e.2.2.2.2)) m
  (typeOfInst p d).cells.foldl (fun m c => warmCell c.kind c.retentive m c.off) m

/-! ### Restart (R80) -/

/-- Every value of the output image at its initial value, tag GOOD. -/
def initOutputs (s : State) (pn : Nat) (p : Program) : State :=
  { s with prog := { s.prog with outs := p.outputs.foldl (fun m v => mapPut (progKey pn v.off) ⟨v.init, .good⟩ m) s.prog.outs } }

/-- A program's data from the image, or with the retentive data of a generation. Its output-image values follow with its first tick
(R307). -/
def initProgram (s : State) (pn : Nat) (p : Program) (gen : Option RetGen) : State :=
  let lay := retentiveLayout p
  let s := p.insts.foldl (fun s d =>
    putInst s pn p d (match gen with | some g => warmContent s pn p g lay d | none => instContent s pn p d)) s
  p.items.foldl (fun s i =>
    let m := itemContent s pn i
    let m := match gen with
      | some g =>
        (lay.filter fun e => e.2.1 = .global && e.2.2.2.1 = i.off && i.space = .global).foldl
          (fun m e => Memory.writeBytes m 0 (Memory.readBytes g.bytes e.1 e.2.2.2.2)) m
      | none => m
    writePlaces s pn (itemPlaces s pn i) (Memory.readBytes m 0 i.size)) s

/-- Contexts, buffers and queues of a lane as before the first activation. -/
def clearLane (x : LaneSt) : LaneSt :=
  { x with current := none, safety := {}, timed := {}, skip := {}, free := {}, queue := [], spill := [], mem := [], tracked := [],
           in0 := {}, in1 := {}, in2 := {} }

/-- Whether a warm restart can be made (R81), for a program whose image has the digest given. -/
def warmPossible (s : State) (image : Nat) : Bool :=
  match validGen s with
  | some g => g.image = image
  | none => false

def imageDigest (s : State) : Nat := (s.prog.image.map (·.digest)).getD 0

/-! ### The retentive generation (R82) -/

/-- The bytes of a program's retentive data now, as lane `l` holds them. -/
def retentiveNow (s : State) (l : Lane) (pn : Nat) (p : Program) : List (Nat × Byte) :=
  (retentiveLayout p).flatMap fun e =>
    let q := placeUnder (mapFor s pn) pn e.2.1.code e.2.2.1 e.2.2.2.1
    (readPlace s l q e.2.2.2.2).zipIdx.map fun (b, i) => (e.1 + i, b)

def inactiveGen (s : State) : RetGen := if s.prog.retValid = some false then s.prog.retB else s.prog.retA

def State.setInactiveGen (s : State) (g : RetGen) : State :=
  if s.prog.retValid = some false then { s with prog := { s.prog with retB := g } } else { s with prog := { s.prog with retA := g } }

/-- The bytes by which the retentive data differ from the inactive generation. -/
def retentiveDirty (s : State) (l : Lane) : List (Nat × Byte) :=
  let g := inactiveGen s
  (retentiveNow s l 0 (mainProg s)).filter fun b => Memory.readByte g.bytes b.1 ≠ b.2

/-- A completed generation is made valid at step 3 (Sequence TICK-1); from then on none is incomplete (RET_LAG). -/
def commitGeneration (s : State) : State :=
  if !s.prog.retDone then s
  else
    let g := { inactiveGen s with image := imageDigest s, tick := s.tick.n }
    let s := s.setInactiveGen g
    { s with prog := { s.prog with retDone := false, retValid := some (s.prog.retValid = some false) },
             tick := { s.tick with retLag := false } }

/-- The program data of every program in force, cold or warm; the kind actually made is returned. A SPLIT program starts cold, and
so does a newly applied image (R81). -/
def restartProgram (s : State) (warm : Bool) : Bool × State :=
  let s := commitGeneration s
  let pns := progsInForce s
  let can := warm && warmPossible s (imageDigest s) && s.voter.mode ≠ .split && !s.upd.newlyApplied
  let s := s.mapLanes fun _ x => if x.role = .voting || x.role = .split then clearLane x else x
  let s := { s with
    prog := { s.prog with
      outs := s.prog.outs.filter (fun e => e.1 < progKey 1 0), firstTick := true, retDone := false, retMore := false,
      retLeft := 0, changesDue := [] },
    upd := { s.upd with newlyApplied := false },
    voter := { s.voter with gen := 1, xlate := none, groups := [], replay := [] },
    bulk := [] }
  let s := pns.foldl (fun s pn => initProgram s pn (progOf s pn) (if can then validGen s else none)) s
  let s := { s with tick := { s.tick with warm := can, retLag := false, lagMax := 0, bphMax := 0, slackMin := 0xFFFF, tasks := [] } }
  let s := if warm && !can then raiseOpen s .tick 9 else s
  (can, s)

end Sys2Proof.Machine
end

