-- ==== Sys2Proof/Machine/Gate.lean ====
section
/-! DEFINITION. What the states of a unit mean for it: leaving and entering RUN, closing the gate, re-initialisation by RESET, and
gating by a safety reaction (R28, R30, R38, R39, R115, R202 and the units' chapters). -/

namespace Sys2Proof.Machine

open Sys2Proof

/-! ### Leaving and entering RUN -/

/-- A unit leaves RUN (R326, R374, R395, R438). -/
def leaveRun (s : State) (u : UnitId) : State :=
  match u with
  | .can n => canQuiesce s n
  | .eth x => ethStop s x
  | .ser x => serStop s x
  | .hlk => hlkStop s
  | .link n => hlkDown s n
  | .safe => fieldStop s
  | _ => s

/-- A unit enters OFF or FAULT: its port is lost, and what waited in it is discarded (R202, R374). -/
def outOfService (s : State) (u : UnitId) : State :=
  match u with
  | .can n => (canDiscard s n).lose (.port (.can n))
  | .eth x =>
    let s := s.setEth x { s.eth x with link := false, speed := 0, ptp := 0, txq := [] }
    streamDown (s.lose (.port (.eth x))) (1 + x)
  | .ser x => s.lose (.port (.ser x))
  | .link n => (s.setLink n { s.link n with up := false, locked := false }).lose (.port (.hlk n))
  | _ => s

/-- A unit enters RUN with its active settings (R204, R330, R354, R397). -/
def enterRun (s : State) (u : UnitId) : State :=
  match u with
  | .can n => if canBusOff (s.can n) then canStart s n else (canStart s n).healthy (.port (.can n))
  | .eth x => s.setEth x { s.eth x with ptp := if (s.eth x).link && ptpOn s x then 1 else 0 }
  | .ser x => s.healthy (.port (.ser x))
  | .hlk => (List.finRange 4).foldl (fun s (n : Fin 4) => if hlkUp s n then s.healthy (.port (.hlk n)) else s) s
  | .safe => fieldStart s
  | _ => s

/-- A unit takes a state, with everything that this means for it. -/
def enterState (s : State) (u : UnitId) (t : UState) : State :=
  let was := (s.ucb u).state
  let s := if was = .run && t ≠ .run then leaveRun s u else s
  let s := noteGroups (s.setUcb u (·.gated t))
  let s := if t = .off || t = .fault then outOfService s u else s
  if t = .run && was ≠ .run then backInRun (enterRun s u) u else s

/-- A unit detects a fault under which it cannot continue (R28): the message, and FAULT until an ACK of its class (R287). -/
def failSelf (s : State) (u : UnitId) (kind address : Nat) : State :=
  let s := raise s u kind address
  let s := enterState s u .fault
  s.setUcb u fun b => { b with faultClass := some (kindOf u kind).1, faultTaken := false }

/-! ### RESET (R30) -/

/-- SAFE/FIO after RESET: what its registers keep returns to the reset values, SAFE_CAUSE and SAFE_BTEST_AGE among them; the safe state,
the switches held open until module reset (R330) and the degrade count (R309) are not ended by it, and the supplies and levels at the
terminals are as they are (log entry 102). -/
def resetSafe (x : SafeState) : SafeState :=
  { safe := x.safe, degradeFrom := x.degradeFrom, degradeTime := x.degradeTime, heldA := x.heldA, heldB := x.heldB,
    bk0 := { bf := x.bk0.bf }, bk1 := { bf := x.bk1.bf },
    di := x.di.map fun c => (c.1, { ({} : DiState) with current := c.2.current, raw := c.2.raw }),
    lpaVolt := x.lpaVolt, lpbVolt := x.lpbVolt, lpaLow := x.lpaLow, lpbLow := x.lpbLow, lpaHigh := x.lpaHigh,
    lpbHigh := x.lpbHigh, word := x.word, wordsMissed := x.wordsMissed }

/-- What a unit holds beside its settings returns to its reset state. -/
def reinit (s : State) (u : UnitId) : State :=
  match u with
  | .can n => s.setCan n {}
  | .eth x => s.setEth x {}
  | .ser x => s.setSer x {}
  | .net => { s with net := { s.net with inaug := false, etbTopo := 0, opTrnTopo := 0, dir := [], inaugDue := none, fetch := [],
                                         slots := [], sent := [] } }
  | .hlk => { s with hlk := { s.hlk with outMax := 0, retry := 0, lockTo := 0, readTo := 0, prefetch := [], pfAddr := 0, pfCount := 0,
                                         pfSlot := 0, fetch := [], rescan := none } }
  | .link n => s.setLink n {}
  | .safe => { s with safe := resetSafe s.safe }
  | .composite k => resetComposite s k.val
  | _ => s

/-- RESET on one unit once it is quiet: settings and state at their reset values, the UCB as R30 lists it. -/
def resetUnit (s : State) (u : UnitId) : State :=
  let s := enterState s u .off
  let s := (reinit s u).dropSettings u
  s.setUcb u fun b => { b.resetFields with busy := false, draining := false, running := none }

/-! ### Gating by a reaction (R39) -/

/-- A unit with its members to any depth, members first. -/
def withMembers (s : State) (u : UnitId) : List UnitId :=
  match u with
  | .net => netUnits ++ [.net]
  | .card slot sub => if sub = 0 then cardMembers s slot ++ [u] else [u]
  | .composite k => innerComposites s k ++ [u]
  | _ => [u]

/-- One unit is gated without quiescence and enters the state that the reaction names; a running command ends FAULTED. -/
def forceGate (s : State) (u : UnitId) (t : UState) : State :=
  let s := if (s.ucb u).running.isSome then s.finish u .faulted 0 else s
  let s := enterState s u t
  s.setUcb u fun b => { b with forced := true, gateOpen := false, busy := false, draining := false, running := none }

end Sys2Proof.Machine
end

