-- ==== Sys2Proof/Machine/Flt.lean ====
section
/-! DEFINITION. FLT: the taking and classification of fault messages, reactions, reaction windows, acknowledgement, history and error
injection (chapter 10). -/

namespace Sys2Proof.Machine

open Sys2Proof

/-! ### Settings of a source and of a class (R286, R288) -/

/-- FLT_SRC_CFG of a handle, where its entry exists. -/
def srcEntry (s : State) (handle : Nat) : Option W32 :=
  let v := s.reg .flt 0x110 handle
  if bitAt v 15 then some v else none

/-- N and T in milliseconds of a source. -/
def countRule (s : State) (handle : Nat) : Nat × Nat :=
  let v := (srcEntry s handle).getD (s.reg .flt 0x108)
  (field v 7 0, field v 31 16)

/-- The arrivals of a source that lie within its T. -/
def arrivalsWithin (s : State) (handle now : Nat) : List Nat :=
  let (_, t) := countRule s handle
  (mapGetD s.flt.arrivals handle []).filter fun a => now < a + t * 1000000

def classReg (s : State) (cls : Nat) : W32 := s.reg .flt (0x120 + 4 * cls)

/-- MASK of a class in nanoseconds. -/
def maskNs (s : State) (cls : Nat) : Nat := field (classReg s cls) 31 24 * 50000

/-- The setting of a class for a level (R288): L0 is logged, L4 always brings the safe state. -/
def classReaction (s : State) (cls lvl : Nat) : Reaction :=
  let v := classReg s cls
  match lvl with
  | 0 => .log
  | 1 => Reaction.decode (field v 2 0)
  | 2 => Reaction.decode (field v 5 3)
  | 3 => Reaction.decode (field v 8 6)
  | _ => .safeState

/-- Units to which no writer may issue RESET (R289). -/
def neverReset : UnitId → Bool
  | .sys | .tick | .place | .voter | .pair | .flt | .time | .clk | .evr | .lcs | .pwr | .pairUnit | .partner => true
  | _ => false

def isLane : UnitId → Bool
  | .lane _ => true
  | _ => false

/-- The reaction carried out on a source (R289). The second part says that TIMED_DEGRADED acted as INTERRUPT. -/
def adjust (u : UnitId) (r : Reaction) : Reaction × Bool :=
  if isLane u then
    match r with
    | .unitReset | .timedDegraded => (.laneExclusion, false)
    | r => (r, false)
  else
    match r with
    | .unitReset | .laneExclusion => (if neverReset u then .interrupt else .unitReset, false)
    | .timedDegraded => if neverReset u then (.interrupt, true) else (.timedDegraded, false)
    | r => (r, false)

/-! ### Consequential faults (R294, R295) -/

/-- The message refers to the masked set of a window. -/
def refersTo (s : State) (u : UnitId) (addr : Nat) (w : ReactWindow) : Bool :=
  decide (u ∈ maskedSet s w.subject) || (maskedSet s w.subject).any fun v => insideWindow v addr

/-- The earliest window that a message refers to. -/
def windowOfMsg (s : State) (u : UnitId) (addr : Nat) : Option ReactWindow :=
  (sortBy (fun (a b : ReactWindow) => a.openedAt ≤ b.openedAt) s.flt.windows).find? (refersTo s u addr)

/-! ### Classification (R285) -/

/-- What classification finds: the level, whether the count was reached, whether the class escalated, the arrivals kept. -/
structure Verdict where
  level : Nat
  severe : Bool
  escalated : Bool
  arrivals : NMap (List Nat)
deriving DecidableEq, Repr

def classify (s : State) (u : UnitId) (m : FaultMsg) (conseq : Bool) : Verdict :=
  if conseq then ⟨m.level, false, false, s.flt.arrivals⟩
  else if u = .flt && m.kind = 1 then ⟨4, false, false, s.flt.arrivals⟩
  else
    let h := handleOf u
    let n := (countRule s h).1
    let times := arrivalsWithin s h s.tb3 ++ [s.tb3]
    let kept := times.drop (times.length - n)
    let severe := decide (0 < n) && decide (n ≤ times.length)
    let lvl := if severe then max m.level 3 else m.level
    let open_ := (mapGet? m.cls s.flt.unack).isSome
    ⟨if open_ then min (lvl + 1) 4 else lvl, severe, open_ && lvl < 4, mapPut h kept s.flt.arrivals⟩

/-- The reaction of a classified message, before R289. -/
def reactionOf (s : State) (m : FaultMsg) (conseq : Bool) (lvl : Nat) : Reaction :=
  let r := classReaction s m.cls lvl
  if conseq then (if lvl = 4 then .safeState else if 1 ≤ r.code then .interrupt else .log) else r

/-! ### Reactions (R291 to R294) -/

def openWindow (s : State) (w : ReactWindow) : State := { s with flt := { s.flt with windows := s.flt.windows ++ [w] } }

/-- The settings that stand in the windows of some units. -/
def settingsOf (s : State) (us : List UnitId) : NMap W32 := s.regs.filter fun c => us.any fun u => keyOfUnit u c.1

/-- What a RESET leaves of a unit that a reaction has gated already. -/
def clearUnit (s : State) (u : UnitId) : State :=
  let s := (reinit s u).dropSettings u
  s.setUcb u Ucb.resetFields

/-- The RESET of a reaction (R30, R32): an on-module unit's is complete at once, a card's goes to the card, which reports its outcome
(R45, R292). -/
def resetOutcome (s : State) (u : UnitId) : State :=
  match u with
  | .card slot sub => if cardReachable s slot then forwardCommand s slot sub .module 7 0 else s
  | _ => s.complete u 7 .ok 0

/-- Activities that gating SAFE/FIO ends (R54). -/
def endFieldActivities (s : State) (u : UnitId) : State :=
  if u = .safe then endActivity (endActivity s .brakeTest) .offPulseRetime else s

/-- UNIT_RESET, steps 1 to 3 (R292). The window stands before the gating, so that the gated unit raises nothing. -/
def unitReset (s : State) (u : UnitId) (primary cls : Nat) : State :=
  let us := withMembers s u
  let s := endFieldActivities s u
  let s := openWindow s { subject := u, primary, openedAt := s.tb3, endsAt := s.tb3 + maskNs s cls, restart := true,
                          prevRun := s.stateOf u = .run, image := settingsOf s us, closing := false, cls }
  resetOutcome (us.foldl (fun s v => clearUnit (forceGate s v .off) v) s) u

/-- A pending restart of a unit is given up (R291). -/
def cancelRestart (s : State) (u : UnitId) : State :=
  { s with flt := { s.flt with windows := s.flt.windows.map fun w => if w.subject = u then { w with restart := false } else w } }

/-- TIMED_DEGRADED (R293). -/
def timedDegraded (s : State) (u : UnitId) (primary cls : Nat) : State :=
  let us := withMembers s u
  let s := cancelRestart (endFieldActivities s u) u
  let s := openWindow s { subject := u, primary, openedAt := s.tb3, endsAt := s.tb3 + maskNs s cls, restart := false,
                          prevRun := false, image := [], closing := false, cls }
  let s := us.foldl (fun s v =>
    (forceGate s v .fault).setUcb v fun b => { b with faultClass := some cls, faultTaken := true }) s
  { s with flt := { s.flt with degradedUnits := (us.filter (· ≠ .net)).foldl (fun l v => if v ∈ l then l else l ++ [v])
                                 s.flt.degradedUnits } }

/-- LANE_EXCLUSION (R291): the lane is fenced at once. Its unit takes part in the exclusion as Sequence VOTE-2 shows, without
FAULT (log entry 31). -/
def laneExclusion (s : State) (l : Lane) (m : FaultMsg) : State := fenceOrSafe s l ⟨m.source, m.kind, m.cls, 1⟩

/-- TIMED_DEGRADED holds on a unit: of two reactions on one unit the more severe prevails (R291, log entry 103). -/
def heldDegraded (s : State) (u : UnitId) : Bool :=
  s.stateOf u = .fault && (withMembers s u).all fun v => v = .net || decide (v ∈ s.flt.degradedUnits)

/-- The reaction starts. -/
def react (s : State) (u : UnitId) (m : FaultMsg) (seq : Nat) (r : Reaction) (degrades : Bool) : State :=
  let s := if degrades then { s with flt := { s.flt with degraded := s.flt.degraded ++ [(u, m.cls)] } } else s
  match r with
  | .log | .interrupt => s
  | .unitReset => if heldDegraded s u then s else unitReset s u seq m.cls
  | .timedDegraded => timedDegraded s u seq m.cls
  | .laneExclusion => match u with | .lane l => laneExclusion s l m | _ => s
  | .safeState => enterSafe (cancelRestart s u) ⟨m.source, m.kind, m.cls, 1⟩

/-! ### The records of a message (R278, R290, R296, R465) -/

/-- Bits [63:32] of a message as classified (Table FLT-1). -/
def FaultMsg.high (m : FaultMsg) : W32 := pack [(m.source, 16), (m.kind, 8), (m.cls, 4), (m.level, 1), (b2n m.conseq, 0)]

/-- DATA of a fault record. -/
def faultData (m : FaultMsg) (seq : Nat) : List Byte :=
  match m.exc with
  | some e => bytesLE 4 e.pc ++ bytesLE 2 e.inst ++ bytesLE 1 (e.lanes * 32 + e.space % 8 * 4) ++ bytesLE 1 m.level ++ bytesLE 4 e.addr
  | none => bytesLE 4 m.address ++ bytesLE 4 m.high.toNat ++ bytesLE 4 seq

/-- The record of an accepted message; at L4 it needs no token. -/
def offerFault (s : State) (m : FaultMsg) (seq : Nat) : State :=
  let code := 0x1000 + m.cls * 0x100 + m.kind
  if m.level = 4 then offerPrivileged s code m.source (faultData m seq) else offerLimited s code m.source (faultData m seq)

def raiseMax (m : NMap Nat) (cls lvl : Nat) : NMap Nat := mapPut cls (max (mapGetD m cls 0) lvl) m

/-- The next message of a unit after the collector has taken one: of the detections made meanwhile one is sent, and which is open
(R281, log entries 6 and 8). -/
def nextHeld (s : State) (u : UnitId) : State :=
  let ws := (s.ucb u).waiting
  if ws.isEmpty then s.setUcb u fun b => { b with held := none }
  else
    let (v, s) := s.free
    s.setUcb u fun b => { b with held := ws[v % ws.length]?, heldAt := s.tb3, waiting := [],
                                 fKind := (ws[v % ws.length]?.map (·.kind)).getD b.fKind,
                                 fClass := (ws[v % ws.length]?.map (·.cls)).getD b.fClass }

/-- An injection has been reported (R300): the command ends OK with the message's number. -/
def injectReported (s : State) (m : FaultMsg) (seq : Nat) : State :=
  if m.injected && s.flt.inject.isSome then ({ s with flt := { s.flt with inject := none } }).finish .flt .ok (seq % 65536) else s

/-- What an accepted message leaves in the collector's records. -/
def recordMsg (s : State) (m : FaultMsg) (seq : Nat) (v : Verdict) (r : Reaction) (primary : Nat) : State :=
  let flagged := 1 ≤ r.code
  let e : HistEntry := { msg := m, seq, tick := s.tick.n % 2 ^ 32, acked := false, severe := v.severe, escalated := v.escalated,
                         reaction := r, primary }
  { s with flt := { s.flt with
      seq, history := (e :: s.flt.history).take 16, arrivals := v.arrivals,
      unack := if m.conseq then s.flt.unack else raiseMax s.flt.unack m.cls m.level,
      unackAll := raiseMax s.flt.unackAll m.cls m.level,
      taken := satUp 0xFFFF s.flt.taken, conseqTaken := if m.conseq then satUp 0xFFFF s.flt.conseqTaken else s.flt.conseqTaken,
      newBits := if flagged then Nat.lor s.flt.newBits (2 ^ m.cls) else s.flt.newBits,
      newMax := if flagged then max s.flt.newMax m.level else s.flt.newMax,
      newCount := if flagged then satUp 255 s.flt.newCount else s.flt.newCount } }

/-- Of the messages that reached the collector in the same cycle as that of `u`, the one of the lowest SOURCE is taken first (R281); a
unit holds one message, so that KIND decides nothing more. -/
def firstSender (s : State) (u : UnitId) : UnitId :=
  let same := s.ucbs.filterMap fun c => if c.2.held.isSome && c.2.heldAt = (s.ucb u).heldAt then some c.1 else none
  (unitOfHandle (same.foldl min (handleOf u))).getD u

/-- The collector takes the message that a unit holds (R285, R288). -/
def takeFrom (s : State) (u : UnitId) : State :=
  match (s.ucb u).held with
  | none => s
  | some m =>
    let w := windowOfMsg s u m.address
    let conseq := w.isSome
    let v := classify s u m conseq
    let m := { m with level := v.level, conseq }
    let seq := (s.flt.seq + 1) % 2 ^ 32
    let (r, degrades) := adjust u (reactionOf s m conseq v.level)
    let s := recordMsg s m seq v r ((w.map (·.primary)).getD 0)
    let s := s.setUcb u fun b => { b with fLevel := v.level, fConseq := conseq,
                                          faultTaken := b.faultTaken || b.faultClass = some m.cls }
    let s := nextHeld s u
    let s := offerFault s m seq
    react (injectReported s m seq) u m seq r degrades

/-- The collector takes the message of a unit, or one of the same cycle that comes before it (R281). -/
def takeMessage (s : State) (u : UnitId) : State := if (s.ucb u).held.isNone then s else takeFrom s (firstSender s u)

def execFaultMessage (source : UnitId) (at_ : Nat) (s : State) : Out := .next (takeMessage (s.at_ at_) source)

/-! ### The restart of a reset unit, and the end of a window (R292, R294) -/

/-- Settings take their values, active and pending together. -/
def writeBack (s : State) (image : NMap W32) : State :=
  { s with regs := mapMerge s.regs image, regsPending := s.regsPending.filter fun c => (mapGet? c.1 image).isNone }

/-- What check of R31 turns the ENABLE of a restart away. -/
def restartCheck (s : State) (u : UnitId) : Status :=
  let b := s.ucb u
  if b.token.isSome then .busyMaint
  else if b.busy then .busy
  else if b.state = .off || b.state = .quiesced then .ok
  else .illegalState

/-- ENABLE, and START where it is due; of an on-module unit. -/
def restartOne (start : Bool) (s : State) (u : UnitId) : State :=
  let s := if (s.ucb u).state = .off then enterState s u .quiesced else s
  let s := s.setUcb u fun b => { b with forced := false }
  if start then enterState s u .run else s

/-- ENABLE and, where PREV was RUN, START of a source (R292), with their outcome in its UCB (R32); a command that does not end OK leaves
the source in FAULT. A card is enabled over its link. -/
def restartSource (s : State) (u : UnitId) (w : ReactWindow) : State :=
  let us := (withMembers s u).reverse.filter fun v => v ≠ .net
  match u, us.find? fun v => restartCheck s v ≠ .ok with
  | .card slot sub, none =>
    if cardReachable s slot then forwardCommand s slot sub .module 1 (restartArg w.cls w.prevRun)
    else restartFailed (refuse s u 1 .notReady none) u w.cls
  | _, some v =>
    us.foldl (fun s x => (enterState s x .fault).setUcb x fun b => { b with faultClass := some w.cls, faultTaken := true })
      (refuse s u 1 (restartCheck s v) (if v = u then none else some v))
  | _, none =>
    let start := if us.length = 1 then decide ((s.ucb u).prev = .run) else w.prevRun
    let s := (us.foldl (restartOne start) s).complete u 1 .ok 0
    if start then s.complete u 2 .ok 0 else s

/-- Step 4 of UNIT_RESET (R292). -/
def restartUnit (s : State) (u : UnitId) : State :=
  match s.flt.windows.find? fun w => w.subject = u && w.restart && w.endsAt ≤ s.tb3 with
  | none => s
  | some w =>
    let s := { s with flt := { s.flt with windows := s.flt.windows.map fun x =>
      if x = w then { x with restart := false, closing := true } else x } }
    let s := restartSource (writeBack s w.image) u w
    if u = .net && w.prevRun then loadDirectory s else s

/-- The restarts that are due at a boundary, after its shadow swap (R292). -/
def restartsDue (s : State) : State :=
  (s.flt.windows.filter fun w => w.restart && w.endsAt ≤ s.tb3).foldl (fun s w => restartUnit s w.subject) s

/-- The end of a boundary phase closes the windows of the restarted units (R292). -/
def closeRestarted (s : State) : State :=
  { s with flt := { s.flt with windows := s.flt.windows.filter fun w => !w.closing } }

def execUnitResetRestart (u : UnitId) (s : State) : Out := .next (restartUnit s u)

/-- A window closes once its time has passed and no restart is due any more. -/
def closeWindow (s : State) (u : UnitId) : State :=
  { s with flt := { s.flt with windows := s.flt.windows.filter fun w => !(w.subject = u && !w.restart && w.endsAt ≤ s.tb3) } }

def execReactionWindowClose (u : UnitId) (s : State) : Out := .next (closeWindow s u)

/-! ### ACK (R287) -/

def acked (all : Bool) (cls c : Nat) : Bool := all || c = cls

/-- ACK of one class or of all. -/
def acknowledge (s : State) (all : Bool) (cls : Nat) : State :=
  { s with
    flt := { s.flt with
      history := s.flt.history.map fun e => if acked all cls e.msg.cls then { e with acked := true } else e,
      unack := s.flt.unack.filter fun c => !acked all cls c.1,
      unackAll := s.flt.unackAll.filter fun c => !acked all cls c.1,
      degraded := s.flt.degraded.filter fun d => !acked all cls d.2 },
    ucbs := s.ucbs.map fun c =>
      (c.1, match c.2.faultClass with
        | some k => if acked all cls k && c.2.faultTaken then { c.2 with faultClass := none, faultTaken := false } else c.2
        | none => c.2) }

/-- The argument of ACK (Table FLT-7). -/
def ackArgOk (arg : Nat) : Bool := arg < 32

/-! ### Memory errors and their injection (R245, R299, R300) -/

/-- What a memory checker reports: the unit, and the kinds for a corrected and an uncorrectable word. -/
inductive EccPlace
  | lane (l : Lane)
  | shared
  | recorder
  | canRam (n : Fin 6)
deriving DecidableEq, Repr

/-- A fault with its module action, marked INJECTED where INJECT caused it. -/
def raiseEcc (s : State) (u : UnitId) (kind address : Nat) (injected : Bool) : State :=
  raiseAs s u kind (kindOf u kind).1 (kindOf u kind).2 address none injected

/-- A corrected error (R245). -/
def eccCorrected (s : State) (p : EccPlace) (address : Nat) (injected : Bool) : State :=
  match p with
  | .lane l =>
    let x := s.lane l
    raiseEcc (s.setLane l { x with corrected := satUp 0xFFFF x.corrected }) (.lane l) 0xA address injected
  | .shared => raiseEcc s .voter 0xA address injected
  | .recorder => raiseEcc s .evr 2 address injected
  | .canRam n => raiseEcc s (.can n) 2 address injected

/-- An uncorrectable error (R245): a lane is fenced, a shared memory brings the safe state. -/
def eccUncorrectable (s : State) (p : EccPlace) (address : Nat) (injected : Bool) : State :=
  match p with
  | .lane l =>
    let x := s.lane l
    let s := raiseEcc (s.setLane l { x with uncorrected := satUp 0xFFFF x.uncorrected }) (.lane l) 0xB address injected
    fenceOrSafe s l ⟨handleOf (.lane l), 0xB, 5, 1⟩
  | .shared => enterSafe (raiseEcc s .voter 0xC address injected) ⟨handleOf .voter, 0xC, 6, 1⟩
  | .recorder => raiseEcc s .evr 3 address injected
  | .canRam n => raiseEcc s (.can n) 3 address injected

def placeOfWord : UnitWord → EccPlace
  | .canPending n .. | .canReceived n .. | .canQueued n .. | .canFree n => .canRam n
  | .recorderSlot _ => .recorder

/-- A pending frame is lost: its commit counts as undelivered (R354). -/
def loseFrame (s : State) (n : Fin 6) (c : CanState) (f : Option FrameCell) : State :=
  match f with
  | none => s
  | some x =>
    let s := s.setCan n { c with undelivered := satUp 255 c.undelivered }
    { s with prog := { s.prog with txUndelivered := mark s.prog.txUndelivered x.object } }

/-- What an uncorrectable word takes with it: the cell of a frame is dropped, and a received one marks its object's OVERRUN (R354); a
recorder slot is void, by its CRC (R469; DESIGN CHOICE, log entry 132). -/
def loseWord (s : State) : UnitWord → State
  | .canPending n place i =>
    let c := s.can n
    if place < 32 then
      let q := mapGetD c.txBufs place []
      loseFrame s n { c with txBufs := mapPut place (q.eraseIdx i) c.txBufs } q[i]?
    else loseFrame s n { c with txQueue := c.txQueue.eraseIdx i } c.txQueue[i]?
  | .canReceived n object i =>
    let c := s.can n
    let q := mapGetD c.rxBufs object []
    if q.length ≤ i then s
    else s.setCan n { c with rxBufs := mapPut object (q.eraseIdx i) c.rxBufs, marked := mark c.marked object }
  | .canQueued n safety i =>
    let c := s.can n
    match (if safety then c.queueS else c.queueN)[i]? with
    | none => s
    | some f =>
      let c := { c with marked := mark c.marked f.object }
      s.setCan n (if safety then { c with queueS := c.queueS.eraseIdx i } else { c with queueN := c.queueN.eraseIdx i })
  | .canFree _ => s
  | .recorderSlot k =>
    match mapGet? k.toNat s.evr.store with
    | none => s
    | some ws => if slotValid ws then { s with evr := { s.evr with store := mapPut k.toNat (ws.set 14 (~~~(ws.getD 14 0))) s.evr.store } } else s

/-- The scrubber, or a unit that reads its own memory, finds a word (R245, R354, R469). -/
def execScrub (e : EccFinding) (s : State) : Out :=
  let p : EccPlace := match e.word, e.lane with | some w, _ => placeOfWord w | none, some l => .lane l | none, none => .shared
  let s := match e.word with | some w => if e.corrected then s else loseWord s w | none => s
  .next (if e.corrected && !(e.near && e.lane.isSome && e.word.isNone) then eccCorrected s p e.address false
    else eccUncorrectable s p e.address false)

/-- A checker as INJECT names it: a near store, a SEC-DED memory, or the collector's registers. -/
inductive Checker
  | near (l : Lane)
  | ecc (p : EccPlace)
  | collector
deriving DecidableEq, Repr

def checkerOf (code : Nat) : Option Checker :=
  if code < 3 then (Lane.ofNat? code).map .near
  else if 0x10 ≤ code && code < 0x1C then (Lane.ofNat? ((code - 0x10) / 4)).map fun l => .ecc (.lane l)
  else if code = 0x20 || code = 0x21 then some (.ecc .shared)
  else if code = 0x22 then some (.ecc .recorder)
  else if 0x28 ≤ code && code < 0x2E then (fin? 6 (code - 0x28)).map fun n => .ecc (.canRam n)
  else if code = 0x30 then some .collector
  else none

/-- The argument of INJECT: a checker, one of its eight check bits or byte lanes, zeros, and a pattern that it has. DESIGN CHOICE (log
entry 127): the collector checker's bit and byte lane are 0 to 7, as those of every other checker. -/
def injectArgOk (arg : Nat) : Bool :=
  match checkerOf (arg / 65536) with
  | none => false
  | some c => arg / 256 % 256 < 8 && arg / 4 % 64 = 0 &&
      match c with
      | .ecc _ => arg % 4 < 2
      | _ => arg % 4 = 0

/-- An injection that only INTEGRATION permits (R300). -/
def injectRestricted (arg : Nat) : Bool :=
  match checkerOf (arg / 65536) with
  | some (.ecc _) => arg % 4 = 1
  | _ => true

def injectAddress (arg : Nat) : Nat := 0xFF000000 + arg

/-- SELF_REG (R298): the safe state, whatever the settings. -/
def selfReg (s : State) (address : Nat) (injected : Bool) : State :=
  let s := { s with flt := { s.flt with selfEvents := satUp 0xFFFF s.flt.selfEvents } }
  enterSafe (raiseEcc s .flt 1 address injected) ⟨handleOf .flt, 1, 15, 1⟩

/-- INJECT stores the word and reads it back: the checker's detector reports (R299). -/
def inject (s : State) (arg : Nat) : State :=
  let s := { s with flt := { s.flt with inject := some { checker := arg / 65536, arg } } }
  match checkerOf (arg / 65536) with
  | some (.near l) => eccUncorrectable s (.lane l) (injectAddress arg) true
  | some (.ecc p) => if arg % 4 = 0 then eccCorrected s p (injectAddress arg) true else eccUncorrectable s p (injectAddress arg) true
  | some .collector => selfReg s (injectAddress arg) true
  | none => s

/-- No detector has reported within 10 µs (R300). -/
def injectMissed (s : State) : State :=
  if s.flt.inject.isNone then s
  else raiseSafeOpen (({ s with flt := { s.flt with inject := none } }).finish .flt .timeout 0) .flt 2

def execInjectMissed (s : State) : Out := .next (injectMissed s)

/-! ### The degrade count (R309) -/

/-- A condition under which the count runs. -/
def degradeHolds (s : State) : Bool := s.voter.degraded || !s.flt.degradedUnits.isEmpty || !s.flt.degraded.isEmpty

def degradeLimit (s : State) : Nat := s.regField .safe 0x108 17 0

/-- The count at a boundary: it starts with the first condition and returns to zero when none holds. -/
def degradeCount (s : State) : State :=
  if degradeHolds s then
    let t0 := s.safe.degradeFrom.getD s.tb3
    { s with safe := { s.safe with degradeFrom := some t0, degradeTime := (s.tb3 - t0) / 1000000000 } }
  else { s with safe := { s.safe with degradeFrom := none, degradeTime := 0 } }

/-- The count has reached the limit in force. -/
def degradeExpired (s : State) : State :=
  if s.safe.degradeFrom.isSome && degradeLimit s ≤ s.safe.degradeTime && !s.safe.safe then
    enterSafe (raise s .safe 0xD 0) ⟨handleOf .safe, 0xD, 2, 3⟩
  else s

def execDegradeExpired (s : State) : Out := .next (degradeExpired s)

/-! ### The summary, settings and shown registers (R290, R301) -/

def bitsOfKeys (m : NMap Nat) : Nat := m.foldl (fun n c => Nat.lor n (2 ^ c.1)) 0

/-- The fault summary (Table FLT-8). -/
def summaryBytes (s : State) : List Byte :=
  bytesLE 2 s.flt.newBits ++ bytesLE 2 (bitsOfKeys s.flt.unack) ++ bytesLE 1 s.flt.newMax ++ bytesLE 1 s.flt.newCount ++ bytesLE 2 0
    ++ bytesLE 4 s.flt.seq ++ bytesLE 4 0

/-- A latch takes the summary, and NEW starts again. -/
def clearSummary (s : State) : State := { s with flt := { s.flt with newBits := 0, newMax := 0, newCount := 0 } }

/-- Source-table entries in force or about to be. -/
def srcEntries (s : State) : List Nat :=
  (((s.regs.map (·.1)) ++ (s.regsPending.map (·.1))).filter fun k => k / 0x100000 = baseOf .flt + 0x110).map (· % 0x100000)
    |>.eraseDups |>.filter fun h => bitAt (s.regNext .flt 0x110 h) 15

/-- A value that Tables FLT-11 and FLT-12 and R289 admit. -/
def fltSettingOk (s : State) (off obj : Nat) (v : W32) : Bool :=
  if off = 0x108 then 1 ≤ field v 31 16
  else if off = 0x110 then
    !bitAt v 15 || (1 ≤ field v 31 16 && (bitAt (s.regNext .flt 0x110 obj) 15 || (srcEntries s).length < 1024))
  else if 0x120 ≤ off && off < 0x160 then
    let a := field v 2 0
    let b := field v 5 3
    let c := field v 8 6
    a ≤ b && b ≤ c && c ≤ 5 && field v 31 24 ≠ 0
  else true

/-- The history entry that FLT_HIST_SEL names is copied (R296). -/
def copyHistory (s : State) (bank index : Nat) : State :=
  { s with flt := { s.flt with histCopy :=
      match s.flt.history[index]? with
      | some e => mapPut bank e s.flt.histCopy
      | none => mapErase bank s.flt.histCopy } }

def HistEntry.info (e : HistEntry) : W32 :=
  pack [(b2n e.acked, 31), (b2n e.msg.conseq, 30), (b2n e.msg.injected, 29), (b2n e.severe, 28), (b2n e.escalated, 27),
    (e.reaction.code, 24)]

/-- What a read-only register of FLT shows. -/
def fltRead (s : State) (bank off : Nat) : W32 :=
  let f := s.flt
  let e := mapGet? bank f.histCopy
  match off with
  | 0x100 =>
    pack [(bitsOfKeys f.unack, 16), ((f.unackAll.map (·.2)).foldl max 0, 9), (b2n (!f.degradedUnits.isEmpty), 8),
      (min 255 f.windows.length, 0)]
  | 0x104 => BitVec.ofNat 32 f.seq
  | 0x114 => BitVec.ofNat 32 (min 255 (arrivalsWithin s (s.reg .flt 0x10C bank).toNat s.tb3).length)
  | 0x184 => match e with | some e => BitVec.ofNat 32 e.msg.address | none => 0
  | 0x188 => match e with | some e => e.msg.high | none => 0
  | 0x18C => match e with | some e => BitVec.ofNat 32 e.seq | none => 0
  | 0x190 => match e with | some e => BitVec.ofNat 32 e.tick | none => 0
  | 0x194 => match e with | some e => e.info | none => 0
  | 0x198 => match e with | some e => BitVec.ofNat 32 e.primary | none => 0
  | 0x1A0 => pack [(f.taken, 16), (f.conseqTaken, 0)]
  | 0x1A4 => BitVec.ofNat 32 f.selfEvents
  | _ => 0

end Sys2Proof.Machine
end

