-- ==== Sys2Proof/Machine/Hash.lean ====
section
/-! DEFINITION. The digests: SHA-256 of FIPS 180-4 (R183), and the CRC-64 of the state digest (R231). -/

namespace Sys2Proof.Machine

open Sys2Proof

/-! ### SHA-256 -/

/-- The round constants of FIPS 180-4, in four lists. -/
def shaK0 : List W32 :=
  [0x428A2F98, 0x71374491, 0xB5C0FBCF, 0xE9B5DBA5, 0x3956C25B, 0x59F111F1, 0x923F82A4, 0xAB1C5ED5,
    0xD807AA98, 0x12835B01, 0x243185BE, 0x550C7DC3, 0x72BE5D74, 0x80DEB1FE, 0x9BDC06A7, 0xC19BF174]

def shaK1 : List W32 :=
  [0xE49B69C1, 0xEFBE4786, 0x0FC19DC6, 0x240CA1CC, 0x2DE92C6F, 0x4A7484AA, 0x5CB0A9DC, 0x76F988DA,
    0x983E5152, 0xA831C66D, 0xB00327C8, 0xBF597FC7, 0xC6E00BF3, 0xD5A79147, 0x06CA6351, 0x14292967]

def shaK2 : List W32 :=
  [0x27B70A85, 0x2E1B2138, 0x4D2C6DFC, 0x53380D13, 0x650A7354, 0x766A0ABB, 0x81C2C92E, 0x92722C85,
    0xA2BFE8A1, 0xA81A664B, 0xC24B8B70, 0xC76C51A3, 0xD192E819, 0xD6990624, 0xF40E3585, 0x106AA070]

def shaK3 : List W32 :=
  [0x19A4C116, 0x1E376C08, 0x2748774C, 0x34B0BCB5, 0x391C0CB3, 0x4ED8AA4A, 0x5B9CCA4F, 0x682E6FF3,
    0x748F82EE, 0x78A5636F, 0x84C87814, 0x8CC70208, 0x90BEFFFA, 0xA4506CEB, 0xBEF9A3F7, 0xC67178F2]

def shaK : List W32 := shaK0 ++ shaK1 ++ shaK2 ++ shaK3

/-- The eight working words. -/
structure ShaState where
  a : W32
  b : W32
  c : W32
  d : W32
  e : W32
  f : W32
  g : W32
  h : W32
deriving DecidableEq, Repr

def shaInit : ShaState :=
  ⟨0x6A09E667, 0xBB67AE85, 0x3C6EF372, 0xA54FF53A, 0x510E527F, 0x9B05688C, 0x1F83D9AB, 0x5BE0CD19⟩

def shaAdd (x y : ShaState) : ShaState :=
  ⟨x.a + y.a, x.b + y.b, x.c + y.c, x.d + y.d, x.e + y.e, x.f + y.f, x.g + y.g, x.h + y.h⟩

def shaRound (s : ShaState) (k w : W32) : ShaState :=
  let s1 := s.e.rotateRight 6 ^^^ s.e.rotateRight 11 ^^^ s.e.rotateRight 25
  let ch := (s.e &&& s.f) ^^^ (~~~s.e &&& s.g)
  let t1 := s.h + s1 + ch + k + w
  let s0 := s.a.rotateRight 2 ^^^ s.a.rotateRight 13 ^^^ s.a.rotateRight 22
  let maj := (s.a &&& s.b) ^^^ (s.a &&& s.c) ^^^ (s.b &&& s.c)
  ⟨t1 + (s0 + maj), s.a, s.b, s.c, s.d + t1, s.e, s.f, s.g⟩

/-- The message schedule runs through a window of the last 16 words. -/
def shaNext (win : List W32) : W32 :=
  let w (i : Nat) : W32 := win.getD i 0
  let s0 := (w 1).rotateRight 7 ^^^ (w 1).rotateRight 18 ^^^ (w 1) >>> 3
  let s1 := (w 14).rotateRight 17 ^^^ (w 14).rotateRight 19 ^^^ (w 14) >>> 10
  w 0 + s0 + w 9 + s1

def shaRounds : List W32 → List W32 → ShaState → ShaState
  | [], _, s => s
  | k :: ks, win, s => shaRounds ks (win.drop 1 ++ [shaNext win]) (shaRound s k (win.getD 0 0))

/-- A big-endian word of four bytes. -/
def beWord (l : List Byte) : W32 := BitVec.ofNat 32 (fromLE l.reverse)

def shaBlockWords : Nat → List Byte → List W32
  | 0, _ => []
  | n + 1, l => beWord (l.take 4) :: shaBlockWords n (l.drop 4)

def shaBlock (s : ShaState) (l : List Byte) : ShaState := shaAdd s (shaRounds shaK (shaBlockWords 16 l) s)

def shaBlocks : Nat → List Byte → ShaState → ShaState
  | 0, _, s => s
  | n + 1, l, s => shaBlocks n (l.drop 64) (shaBlock s (l.take 64))

/-- The padding of FIPS 180-4: 0x80, zeros, and the length in bits as 8 big-endian bytes. -/
def shaPad (l : List Byte) : List Byte :=
  l ++ 0x80 :: List.replicate ((119 - l.length % 64) % 64) 0 ++ (bytesLE 8 (8 * l.length)).reverse

/-- The 32 digest bytes. -/
def sha256 (l : List Byte) : List Byte :=
  let p := shaPad l
  let s := shaBlocks (p.length / 64) p shaInit
  [s.a, s.b, s.c, s.d, s.e, s.f, s.g, s.h].flatMap fun w => (bytesLE 4 w.toNat).reverse

/-! ### CRC-64, ECMA-182, initial value 0, no reflection -/

def crc64Bits : Nat → W64 → W64
  | 0, c => c
  | n + 1, c => crc64Bits n (if c.getLsbD 63 then c <<< 1 ^^^ 0x42F0E1EBA9EA3693 else c <<< 1)

def crc64Byte (c : W64) (b : Byte) : W64 := crc64Bits 8 (c ^^^ (b.setWidth 64 <<< 56))

def crc64 (l : List Byte) : W64 := l.foldl crc64Byte 0

end Sys2Proof.Machine
end

