-- ==== Sys2Proof/Machine/PlaceCalc.lean ====
section
/-! DEFINITION. The placement computation, a function of its inputs alone (R180 to R201, R209, R545): order and windows, phases,
tiers, routes and buffers, the map set and the three digests. -/

namespace Sys2Proof.Machine

open Sys2Proof

/-! ### Tasks, instances and cycle bounds (R188) -/

/-- The top-level instance that an instance belongs to. -/
def topOf (p : Program) (i : Nat) : Nat := (((enclosing p 65 i).getLast?).map (·.index)).getD i

/-- The task that runs a top-level instance. -/
def taskOf (p : Program) (top : Nat) : Option TaskDecl := p.tasks.find? fun t => top ∈ t.insts

/-- A task of a class and phase activates in a tick pattern (Table TICK-4). -/
def activeIn (cls : TaskClass) (phase pat : Nat) : Bool :=
  match cls with
  | .t0 => true | .f => false | c => pat % c.every = phase

/-- The inclusive bound of an instance, its own bound being `own`; none where calls nest too deep to end. -/
def inclusive (p : Program) (own : InstDecl → Nat) : Nat → Nat → Option Nat
  | 0, _ => none
  | n + 1, i =>
    match progInst p i with
    | none => some 0
    | some d => d.calls.foldl (fun acc c =>
        match acc, inclusive p own n c.1 with
        | some a, some b => some (a + c.2 * b)
        | _, _ => none) (some (own d))

/-- A window length in ns (R188). -/
def windowNs (c margin : Nat) : Nat :=
  let cyc := (c * (100 + margin) + 99) / 100
  (cyc * 5 + 3) / 4 + 320

/-- The boundary-phase bound of the declared image sizes in ns (R63, R189). -/
def phaseBound (p : Program) : Nat := 2000 + (20 * p.inSize + 10 * p.outSize + 1023) / 1024

/-- Cycles of a load beyond the first, by tier (Table ISA-4). -/
def tierCost : Tier → Nat
  | .near => 0 | .lane => 2 | .bulk => 199

/-! ### Map order (R186, R195) -/

/-- Edges whose source has an edge into it. -/
def innerEdges (es : List (Nat × Nat)) : List (Nat × Nat) := es.filter fun e => es.any fun d => d.2 = e.1

/-- The edges form no cycle: taking away those that start at a source leaves none; `n` bounds the rounds. -/
def acyclic : Nat → List (Nat × Nat) → Bool
  | 0, es => es.isEmpty
  | n + 1, es => es.isEmpty || ((innerEdges es).length < es.length && acyclic n (innerEdges es))

/-- The function-block graph without its feedback edges has no cycle, inside an instance or across tasks (R186). -/
def graphOk (p : Program) : Bool :=
  let es := p.edges.filterMap fun e => if e.feedback then none else some (e.src, e.dst)
  acyclic es.length es

/-- Edges between two different top-level instances of a task, feedback edges removed. -/
def taskEdges (p : Program) (t : TaskDecl) : List (Nat × Nat) :=
  p.edges.filterMap fun e =>
    let a := topOf p e.src
    let b := topOf p e.dst
    if e.feedback || a = b || a ∉ t.insts || b ∉ t.insts then none else some (a, b)

/-- Instances that NEAR binds to one. -/
def nearOf (p : Program) (i : Nat) : List Nat :=
  p.constraints.filterMap fun c => match c with
    | .nearInst a b => if a = i then some b else if b = i then some a else none
    | _ => none

/-- The chain of NEAR from an instance, each link followed once; `n` bounds the walk. -/
def nearChain (p : Program) : Nat → List Nat → Nat → List Nat
  | 0, seen, _ => seen
  | n + 1, seen, i =>
    match (nearOf p i).find? fun j => j ∉ seen with
    | none => seen
    | some j => nearChain p n (seen ++ [j]) j

/-- The group that an instance is ordered in: itself, or its NEAR chain from the end with the lower index. -/
def nearGroup (p : Program) (i : Nat) : List Nat :=
  match (nearChain p (p.insts.length + 1) [i] i).getLast? with
  | none => [i]
  | some e =>
    let back := nearChain p (p.insts.length + 1) [e] e
    match back.getLast? with
    | some z => if z < e then back.reverse else back
    | none => [i]

def agrees (edges : List (Nat × Nat)) (order : List Nat) : Bool :=
  edges.all fun e => !(e.1 ∈ order && e.2 ∈ order) || order.idxOf e.1 < order.idxOf e.2

/-- A group in the direction that the edges allow, the lower-indexed end first. -/
def orderGroup (edges : List (Nat × Nat)) (g : List Nat) : Option (List Nat) :=
  if agrees edges g then some g else if agrees edges g.reverse then some g.reverse else none

/-- Topological order of groups, ties by the lowest instance index in the group; none on a cycle. -/
def topoGroups (edges : List (Nat × Nat)) : Nat → List (List Nat) → List Nat → Option (List Nat)
  | 0, gs, out => if gs.isEmpty then some out else none
  | n + 1, gs, out =>
    if gs.isEmpty then some out
    else
      let waiting (g : List Nat) := edges.any fun e => e.2 ∈ g && e.1 ∉ g && gs.any fun h => e.1 ∈ h
      match gs.find? fun g => !waiting g with
      | none => none
      | some g => topoGroups edges n (gs.erase g) (out ++ g)

/-- The top-level instances of a task in map order. -/
def taskOrder (p : Program) (t : TaskDecl) : Option (List Nat) :=
  let edges := taskEdges p t
  let mine := sortBy (fun (a b : Nat) => a ≤ b) t.insts
  let groups := mine.foldl (fun gs i => if gs.any fun g => i ∈ g then gs else gs ++ [nearGroup p i]) []
  let chained := groups.all fun g => g.all fun i => i ∈ mine && (nearOf p i).all fun j =>
    decide (j ∈ g) && (decide (g.idxOf i = g.idxOf j + 1) || decide (g.idxOf j = g.idxOf i + 1))
  if !chained then none
  else
    match groups.mapM (orderGroup edges) with
    | none => none
    | some gs => topoGroups edges (gs.length + 1) gs []

/-! ### Phases (R187) -/

def phasePin (p : Program) (t : Nat) : Option Nat :=
  p.constraints.findSome? fun c => match c with | .pinPhase u f => if u = t then some f else none | _ => none

/-- The window total of each pattern with a task added at a phase. -/
def addTask (tot : List Nat) (cls : TaskClass) (phase w : Nat) : List Nat :=
  tot.zipIdx.map fun (x, pat) => if activeIn cls phase pat then x + w else x

/-- The phase that minimises the largest total; ties go to the lower one. -/
def bestPhase (tot : List Nat) (cls : TaskClass) (w : Nat) : Nat :=
  ((List.range cls.every).foldl (fun (best : Nat × Nat) f =>
    let m := longest (addTask tot cls f w)
    if f = 0 || m < best.2 then (f, m) else best) (0, 0)).1

def phasesOf (p : Program) (w : TaskDecl → Nat) : NMap Nat :=
  let ts := sortBy (fun (a b : TaskDecl) => a.index ≤ b.index) (p.tasks.filter fun t => t.cls ≠ .f)
  let fixed (t : TaskDecl) : Option Nat := if t.cls = .t0 then some 0 else phasePin p t.index
  let tot := ts.foldl (fun tot t => match fixed t with | some f => addTask tot t.cls f (w t) | none => tot) (List.replicate 8 0)
  (ts.foldl (fun (acc : List Nat × NMap Nat) t =>
    match fixed t with
    | some f => (acc.1, mapPut t.index f acc.2)
    | none =>
      let f := bestPhase acc.1 t.cls (w t)
      (addTask acc.1 t.cls f (w t), mapPut t.index f acc.2)) (tot, [])).2

/-! ### Tiers (R191, R192, R195) -/

/-- An item to place: its key, size, alignment, accesses per tick, part, and the instances that it holds with their offsets. The key of
an instance is (0, index), of an item of a space (space code, item index). -/
structure PlaceItem where
  key : Nat × Nat
  size : Nat
  align : Nat
  accesses : Nat
  safety : Bool
  holds : List (Nat × Nat) := []

/-- NEAR binds a top-level instance, so that it is one item with its inner instances (R192). -/
def nearBound (p : Program) (top : Nat) : Bool :=
  p.constraints.any fun c => match c with | .nearInst a b => a = top || b = top | _ => false

/-- The item that holds an instance: itself, or the top-level instance that NEAR binds. -/
def ownerOf (p : Program) (i : Nat) : Nat := if nearBound p (topOf p i) then topOf p i else i

/-- The item series of the image (R183): globals, constants, parameters, by offset and then declaration. -/
def itemSeries (p : Program) : List ItemDecl :=
  [Space.global, .constant, .parameter].flatMap fun sp =>
    sortBy (fun (a b : ItemDecl) => a.off ≤ b.off) (p.items.filter fun i => i.space = sp)

/-- The alignment of a placed item: its size where that is 1, 2 or 4, else 8, as for instances. R192 gives none (DESIGN CHOICE, log
entry 115). -/
def alignOf (size : Nat) : Nat := if size = 1 || size = 2 || size = 4 then size else 8

/-- The profile's count of an item, or the image's: items by item index, instance i as 0x1_0000 + i. -/
def countOf (prof : Option ProfileSet) (k dflt : Nat) : Nat := ((prof.bind fun q => (q.items.find? fun e => e.1 = k).map (·.2))).getD dflt

/-- The instances of an item with their offsets in it, each aligned to 8 bytes, and the size of the item. -/
def layItem (p : Program) (ds : List InstDecl) : List (Nat × Nat) × Nat :=
  ds.foldl (fun acc d => (acc.1 ++ [(d.index, acc.2)], roundUp 8 (acc.2 + instSize p d))) ([], 0)

/-- The instances that an instance's item holds: itself, and where NEAR binds it every instance inside it. -/
def itemInsts (p : Program) (d : InstDecl) : List InstDecl :=
  if nearBound p d.index then d :: sortBy (fun (a b : InstDecl) => a.index ≤ b.index) (instsInside p d) else [d]

def placeItems (p : Program) (prof : Option ProfileSet) : List PlaceItem :=
  let owners := (sortBy (fun (a b : InstDecl) => a.index ≤ b.index) p.insts).filter fun d => ownerOf p d.index = d.index
  let insts := owners.map fun d =>
    let every := match taskOf p (topOf p d.index) with | some t => t.cls.every | none => 1
    let ds := itemInsts p d
    let count := (ds.map fun e => countOf prof (0x10000 + e.index) e.accesses).sum
    { key := (0, d.index), size := if nearBound p d.index then (layItem p ds).2 else instSize p d, align := 8, accesses := count / every,
      safety := d.safety, holds := (layItem p ds).1 : PlaceItem }
  let items := (itemSeries p).zipIdx.map fun (i, k) =>
    { key := (i.space.code, k), size := i.size, align := alignOf i.size, accesses := countOf prof k i.accesses,
      safety := i.safety : PlaceItem }
  insts ++ items

def densityOf (i : PlaceItem) : Nat := i.accesses * 1048576 / max 1 i.size

/-- A declared item of a space, by its index in the image's list of that space, as a place key. -/
def itemKey (p : Program) (sp : Space) (k : Nat) : Nat × Nat :=
  if sp = .inst then (0, ownerOf p k)
  else
    let own := p.items.filter fun i => i.space = sp
    match own[k]? with
    | none => (9, k)
    | some d => (sp.code, (itemSeries p).idxOf d)

def tierPins (p : Program) (k : Nat × Nat) : List Tier :=
  p.constraints.filterMap fun c => match c with
    | .pinTier sp i t => if itemKey p sp i = k then some t else none
    | _ => none

/-- The items bound to one by NEAR. -/
def nearKeys (p : Program) (k : Nat × Nat) : List (Nat × Nat) :=
  p.constraints.flatMap fun c => match c with
    | .nearInst a b => if k = (0, a) then [(0, b)] else if k = (0, b) then [(0, a)] else []
    | .nearItem sa a sb b =>
      if itemKey p sa a = k then [itemKey p sb b] else if itemKey p sb b = k then [itemKey p sa a] else []
    | _ => []

/-- Every item that NEAR binds to one, to any depth. -/
def nearSet (p : Program) : Nat → List (Nat × Nat) → List (Nat × Nat)
  | 0, ks => ks
  | n + 1, ks =>
    let more := (ks.flatMap (nearKeys p)).filter fun k => k ∉ ks
    if more.isEmpty then ks else nearSet p n (ks ++ more.eraseDups)

def apartKeys (p : Program) (k : Nat × Nat) : List (Nat × Nat) :=
  p.constraints.filterMap fun c => match c with
    | .apartItem sa a sb b =>
      if itemKey p sa a = k then some (itemKey p sb b) else if itemKey p sb b = k then some (itemKey p sa a) else none
    | _ => none

/-- Free room: gaps of the near area, the lane area, and the bulk area of each space. -/
structure Room where
  near : List (Nat × Nat)
  lane : List (Nat × Nat)
  bulk : NMap (List (Nat × Nat))

def mib : Nat := 0x100000

/-- Table PLACE-3. -/
def emptyRoom : Room :=
  { near := [(0, 224 * 1024)], lane := [(0, 12 * mib)],
    bulk := [(0, [(0, 512 * mib)]), (3, [(0, 256 * mib)]), (4, [(0, 64 * mib)]), (5, [(0, 16 * mib)])] }

def Room.gaps (r : Room) (t : Tier) (space : Nat) : List (Nat × Nat) :=
  match t with | .near => r.near | .lane => r.lane | .bulk => mapGetD r.bulk space []

def Room.setGaps (r : Room) (t : Tier) (space : Nat) (g : List (Nat × Nat)) : Room :=
  match t with
  | .near => { r with near := g } | .lane => { r with lane := g } | .bulk => { r with bulk := mapPut space g r.bulk }

/-- The lowest free offset that takes a size at an alignment, and the gaps left. -/
def fitGap (size align : Nat) : List (Nat × Nat) → Option (Nat × List (Nat × Nat))
  | [] => none
  | (lo, hi) :: rest =>
    let at_ := (lo + (align - 1)) / align * align
    if at_ + size ≤ hi then
      some (at_, (if lo < at_ then [(lo, at_)] else []) ++ (if at_ + size < hi then [(at_ + size, hi)] else []) ++ rest)
    else (fitGap size align rest).map fun r => (r.1, (lo, hi) :: r.2)

abbrev Placed := List ((Nat × Nat) × Tier × Nat)

/-- Items put into one tier together, or none when one has no room. -/
def putAll (t : Tier) : List PlaceItem → Room → Placed → Option (Room × Placed)
  | [], r, out => some (r, out)
  | i :: is, r, out =>
    match fitGap i.size i.align (r.gaps t i.key.1) with
    | none => none
    | some (off, g) => putAll t is (r.setGaps t i.key.1 g) (out ++ [(i.key, t, off)])

def tierOf (out : Placed) (k : Nat × Nat) : Option Tier := (out.find? fun e => e.1 = k).map (·.2.1)

/-- The tiers to try after one that holds an APART partner: below first, then above, the nearest first. -/
def otherTiers : Tier → List Tier
  | .near => [.lane, .bulk] | .lane => [.bulk, .near] | .bulk => [.lane, .near]

/-- A group of items goes into the first tier with room that no APART partner occupies. -/
def placeGroup (p : Program) (r : Room) (out : Placed) (g : List PlaceItem) : Option (Room × Placed) :=
  let partner (t : Tier) := g.any fun i => (apartKeys p i.key).any fun k => tierOf out k = some t
  match [Tier.near, .lane, .bulk].find? fun t => (putAll t g r out).isSome with
  | none => none
  | some t =>
    if !partner t then putAll t g r out
    else (otherTiers t).findSome? fun t => if partner t then none else putAll t g r out

def itemLe (a b : PlaceItem) : Bool :=
  let da := densityOf a
  let db := densityOf b
  db < da || (da = db && ((a.safety && !b.safety) || (a.safety = b.safety &&
    (a.key.1 < b.key.1 || (a.key.1 = b.key.1 && a.key.2 ≤ b.key.2)))))

/-- The tiers of every item (R192); none where the constraints or the room do not allow it. -/
def tiersOf (p : Program) (prof : Option ProfileSet) : Option Placed :=
  let items := placeItems p prof
  let group (i : PlaceItem) : List PlaceItem :=
    let ks := nearSet p (items.length + 1) [i.key]
    items.filter fun j => j.key ∈ ks
  let pinOf (g : List PlaceItem) : List Tier := (g.flatMap fun i => tierPins p i.key).eraseDups
  let rec go : List PlaceItem → Room → Placed → Bool → Option (Room × Placed)
    | [], r, out, _ => some (r, out)
    | i :: is, r, out, pinned =>
      if (tierOf out i.key).isSome then go is r out pinned
      else
        let g := group i
        match pinOf g with
        | [] => if pinned then go is r out pinned
                else match placeGroup p r out g with | some (r, out) => go is r out pinned | none => none
        | [t] => match putAll t g r out with | some (r, out) => go is r out pinned | none => none
        | _ => none
  match go items emptyRoom [] true with
  | none => none
  | some (r, out) =>
    match go (sortBy itemLe items) r out false with
    | none => none
    | some (_, out) =>
      if out.all fun e => (apartKeys p e.1).all fun k => tierOf out k ≠ some e.2.1 then
        some (out.flatMap fun e => match items.find? fun i => i.key = e.1 with
          | some i => if i.holds.isEmpty then [e] else i.holds.map fun h => ((0, h.1), e.2.1, e.2.2 + h.2)
          | none => [e])
      else none

/-! ### The base map (R189, R197, R201) -/

/-- The stack shares fit 1 MiB of the lane store and the 32 KiB that the near store holds of the safety timed context's (R94). -/
def stackFits (p : Program) : Bool := (shareSizes p).sum ≤ mib + min 0x8000 ((shareSizes p).getD 0 0)

/-- No safety task has the policy SKIP, and class F holds no safety instance (R76). -/
def safetyTasksOk (p : Program) : Bool :=
  p.tasks.all fun t => !(t.safety && t.skip) && !(t.cls = .f && t.insts.any fun i => ((progInst p i).map (·.safety)).getD false)

/-- Types and instances carry indices in their ranges (R110), and the retentive data fit a generation (R82). -/
def declarationsOk (p : Program) : Bool :=
  p.types.all (fun d => decide (d.index < 4096)) && p.insts.all (fun d => decide (d.index < 65536)) &&
    decide (((retentiveSpans p).map fun v => v.2.2.2).sum ≤ 4 * mib - 1024)

/-- A message object with a CAN candidate has a length that its frame format can carry (R349). -/
def canLenOk (d : MsgDecl) : Bool :=
  d.candidates.all (fun c => match c with | .port (.can _) => false | _ => true) || (1 ≤ d.len && d.len ≤ 8) ||
    ((d.fd || (!d.tx && d.format ≠ 1)) && [12, 16, 20, 24, 32, 48, 64].contains d.len)

/-- What an image keeps to, or it is rejected at load with MAP_INFEASIBLE (R76, R82, R94, R110, R197, R349; log entry 116). -/
def withinLimits (p : Program) : Bool :=
  stackFits p && safetyTasksOk p && declarationsOk p && p.insts.length ≤ 65536 && p.types.length ≤ 4096 && p.tasks.length ≤ 256 && p.msgs.length ≤ 8192 &&
    p.msgs.length + p.signals.length ≤ 16384 && p.items.length ≤ 65536 && p.constraints.length ≤ 16384 &&
    p.insts.all (fun d => instSize p d ≤ 65536) && (p.insts.map (instSize p)).sum ≤ 512 * mib &&
    p.msgs.all (fun m => m.candidates.length ≤ 4 && canLenOk m) && p.signals.all (fun m => m.candidates.length ≤ 4) &&
    p.telegrams.length ≤ 4096 && p.inSize ≤ 0x80000 && p.outSize ≤ 0x80000

/-- Pins of one subject agree, a phase lies in its class's range, and NEAR binds instances of one task. -/
def constraintsOk (p : Program) : Bool :=
  p.constraints.all fun c => match c with
    | .pinPhase t f =>
      (match p.tasks.find? fun d => d.index = t with | some d => d.cls ≠ .f && f < d.cls.every | none => false) &&
        phasePin p t = some f
    | .pinRoute g k => p.constraints.all fun d => match d with | .pinRoute h j => h ≠ g || j = k | _ => true
    | .nearInst a b => (taskOf p a).map (·.index) = (taskOf p b).map (·.index) && (taskOf p a).isSome
    | _ => true

/-- Positions and window starts of one tick pattern, by instance; and where the last window ends. -/
def layPattern (order : List Nat) (win : Nat → Nat) (start : Nat) : List (Nat × Nat × Nat) × Nat :=
  let r := order.foldl (fun (acc : List (Nat × Nat × Nat) × Nat) i => (acc.1 ++ [(i, acc.1.length, acc.2)], acc.2 + win i)) ([], start)
  (r.1, r.2)

/-- Phases, order, windows and tiers: what every map of a set shares. None where the map is infeasible. The byte offset of a constant or
parameter that has only its master copy is where the bulk area of its space would take it in the order of placement (DESIGN CHOICE, log
entry 117). -/
def baseMap (p : Program) (prof : Option ProfileSet) (period : Nat) : Option PMap :=
  if !withinLimits p || !constraintsOk p || !graphOk p then none
  else
    let ts := sortBy (fun (a b : TaskDecl) => a.cls.code < b.cls.code || (a.cls.code = b.cls.code && a.index ≤ b.index)) p.tasks
    match ts.mapM (fun t => (taskOrder p t).map fun o => (t, o)), tiersOf p prof with
    | some orders, some tiers =>
      let plain (i : Nat) := inclusive p (·.cycles) 66 i
      let cost (k : Nat × Nat) := ((tierOf tiers k).map tierCost).getD 0
      let itemCost (k : Nat) := (((itemSeries p)[k]?).map fun i => cost (i.space.code, k)).getD 0
      let costed (d : InstDecl) := d.cycles + d.accesses * cost (0, d.index) + (d.uses.map fun u => u.2 * itemCost u.1).sum
      let c (i : Nat) := max ((inclusive p costed 66 i).getD 0)
        ((prof.bind fun q => (q.insts.find? fun e => e.1 = i).map (·.2)).getD 0)
      let win (i : Nat) := windowNs (c i) p.margin
      let phases := phasesOf p fun t => (t.insts.map fun i => windowNs ((plain i).getD 0) p.margin).sum
      let timed := orders.filter fun o => o.1.cls ≠ .f
      let orderIn (pat : Nat) : List Nat :=
        let act := timed.filter fun o => activeIn o.1.cls (mapGetD phases o.1.index 0) pat
        let all := act.flatMap (·.2)
        let safe (i : Nat) := ((progInst p i).map (·.safety)).getD false
        all.filter safe ++ all.filter fun i => !safe i
      let pats := (List.range 8).map fun pat => layPattern (orderIn pat) win (phaseBound p)
      if p.insts.any (fun d => (plain d.index).isNone) || pats.any (fun q => period * 47500 < q.2) then none
      else
        let insts := (sortBy (fun (a b : InstDecl) => a.index ≤ b.index) p.insts).map fun d =>
          let top := topOf p d.index
          let place := tiers.find? fun e => e.1 = (0, d.index)
          let at_ : NMap (Nat × Nat) := pats.zipIdx.filterMap fun (q, pat) => (q.1.find? fun e => e.1 = top).map fun e => (pat, e.2)
          let rank := (orders.findSome? fun o => if o.1.cls = .f && top ∈ o.2 then some (o.2.idxOf top) else none)
          let task := taskOf p top
          { index := d.index, task := (task.map (·.index)).getD 0, tier := (place.map (·.2.1)).getD .bulk, safety := d.safety,
            noTask := task.isNone,
            first := rank.getD ((at_.head?.map (·.1)).getD 0),
            at_ := at_, win := if at_.isEmpty then 0 else win top, off := (place.map (·.2.2)).getD 0 : InstRec }
        let items := (itemSeries p).zipIdx.map fun (i, k) =>
          let place := tiers.find? fun e => e.1 = (i.space.code, k)
          let bulkCopy := i.space ≠ .global && (place.map (·.2.1)) = some .bulk
          { index := k, space := i.space, tier := if bulkCopy then none else place.map (·.2.1), offset := i.off, size := i.size,
            off := (place.map (·.2.2)).getD 0 : ItemRec }
        some { index := 0, laneSet := 0, loss := 0, lossCard := 0, period, total := 0, insts, items, phases, routes := [],
               digest := [], inDigest := [] }
    | _, _ => none

/-! ### Routes and buffers (R193, R194) -/

/-- Bit of a port in PLACE_LOSS (Table PLACE-10). -/
def portBit : Port → Nat
  | .eth x => 24 + x | .can n => 18 + n | .ser x => 14 + x | .hlk n => 10 + n | .spl k => 8 + k

/-- The loss words of a loss set with the excluded lane. -/
def lossWord (out : Option Lane) (ls : List Resource) : W32 :=
  pack ((match out with | some l => [(1, 30 - l.idx)] | none => [])
    ++ (if Resource.partner ∈ ls then [(1, 31)] else [])
    ++ (ls.eraseDups.filterMap fun r => match r with | .port q => some (1, portBit q) | _ => none))

def lossCardWord (ls : List Resource) : W32 :=
  pack (ls.eraseDups.filterMap fun r => match r with | .card s => some (1, s.val) | _ => none)

/-- What is routed: every message object and every further signal, by index. -/
def routedSignals (p : Program) : List (Nat × List Candidate) :=
  sortBy (fun (a b : Nat × List Candidate) => a.1 ≤ b.1)
    ((p.msgs.map fun m => (m.index, m.candidates)) ++ p.signals.map fun g => (g.index, g.candidates))

def apartSignals (p : Program) (g : Nat) : List Nat :=
  p.constraints.filterMap fun c => match c with
    | .apartSignal a b => if a = g then some b else if b = g then some a else none
    | _ => none

def routePin (p : Program) (g : Nat) : Option (Option Nat) :=
  p.constraints.findSome? fun c => match c with | .pinRoute h k => if h = g then some k else none | _ => none

/-- Identifier, then index: the order in which buffers are dealt. -/
def byIdent (a b : MsgDecl) : Bool := a.ident < b.ident || (a.ident = b.ident && a.index ≤ b.index)

/-- The buffer codes of a channel's objects (R194). -/
def channelBuffers (ms : List MsgDecl) : List (MsgDecl × Nat) :=
  let tx := (sortBy byIdent (ms.filter (·.tx))).zipIdx.map fun (m, k) => (m, if k < 32 then k else 0x100)
  let rx := (sortBy byIdent (ms.filter fun m => !m.tx)).zipIdx.map fun (m, k) =>
    (m, if k < 64 then 0x200 + k else if m.safety then 0x300 else 0x301)
  tx ++ rx

/-- A channel's objects fit its filter list and message RAM. -/
def channelFits (ms : List MsgDecl) : Bool :=
  let objs := (channelBuffers ms).map fun e =>
    (e.1.index, e.1, { index := e.1.index, port := none, slot := none, buffer := e.2, cand := none : RouteRec })
  (ms.filter fun m => !m.tx).length ≤ 1024 && allotBlocks objs ≤ 1024

/-- The role that the image gives an Ethernet port: ROLE of its ETHx_CFG (Table NET-2). -/
def imageRole (p : Program) (x : Fin 4) : Nat :=
  ((p.settings.find? fun e => e.1 = baseOf (.eth x) + 0x100).map fun e => field e.2.2 1 0).getD 0

/-- A telegram's level is that of the port's role (R382). -/
def roleTakes (p : Program) (x : Fin 4) (d : TelegramDecl) : Bool := imageRole p x = if d.train then 1 else 2

/-- Two telegrams are due at a common boundary: their cycles meet (R383). -/
def dueTogether (a b : TelegramDecl) : Bool :=
  let g := Nat.gcd a.cycle b.cycle
  decide (a.ofs % g = b.ofs % g)

/-- What a telegram counts on the line in bytes: its dataset, padded to the minimum frame of 64 bytes, and 106 bytes of overhead, of which
86 lie within the frame (R383). -/
def telegramBytes (d : TelegramDecl) : Nat := max 64 (d.len + 86) + 20

/-- The largest sum of line bytes over telegrams that are due at one boundary with those chosen already. Cycles that meet pairwise meet
together. -/
def worstDue : List TelegramDecl → List TelegramDecl → Nat
  | [], _ => 0
  | d :: ds, chosen =>
    let without := worstDue ds chosen
    if chosen.all (dueTogether d) then max without (telegramBytes d + worstDue ds (d :: chosen)) else without

/-- The publish telegrams due at one boundary stay within 0.5 × P at the port's speed (R383). -/
def lineFits (inp : PlaceInput) (x : Fin 4) (ds : List TelegramDecl) : Bool :=
  worstDue (ds.filter (·.publish)) [] * 8000 * 2 ≤ inp.speeds.getD x.val 100 * (inp.period * Config.periodUnit)

/-- An Ethernet port has room for a telegram beside those that it carries (R382, R383). -/
def ethFits (inp : PlaceInput) (p : Program) (done : List RouteRec) (g : Nat) (x : Fin 4) : Bool :=
  match p.telegrams.find? fun d => d.index = g with
  | none => true
  | some d =>
    roleTakes p x d &&
      lineFits inp x (d :: done.filterMap fun r => if r.port = some (.eth x) then p.telegrams.find? fun e => e.index = r.index else none)

def candPort : Candidate → Option Port
  | .port q => some q | .card _ => none

def candSlot : Candidate → Option (Fin 32)
  | .card t => some t | .port _ => none

/-- A candidate passes the three tests of R193. -/
def candOk (inp : PlaceInput) (p : Program) (ls : List Resource) (done : List RouteRec) (g : Nat) (c : Candidate) : Bool :=
  (match c with | .port q => Resource.port q ∉ ls | .card t => Resource.card t ∉ ls) &&
    !(done.any fun r => r.index ∈ apartSignals p g && r.cand.isSome &&
        r.port = candPort c && r.slot = candSlot c) &&
    match c, p.msgs.find? fun m => m.index = g with
    | .port (.eth x), _ => ethFits inp p done g x
    | .port (.can n), some m =>
      channelFits (m :: done.filterMap fun r => if r.port = some (.can n) then p.msgs.find? fun d => d.index = r.index else none)
    | _, _ => true

/-- Routes in index order. -/
def routesOf (inp : PlaceInput) (p : Program) (ls : List Resource) : List RouteRec :=
  let done := (routedSignals p).foldl (fun (done : List RouteRec) g =>
    let ks := match routePin p g.1 with
      | some (some k) => if k < g.2.length then [k] else []
      | some none => []
      | none => List.range g.2.length
    let pick := ks.find? fun k => match g.2[k]? with | some c => candOk inp p ls done g.1 c | none => false
    let c := pick.bind fun k => g.2[k]?
    done ++ [{ index := g.1, port := c.bind candPort, slot := c.bind candSlot, buffer := 0xFFFF, cand := pick }]) []
  let tels := sortBy (fun (a b : TelegramDecl) => a.index ≤ b.index) p.telegrams
  done.map fun r =>
    match r.port with
    | some (.can n) =>
      let ms := done.filterMap fun q => if q.port = some (.can n) then p.msgs.find? fun d => d.index = q.index else none
      { r with buffer := (((channelBuffers ms).find? fun e => e.1.index = r.index).map (·.2)).getD 0xFFFF }
    | some _ =>
      match tels.findIdx? fun d => d.index = r.index with
      | some k => { r with buffer := 0x1000 + k }
      | none => r
    | none => r

/-! ### Records and digests (R183, R209, R545) -/

/-- Lane-set bits of a header record's DATA3. -/
def laneSetBits (ls : Nat) : Nat := if ls = 0 then 0 else if ls ≤ 3 then 1 * 4 + (ls - 1) else 2 * 4 + (ls - 4)

def headerRec (alg : Nat) (m : PMap) : List W32 :=
  [pack [(alg % 65536, 16), (m.index % 256, 8), (m.total % 256, 0)], m.loss, m.lossCard,
    pack [(laneSetBits m.laneSet, 28), (m.period, 0)]]

/-- An instance record in the pattern that PAT selects: 0 the first in which its task activates, 8 + p pattern p. -/
def instRecWords (r : InstRec) (pat : Nat) : List W32 :=
  let at_ := if pat = 0 then r.at_.head?.map (·.2) else mapGet? (pat - 8) r.at_
  [pack [(if r.noTask then 0 else r.task, 24), (r.tier.code, 22), (b2n r.safety, 21), (b2n r.noTask, 20),
      ((at_.map (·.1)).getD 0xFFFF % 65536, 0)],
    BitVec.ofNat 32 ((at_.map (·.2)).getD 0), BitVec.ofNat 32 (if at_.isSome then r.win else 0), BitVec.ofNat 32 r.off]

def itemRecWords (r : ItemRec) : List W32 :=
  [pack [(r.space.code, 29), ((r.tier.map (·.code)).getD 3, 22)], BitVec.ofNat 32 r.offset, BitVec.ofNat 32 r.size, BitVec.ofNat 32 r.off]

def routeRecWords (r : RouteRec) : List W32 :=
  [pack [((r.port.map (·.code)).getD 0xFF, 24), ((r.slot.map (·.val)).getD 0xFF, 16), (r.buffer, 0)],
    pack [(b2n (0 < r.cand.getD 0), 31), (b2n r.cand.isNone, 30), (r.cand.getD 0, 28)], 0, 0]

def wordBytes (ws : List W32) : List Byte := ws.flatMap fun w => bytesLE 4 w.toNat

/-- The map encoding (R183). -/
def mapEncoding (alg : Nat) (m : PMap) : List Byte :=
  wordBytes (headerRec alg m ++ m.insts.flatMap (instRecWords · 0) ++ m.items.flatMap itemRecWords ++ m.routes.flatMap routeRecWords)

/-- The canonical input record (Table PLACE-15). -/
def inputRecord (inp : PlaceInput) (m : PMap) : List Byte :=
  bytesLE 2 inp.alg ++ bytesLE 32 inp.image ++ bytesLE 32 ((inp.profile.map (·.digest)).getD 0) ++ inp.units
    ++ bytesLE 2 m.period ++ [BitVec.ofNat 8 m.laneSet, 0, 0, 0] ++ bytesLE 4 m.loss.toNat ++ bytesLE 4 m.lossCard.toNat

/-- A map with its routes and digests for a lane set and a loss set. -/
def finishMap (inp : PlaceInput) (p : Program) (m : PMap) (index total laneSet : Nat) (out : Option Lane) (ls : List Resource) : PMap :=
  let m := { m with index, total, laneSet, loss := lossWord out ls, lossCard := lossCardWord ls, routes := routesOf inp p ls,
                      staging := decide (Resource.partner ∉ ls) }
  { m with digest := sha256 (mapEncoding inp.alg m), inDigest := sha256 (inputRecord inp m) }

/-- The ports in the order of Table PLACE-7. -/
def allPorts : List Port :=
  (List.finRange 4).map .eth ++ (List.finRange 6).map .can ++ (List.finRange 4).map .ser ++ (List.finRange 4).map .hlk
    ++ (List.finRange 2).map .spl

/-- Lane-set code, excluded lane and loss set of the maps of a set, in order (Table PLACE-7). -/
def setPlan (cards : List (Fin 32)) : List (Nat × Option Lane × List Resource) :=
  [(0, none, []), (1, some .a, []), (2, some .b, []), (3, some .c, []), (0, none, [.partner])]
    ++ allPorts.map (fun q => (0, none, [.port q])) ++ cards.map fun t => (0, none, [.card t])

/-- The map set of an image (R200); none where a map is infeasible. A profile set measures the main program, and the SPLIT maps are
computed without one, though their input digests carry it as those of every map of the set (DESIGN CHOICE, log entry 118). -/
def computeSet (inp : PlaceInput) (main : Program) (split : Option (Program × Program × Program)) : Option (List PMap) :=
  let plan := setPlan inp.cards
  let progs : List Program := match split with | some (a, b, c) => [a, b, c] | none => []
  let total := plan.length + progs.length
  if 64 < total then none
  else
    match baseMap main inp.profile inp.period, progs.mapM (fun p => baseMap p none inp.period) with
    | some base, some bases =>
      some ((plan.zipIdx.map fun (e, i) => finishMap inp main base i total e.1 e.2.1 e.2.2)
        ++ (bases.zip progs).zipIdx.map fun ((m, p), i) => finishMap inp p m (plan.length + i) total (4 + i) none [])
    | _, _ => none

def setDigestOf (ms : List PMap) : List Byte := sha256 (ms.flatMap (·.digest))

/-- A map whose expected digest differs (R185). -/
def digestMismatch (inp : PlaceInput) (ms : List PMap) : Option Nat :=
  (inp.expected.find? fun e => match ms[e.1]? with | some m => fromLE m.digest ≠ e.2 | none => false).map (·.1)

/-- The copy budget of R199 is exceeded in some pattern. -/
def overBudget (p : Program) (m : PMap) : Bool :=
  let free := ((p.tasks.filter fun t => t.cls = .f).map (·.dirty)).sum
  (List.range 8).any fun pat =>
    let timed := p.tasks.filter fun t => activeIn t.cls (mapGetD m.phases t.index 0) pat
    7 * mib * m.period < ((timed.map (·.dirty)).sum + free) * 100

/-- The record that PLACE_RD_SEL names (R209): header, instance, item or route. -/
def recordAt (alg : Nat) (m : PMap) (kind pat index : Nat) : Option (List W32) :=
  match kind with
  | 0 => if index = 0 then some (headerRec alg m) else none
  | 1 => (m.insts.find? fun r => r.index = index).map (instRecWords · pat)
  | 2 => (m.items.find? fun r => r.index = index).map itemRecWords
  | 3 => (m.routes.find? fun r => r.index = index).map routeRecWords
  | _ => none

end Sys2Proof.Machine
end

