-- ==== Sys2Proof/Machine/Place.lean ====
section
/-! DEFINITION. PLACE at work: computing and adopting a map set, losses and returns, map switches, rebalance, record fetches and
profiles (R184, R185, R200 to R214). -/

namespace Sys2Proof.Machine

open Sys2Proof

/-! ### The inputs of a computation (R180, Table PLACE-15) -/

def padTo (n : Nat) (l : List Byte) : List Byte := (l ++ List.replicate n 0).take n

def placeAlg (s : State) : Nat := ((activeSlot s.upd).fw.map (·.algRev)).getD 0

/-- The unit-tree descriptor: the backplane, then the slots. -/
def unitBytes (s : State) : List Byte :=
  padTo 140 (if s.hlk.bpOk then bpCapability s.hlk.backplane else [])
    ++ (List.finRange 32).flatMap fun (t : Fin 32) => padTo 76 (if (s.card t).inUnit then capability (s.card t).record else [])

/-- The negotiated speed of each Ethernet port in Mbit/s, 100 while its link is down (R383; DEDUCED, log entry 119). -/
def portSpeeds (s : State) : List Nat :=
  (List.finRange 4).map fun x => if (s.eth x).link then (match (s.eth x).speed with | 1 => 10 | 3 => 1000 | _ => 100) else 100

/-- The inputs as they stand now; only the cards that are present have a map (R200). -/
def placeInput (s : State) (period : Nat) : PlaceInput :=
  { alg := placeAlg s, image := imageDigest s, profile := (activeSlot s.upd).profile, units := unitBytes s, period,
    cards := (cardSlots s).filter fun t => (s.card t).present, expected := (mainProg s).expected, speeds := portSpeeds s }

/-- The inputs of the set in force, which only a restart or REBALANCE changes (Table PLACE-1). -/
def inputInForce (s : State) (period : Nat) : PlaceInput := s.place.input.getD (placeInput s period)

/-- What a computation gives: a fault kind of Table PLACE-13, or a set. -/
inductive SetResult
  | fails (kind : Nat)
  | done (set : List PMap)

/-- A whole set, with the comparison of the two computations and the expected digests (R184, R185). -/
def computeResult (s : State) (inp : PlaceInput) (mismatch : Bool) : SetResult :=
  match computeSet inp (mainProg s) (s.prog.image.bind (·.split)) with
  | none => .fails 1
  | some ms => if mismatch then .fails 3 else if (digestMismatch inp ms).isSome then .fails 2 else .done ms

/-- The base of the unit that a loss concerns (R280). -/
def lossBase : Resource → Nat
  | .partner => baseOf .partner
  | .port (.eth x) => baseOf (.eth x)
  | .port (.can n) => baseOf (.can n)
  | .port (.ser x) => baseOf (.ser x)
  | .port (.hlk n) => baseOf (.link n)
  | .port (.spl _) => baseOf .pair
  | .card t => baseOf (.card t 0)

def candBase (p : Program) (g k : Nat) : Option Nat :=
  match ((routedSignals p).find? fun e => e.1 = g).bind fun e => e.2[k]? with
  | some (.port q) => some (lossBase (.port q))
  | some (.card t) => some (lossBase (.card t))
  | none => none

/-- ROUTE_LOST for each signal that a map newly routes NONE; its ADDRESS is the base of the candidate that it had, or of its first one
(R193, R212, R280). -/
def reportNone (s : State) (p : Program) (old : Option PMap) (new : PMap) : State :=
  new.routes.foldl (fun s r =>
    match r.cand, old.map fun o => (o.route r.index).bind (·.cand) with
    | some _, _ | none, some none => s
    | none, some (some k) => raise s .place 6 ((candBase p r.index k).getD (baseOf .place))
    | none, none => raise s .place 6 ((candBase p r.index 0).getD (baseOf .place))) s

/-- A set comes into force with its inputs: the capability bytes that it was computed from stay with the cards (R433). -/
def adoptSet (s : State) (inp : PlaceInput) (ms : List PMap) : State :=
  let s := (cardSlots s).foldl (fun s (t : Fin 32) => s.setCard t { s.card t with placed := capability (s.card t).record }) s
  { s with place := { s.place with
      set := ms, input := some inp, setDigest := setDigestOf ms, adopted := inp.profile.isSome, splitMaps := [], next := none,
      nextSplit := [], combined := false, computing := false } }

/-- The base map of a set newly in force, with what its loading reports (R193, R199). -/
def loadBase (s : State) (ms : List PMap) : State :=
  match ms.head? with
  | none => s
  | some m =>
    let s := reportNone { s with place := { s.place with map := some m } } (mainProg s) none m
    if overBudget (mainProg s) m then raiseOpen s .place 9 else s

/-- The map set of a load (R206): the set, or the fault of Table PLACE-13. -/
def loadSet (s : State) (period : Nat) (mismatch : Bool) : Bool × State :=
  let inp := placeInput s period
  match computeResult s inp mismatch with
  | .fails kind => (false, raiseOpen s .place kind)
  | .done ms => (true, loadBase (adoptSet s inp ms) ms)

/-! ### Losses and the map that they call for (R202 to R204) -/

/-- The lane-set code of the mode in force. -/
def laneSetCode (s : State) : Nat :=
  match s.voter.mode, s.voter.out with
  | .pair, some l => 1 + l.idx
  | _, _ => 0

def outOfCode (code : Nat) : Option Lane := if code = 0 then none else Lane.ofNat? (code - 1)

/-- A map was made for a lane set and a loss set. -/
def PMap.isFor (m : PMap) (code : Nat) (ls : List Resource) : Bool :=
  m.laneSet = code && m.loss = lossWord (outOfCode code) ls && m.lossCard = lossCardWord ls

/-- A map with its lane set replaced, outside the set (R203). -/
def relane (s : State) (m : PMap) (code : Nat) (ls : List Resource) : PMap :=
  finishMap (inputInForce s m.period) (mainProg s) m 0xFF m.total code (outOfCode code) ls

/-! ### Switching (R203, R368) -/

/-- Pending frames of an object leave a channel that it is no longer routed over. -/
def dropFrames (s : State) (n : Fin 6) (key : Nat) : State :=
  let (c, gone) := (s.can n).removeObject key
  if gone.isEmpty then s.setCan n c
  else { s.setCan n { c with undelivered := min 255 (c.undelivered + gone.length) } with
    prog := { s.prog with txUndelivered := mark s.prog.txUndelivered key } }

/-- One object's route changes. -/
def reroute (s : State) (p : Nat) (d : MsgDecl) (old new : RouteRec) : State :=
  if old.port = new.port || !d.tx then s
  else
    match old.port, new.port with
    | some (.can n), some (.can k) => canMove s n k (objKey p d.index) d new
    | some (.can n), _ => dropFrames s n (objKey p d.index)
    | _, _ => s

/-- A program's map is switched: pending frames move, each channel lays out its RAM, and each signal that is newly routed NONE is
reported. -/
def switchMap (s : State) (p : Nat) (new : PMap) : State :=
  let old := mapFor s p
  let prog := progOf s p
  let s := if p = 0 then { s with place := { s.place with map := some new } }
    else { s with place := { s.place with splitMaps := s.place.splitMaps.filter (fun m => m.laneSet ≠ new.laneSet) ++ [new] } }
  match old with
  | none => s
  | some old =>
    let s := prog.msgs.foldl (fun s d =>
      match old.route d.index, new.route d.index with
      | some a, some b => reroute s p d a b
      | _, _ => s) s
    reportNone ((List.finRange 6).foldl (fun s n => canLayout s n false) s) prog (some old) new

/-- A returning resource returns at the next boundary: its count is complete, or RETURN was commanded (R204). -/
def returnDue (s : State) (c : Resource × Nat) : Bool :=
  let hold := s.regField .place 0x108 15 0
  decide (c.1 ∈ s.place.returnNow) || (0 < hold && hold ≤ c.2)

/-- Losses that step 1 puts into force, returns included (R204). -/
def returnsDue (s : State) : State :=
  let due := returnDue s
  let back := (s.place.returning.filter due).map (·.1)
  { s with place := { s.place with
      lost := s.place.lost.filter fun r => r ∉ back,
      returning := (s.place.returning.filter fun c => !due c).map fun c => (c.1, c.2 + 1),
      returnNow := [] } }

/-- A combined loss: the map in force stays until the engine has the map (R203). -/
def awaitCombined (s : State) : State :=
  { s with place := { s.place with combined := true, combinedAt := s.tb3, computing := true, next := none, nextSplit := [] } }

def endCombined (s : State) : State :=
  { s with place := { s.place with combined := false, computing := s.place.rebalance.any (·.since.isNone), next := none, nextSplit := [] } }

/-- The map of the main program for the lane set and losses of now. -/
def switchMain (s : State) : State :=
  let code := laneSetCode s
  let ls := s.place.lost
  match s.place.map with
  | none => s
  | some cur =>
    if cur.isFor code ls then endCombined s
    else
      match s.place.set.find? fun m => m.laneSet ≤ 3 && m.isFor code ls with
      | some m => endCombined (switchMap s 0 m)
      | none =>
        if cur.isFor cur.laneSet ls then endCombined (switchMap s 0 (relane s cur code ls))
        else
          match s.place.next with
          | some m => if m.isFor code ls then endCombined (switchMap s 0 m) else awaitCombined s
          | none => if s.place.combined then s else awaitCombined s

/-- The SPLIT maps for the losses of now. -/
def switchSplit (s : State) : State :=
  let ls := s.place.lost
  let fits (p : Nat) : Bool := match mapFor s p with | some m => m.isFor (3 + p) ls || (m.loss = lossWord none ls && m.lossCard = lossCardWord ls) | none => true
  if [1, 2, 3].all fits then endCombined s
  else if ls.isEmpty then
    endCombined ((s.place.set.filter fun m => 4 ≤ m.laneSet).foldl (fun s m => switchMap s (m.laneSet - 3) m) s)
  else if !s.place.nextSplit.isEmpty && s.place.nextSplit.all (fun m => m.loss = lossWord none ls && m.lossCard = lossCardWord ls) then
    endCombined (s.place.nextSplit.foldl (fun s m => switchMap s (m.laneSet - 3) m) s)
  else if s.place.combined && s.place.nextSplit.isEmpty then s
  else awaitCombined s

/-- A loss ends a running REBALANCE, and the map set in force handles it (R207). -/
def rebalanceLost (s : State) (lane : Bool) : State :=
  if s.place.rebalance.isSome && (lane || s.place.lost.any (fun r => r ∉ s.place.inForce)) then
    ({ s with place := { s.place with rebalance := none, computing := s.place.combined, migrating := false } }).finish .place .faulted 0
  else s

/-- Step 1 of a boundary (R202 to R205): returns, the map for the lane set and losses, and the end of a RETURN. A standby keeps the map
that the state copy gives. -/
def placeStep (s : State) : State :=
  let s := returnsDue s
  let s := { s with place := { s.place with inForce := s.place.lost } }
  let s := if s.pair.role = .standby then s
    else if s.voter.mode = .split then switchSplit s else switchMain s
  match (s.ucb .place).running with
  | some r => if r.code = 0x81 then s.finish .place .ok ((s.place.map.map (·.index)).getD 0) else s
  | none => s

/-- The engine has computed the map of a combined loss twice (R184, R203): it comes into force at the next boundary, or is discarded with
SELF_CHECK where the two differ, and the map in force stays. -/
def combinedDone (s : State) (mismatch : Bool) (us : Nat) : State :=
  if !s.place.combined || s.place.next.isSome || !s.place.nextSplit.isEmpty then s
  else
    let ls := s.place.lost
    let s := match ls.getLast? with | some r => raise s .place 5 (lossBase r) | none => s
    let s := { s with place := { s.place with computing := s.place.rebalance.any (·.since.isNone), us } }
    if mismatch then raiseOpen s .place 3
    else if s.voter.mode = .split then
      let ms := s.place.set.filter fun m => 4 ≤ m.laneSet
      let made := ms.map fun m => finishMap (inputInForce s m.period) (progOf s (m.laneSet - 3)) m 0xFF m.total m.laneSet none ls
      { s with place := { s.place with nextSplit := made } }
    else
      match s.place.set.head? with
      | none => s
      | some base =>
        let code := laneSetCode s
        let made := finishMap (inputInForce s base.period) (mainProg s) base 0xFF base.total code (outOfCode code) ls
        { s with place := { s.place with next := some made } }

/-- The map is complete, its two computations agreed, and PLACE_TIME is what they took. Two that differ are told by PLACEMENT_MAP_COMPLETE
(log entry 130). -/
def execCombinedLoss (s : State) : Out := .next (combinedDone s false ((s.tb3 - s.place.combinedAt) / 1000))

/-- A lost resource has been healthy for its count (R204): it returns at step 1 of the next boundary. -/
def resourceReturn (s : State) (r : Resource) : State :=
  if s.place.returning.any (fun c => c.1 = r && returnDue s c) && r ∉ s.place.returnNow then
    { s with place := { s.place with returnNow := s.place.returnNow ++ [r] } }
  else s

def execResourceReturn (r : Resource) (s : State) : Out := .next (resourceReturn s r)

/-- RETURN: every healthy lost resource returns at the next boundary (Table PLACE-12). -/
def returnAll (s : State) : State := { s with place := { s.place with returnNow := s.place.returning.map (·.1) } }

/-! ### Rebalance (R207, Sequence PLACE-1) -/

def rebalanceBegin (s : State) : State := { s with place := { s.place with rebalance := some {}, computing := true } }

/-- The command ends FAULTED and the maps in force stay. -/
def rebalanceFails (s : State) : State :=
  ({ s with place := { s.place with rebalance := none, computing := false, migrating := false } }).finish .place .faulted 0

/-- The 8-byte words of some data. -/
def wordsOf (bs : List Byte) : List (Nat × Nat) :=
  (List.range ((bs.length + 7) / 8)).map fun i => (i, fromLE ((bs.drop (8 * i)).take 8))

/-- A datum that a new map moves: its space, the tier and area offset of its new place, that place, and its bytes. -/
structure Moved where
  space : Nat
  tier : Tier × Nat
  place : Place
  data : List Byte

/-- Every instance, global and per-lane copy whose place differs between two maps, as a lane holds it. -/
def movedItems (s : State) (l : Lane) (old new : PMap) : List Moved :=
  let p := mainProg s
  let one (space inst off size : Nat) (tier : Tier × Nat) : Option Moved :=
    let a := placeUnder (some old) 0 space inst off
    let b := placeUnder (some new) 0 space inst off
    if a = b then none else some { space, tier, place := b, data := readPlace s l a size }
  (p.insts.filterMap fun d => one 0 d.index 0 (instSize p d) (instTier (some new) d.index))
    ++ p.items.filterMap fun i => one i.space.code 0 i.off i.size (itemTier (some new) i.space i.off)

/-- The migration copies into the bulk store that are still to be made: of every moved word whose new place does not hold it yet, the
record's address and data (R207, R217). A constant or parameter has its master copy there. -/
def copiesDue (s : State) (l : Lane) (old new : PMap) : List (Nat × Nat) :=
  (movedItems s l old new).flatMap fun m =>
    match m.place with
    | .own _ => []
    | .bulk key =>
      if m.space = 4 || m.space = 5 then []
      else (wordsOf m.data).filterMap fun (i, v) =>
        if Memory.readNat s.bulk (key + 8 * i) 8 = v then none else some (migrationAddr m.space m.tier.1 (m.tier.2 + 8 * i), v)

/-- The old and the new map of a REBALANCE whose set is computed. -/
def migration (s : State) : Option (PMap × PMap) :=
  match s.place.rebalance, s.place.map with
  | some r, some old => if r.since.isSome then r.set.head?.map fun new => (old, new) else none
  | _, _ => none

/-- No copy into the bulk store is due or on its way through the voter. -/
def migrationCurrent (s : State) : Bool :=
  match migration s, (voteSet s).head? with
  | some (old, new), some l =>
    (copiesDue s l old new).isEmpty && (voteSet s).all fun l => ((s.lane l).queue ++ (s.lane l).spill).all fun r => decide (r.kind ≠ 7)
  | _, _ => true

/-- A migration copy as a lane presents it. -/
def migrationRec (c : Nat × Nat) : EffectRec :=
  { kind := 7, size := 3, last := false, safety := false, tag := .good, addr := c.1, beats := [c.2], ctx := .safety }

/-- Every lane of the set presents the copies into the bulk store that are due, unless earlier ones are still passing. -/
def presentCopies (s : State) : State :=
  match migration s, (voteSet s).head? with
  | some (old, new), some lead =>
    if (voteSet s).any fun l => ((s.lane l).queue ++ (s.lane l).spill).any fun r => r.kind = 7 then s
    else
      let cs := copiesDue s lead old new
      (voteSet s).foldl (fun s l => cs.foldl (fun s c => s.present l (migrationRec c)) s) s
  | _, _ => s

/-- Step 2 ends, and the background copies start. In a pair the standby computes the same set from the same inputs (R182). -/
def rebalanceComputed (s : State) (mismatch : Bool) (us : Nat) : State :=
  let s := { s with place := { s.place with us } }
  let inp := placeInput s s.tick.period
  match computeResult s inp mismatch with
  | .fails kind => rebalanceFails (raiseOpen s .place kind)
  | .done ms =>
    let at_ := (s.place.rebalance.map (·.at_)).getD 0
    presentCopies { s with place := { s.place with
        computing := false, migrating := true,
        rebalance := some { input := some inp, set := ms, setDigest := setDigestOf ms, since := some s.tick.n,
                            adopted := inp.profile.isSome, at_ } } }

/-- Step 3: the partner has computed its set. Another set digest than the own ends the command (R207). -/
def partnerSet (s : State) (digest : Nat) : State :=
  match s.place.rebalance with
  | some r =>
    if r.since.isNone || r.peerOk then s
    else if fromLE r.setDigest = digest then { s with place := { s.place with rebalance := some { r with peerOk := true } } }
    else rebalanceFails (raiseOpen s .place 8)
  | none => s

/-- In the guard what the program has stored after its copy is copied again; once every copy is current the switch is pending, and in a
pair, where the partner's set agrees, its boundary is announced at least 2 ticks ahead (step 5). -/
def rebalanceGuard (s : State) : State :=
  let s := presentCopies s
  match s.place.rebalance with
  | some r =>
    if r.since.isNone || !migrationCurrent s then s
    else
      let announce := synced s && s.pair.role ≠ .standby && r.peerOk && r.at_ = 0
      { s with place := { s.place with rebalance := some { r with moved := true, at_ := if announce then s.tick.n + 3 else r.at_ } } }
  | none => s

/-- The moved items stand in their new places in every lane; a lane's digest tracks these copies (R231). -/
def migrate (s : State) (old new : PMap) : State :=
  match (voteSet s).head? with
  | none => s
  | some l =>
    (movedItems s l old new).foldl (fun s m =>
      match m.place with
      | .own a => (lanesOf s 0).foldl (fun s l => s.setLane l ((s.lane l).store a m.data)) s
      | .bulk _ => s) s

/-- A standby holds the bytes of the moved items too, and puts them where the new map has them. -/
def migrateBulk (s : State) (old new : PMap) : State :=
  match (voteSet s).head? with
  | none => s
  | some l => (movedItems s l old new).foldl (fun s m => match m.place with | .bulk k => s.writeBulk k m.data | .own _ => s) s

/-- The switch falls at boundary `n`: in a synced pair at the one announced. -/
def switchDue (s : State) (r : Rebalance) (n : Nat) : Bool :=
  if synced s then r.at_ ≠ 0 && r.at_ ≤ n && (s.pair.role = .standby || r.moved) else r.moved

/-- Step 6: the new set comes into force. -/
def rebalanceSwitch (s : State) (n : Nat) : State :=
  match s.place.rebalance, migration s with
  | some r, some (old, new) =>
    if !switchDue s r n then s
    else
      let s := if s.pair.role = .standby then migrateBulk s old new else s
      let s := migrate s old new
      let s := adoptSet s (r.input.getD (placeInput s s.tick.period)) r.set
      let s := switchMap { s with place := { s.place with rebalance := none, migrating := false } } 0 new
      s.finish .place .ok (fromLE (new.digest.take 2))
  | _, _ => s

/-- The switch has not happened within 64 ticks. -/
def migrateTimeout (s : State) : State :=
  match s.place.rebalance.bind (·.since) with
  | some t => if t + 64 ≤ s.tick.n then rebalanceFails (raiseOpen s .place 7) else s
  | none => s

def execMigrateTimeout (s : State) : Out := .next (migrateTimeout s)

/-! ### Profiles (R210) -/

def profileStart (s : State) (ticks : Nat) : State :=
  { s with place := { s.place with capturing := some ticks, captured := none, ticks := 0 } }

/-- A boundary ends a captured tick. -/
def profileTick (s : State) : State :=
  match s.place.capturing with
  | some k => { s with place := { s.place with ticks := min k (s.place.ticks + 1) } }
  | none => s

/-- The capture is complete: PROFILE_START ends OK. -/
def profileComplete (s : State) (p : ProfileSet) : State :=
  match s.place.capturing with
  | none => s
  | some k =>
    if s.place.ticks < k then s
    else ({ s with place := { s.place with capturing := none, captured := some p } }).finish .place .ok 0

def execProfileComplete (p : ProfileSet) (s : State) : Out := .next (profileComplete s p)

/-- PROFILE_STOP ends a capture that is under way. While PROFILE_START runs, R31 answers BUSY before it (log entry 20). -/
def profileStop (s : State) : State :=
  if s.place.capturing.isNone then s
  else ({ s with place := { s.place with capturing := none } }).finish .place .ok 0

/-- ADOPT: the capture, or none, is recorded with the active image. -/
def adoptProfile (s : State) (none_ : Bool) : State :=
  let a := activeSlot s.upd
  let s := { s with upd := s.upd.setActive { a with profile := if none_ then none else s.place.captured } }
  if none_ then s else { s with place := { s.place with captured := none } }

/-! ### Window overruns (R190) -/

/-- A safety instance has not ended when its window ends: it runs, or has not yet come to run. -/
def windowOver (s : State) (inst : Nat) : State :=
  let late (l : Lane) : Bool :=
    let c := (s.lane l).safety
    (c.busy && c.inst = inst) || c.todo.any fun e => e.2 = inst
  if (runSet s).any late then
    raiseOpen { s with place := { s.place with overLast := inst, overCount := satUp 0xFFFF s.place.overCount } } .place 4
  else s

def execWindowOver (inst : W16) (s : State) : Out := .next (windowOver s inst.toNat)

/-! ### Fetches and shown registers (R208, R209, R545) -/

/-- The map that a reader's program runs under. -/
def mapShown (s : State) (bank : Nat) : Option PMap := mapFor s (if s.voter.mode = .split then 1 + bank else 0)

/-- PLACE_RD_SEL names an assigned kind and pattern. -/
def rdSelOk (v : W32) : Bool := field v 23 20 ≤ 3 && !(field v 23 20 = 1 && 1 ≤ field v 19 16 && field v 19 16 ≤ 7)

/-- The record that a selection names. -/
def selected (s : State) (bank : Nat) (v : W32) : Option (List W32) :=
  let m := if field v 31 24 = 0xFF then (mapShown s bank).filter fun m => m.index = 0xFF
    else s.place.set.find? fun m => m.index = field v 31 24
  if rdSelOk v then m.bind fun m => recordAt (placeAlg s) m (field v 23 20) (field v 19 16) (field v 15 0) else none

/-- A record fetch completes. -/
def placeFetchDone (s : State) (bank : Nat) : State :=
  let f := fetchOf s.place.fetch bank
  if !f.busy then s else
  let r := selected s bank (BitVec.ofNat 32 f.sel)
  { s with place := { s.place with
      fetch := mapPut bank (f.done (b2n r.isSome * 2 ^ 16 + f.sel % 65536) (r.getD [])) s.place.fetch } }

/-- Word k of a digest (R208). -/
def digestReg (d : List Byte) (k : Nat) : W32 := BitVec.ofNat 32 (fromLE ((d.drop (4 * k)).take 4))

/-- A switch takes effect at the next boundary. -/
def placePending (s : State) : Bool :=
  s.place.lost ≠ s.place.inForce || s.place.next.isSome || !s.place.nextSplit.isEmpty || s.place.returning.any (returnDue s)
    || modePending s || s.place.rebalance.any (·.moved)

/-- What a read-only register of PLACE shows. -/
def placeRead (s : State) (bank off : Nat) : W32 :=
  let p := s.place
  let m := mapShown s bank
  let f := fetchOf p.fetch bank
  match off with
  | 0x100 =>
    pack [((m.map (·.index)).getD 0, 16), (b2n (placePending s), 7), (b2n p.computing, 6), (b2n p.migrating, 5),
      (b2n ((m.map fun m => m.routes.any (·.cand.isNone)).getD false), 4), (b2n p.adopted, 3), (b2n (!p.returning.isEmpty), 2)]
  | 0x104 => pack [(placeAlg s % 65536, 16), (p.set.length % 256, 0)]
  | 0x10C => BitVec.ofNat 32 p.us
  | 0x110 => (m.map (·.loss)).getD 0
  | 0x114 => (m.map (·.lossCard)).getD 0
  | 0x11C => f.result.word
  | 0x130 => pack [(p.overLast, 16), (p.overCount, 0)]
  | 0x134 => pack [(b2n p.capturing.isSome, 31), (b2n p.captured.isSome, 30), (p.ticks % 2 ^ 24, 0)]
  | _ =>
    if 0x120 ≤ off && off < 0x130 then f.words.getD ((off - 0x120) / 4) 0
    else if 0x140 ≤ off && off < 0x160 then digestReg ((m.map (·.digest)).getD []) ((off - 0x140) / 4)
    else if 0x160 ≤ off && off < 0x180 then (if m.isNone then 0 else digestReg p.setDigest ((off - 0x160) / 4))
    else if 0x180 ≤ off && off < 0x1A0 then digestReg ((m.map (·.inDigest)).getD []) ((off - 0x180) / 4)
    else 0

end Sys2Proof.Machine
end

