-- ==== Sys2Proof/Machine/Pair.lean ====
section
/-! DEFINITION. PAIR: the Sweetpea links, beacons, sync checks, the state copy as the standby applies it, takeover, hand-over, stations
that are reported absent, and the registers (chapter 09). What the unit does at a boundary is carried out from `Boundary`. -/

namespace Sys2Proof.Machine

open Sys2Proof

/-! ### The claim number (R251, R252) -/

/-- The Hollyhock links that the maps in force use. -/
def usedLinks (s : State) : List (Fin 4) :=
  ((progsInForce s).filterMap (mapFor s)).flatMap fun m => m.routes.flatMap fun r =>
    match r.port, r.slot with
    | some (.hlk n), _ => [n]
    | _, some t => (cardEnds s t.val).take 1
    | _, none => []

/-- HEALTH (Table PAIR-2). -/
def health (s : State) : Nat :=
  b2n (running s) * 32 + b2n (s.voter.mode = .triple) * 16 + b2n (!s.voter.degraded) * 8 + b2n (s.pair.link0 && s.pair.link1) * 4
    + b2n ((usedLinks s).all (hlkUp s)) * 2 + b2n (s.tick.align = .aligned)

/-- The claim number (Table PAIR-1). -/
def claimOf (s : State) (r : Role) : W16 :=
  BitVec.ofNat 16 (r.code * 2 ^ 14 + health s * 2 ^ 8 + pairPrio s * 2 ^ 5 + slotId s)

/-- The claim is formed again with the role held (R251). -/
def reclaim (s : State) : State := { s with pair := { s.pair with own := claimOf s s.pair.role } }

def setRole (s : State) (r : Role) : State := reclaim { s with pair := { s.pair with role := r } }

def claimRole (c : W16) : Nat := field c 15 14
def claimHealth (c : W16) : Nat := field c 13 8
def claimPrio (c : W16) : Nat := field c 7 5

/-! ### Losing and forming sync (R255 to R257, R264) -/

/-- An announced hand-over is given up (R269). -/
def abandonHandover (s : State) : State :=
  if s.pair.handover = 0 then s
  else
    let s := { s with pair := { s.pair with handover := 0, finalSent := false } }
    let s := match (s.ucb .pair).running with
      | some r => if r.code = 0x80 then s.finish .pair .faulted 0 else s
      | none => s
    match s.upd.handover, (s.ucb .lcs).running with
    | some _, some r => if r.code = 0x95 then { s with upd := { s.upd with handover := none } }.finish .lcs .faulted 0
                        else { s with upd := { s.upd with handover := none } }
    | some _, none => { s with upd := { s.upd with handover := none } }
    | none, _ => s

/-- The partner is lost to placement; its links' ports are no further loss (log entry 32). -/
def losePartner (s : State) : State :=
  let s := s.lose .partner
  { s with place := { s.place with lost := s.place.lost.filter fun r => r ≠ .port (.spl 0) && r ≠ .port (.spl 1) } }

/-- A running APPLY to the partner ends FAULTED with the loss of the partner, and PARTNER_FAIL is raised (R502). -/
def endPartnerApply (s : State) : State :=
  match (s.ucb .lcs).running with
  | some r => if r.code = 0x90 && r.arg % 256 = 1 then raise (endActivity s .firmwareApply) .lcs 0x26 (baseOf .partner) else s
  | none => s

/-- The active module loses the partner (R264): map 4, no more copies, PARTNER_LOST. -/
def partnerLost (s : State) (next : PairState) : State :=
  let s := endPartnerApply (abandonHandover s)
  let s := losePartner (raise s .pair 8 (baseOf .partner))
  { s with pair := { s.pair with state := next, sent := none, dirtyOld := [], coalescing := false, coalesced := 0, copied := false,
                                 resyncDue := next = .handshake } }

/-- The partner is in sync: the pair unit exists (R46), and the loss of the partner heals. -/
def syncFormed (s : State) : State :=
  let s := { s with pair := { s.pair with state := .synced, deposed := false, syncing := false, missing := 0, takeover := false } }
  (noteGroups (s.setUcb .partner fun b => if b.state = .run then b else b.gated .run)).healthy .partner

/-! ### Beacons (R250, R265) -/

/-- A SYNCED standby that can take over confirms a cause (R265); an announced hand-over is given up (R269). -/
def confirmCause (s : State) : State :=
  if s.pair.role = .standby && s.pair.state = .synced && running s then
    { s with pair := { s.pair with takeover := true, handover := 0 } }
  else s

/-- The beacon of this module with its claim, its pair state and a boundary's number (R250); the active module's carries the marker. -/
def ownBeacon (s : State) (n : Nat) : Beacon :=
  { claim := s.pair.own, boundary := n, state := s.pair.state.code, marker := s.pair.role = .active || s.pair.role = .seize,
    revertDue := s.pair.revertDue, handover := s.pair.handover }

/-- The beacon at the nominal instant of a boundary goes out on each link that is up. -/
def sendBeacon (s : State) (n : Nat) : State :=
  { s with pair := { s.pair with beacon := if s.pair.link0 || s.pair.link1 then some (ownBeacon s n) else none } }

/-- The pair state that a standby takes when the active module's beacon shows that it has left SYNCED: HANDSHAKE with a resync due
(RESYNC), LINKED (DETACH), or SYNCING once more (SYNC_LOST); `before` is the state that the beacon before showed. -/
def leavesSync (before now : Nat) : Option PairState :=
  if now = 1 then some .handshake
  else if now = 3 then some .linked
  else if before = 5 && now = 4 then some .syncing
  else none

/-- A standby in sync follows the active module out of it (R255, R262, R274). -/
def followState (s : State) (before now : Nat) : State :=
  if s.pair.state ≠ .syncing && s.pair.state ≠ .synced then s
  else match leavesSync before now with
    | some x => { s with pair := { s.pair with state := x, copied := false, takeover := false, missing := 0,
                                               resyncDue := s.pair.resyncDue || x = .handshake } }
    | none => s

/-- What a standby takes from the active module's beacon: its pair state, the marker, the hand-over of a LINKED pair (R504), and
cause 2. `before` is the state that the beacon before showed. -/
def standbyBeacon (s : State) (b : Beacon) (before : Nat) : State :=
  let s := followState s before b.state
  let s := if b.marker then { s with pair := { s.pair with follow := some (b.boundary, s.tb3) } } else s
  let s := if s.pair.state = .linked then { s with pair := { s.pair with handover := b.handover } } else s
  if (claimRole b.claim < 2 || claimHealth b.claim < 32) && !s.pair.finalSent then confirmCause s else s

/-- What the others take from it: the arrival of a partner (R255), and whether the standby has come into sync or left it. -/
def activeBeacon (s : State) (b : Beacon) (before : Nat) : State :=
  match s.pair.state with
  | .alone => { s with pair := { s.pair with state := .handshake, resyncDue := true } }
  | .syncing => if b.state = 5 && before ≠ 5 then syncFormed s else s
  | .synced => if b.state = 5 || s.pair.finalSent then s else partnerLost s .handshake
  | _ => s

def beacon (s : State) (b : Beacon) (t : Nat) : State :=
  let s := s.at_ t
  let before := s.pair.peerState
  let s := { s with pair := { s.pair with peer := b.claim, peerState := b.state, peerUp := true, peerRevertDue := b.revertDue } }
  if s.pair.role = .standby && s.pair.state ≠ .alone then standbyBeacon s b before else activeBeacon s b before

/-- A beacon on a link that is up. -/
def execBeacon (link : Fin 2) (b : Beacon) (at_ : Nat) (s : State) : Out := .next (if splUp s link then beacon s b at_ else s)

/-- No beacon for 50 µs: neither link counts as up (R250). The active module has lost its partner (R264). -/
def beaconsAbsent (s : State) : State :=
  if !s.pair.peerUp then s
  else
    let s := { s with pair := { s.pair with peerUp := false, peerState := 0, link0 := false, link1 := false, heard := none } }
    if s.pair.role = .standby then
      (if s.pair.state = .synced then confirmCause s
       else { s with pair := { s.pair with state := .alone, resyncDue := false, copied := false } })
    else if s.pair.role = .none || s.pair.state = .refused then
      endPartnerApply { s with pair := { s.pair with state := .alone, resyncDue := false, sent := none } }
    else partnerLost s .alone

def execBeaconsAbsent (s : State) : Out := .next (beaconsAbsent s)

/-- A single link trains with its beacons, or goes down, with the stream that it carries (R250, R252, R261, R449). -/
def linkChange (s : State) (k : Fin 2) (up : Bool) : State :=
  if !up then streamDown (splDown s k) (5 + k)
  else if s.clk.linkStop || splUp s k then s
  else ({ s with pair := if k = 0 then { s.pair with link0 := true } else { s.pair with link1 := true } }).healthy (.port (.spl k))

def execSweetpeaLinkChange (k : Fin 2) (up : Bool) (s : State) : Out := .next (linkChange s k up)

/-! ### Partner resync (R255, R256) -/

def setDigestNat (s : State) : Nat := fromLE s.place.setDigest

/-- Own firmware figures, from the active slot. -/
def ownFw (s : State) : FwImage :=
  (activeSlot s.upd).fw.getD { digest := 0, hwType := 0, serial := 0, version := 0, secver := 0, fmtMin := 0, fmtMax := 0, peerMin := 0,
                               peerMax := 0, algRev := 0, naneost := false }

/-- The first check of Table PAIR-3 that fails; 0 when all pass. -/
def syncCheck (s : State) (p : PeerIdentity) : Nat :=
  let f := ownFw s
  if p.hwType ≠ Config.hwType then 1
  else if p.slot = slotId s then 2
  else if !(f.peerMin ≤ p.fwVersion && p.fwVersion ≤ f.peerMax && p.peerMin ≤ f.version && f.version ≤ p.peerMax) then 3
  else if min f.fmtMax p.fmtMax < max f.fmtMin p.fmtMin then 4
  else if p.image ≠ imageDigest s then 5
  else if p.set ≠ setDigestNat s then 6
  else 0

/-- The module runs its program. -/
def runsNow (s : State) : Bool := s.tick.running && running s && s.pair.role ≠ .standby

/-- The roles (R256). A running module with the lower claim is deposed at the next boundary (R254), and one that claims SEIZE goes on to
claim it. A module that is to become active does so at its step 9. -/
def settleRoles (s : State) (p : PeerIdentity) : State :=
  let mine := claimOf s s.pair.role
  if runsNow s then
    (if p.running && mine.toNat < p.claim.toNat then { s with pair := { s.pair with higher := 2 } }
     else setRole s (if s.pair.role = .seize then .seize else .active))
  else if p.running || mine.toNat < p.claim.toNat then setRole s .standby
  else if s.pwr.step = 9 then setRole s .active
  else setRole s .none

/-- A pair is settled at step 7 with this module to become active (Table SAF-3). -/
def toBecomeActive (s : State) : Bool :=
  s.pair.role ≠ .standby && (s.pair.state = .syncing || s.pair.state = .synced || s.pair.state = .linked)

/-- PAIR_SYNC's value: the failed check and the copy format in use. -/
def syncValue (check format : Nat) : Nat := check * 2 ^ 20 + format % 16 * 2 ^ 16

/-- The resync ends: its result, its tokens and a RESYNC command. -/
def endResync (s : State) (check format : Nat) : State :=
  let s := { s with pair := { s.pair with sync := s.pair.sync.deliver (syncValue check format), resyncDue := false, format } }
  let s := releaseTokens s .partnerResync
  match (s.ucb .pair).running with
  | some r => if r.code = 0x81 then s.finish .pair (if check = 0 then .ok else .faulted) 0 else s
  | none => s

/-- The checks in order, then the roles. -/
def runChecks (s : State) (p : PeerIdentity) : State :=
  let c := syncCheck s p
  let s := { s with pair := { s.pair with sync := s.pair.sync.start, peer := p.claim } }
  if c = 0 then
    let s := endResync s 0 (min (ownFw s).fmtMax p.fmtMax)
    settleRoles { s with pair := { s.pair with state := .syncing, syncing := true, copied := false } } p
  else
    let s := raiseOpen (endResync s c s.pair.format) .pair 1
    if c ≤ 4 then
      setRole { s with pair := { s.pair with state := .refused } } (if s.pair.role = .standby then .none else s.pair.role)
    else settleRoles { s with pair := { s.pair with state := .linked } } p

/-- The identities are exchanged, when a resync runs or can take its tokens; a held token has it retried at each boundary (R55). A standby
in SYNCED or LINKED makes the checks with the partner that has dropped its sync (R255). -/
def partnerResync (s : State) (p : PeerIdentity) : State :=
  let commanded : Bool := match (s.ucb .pair).running with | some r => r.code = 0x81 | none => false
  let asked : Bool := s.pair.role = .standby && (s.pair.state = .synced || s.pair.state = .linked)
  if commanded then runChecks s p
  else if s.pair.state ≠ .handshake && !s.pair.resyncDue && !asked then s
  else if !tokensFree s .partnerResync then { s with pair := { s.pair with heard := some p } }
  else runChecks (takeTokens { s with pair := { s.pair with heard := none } } .partnerResync .pair) p

/-- A resync that found a token held is retried (R55). -/
def retryResync (s : State) : State := match s.pair.heard with | some p => partnerResync s p | none => s

/-- The sync is not complete within 60 s, and starts again (R257). -/
def execSyncTimeout (s : State) : Out :=
  .next (if s.pair.state = .syncing then
    { raiseOpen s .pair 9 with pair := { (raiseOpen s .pair 9).pair with resyncDue := true, copied := false } } else s)

/-! ### The copy as the standby applies it (R170, R205, R225, R260) -/

/-- Every resource that a loss set can hold. -/
def allResources : List Resource :=
  .partner :: allPorts.map .port ++ (List.finRange 32).map .card

/-- The losses that the words of a copy header name. -/
def lossesOf (w card : W32) : List Resource :=
  allResources.filter fun r => lossWord none [r] &&& w ≠ 0 || lossCardWord [r] &&& card ≠ 0

def laneOf (w : W32) : Option Lane := Lane.all.find? fun l => lossWord (some l) [] &&& w ≠ 0

/-- The map that a copy names: of the set, or formed for its losses. -/
def copyMap (s : State) (c : StateCopy) : Option PMap :=
  match s.place.set.find? fun m => m.index = c.map with
  | some m => some m
  | none =>
    s.place.set.head?.map fun base =>
      finishMap (inputInForce s base.period) (mainProg s) base 0xFF base.total (match laneOf c.loss with | some l => 1 + l.idx | none => 0)
        (laneOf c.loss) (lossesOf c.loss c.lossCard)

/-- The pages, in every lane at once and in the bulk store. -/
def copyPages (s : State) (c : StateCopy) : State :=
  let s := s.mapLanes fun _ x => { x with mem := putBytes x.mem 0 c.lanePages }
  { s with bulk := putBytes s.bulk 0 c.bulkPages }

/-- Units of the module itself that are no groups and no lanes: their states a copy carries over. -/
def copiedUnit : UnitId → Bool
  | .sys | .net | .lane _ | .card _ _ | .pairUnit | .partner | .composite _ => false
  | _ => true

/-- A state that a command brings about. FAULT, TEST and MAINT are those of the other module's hardware and stay with it (DEDUCED, log
entry 120). -/
def plainState (t : UState) : Bool := t = .off || t = .quiesced || t = .run

/-- The register image and the unit states. -/
def copyUnits (s : State) (c : StateCopy) : State :=
  let s := { s with regs := c.settings.foldl (fun m e => mapPut e.1 e.2 m) s.regs }
  let s := c.units.foldl (fun s e =>
    match unitOfHandle e.1 with
    | some u => if copiedUnit u && plainState e.2 && plainState (s.ucb u).state && (s.ucb u).state ≠ e.2 then enterState s u e.2 else s
    | none => s) s
  c.composites.foldl (fun s e =>
    match unitOfHandle e.1 with
    | some u => s.setUcb u fun b => if b.state = e.2 then b else b.gated e.2
    | none => s) s

/-- The setting of TB4, with the time since the copied boundary's nominal instant here, and the epochs, of TB0 to TB2 the higher (R407). -/
def copyTime (s : State) (c : StateCopy) : State :=
  let e (i : Nat) : Nat := c.epochs.getD i 0
  let up (b : TimeBase) (i : Nat) : TimeBase := { b with epoch := max b.epoch (e i) }
  let since := s.tb3 - (mapGet? c.tick s.pair.times).getD s.tb3
  { s with time := { s.time with
      tb0 := up s.time.tb0 0, tb1 := up s.time.tb1 1, tb2 := up s.time.tb2 2,
      tb4 := { s.time.tb4 with val := (c.tb4Sec * 1000000000 + c.tb4Ns + since) * 2 ^ 40, anchor := s.tb3, epoch := e 4 } } }

/-- Change sets are recorded with the image and take effect; a profile set is recorded too (R119). -/
def copyRecords (s : State) (c : StateCopy) : State :=
  let s := c.changes.foldl (fun s ch =>
    let a := activeSlot s.upd
    let s := { s with upd := s.upd.setActive { a with changes := a.changes ++ [ch] },
                      prog := { s.prog with changes := s.prog.changes ++ [ch] } }
    ch.items.foldl (fun s i => applyItem s (match ch.lane with | some l => 1 + l.idx | none => 0) i) s) s
  match c.profile with
  | some p => { s with upd := s.upd.setActive { activeSlot s.upd with profile := p } }
  | none => s

/-- The input buffer of the copied tick, in every lane, in the place of the standby's own of that boundary. -/
def copyInput (s : State) (c : StateCopy) : State :=
  s.mapLanes fun _ x =>
    let i := (([0, 1, 2].find? fun i => (x.inBuf i).n = c.tick).getD 0)
    x.setInBuf i
      { n := c.tick, time := (mapGet? c.tick s.pair.times).getD 0, bytes := putBytes [] 0 c.input,
        tags := c.inTags.foldl (fun m e => mapPut e.1 e.2 m) [],
        areas := c.inMsgs.foldl (fun m e => mapPut e.1 { msgs := e.2 } m) [] }

/-- The request of a REBALANCE: the standby computes the same set, and takes the boundary announced for the switch (R207). -/
def copyRebalance (s : State) (c : StateCopy) : State :=
  match c.rebalance, s.place.rebalance with
  | none, none => s
  | none, some _ => { s with place := { s.place with rebalance := none, computing := false, migrating := false } }
  | some h, some r => { s with place := { s.place with rebalance := some { r with at_ := h } } }
  | some h, none => { s with place := { s.place with rebalance := some { at_ := h }, computing := true } }

/-- KiB of a copy by what its parts hold (Table PAIR-4): pages, images, change sets, retentive writes and the register image. The lengths
of header, context and trailer are not stated, and count nothing (DESIGN CHOICE, log entry 121). -/
def copySize (pages images changes retentive registers : Nat) : Nat :=
  min 0xFFFF ((4096 * pages + images + changes + retentive + 4 * registers + 1023) / 1024)

def copyTotal (c : StateCopy) (p : Program) : Nat :=
  copySize c.pages (p.inSize + p.outSize) ((c.changes.map (·.size)).sum) c.retentive.length c.settings.length

/-- X of R170: T_own(m) − T_act(m). -/
def copyXlate (s : State) (c : StateCopy) : Option Int := (mapGet? c.tick s.pair.times).map fun t => (t : Int) - c.tAct

/-- A complete copy becomes the standby's state, and is acknowledged. -/
def applyCopy (s : State) (c : StateCopy) : State :=
  let s := copyRebalance (copyInput (copyRecords (copyTime (copyUnits (copyPages s c) c) c) c) c) c
  let kib := copyTotal c (mainProg s)
  let s := if c.retentive.isEmpty then s
    else
      let g := inactiveGen s
      let s := s.setInactiveGen { g with bytes := putBytes g.bytes 0 c.retentive }
      { s with prog := { s.prog with retDone := true } }
  { s with
    voter := { s.voter with csn := c.mark, gen := c.gen, xlate := copyXlate s c },
    prog := { s.prog with outs := c.output.foldl (fun m e => mapPut (progKey 0 e.1) e.2 m) s.prog.outs },
    place := { s.place with map := copyMap s c, copyLost := lossesOf c.loss c.lossCard },
    pair := { s.pair with
      missing := 0, coalescing := c.coalesced, handover := c.handover, finalSent := c.final, copied := s.pair.copied || c.full,
      applied := c.tick, peer := c.claim, copyLast := kib, copyMax := max s.pair.copyMax kib,
      usLast := min 0xFFFF c.us, usMax := max s.pair.usMax (min 0xFFFF c.us), testAge := c.testAge } }

/-- A copy is missing at the standby (R265). -/
def copyMissing (s : State) : State :=
  if s.pair.role ≠ .standby || s.pair.state ≠ .synced then s
  else
    let s := raiseOpen s .pair 2
    let s := { s with pair := { s.pair with missing := min 2 (s.pair.missing + 1), missCount := satUp 0xFF s.pair.missCount } }
    if 2 ≤ s.pair.missing then confirmCause s else s

/-- A copy has arrived whole: a good trailer makes it the state in force, a bad one makes it missing. -/
def stateCopy (s : State) (c : StateCopy) (ok : Bool) : State :=
  if s.pair.role ≠ .standby || !(s.pair.state = .syncing || s.pair.state = .synced) then s
  else if !ok then copyMissing s
  else
    let s := applyCopy s c
    if (claimRole c.claim < 2 || claimHealth c.claim < 32) && !c.final then confirmCause s else s

def execStateCopy (c : StateCopy) (trailerOk : Bool) (s : State) : Out := .next (stateCopy s c trailerOk)

def execCopyMissing (s : State) : Out := .next (copyMissing s)

/-- The standby acknowledges a copy (R262); during a REBALANCE it names the digest of the set that it has computed (R207). -/
def copyAcked (s : State) (a : CopyAck) : State :=
  let s := match a.set with | some d => partnerSet s d | none => s
  match s.pair.sent with
  | some c =>
    if c.tick ≠ a.tick then s
    else
      let us := min 0xFFFF ((s.tb3 - c.started) / 1000)
      { s with pair := { s.pair with sent := none, dirtyOld := [], applied := a.tick, coalescing := false, coalesced := 0,
                                     usLast := us, usMax := max s.pair.usMax us } }
  | none => s

def execCopyAcknowledged (ack : CopyAck) (s : State) : Out := .next (copyAcked s ack)

/-! ### Hand-back and hand-over (R267, R268, R274) -/

def revertHold (s : State) : Nat := s.regField .pair 0x104 11 0

/-- The preferred module's conditions. -/
def revertHolds (s : State) : Bool :=
  s.pair.role = .standby && s.pair.state = .synced && claimPrio s.pair.peer < pairPrio s && revertHold s ≠ 0
    && claimHealth s.pair.peer ≤ health s

/-- A boundary of the count; a break restarts it. -/
def revertStep (s : State) : State :=
  if revertHolds s then
    let t := s.pair.revertTicks + 1
    { s with pair := { s.pair with revertTicks := t, revertSec := min 0xFFFF (t * s.tick.period * Config.periodUnit / 1000000000) } }
  else { s with pair := { s.pair with revertTicks := 0, revertSec := 0, revertDue := false } }

/-- The count reaches REVERT_HOLD: the beacons ask for the hand-back. -/
def execRevertDue (s : State) : Out :=
  .next (if revertHolds s && revertHold s ≤ s.pair.revertSec then { s with pair := { s.pair with revertDue := true } } else s)

/-- Step 4 of boundary n names the hand-over boundary where a hand-over is asked for: by SWITCHOVER, or by the standby while no
activity holds the PAIR token. -/
def announceHandover (s : State) (n : Nat) : State :=
  let commanded : Bool := match (s.ucb .pair).running with | some r => r.code = 0x80 | none => false
  if s.pair.role = .standby || s.pair.state ≠ .synced || s.pair.handover ≠ 0 then s
  else if commanded || (s.pair.peerRevertDue && (s.ucb .pair).token.isNone) then
    { s with pair := { s.pair with handover := n + 2 } }
  else s

/-- RESYNC: any sync is dropped, and the resync holds its tokens from here. -/
def resyncCmd (s : State) : State :=
  let s := if s.pair.state = .synced then partnerLost s .handshake
    else { s with pair := { s.pair with state := .handshake, resyncDue := true } }
  takeTokens s .partnerResync .pair

/-- DETACH: no more copies; the pair is LINKED. -/
def detachCmd (s : State) : State := partnerLost s .linked

/-- The precondition of a command of Table PAIR-7. -/
def pairReady (s : State) (code : Nat) : Bool :=
  match code with
  | 0x81 => s.pair.state = .linked || s.pair.state = .synced
  | 0x80 => s.pair.role ≠ .standby && s.pair.state = .synced
  | _ => s.pair.state = .synced

/-! ### Takeover (R225, R266) -/

/-- The counter that a new active module starts with. -/
def takeoverCsn (csn : Nat) : Nat := csn / 2 ^ 32 * 2 ^ 32 + 2 * 2 ^ 32

/-- G and X at a takeover (Table TMR-2). -/
def takeoverGen (v : VoterState) : VoterState :=
  if 0xFFFFFFFF ≤ v.gen then { v with gen := 1, xlate := none } else { v with gen := v.gen + 1 }

/-- The losses that a new active module starts from: those of the copy and its own (R205). What only the copy lists is healthy here, and
starts its count to return. -/
def takeLosses (s : State) : State :=
  let copied := s.place.copyLost.filter fun r => r ∉ s.place.lost
  let s := { s with place := { s.place with lost := s.place.lost ++ copied, copyLost := [] } }
  copied.foldl (fun s r => if r = .partner then s else s.healthy r) s

/-- The module becomes active at a boundary, by takeover or by an announced hand-over. Boundaries go on from those it followed, on TB0
where it is ALIGNED and otherwise on TB3 in FREE (R266). -/
def takeOver (s : State) (handover : Bool) : State :=
  let s := [Activity.foxglove, .brakeTest, .splitJoin, .clockChange, .firmwareApply, .partnerResync, .offPulseRetime].foldl endActivity s
  let s := s.mapLanes fun _ x => { x with current := none, safety := {}, timed := {}, skip := {}, free := {}, queue := [], spill := [] }
  let s := { s with voter := { takeoverGen s.voter with csn := takeoverCsn s.voter.csn, groups := [] },
                    tick := { s.tick with align := if s.tick.align = .aligned then .aligned else .free },
                    safe := { s.safe with wordsMissed := 0, stbyApply := false } }
  let s := takeLosses s
  let s := { s with pair := { s.pair with seizeLeft := 8, handover := 0, finalSent := false, takeover := false, missing := 0,
                                          revertDue := false, revertTicks := 0, revertSec := 0, follow := none,
                                          dirtyOld := [], dirtyBulk := [] } }
  let s := if handover then s
    else
      let s := losePartner s
      raiseOpen { s with pair := { s.pair with state := .alone, takeovers := satUp 0xFF s.pair.takeovers } } .pair 5
  setRole s .seize

/-- A SEIZE claim becomes ACTIVE after its eight boundaries. -/
def seizeStep (s : State) : State :=
  if s.pair.role ≠ .seize then reclaim s
  else
    let k := s.pair.seizeLeft - 1
    setRole { s with pair := { s.pair with seizeLeft := k } } (if k = 0 then .active else .seize)

/-! ### Deposed (R254) -/

/-- A higher claim has been accepted at two consecutive latches: the module stops its program and claims STANDBY. -/
def depose (s : State) : State :=
  let s := discardEmissions (commitSafe (driveSafe s) [0, 1, 2, 3])
  let s := { s with tick := { s.tick with running := false }, safe := { s.safe with wordsMissed := 0, stbyApply := false } }
  let s := setRole { s with pair := { s.pair with deposed := true, higher := 0, resyncDue := true, state := .handshake } } .standby
  raiseOpen s .pair 6

/-! ### Stations (R270 to R272) -/

def stationKey (p i : Nat) : Nat := p * 4096 + i

def stationOf (p : Program) (i : Nat) : Option StationDecl := p.stations.find? fun d => d.index = i

def State.station (s : State) (k : Nat) : StationSt := mapGetD s.pair.stations k {}

def State.setStation (s : State) (k : Nat) (x : StationSt) : State :=
  { s with pair := { s.pair with stations := mapPut k x s.pair.stations } }

/-- The unit that reaches a station (R280): its card, its channel or port, or the port that carries its telegram now. -/
def stationUnit (s : State) (p : Nat) (d : StationDecl) : Option UnitId :=
  match d.kind with
  | .card t => some (.card t 0)
  | .can n _ => some (.can n)
  | .serial x _ => some (.ser x)
  | .telegram g =>
    match ((mapFor s p).bind (·.route g)).bind (·.port) with
    | some (.eth x) => some (.eth x)
    | _ => none

/-- A boundary's steps 1 to 3 are under way: its phase, which the command BOUNDARY carries out at once, lasts TICK_BPH. -/
def inBoundary (s : State) : Bool := s.tick.begun && s.tb3 < s.tick.time + s.tick.bph

/-- A present station is lost: STATION_LOST once. A commit to it at the boundary under way is undelivered (R271). A telegram that no port
carries leaves the address open (log entry 6). -/
def loseStation (s : State) (k : Nat) : State :=
  let x := s.station k
  if !x.present then s
  else
    let s := s.setStation k { x with present := false, waitFresh := false, fresh := false, missed := 0,
                                     undelivered := x.undelivered || inBoundary s }
    match (stationOf (progOf s (k / 4096)) (k % 4096)).bind (stationUnit s (k / 4096)) with
    | some u => raise s .pair 0xA (baseOf u)
    | none => raiseOpen s .pair 0xA

/-- The port of a station reports it absent. -/
def stationLost (s : State) (i : Nat) : State :=
  (progsInForce s).foldl (fun s p => if (stationOf (progOf s p) i).isSome then loseStation s (stationKey p i) else s) s

def execStationLost (idx : BitVec 12) (s : State) : Out := .next (stationLost s idx.toNat)

/-! ### Registers (Tables PAIR-5 and PAIR-6) -/

def pairSettingOk (off : Nat) (v : W32) : Bool :=
  if off = 0x104 then 1 ≤ field v 19 16 && field v 11 0 ≤ 3600 else true

/-- PAIR_STN_INFO for a bank. -/
def stationInfo (s : State) (bank : Nat) : W32 :=
  let p := if s.voter.mode = .split then 1 + bank else 0
  let i := s.regField .pair 0x130 11 0 bank
  match stationOf (progOf s p) i with
  | none => 0
  | some d =>
    let x := s.station (stationKey p i)
    pack [(1, 31), (b2n x.present, 30), (x.tag.code, 28), (b2n x.waitFresh, 27), (b2n x.undelivered, 26), (min 255 x.missed, 8),
      (d.staleTicks % 256, 0)]

def pairRead (s : State) (bank off : Nat) : W32 :=
  let p := s.pair
  match off with
  | 0x100 => pack [(p.role.code, 14), (b2n p.link1, 13), (b2n p.link0, 12), (b2n p.deposed, 11), (b2n (p.role = .seize), 10),
      (b2n p.revertDue, 9), (b2n (p.handover ≠ 0), 8), (b2n p.coalescing, 7), (p.state.code, 4), (p.missing, 2)]
  | 0x108 => pack [(p.peer.toNat, 16), (p.own.toNat, 0)]
  | 0x10C => p.sync.word
  | 0x110 => pack [(p.copyMax, 16), (p.copyLast, 0)]
  | 0x114 => pack [(p.usMax, 16), (p.usLast, 0)]
  | 0x118 => pack [(p.takeovers, 24), (p.missCount, 16), (p.coalCount, 8), (p.lostCount, 0)]
  | 0x11C => BitVec.ofNat 32 p.applied
  | 0x120 => BitVec.ofNat 32 (p.applied / 2 ^ 32)
  | 0x124 => BitVec.ofNat 32 p.handover
  | 0x128 => BitVec.ofNat 32 (p.handover / 2 ^ 32)
  | 0x12C => BitVec.ofNat 32 p.revertSec
  | 0x134 => stationInfo s bank
  | _ => 0

end Sys2Proof.Machine
end

