-- ==== Sys2Proof/Machine/Latch.lean ====
section
/-! DEFINITION. Step 2 of a boundary: stations that have lost or regained their route, and the input image of every program that runs
(R67, R68, R270 to R272, R338, R339, R359, R360, R385, R386, R390, R392, R408, R413). -/

namespace Sys2Proof.Machine

open Sys2Proof

/-! ### Stations (R270 to R272, R360, R386, R392) -/

/-- The resource whose loss takes a station away. -/
def stationRoute (s : State) (p : Nat) (d : StationDecl) : Option Resource :=
  match stationUnit s p d with
  | some (.card t _) => some (.card t)
  | some (.can n) => some (.port (.can n))
  | some (.ser x) => some (.port (.ser x))
  | some (.eth x) => some (.port (.eth x))
  | _ => none

/-- A station's route is in force: its port or card is not lost, and a telegram has a port. -/
def stationRouted (s : State) (p : Nat) (d : StationDecl) : Bool :=
  match stationRoute s p d with
  | some r => r ∉ s.place.lost
  | none => false

/-- Messages that stand in the receive staging of an object and had been received whole when instant `t` began (R68). -/
def stagedFor (s : State) (t key : Nat) : List (List Byte) :=
  match (routeOf s key).bind (·.port) with
  | some (.can n) => ((mapGetD (s.can n).rxBufs key []).filter fun c => decide (c.got < t)).map (·.data)
  | some (.ser x) => ((mapGetD (s.ser x).rx key []).filter fun c => decide (c.1 < t)).map (·.2)
  | _ => []

/-- The data of a telegram's slot at instant `t`: what arrives at `t` or later belongs to the next latch. -/
def TelegramSeen.dataFor (x : TelegramSeen) (t : Nat) : Option (List Byte) := if x.at_ < t then some x.data else x.before

/-- A station has delivered data since the previous latch. -/
def stationSpoke (s : State) (t p : Nat) (d : StationDecl) : Bool :=
  match d.kind with
  | .card c => ((s.card c).imageFor t).2
  | .can _ os | .serial _ os => os.any fun o => !(stagedFor s t (objKey p o)).isEmpty
  | .telegram g =>
    match mapGet? (telKey p g) s.net.slots with
    | some x => s.tick.time ≤ x.at_ && x.at_ < t
    | none => false

/-- One station at a latch: lost with its route; returned by the first latch that holds data of it after its return; otherwise absent
for one more latch. It awaits its first fresh latch once a route that it had lost is back (R273). -/
def stationLatch (s : State) (t p : Nat) (d : StationDecl) : State :=
  let k := stationKey p d.index
  let routed := stationRouted s p d
  let s := if routed then s else loseStation s k
  let x := s.station k
  if x.present then s.setStation k { x with tag := .good }
  else if routed && stationSpoke s t p d then
    s.setStation k { x with present := true, waitFresh := false, unrouted := false, fresh := true, missed := 0, tag := .good }
  else
    s.setStation k { x with waitFresh := routed && x.unrouted, unrouted := x.unrouted || !routed, missed := x.missed + 1,
                            tag := if x.missed < d.staleTicks then .stale else .bad }

def stationsLatch (s : State) (t : Nat) : State :=
  (progsInForce s).foldl (fun s p => (progOf s p).stations.foldl (fun s d => stationLatch s t p d) s) s

/-- The station of a value or object, while it is absent. -/
def absent (s : State) (p : Nat) (station : Option Nat) : Option (StationDecl × StationSt) :=
  match station.bind (stationOf (progOf s p)) with
  | some d =>
    let x := s.station (stationKey p d.index)
    if x.present then none else some (d, x)
  | none => none

/-! ### Input-image values -/

/-- The last edge of a channel was accepted at instant `t` or later, and belongs to the next latch (R68). -/
def DiState.late (d : DiState) (t : Nat) : Bool := decide (0 < d.edgesLatch) && decide (t ≤ d.acceptedAt)

/-- What an input channel shows at instant `t` (Table FIO-3, R339). -/
def diLevel (s : State) (t ch : Nat) : Bool :=
  let inv := if ch < 16 then bitAt (s.reg .safe (0x200 + 0x10 * ch)) 0 else bitAt (s.reg .safe 0x114) (ch - 16)
  let d := s.di ch
  !diBad s ch && Bool.xor (Bool.xor d.accepted (d.late t)) inv

/-- The edges of a channel since the previous latch, and the stamp of the last, at instant `t`. -/
def diEdges (d : DiState) (t : Nat) : Nat := d.edgesLatch - b2n (d.late t)

def diStamp (d : DiState) (t : Nat) : Nat := if d.late t then d.stampBefore else d.stamp

def diTag (s : State) (ch : Nat) : Tag := if diBad s ch then .bad else .good

def fieldTag (s : State) : Tag := if safeRun s then .good else .bad

/-- DOm_S. -/
def doByte (s : State) (m : Nat) : Nat :=
  let d := s.dout m
  b2n s.safe.openA * 32 + b2n d.overtemp * 16 + b2n d.overload * 8 + b2n d.isOpen * 4 + b2n d.latched * 2 + b2n d.drv

/-- SUPPLY. -/
def supplyByte (s : State) : Nat :=
  b2n s.safe.lpbLow * 8 + b2n s.safe.lpaLow * 4 + b2n s.safe.lpbHigh * 2 + b2n s.safe.lpaHigh

/-- What a value's source holds in staging at instant `t`; none while the source has delivered nothing. -/
def staged (s : State) (t p : Nat) (v : InValue) : Option (Nat × Tag) :=
  match v.bind with
  | .none => none
  | .di n => some (b2n (diLevel s t n), diTag s n)
  | .diT n => some (diStamp (s.di n) t, diTag s n)
  | .diE n => some (diEdges (s.di n) t, diTag s n)
  | .doS m => some (doByte s m, fieldTag s)
  | .supply => some (supplyByte s, fieldTag s)
  | .card c off =>
    let image := ((s.card c).imageFor t).1
    if image.length < off + v.ty.size then none
    else some (fromLE ((image.drop off).take v.ty.size), if (s.card c).present then .good else .bad)
  | .telegram g off =>
    ((mapGet? (telKey p g) s.net.slots).bind (·.dataFor t)).map fun d => (fromLE ((d.drop off).take v.ty.size), Tag.good)

/-- The value as the previous latch left it. -/
def before (prev : InBuf) (v : InValue) : Option Nat :=
  (mapGet? v.off prev.tags).map fun _ => Memory.readNat prev.bytes v.off v.ty.size

/-- Value and tag of a declared value at a latch (R68, R271). A value that nothing has delivered yet holds its initial value, BAD. -/
def latchValue (s : State) (t p : Nat) (prev : InBuf) (v : InValue) : Nat × Tag :=
  let got := staged s t p v
  match absent s p v.station with
  | some (d, x) => if d.subst then (v.subst, x.tag) else if got.isNone then (v.init, .bad) else ((before prev v).getD v.init, x.tag)
  | none => got.getD (v.init, .bad)

/-! ### Message areas (R156, R159, R359, R360) -/

/-- The object's route is not its first candidate. -/
def rerouted (s : State) (key : Nat) : Bool :=
  match routeOf s key with
  | some r => r.cand.isSome && r.cand ≠ some 0
  | none => false

/-- A message lost its place in the object's staging. -/
def markedFor (s : State) (key : Nat) : Bool :=
  match (routeOf s key).bind (·.port) with
  | some (.can n) => decide (key ∈ (s.can n).marked)
  | some (.ser x) => decide (key ∈ (s.ser x).marked)
  | _ => false

/-- The message that stands for an absent station. -/
def absentMessage (d : StationDecl) (x : StationSt) (m : MsgDecl) : List Byte × Tag :=
  match x.held.find? fun e => e.1 = m.index with
  | some e => (if d.subst then m.subst else bytesLE m.len e.2.value, x.tag)
  | none => (List.replicate m.len 0, .bad)

def latchArea (s : State) (t p : Nat) (m : MsgDecl) : MsgArea :=
  let key := objKey p m.index
  let area : MsgArea := { rerouted := rerouted s key, undelivered := m.tx && decide (key ∈ s.prog.txUndelivered) }
  if m.tx then area
  else
    match absent s p m.station with
    | some (d, x) => { area with msgs := [absentMessage d x m] }
    | none => { area with msgs := (stagedFor s t key).map fun b => (b, Tag.good), overrun := markedFor s key }

/-- The last payload of each object of a station is kept for R360. -/
def holdPayloads (s : State) (t p : Nat) : State :=
  (progOf s p).msgs.foldl (fun s m =>
    match m.station, (stagedFor s t (objKey p m.index)).getLast? with
    | some i, some b =>
      let k := stationKey p i
      let x := s.station k
      s.setStation k { x with held := x.held.filter (fun e => e.1 ≠ m.index) ++ [(m.index, ⟨fromLE b, .good⟩)] }
    | _, _ => s) s

/-! ### The buffer (R67, R68) -/

/-- A block that the module itself writes, with the tags of its parts. -/
def putBlock (b : InBuf) (off : Nat) (bs : List Byte) (tags : List (Nat × Tag)) : InBuf :=
  { b with bytes := Memory.writeBytes b.bytes off bs, tags := tags.foldl (fun m t => mapPut (off + t.1) t.2 m) b.tags }

/-- The tags of the time block's parts (R408). -/
def timeTags (s : State) (t : Nat) : List (Nat × Tag) :=
  (List.range 5).map (fun i => (16 * i, tbTag s i t)) ++ (List.range 5).map (fun i => (80 + i, tbTag s i t)) ++ [(85, Tag.good)]

/-- The input image of a program at boundary `n`, for nominal instant `t`, after buffer `prev`. -/
def inputImage (s : State) (p n t : Nat) (prev : InBuf) : InBuf :=
  let prog := progOf s p
  let b := prog.inputs.foldl (fun (b : InBuf) v =>
    let x := latchValue s t p prev v
    putBlock b v.off (bytesLE v.ty.size x.1) [(0, x.2)]) { n, time := t }
  let b := match prog.summaryAt with | some o => putBlock b o (summaryBytes s) [(0, .good)] | none => b
  let b := match prog.timeAt with | some o => putBlock b o (timeBlock s t) (timeTags s t) | none => b
  let b := prog.captureAt.foldl (fun (b : InBuf) c => putBlock b c.2 (captureBlock s c.1 t).1 [(0, (captureBlock s c.1 t).2)]) b
  { b with areas := prog.msgs.foldl (fun m d => mapPut d.index (latchArea s t p d) m) [] }

/-- A buffer that a suspended context still reads. -/
def bufHeld (x : LaneSt) (i : Nat) : Bool :=
  (x.free.busy && x.free.buf = i) || ((x.skip.busy || !x.skip.todo.isEmpty) && x.skip.buf = i)

/-- The free buffer that was latched longest ago. -/
def freeBuf (x : LaneSt) : Nat :=
  let fs := [0, 1, 2].filter fun i => !bufHeld x i
  (fs.foldl (fun (best : Option Nat) i => match best with
    | some j => if (x.inBuf i).n < (x.inBuf j).n then some i else some j
    | none => some i) none).getD 0

/-- The latch writes the image of its program into a lane. -/
def latchLane (s : State) (l : Lane) (n t : Nat) : State :=
  let x := s.lane l
  s.setLane l (x.setInBuf (freeBuf x) (inputImage s (progNo s l) n t (x.inBuf (newestBuf x))))

/-- What a ring keeps for the next latch: what came at instant `t` or later. -/
def keepLate {α : Type} (when_ : α → Nat) (t : Nat) (m : NMap (List α)) : NMap (List α) :=
  (m.map fun e => (e.1, e.2.filter fun c => decide (t ≤ when_ c))).filter fun e => !e.2.isEmpty

/-- What the latch of instant `t` takes from staging leaves it (R68). -/
def takeStaging (s : State) (t : Nat) : State :=
  let s := (List.finRange 6).foldl (fun s (n : Fin 6) =>
    s.setCan n { s.can n with rxBufs := keepLate FrameCell.got t (s.can n).rxBufs, marked := [] }) s
  let s := (List.finRange 4).foldl (fun s (x : Fin 4) =>
    s.setSer x { s.ser x with rx := keepLate Prod.fst t (s.ser x).rx, marked := [] }) s
  let s := (List.range 18).foldl (fun s ch => s.setDi ch { s.di ch with edgesLatch := b2n ((s.di ch).late t), tag := diTag s ch }) s
  clearSummary ((List.range 4).foldl (captureLatched t) s)

/-- The claim number that a card reports it accepts: the two bytes after its IN_BYTES of input image (log entry 37). -/
def cardClaim (s : State) (t : Nat) (slot : Fin 32) : Nat :=
  let c := s.card slot
  let k := recByte c.record 0x20 + 256 * recByte c.record 0x21
  fromLE (((c.imageFor t).1.drop k).take 2)

/-- The latch picks up the cards' claims (R254): two in a row above the own depose a module with ROLE ACTIVE. -/
def claimsLatched (s : State) (t : Nat) : State :=
  let above := s.pair.role = .active && (cardSlots s).any fun c => (s.card c).present && s.pair.own.toNat < cardClaim s t c
  { s with pair := { s.pair with higher := if above then s.pair.higher + 1 else 0 } }

/-- Step 2 of boundary `n`, at nominal instant `t`. -/
def latchStep (s : State) (n t : Nat) : State :=
  let s := stationsLatch s t
  let s := (runSet s).foldl (fun s l => latchLane s l n t) s
  let s := (progsInForce s).foldl (fun s p => holdPayloads s t p) s
  countMisses (claimsLatched (takeStaging s t) t) t

end Sys2Proof.Machine
end

