-- ==== Sys2Proof/Machine/Commit.lean ====
section
/-! DEFINITION. Step 3 of a boundary: what passed goes to output stages, message ports and telegrams, or the safe values do (R70, R77,
R83, R160, R224, R237, R306, R307, R341, R361, R363, R384, R390). -/

namespace Sys2Proof.Machine

open Sys2Proof

/-! ### Output-image values (R70, R160) -/

/-- What a whole emission group holds, by CSN. -/
def committedWrites (gs : List EmitGroup) : List OutWrite :=
  sortBy (fun (a b : OutWrite) => a.csn ≤ b.csn) ((gs.filter (·.done.isSome)).flatMap (·.writes))

/-- In SPLIT a write of the main program that is bound to safety is not committed any more (R237). -/
def stays (s : State) (w : OutWrite) : Bool :=
  if s.voter.mode ≠ .split || w.prog ≠ 0 then true
  else if w.msg then !((msgDecl s w.key).map (·.safety)).getD false
  else !((mainProg s).outputs.any fun v => v.off = w.key && v.safety)

/-- The value of highest CSN stands. -/
def commitValues (s : State) (ws : List OutWrite) : State :=
  { s with prog := { s.prog with outs := (ws.filter fun w => !w.msg).foldl (fun m w =>
      mapPut (progKey w.prog w.key) ⟨fromLE w.data, w.tag⟩ m) s.prog.outs } }

/-- The outputs bound to safety carry their safe values in SPLIT. -/
def splitSafe (s : State) : State :=
  if s.voter.mode ≠ .split then s
  else { s with prog := { s.prog with outs := (mainProg s).outputs.foldl (fun m v =>
      if v.safety && hasSafe v then mapPut (progKey 0 v.off) ⟨safeOf v, .good⟩ m else m) s.prog.outs } }

/-! ### Onboard outputs (R237, R263, R341) -/

/-- What an output value drives: the committed value, or the safe value with tag BAD and for an output bound to safety in SPLIT. -/
def drivenValue (s : State) (p : Nat) (v : OutValue) : Nat :=
  let x := mapGetD s.prog.outs (progKey p v.off) ⟨v.init, .good⟩
  if x.tag = .bad || (s.voter.mode = .split && v.safety) then safeOf v else x.value

/-- The level of an onboard output that one of some programs drives. -/
def levelOf (s : State) (ps : List Nat) (b : OutBind) : Bool :=
  match outputIn s ps b with
  | some (p, v) => drivenValue s p v ≠ 0
  | none => false

/-- The onboard outputs follow the committed values of some programs; a standby holds its DO channels safe and follows the brake word. -/
def driveOutputs (s : State) (ps : List Nat) : State :=
  if programHeld s then (List.finRange 8).foldl (fun s (m : Fin 8) => commitDo s m (doSafe s m)) s
  else
    let s := (List.finRange 8).foldl (fun s (m : Fin 8) => commitDo s m (levelOf s ps (.dout m))) s
    commitBrake (commitBrake s 0 (levelOf s ps (.bk 0))) 1 (levelOf s ps (.bk 1))

/-- The programs whose committed values drive the onboard outputs: those that run before the main program, which alone does at the switch
boundary of SPLIT (R237). -/
def drivers (s : State) (switch : Bool) : List Nat := if switch then [0] else progsInForce s ++ [0]

/-- The brake word of step 3 (R263, R306): the committed commands of both brakes, which an active module sends to its partner. -/
def sendBrakeWord (s : State) : State :=
  let sends := (s.pair.role = .active || s.pair.role = .seize) && (s.pair.link0 || s.pair.link1)
  { s with safe := { s.safe with wordOut := if sends then some (s.safe.bk0.cmd, s.safe.bk1.cmd) else none } }

/-- The claim number goes at step 3 to every card that is reached, with the commit of an active module (R253). -/
def sendClaims (s : State) : State :=
  { s with hlk := { s.hlk with claims := (cardSlots s).foldl (fun m t =>
      if cardReachable s t then mapPut t.val s.pair.own m else m) [] } }

/-! ### Messages (R271, R272, R361, R363, R390) -/

/-- A station takes no commit while it is absent, nor at the boundary of its return. -/
def stationTakes (s : State) (p : Nat) (station : Option Nat) : Bool :=
  match station.bind (stationOf (progOf s p)) with
  | some d =>
    let x := s.station (stationKey p d.index)
    x.present && !x.fresh
  | none => true

/-- The port that takes a message of an object now. -/
def deliveryPort (s : State) (key : Nat) (d : MsgDecl) (p : Nat) : Option Port :=
  match (routeOf s key).bind (·.port) with
  | some q => if q ∈ s.place.lost.filterMap (fun r => match r with | .port x => some x | _ => none) || !stationTakes s p d.station
      then none else some q
  | none => none

/-- The frame of a message. -/
def frameOfMsg (key : Nat) (d : MsgDecl) (w : OutWrite) : FrameCell :=
  { ext := d.ext, fd := d.fd, brs := d.brs, esi := false, object := key, ident := d.ident, stamp := 0, csn := w.csn, data := w.data }

/-- What a commit of messages has come to: the objects that failed, and the polls by port. -/
structure Deliveries where
  failed : List Nat := []
  polls : List (Nat × Nat) := []
deriving DecidableEq, Repr

/-- One message goes to its port. -/
def commitMessage (acc : State × Deliveries) (w : OutWrite) : State × Deliveries :=
  let (s, r) := acc
  let fail : State × Deliveries := (s, { r with failed := mark r.failed w.key })
  match msgDecl s w.key, routeOf s w.key with
  | some d, some route =>
    match deliveryPort s w.key d w.prog with
    | some (.can n) =>
      if w.tag = .bad then fail
      else
        match canEnter s n d route (frameOfMsg w.key d w) with
        | (s, true) => (s, r)
        | (s, false) => (if w.key ∈ r.failed then s else canUndelivered s n, { r with failed := mark r.failed w.key })
    | some (.ser x) => if serRun s x then (s, { r with polls := r.polls ++ [(x.val, w.key)] }) else fail
    | _ => fail
  | _, _ => fail

/-- A commit to an object with a dedicated buffer supersedes what waits there. -/
def supersede (s : State) (w : OutWrite) : State :=
  match msgDecl s w.key, routeOf s w.key with
  | some d, some route =>
    match deliveryPort s w.key d w.prog with
    | some (.can n) => if route.buffer < 0x100 then canSupersede s n route.buffer else s
    | _ => s
  | _, _ => s

/-- The committed messages enter their ports in CSN order; the poll lists are formed; each object shows whether its commit was
delivered. -/
def commitMessages (s : State) (ws : List OutWrite) : State :=
  let ms := ws.filter (·.msg)
  let keys := (ms.map (·.key)).eraseDups
  let s := keys.foldl (fun s k => match ms.find? (fun (w : OutWrite) => w.key = k) with | some w => supersede s w | none => s) s
  let (s, r) := ms.foldl commitMessage (s, {})
  let s := (List.finRange 4).foldl (fun s (x : Fin 4) =>
    serList s x ((r.polls.filter fun q => q.1 = x.val).map (·.2))) s
  { s with prog := { s.prog with
      txUndelivered := r.failed.foldl mark (s.prog.txUndelivered.filter fun k => decide (k ∉ keys)) } }

/-- Whether the commit reached each station. -/
def stationsCommitted (s : State) : State :=
  (progsInForce s).foldl (fun s p => (progOf s p).stations.foldl (fun s d =>
    let k := stationKey p d.index
    let x := s.station k
    s.setStation k { x with undelivered := !x.present || x.fresh, fresh := false }) s) s

/-! ### Step 3 -/

/-- What has passed so far is committed; groups that are still passing wait (R160). -/
def commitPassed (s : State) (n : Nat) (gs : List EmitGroup) (switch : Bool) : State :=
  let ws := (committedWrites gs).filter (stays s)
  let s := driveOutputs (splitSafe (commitValues s ws)) (drivers s switch)
  let s := commitMessages s ws
  let s := stationsCommitted s
  publishDue s n

/-- Safe values only (R77, R83, R306). -/
def commitSafeOnly (s : State) : State :=
  let s := discardEmissions (commitSafe s [0, 1, 2, 3])
  if running s then driveOutputs s (drivers s false) else driveSafe s

/-- Step 3 of boundary `n`: `gs` are the groups as they stood before step 1, `safeOnly` says that a restart holds the outputs, and
`switch` that SPLIT begins. -/
def commitStep (s : State) (n : Nat) (gs : List EmitGroup) (safeOnly switch : Bool) : State :=
  let s := { s with voter := { s.voter with mark := s.voter.csn } }
  let s := if safeOnly || !running s then missDue (commitSafeOnly s) n
    else if programHeld s then driveOutputs (discardEmissions s) (drivers s switch)
    else
      let s := commitPassed s n gs switch
      { s with voter := { s.voter with groups := s.voter.groups.filter (·.done.isNone) } }
  sendClaims (sendBrakeWord (commitGeneration s))

end Sys2Proof.Machine
end

