-- ==== Sys2Proof/Machine/IsaMem.lean ====
section
/-! DEFINITION. Loads, stores and references (R132, R136 to R140). -/

namespace Sys2Proof.Machine

open Sys2Proof

/-! ### Format M -/

def MFmt.len (f : MFmt) : Nat := if f.x then 8 else 4
def MFmt.theTy (f : MFmt) : Ty := (Ty.ofCode f.ty.toNat).getD .bool

/-- The fields that format M requires (R127, R136): assigned codes, OFF6 zero under X, RA zero where unused, SPACE zero for the stack
and for a reference. -/
def MFmt.legal (f : MFmt) : Bool :=
  f.ty.toNat < 12 && f.space.toNat < 6 && (!f.x || f.off = 0) &&
    match f.base.toNat with
    | 0 => f.ra = 0
    | 1 => true
    | 2 => f.ra = 0 && f.space = 0
    | _ => f.space = 0

/-- LDQ reads tags of the image spaces (R139). -/
def MFmt.legalQ (f : MFmt) : Bool := MFmt.legal f && (f.base.toNat = 3 || f.space = 1 || f.space = 2)

/-- An exception of an access carries its space and address (R465). -/
def exceptAt (s : State) (l : Lane) (k : CtxKind) (c : LaneCtx) (kind : Nat) (a : Access) : State :=
  except s l k c kind a.space a.off

/-- LD (R137). A load from the bulk store goes out with the value it will deliver (R132, log entry 13). -/
def loadTo (s : State) (l : Lane) (k : CtxKind) (c : LaneCtx) (rd : Nat) (t : Ty) (a : Access) : LaneCtx ⊕ Nat :=
  let p := laneProg s l
  match accessExc p c a t.size t.size false with
  | some kind => .inr kind
  | none =>
    let r := readAccess s l k c a t.size
    let raw := fromLE r.1
    if t = .bool && 1 < raw then .inr xBoolInvalid
    else
      let c := if isImage a then { c with qf := loadTag c.qf r.2 } else c
      .inl (if !isImage a && isEffect s l a then c.fetchBulk rd (regForm t raw) else c.wr rd (regForm t raw))

def execLd (l : Lane) (f : MFmt) (s : State) : Out :=
  .next (issue s l (MFmt.len f) [f.rd.toNat, f.ra.toNat] (MFmt.legal f) fun k c =>
    let t := MFmt.theTy f
    let a := formAddress c f t.size
    match loadTo s l k c f.rd.toNat t a with
    | .inr kind => exceptAt s l k c kind a
    | .inl c => (noteRead s l k a t.size).setCtx l k (c.past (MFmt.len f)))

/-- The oldest outstanding load of the lane's running context delivers its value (R132); a stray event changes nothing. -/
def execLoadDataReturn (l : Lane) (s : State) : Out :=
  .next (match (s.lane l).current with
    | none => s
    | some k => s.setCtx l k ((s.lane l).ctx k).arrive)

/-- The bytes that ST writes: the low width bits of rd, a BOOL as 0x00 or 0x01 (R138). -/
def storeBytes (t : Ty) (v : W64) : List Byte :=
  if t = .bool then [BitVec.ofNat 8 (v.toNat % 2)] else bytesLE t.size v.toNat

/-- Bytes stored where an access names: the running task's output buffer, a local store, or an effect (R138). -/
def storeTo (s : State) (l : Lane) (k : CtxKind) (c : LaneCtx) (a : Access) (size : Nat) (bs : List Byte) : State :=
  if !a.stack && a.space = 2 then s.setCtx l k (c.storeOut (laneProg s l) a.off bs)
  else storePlace (s.setCtx l k c) l k (partSafe (laneProg s l) c) a size bs

/-- ST (R138). A store that is an effect stalls while the effect queue is full (R133). -/
def execSt (l : Lane) (f : MFmt) (s : State) : Out :=
  .next (issue s l (MFmt.len f) [f.rd.toNat, f.ra.toNat] (MFmt.legal f) fun k c =>
    let t := MFmt.theTy f
    let a := formAddress c f t.size
    match accessExc (laneProg s l) c a t.size t.size true with
    | some kind => exceptAt s l k c kind a
    | none =>
      if !isImage a && isEffect s l a && queueFull (s.lane l) then s
      else storeTo s l k (c.past (MFmt.len f)) a (log2Size t.size) (storeBytes t (c.rd f.rd.toNat)))

/-- LDQ (R139): the tag that LD would deliver; qf unchanged. -/
def execLdq (l : Lane) (f : MFmt) (s : State) : Out :=
  .next (issue s l (MFmt.len f) [f.rd.toNat, f.ra.toNat] (MFmt.legalQ f) fun k c =>
    let t := MFmt.theTy f
    let a := formAddress c f t.size
    match accessExc (laneProg s l) c a t.size t.size false with
    | some kind => if isImage a || kind ≠ xPartition then exceptAt s l k c kind a else exceptAt s l k c xSpaceBound a
    | none =>
      if !isImage a then exceptAt s l k c xSpaceBound a
      else s.setCtx l k ((c.wr f.rd.toNat (BitVec.ofNat 64 (readAccess s l k c a t.size).2.code)).past (MFmt.len f)))

/-- The checks of REF: those of LD but for the partition, which is checked at each access through the reference (R140). -/
def refExc (p : Program) (c : LaneCtx) (a : Access) (size : Nat) : Option Nat :=
  match accessExc p c a size size false with
  | some kind => if kind = xPartition then none else some kind
  | none => none

/-- REF (R140): the reference of the address; no reference to the stack can be formed. -/
def execRef (l : Lane) (f : MFmt) (s : State) : Out :=
  .next (issue s l (MFmt.len f) [f.rd.toNat, f.ra.toNat] (MFmt.legal f && f.base.toNat ≠ 2) fun k c =>
    let t := MFmt.theTy f
    let a := formAddress c f t.size
    match refExc (laneProg s l) c a t.size with
    | some kind => exceptAt s l k c kind a
    | none => s.setCtx l k ((c.wr f.rd.toNat (BitVec.ofNat 64 (refOf a.space a.inst a.off))).past (MFmt.len f)))

end Sys2Proof.Machine
end

