-- ==== Sys2Proof/Machine/IsaMsg.lean ====
section
/-! DEFINITION. Quality, messages, commit and vote points (R155 to R161, Tables ISA-12 to ISA-14). -/

namespace Sys2Proof.Machine

open Sys2Proof

/-! ### QUAL -/

/-- QOUT: qf.OUT := ra[1:0]. -/
def execQout (l : Lane) (f : RFmt) (s : State) : Out :=
  .next (issue s l (RFmt.len f) (RFmt.regs f) (RFmt.plain f false true false) fun k c =>
    s.setCtx l k ({ c with qf := BitVec.ofNat 8 (field (aOf c f) 1 0 * 16 + field c.qf 3 0) }.past (RFmt.len f)))

/-- QCLR: qf.WORST := GOOD. -/
def execQclr (l : Lane) (f : RFmt) (s : State) : Out :=
  .next (issue s l (RFmt.len f) [] (RFmt.plain f false false false) fun k c =>
    s.setCtx l k ({ c with qf := BitVec.ofNat 8 (field c.qf 5 4 * 16 + field c.qf 1 0) }.past (RFmt.len f)))

/-- QTST: cf.T := (qf.WORST ≤ ra[1:0]); rd := cf.T. -/
def execQtst (l : Lane) (f : RFmt) (s : State) : Out :=
  computeR s l f (RFmt.plain f true true false) fun _ c =>
    let t := decide (field c.qf 3 2 ≤ field (aOf c f) 1 0)
    .res (BitVec.ofNat 64 (b2n t)) (setT c.cf t)

/-- QMAX: rd := larger of ra[1:0] and rb[1:0]. -/
def execQmax (l : Lane) (f : RFmt) (s : State) : Out :=
  computeR s l f (RFmt.plain f true true true) fun _ c =>
    .res (BitVec.ofNat 64 (max (field (aOf c f) 1 0) (field (c.rd f.rb.toNat) 1 0))) c.cf

/-! ### Messages -/

/-- The message object that ra[15:0] names. -/
def objectOf (p : Program) (a : W64) : Option MsgDecl := p.msgs.find? fun m => m.index = field a 15 0

/-- Sends of an object in this activation. -/
def sendsOf (c : LaneCtx) (o : Nat) : Nat := mapGetD c.sends o 0

/-- How a payload is aligned where it is copied (log entry 28). -/
def payloadAlign (len : Nat) : Nat := if len % 8 = 0 then 8 else if len = 4 then 4 else if len = 2 then 2 else 1

/-- Where an exception stands in the order of R129. -/
def excRank (kind : Nat) : Nat :=
  match [xIllegal, xSignature, xAlign, xSpaceBound, xSpaceWrite, xPartition].findIdx? (· = kind) with
  | some i => i
  | none => 6

/-- Of an exception of the object and one of the reference, the first in the order of R129; `true` marks one of the reference. -/
def firstExc (obj acc : Option Nat) : Option (Nat × Bool) :=
  match obj, acc with
  | none, none => none
  | some o, none => some (o, false)
  | none, some a => some (a, true)
  | some o, some a => if excRank o ≤ excRank a then some (o, false) else some (a, true)

def exceptMsg (s : State) (l : Lane) (k : CtxKind) (c : LaneCtx) (a : Access) (e : Nat × Bool) : State :=
  if e.2 then exceptAt s l k c e.1 a else except s l k c e.1

/-- MSEND (R157, R158). -/
def execMsend (l : Lane) (f : RFmt) (s : State) : Out :=
  .next (issue s l (RFmt.len f) (f.rd.toNat :: RFmt.regs f) (RFmt.plain f true true true) fun k c =>
    let p := laneProg s l
    let a := refAccess (c.rd f.rb.toNat) 0
    match objectOf p (aOf c f) with
    | none => except s l k c xSignature
    | some m =>
      if !m.tx then except s l k c xSignature
      else
        match firstExc (if m.safety && !partSafe p c then some xPartition else none)
            (accessExc p c a m.len (payloadAlign m.len) false) with
        | some e => exceptMsg s l k c a e
        | none =>
          let n := sendsOf c m.index
          if m.sendMax ≤ n then
            s.setCtx l k (({ c with cf := setT c.cf false }.wr f.rd.toNat (BitVec.ofNat 64 m.sendMax)).past (RFmt.len f))
          else
            let msg : SentMsg :=
              { object := m.index, data := (readAccess s l k c a m.len).1, tag := Tag.decode (field c.qf 5 4) }
            (noteRead s l k a m.len).setCtx l k (({ c with cf := setT c.cf true, sends := mapPut m.index (n + 1) c.sends, msgs := c.msgs ++ [msg] }.wr
              f.rd.toNat (BitVec.ofNat 64 (n + 1))).past (RFmt.len f)))

/-- The exception of a store that MRECV makes: the images, constants and parameters and instance headers are not written. -/
def recvExc (p : Program) (c : LaneCtx) (a : Access) (len align : Nat) : Option Nat :=
  if a.space = 2 then
    orElseExc (a.off % align ≠ 0) xAlign (orElseExc (spaceSize 2 < a.off + len) xSpaceBound (some xSpaceWrite))
  else accessExc p c a len align true

/-- The pieces in which a payload is stored: words of 8 bytes, then 4, 2 and 1. -/
def pieces : Nat → Nat → List (Nat × Nat)
  | 0, _ => []
  | n + 1, len =>
    if len = 0 then []
    else
      let k := if 8 ≤ len then 8 else if 4 ≤ len then 4 else if 2 ≤ len then 2 else 1
      (k, n) :: pieces n (len - k)

/-- A payload stored from an access upwards. -/
def storePayload (s : State) (l : Lane) (k : CtxKind) (safety : Bool) (a : Access) (bs : List Byte) : State :=
  ((pieces (bs.length + 1) bs.length).foldl (fun (acc : State × Nat) q =>
    (storePlace acc.1 l k safety { a with off := a.off + acc.2 } (log2Size q.1) ((bs.drop acc.2).take q.1), acc.2 + q.1)) (s, 0)).1

/-- A context waits while records of it wait for room (R133). -/
def awaitRoom (s : State) (l : Lane) (k : CtxKind) : State :=
  if (s.lane l).spill.isEmpty then s else s.setCtx l k { (s.lane l).ctx k with wait := .emit }

/-- MRECV (R157). -/
def execMrecv (l : Lane) (f : RFmt) (s : State) : Out :=
  .next (issue s l (RFmt.len f) (f.rd.toNat :: RFmt.regs f) (RFmt.plain f true true true) fun k c =>
    let p := laneProg s l
    let a := refAccess (c.rd f.rb.toNat) 0
    match objectOf p (aOf c f) with
    | none => except s l k c xSignature
    | some m =>
      if m.tx then except s l k c xSignature
      else
        match firstExc (if !m.safety && !m.safeRead && partSafe p c then some xPartition else none)
            (recvExc p c a m.len (payloadAlign m.len)) with
        | some e => exceptMsg s l k c a e
        | none =>
          match (mapGetD ((s.lane l).inBuf c.buf).areas m.index {}).msgs[field (aOf c f) 31 16]? with
          | none => s.setCtx l k (({ c with cf := setT c.cf false }.wr f.rd.toNat 0).past (RFmt.len f))
          | some (bs, tag) =>
            if isEffect s l a && queueFull (s.lane l) then s
            else
              let c' := ({ c with cf := setT c.cf true, qf := loadTag c.qf tag }.wr f.rd.toNat (BitVec.ofNat 64 m.len)).past
                (RFmt.len f)
              awaitRoom (storePayload (s.setCtx l k c') l k (partSafe p c) a bs) l k)

/-- The status word of MSTAT (Table ISA-14). -/
def mstatWord (c : LaneCtx) (m : MsgDecl) (q : MsgArea) : Nat :=
  sendsOf c m.index % 256 * 2 ^ 24 + b2n q.undelivered * 2 ^ 18 + b2n q.rerouted * 2 ^ 17 + b2n q.overrun * 2 ^ 16 + q.msgs.length

/-- MSTAT (R159). -/
def execMstat (l : Lane) (f : RFmt) (s : State) : Out :=
  .next (issue s l (RFmt.len f) (f.rd.toNat :: RFmt.regs f) (RFmt.plain f true true false) fun k c =>
    let p := laneProg s l
    match objectOf p (aOf c f) with
    | none => except s l k c xSignature
    | some m =>
      if !m.tx && !m.safety && !m.safeRead && partSafe p c then except s l k c xPartition
      else
        let q := mapGetD ((s.lane l).inBuf c.buf).areas m.index {}
        s.setCtx l k ((c.wr f.rd.toNat (BitVec.ofNat 64 (mstatWord c m q))).past (RFmt.len f)))

/-! ### Commit and vote points -/

/-- CMT: the emission of what the context has stored and sent since its last one (R160). -/
def execCmt (l : Lane) (f : RFmt) (s : State) : Out :=
  .next (issue s l (RFmt.len f) [] (RFmt.plain f false false false) fun k c => emit s l k (c.past (RFmt.len f)))

/-- VSYNC: a vote event with the value of ra and its own pc (R161). -/
def execVsync (l : Lane) (f : RFmt) (s : State) : Out :=
  .next (issue s l (RFmt.len f) (RFmt.regs f) (RFmt.plain f false true false) fun k c =>
    if queueFull (s.lane l) then s
    else
      let r : EffectRec :=
        { kind := 5, size := 3, last := false, safety := partSafe (laneProg s l) c, tag := .good, addr := c.pc.toNat,
          beats := [(aOf c f).toNat], ctx := k }
      (s.present l r).setCtx l k (c.past (RFmt.len f)))

end Sys2Proof.Machine
end

