-- ==== Sys2Proof/Machine/Voter.lean ====
section
/-! DEFINITION. LANE/VOTER but for the vote itself: disagreements, the state digest, mode changes, exclusion, rejoin and resync, lane
self-tests, the Foxglove test and the registers (R231 to R249). The vote stands in `Vote`. -/

namespace Sys2Proof.Machine

open Sys2Proof

/-! ### Disagreements (R218 to R221, Table VOTE-9) -/

/-- LANE_DIS and LANE_DIS_ADDR. -/
def noteDis (s : State) (l : Option Lane) (how kind addr : Nat) : State :=
  { s with voter := { s.voter with
      disLane := l, disHow := how, disKind := kind, disPos := min 0xFFFFFF s.voter.pos, disAddr := addr % 2 ^ 32 } }

def countDis (s : State) (l : Lane) : State := s.setLane l { s.lane l with dis := satUp 0xFFFF (s.lane l).dis }

/-- DISAGREE, LATE or STAGGER of a lane at a record. -/
def laneAgainst (s : State) (l : Lane) (kind how : Nat) (r : EffectRec) : State :=
  laneFault (countDis (noteDis s (some l) how r.kind r.addr) l) l kind (r.addr % 2 ^ 32)

/-- NO_MAJORITY or VOTER_SELF at a record: nothing passes. -/
def noPass (s : State) (kind : Nat) (r : EffectRec) : State :=
  let s := noteDis s none 0 r.kind r.addr
  voterStop s kind s.voter.disAddr

/-! ### The state digest (R231 to R234, Table VOTE-5) -/

/-- The CRC-64 of a line's address and content. -/
def lineTerm (x : LaneSt) (i : Nat) : W64 :=
  crc64 (bytesLE 8 (Config.lineAddress i).toNat ++ Memory.readBytes x.mem (64 * i) 64)

/-- A lane's digest: the XOR over its tracked lines. -/
def laneDigest (x : LaneSt) : W64 := x.tracked.foldl (fun d i => d ^^^ lineTerm x i) 0

/-- The 4 KiB pages that hold a line tracked by one of some lanes. -/
def trackedPages (s : State) (ls : List Lane) : List Nat :=
  (ls.flatMap fun l => (s.lane l).tracked.map (· / 64)).foldl (fun ps p => mark ps p) []

/-- A digest disagreement in LANE_DIS: no record is concerned, so KIND, POS and the address are open (log entry 6). -/
def noteDigest (s : State) (l : Option Lane) : State :=
  let (k, s) := s.free
  let (p, s) := s.free
  let (a, s) := s.free
  { s with voter := { s.voter with disLane := l, disHow := 3, disKind := k % 16, disPos := p % 2 ^ 24, disAddr := a % 2 ^ 32 } }

/-- LATENT: the lane leaves the set at the next boundary and is resynced. -/
def latent (s : State) (l : Lane) (vs : List Lane) : State :=
  let pages := trackedPages s vs
  let s := noteDigest s (some l)
  let s := s.setLane l { s.lane l with latent := satUp 0xFF (s.lane l).latent }
  let s := { s with voter := { s.voter with latentDue := [l], rejoin := some { lane := l, resync := true, commanded := false, pages } } }
  raise s (.lane l) 6 s.voter.disAddr

def digestSplit (s : State) : State :=
  let s := noteDigest s none
  voterStop s 7 s.voter.disAddr

def agreed (s : State) (d : W64) : State := { s with voter := { s.voter with digest := d } }

/-- Table VOTE-5. -/
def compareDigests (s : State) : State :=
  let vs := voteSet s
  let d (l : Lane) : W64 := laneDigest (s.lane l)
  match vs with
  | [x, y, z] =>
    if d x = d y && d y = d z then agreed s (d x)
    else if d x = d y then agreed (latent s z vs) (d x)
    else if d y = d z then agreed (latent s x vs) (d y)
    else if d x = d z then agreed (latent s y vs) (d x)
    else digestSplit s
  | [x, y] => if d x = d y then agreed s (d x) else digestSplit s
  | _ => s

/-- The comparison in the guard; the tracking clears for the next tick. In SPLIT no digest is compared. -/
def digestStep (s : State) : State :=
  let s := if s.voter.mode = .split || s.voter.halted then s else compareDigests s
  s.mapLanes fun _ x => { x with tracked := [] }

/-! ### Lane self-tests (R239, R240, R244) -/

/-- Self-test 1 of a lane outside the Foxglove test. -/
def laneTest (s : State) (l : Lane) : State :=
  let s := s.setLane l { s.lane l with role := .test }
  s.setUcb (.lane l) (·.gated .test)

/-- A JOIN that waits for the self-test, or a SPLIT, ends with the failure. -/
def testFailed (s : State) (l : Lane) : State :=
  let waits := s.voter.change = some .split || (s.voter.rejoin.any fun r => r.lane = l && r.commanded)
  if !waits then s
  else
    let s := releaseTokens { s with voter := { s.voter with change := none, rejoin := none } } .splitJoin
    s.finish .voter .faulted 0

/-- Self-test 1 of a lane ends: QUIESCED, or FAULT with BIST_FAIL. -/
def laneTestEnd (s : State) (l : Lane) (passed : Bool) : State :=
  let x := s.lane l
  let s := s.setLane l { x with bist := passed, role := if x.role = .test then .excluded else x.role }
  if passed then s.setUcb (.lane l) (·.gated .quiesced)
  else testFailed (failSelf s (.lane l) 0xD s.voter.disAddr) l

/-! ### Rejoin and resync (R234, R239, R240) -/

/-- The whole near store and lane store in KiB. -/
def wholeKib : Nat := 16640

/-- The copy of a rejoin or resync starts; its tokens are held. -/
def startCopy (s : State) (r : Rejoin) : State :=
  let x := s.lane r.lane
  let s := s.setLane r.lane { x with role := if r.resync then .resync else .rejoining }
  let s := s.setUcb (.lane r.lane) (·.gated .maint)
  { s with voter := { s.voter with rejoin := some { r with
      since := some (r.since.getD s.tick.n), copying := true, recopy := false, ready := false,
      kibLeft := if r.resync then 4 * r.pages.length else wholeKib } } }

def Rejoin.waiting (r : Rejoin) : Bool := !r.copying && !r.recopy && !r.ready

/-- A lane excluded by a fault rejoins by itself. -/
def autoRejoin (s : State) (l : Lane) : Bool :=
  bitAt (s.reg .voter 0x104) 8 && s.voter.degraded && s.voter.out = some l && (s.lane l).bist
    && (s.lane l).excl < s.regField .voter 0x104 3 0

/-- The rejoin of a lane that is due. -/
def rejoinDue (s : State) (l : Lane) : Option Rejoin :=
  if s.voter.mode ≠ .pair || (s.ucb (.lane l)).state ≠ .quiesced || s.voter.change.isSome then none
  else
    match s.voter.rejoin with
    | some r => if r.lane = l && r.waiting && !r.resync then some r else none
    | none => if autoRejoin s l then some { lane := l, resync := false, commanded := false } else none

/-- A due rejoin or resync takes its tokens, or is retried; a JOIN holds them since its acceptance. -/
def takeAndCopy (s : State) (r : Rejoin) : State :=
  if r.commanded then startCopy s r
  else if tokensFree s .splitJoin then startCopy (takeTokens s .splitJoin .voter) r
  else s

def rejoin (s : State) (l : Lane) : State := match rejoinDue s l with | some r => takeAndCopy s r | none => s

def execRejoin (l : Lane) (s : State) : Out := .next (rejoin s l)

/-- A resync is due once its lane has left the set (R234). -/
def latentResync (s : State) (l : Lane) : State :=
  match s.voter.rejoin with
  | some r =>
    if r.lane = l && r.resync && r.waiting && s.voter.mode = .pair && s.voter.out = some l && (s.ucb (.lane l)).state = .quiesced
    then takeAndCopy s r else s
  | none => s

def execLatentResync (l : Lane) (s : State) : Out := .next (latentResync s l)

/-- REJOIN_FAIL: the lane unit enters FAULT, and PAIR continues. -/
def failRejoin (s : State) : State :=
  match s.voter.rejoin with
  | none => s
  | some r =>
    let s := leaveMaint s (.lane r.lane)
    let s := s.setLane r.lane { s.lane r.lane with role := .excluded }
    let s := failSelf s (.lane r.lane) 8 s.voter.disAddr
    let s := releaseTokens { s with voter := { s.voter with rejoin := none } } .splitJoin
    if r.commanded then s.finish .voter .faulted 0 else s

/-- The voting lanes hold the same data. -/
def voteMemSame (s : State) : Bool :=
  match voteSet s with
  | l :: ls => ls.all fun k => (s.lane k).mem = (s.lane l).mem
  | [] => false

/-- The full copy is made, or a line differs. -/
def rejoinCopied (s : State) (differs : Bool) : State :=
  match s.voter.rejoin with
  | none => s
  | some r =>
    if !r.copying then s
    else if differs then failRejoin s
    else { s with voter := { s.voter with rejoin := some { r with copying := false, recopy := true, kibLeft := 0 } } }

def execRejoinCopyComplete (differs : Bool) (s : State) : Out := .next (rejoinCopied s differs)

/-- 256 ticks have passed since the tokens were taken. -/
def rejoinLate (s : State) : State :=
  match s.voter.rejoin.bind (·.since) with
  | some t => if t + 256 ≤ s.tick.n then failRejoin s else s
  | none => s

def execRejoinFail (s : State) : Out := .next (rejoinLate s)

/-- In the guard, after the digest comparison, marked lines are copied again; a difference ends the rejoin. -/
def recopyStep (s : State) : State :=
  match s.voter.rejoin with
  | none => s
  | some r =>
    if !r.recopy then s
    else if !voteMemSame s then failRejoin s
    else { s with voter := { s.voter with rejoin := some { r with recopy := false, ready := true } } }

/-- What the copy leaves in a lane. -/
def copyProgram (dst src : LaneSt) : LaneSt :=
  { dst with safety := src.safety, timed := src.timed, skip := src.skip, free := src.free, mem := src.mem, tracked := src.tracked,
             in0 := src.in0, in1 := src.in1, in2 := src.in2, queue := src.queue, spill := src.spill }

/-- The lane whose copy is current enters the voted set. -/
def enterRejoined (s : State) : State :=
  match s.voter.rejoin, (voteSet s).head? with
  | some r, some src =>
    if !r.ready || s.voter.mode ≠ .pair then s
    else
      let s := s.setLane r.lane { copyProgram (s.lane r.lane) (s.lane src) with role := .voting, current := none }
      let s := s.setUcb (.lane r.lane) (·.gated .run)
      let s := releaseTokens s .splitJoin
      let s := { s with voter := { s.voter with mode := .triple, out := none, planned := false, degraded := false, rejoin := none } }
      if r.commanded then s.finish .voter .ok 0 else s
  | _, _ => s

/-! ### Exclusion and mode changes at step 1 (R220, R235 to R238) -/

/-- A lane leaves the set: it stops, and its unit is QUIESCED unless a fault holds it. -/
def leaveSet (s : State) (l : Lane) : State :=
  let x := stopLane (s.lane l)
  let s := s.setLane l { x with role := .excluded, excl := satUp 0xFF x.excl }
  s.setUcb (.lane l) fun b => if b.state = .fault then b else b.gated .quiesced

/-- Activities that share a unit with split and join (R53, R54). -/
def againstSplitJoin : List Activity := [.foxglove, .brakeTest, .splitJoin, .clockChange, .firmwareApply, .partnerResync]

/-- An exclusion by a reaction: it takes the tokens for this boundary, and only the faulted lane leaves. A LATENT lane is resynced
without a self-test. -/
def excludeFaulted (s : State) (l : Lane) : State :=
  let resync := decide (l ∈ s.voter.latentDue)
  let s := againstSplitJoin.foldl endActivity s
  let s := leaveSet s l
  let s := if resync || (s.ucb (.lane l)).state = .fault then s else laneTest s l
  if s.voter.mode = .split then s
  else { s with voter := { s.voter with mode := .pair, out := some l, planned := false, degraded := true } }

def excludeStep (s : State) : State :=
  let ls := (s.voter.fenced ++ s.voter.latentDue).eraseDups
  let s := ls.foldl excludeFaulted s
  { s with voter := { s.voter with fenced := [], latentDue := [] } }

/-- Every lane takes a role and stands in RUN; it starts with nothing to do. -/
def allLanes (s : State) (role : LaneRole) : State :=
  let s := s.mapLanes fun _ x => { clearLane x with role }
  Lane.all.foldl (fun s l => s.setUcb (.lane l) fun b => if b.state = .run then b else b.gated .run) s

/-- The lane out in planned PAIR, if its self-test before SPLIT is still running. -/
def testRuns (s : State) : Bool := s.voter.out.any fun l => (s.ucb (.lane l)).state = .test

/-- A pending mode change takes effect. The program data that SPLIT and MERGE start with are made by the boundary's restart. -/
def changeMode (s : State) : State :=
  match s.voter.change with
  | none => s
  | some (.exclude l) =>
    let s := leaveSet s l
    let s := { s with voter := { s.voter with change := none, mode := .pair, out := some l, planned := true, degraded := false } }
    (releaseTokens s .splitJoin).finish .voter .ok 0
  | some .split =>
    if testRuns s then s
    else
      let s := allLanes s .split
      let s := { s with voter := { s.voter with change := none, mode := .split, out := none, planned := false, degraded := false } }
      (releaseTokens s .splitJoin).finish .voter .ok 0
  | some (.merge warm) =>
    let s := allLanes s .voting
    { s with voter := { s.voter with change := none, mode := .triple, out := none, planned := false, degraded := false },
             tick := { s.tick with restart := some warm } }

/-- MODE, OUT, PLANNED and DEGRADED of LANE_MODE. -/
def modeBits (s : State) : List (Nat × Nat) :=
  [(s.voter.mode.code, 6), ((s.voter.out.map (·.idx)).getD 3, 4), (b2n s.voter.planned, 3), (b2n s.voter.degraded, 2)]

/-- Step 1 for the lanes: exclusions by reactions, the pending change, the lane that enters, and the record of a change. -/
def voterStep (s : State) : State :=
  let old := pack (modeBits s)
  let s := enterRejoined (changeMode (excludeStep s))
  let new := pack (modeBits s)
  if new = old then s else offer s 3 .voter (bytesLE 4 new.toNat ++ tickBytes s)

/-! ### The Foxglove test (R242, R248) -/

/-- The test starts: LANE/VOTER and the lanes in MAINT. -/
def foxBegin (s : State) : State :=
  let s := (.voter :: laneUnits).foldl (fun s u => s.unitTo u .maint) s
  { s with voter := { s.voter with foxRun := true, foxDue := false, fox := s.voter.fox.start } }

/-- A commanded test starts at the boundary after its acceptance. -/
def foxStep (s : State) : State := if s.voter.foxDue then foxBegin s else s

/-- What injection k of Table VOTE-7, counted from 1, must have flagged. -/
def foxExpected (k : Nat) : List FoxFlag :=
  let laneOf (i : Nat) : Lane := (Lane.ofNat? (i % 3)).getD .a
  let pattern (c i : Nat) : FoxFlag := if h : i < 8 then .corrected (Fin.ofNat 25 c) ⟨i, h⟩ else .uncorrectable (Fin.ofNat 25 c)
  if k ≤ 60 then [.minority (laneOf ((k - 1) / 20))]
  else if k ≤ 120 then [.noMajority]
  else if k ≤ 144 then [.digest (laneOf ((k - 121) / 8))]
  else if k ≤ 147 then [.stagger (laneOf (k - 145))]
  else if k ≤ 150 then [.late (laneOf (k - 148))]
  else if k ≤ 174 then [.parity (laneOf ((k - 151) / 8)) (Fin.ofNat 8 (k - 151))]
  else if k ≤ 282 then [pattern ((k - 175) / 9) ((k - 175) % 9)]
  else [pattern (12 + (k - 283) / 9) ((k - 283) % 9)]

/-- The injections are made in the order of the table, and the first that does not flag exactly what is expected ends the test (R241,
R242); `n` counts those that are left and `seen` is what each had flagged. -/
def foxCheck : Nat → Nat → List (Nat × List FoxFlag) → Option Nat
  | 0, _, _ => none
  | _ + 1, k, [] => some k
  | n + 1, k, (j, fs) :: seen => if j = k && fs = foxExpected k then foxCheck n (k + 1) seen else some k

/-- The number of the failed injection, none when all 399 are flagged as expected. -/
def foxFailed (seen : List (Nat × List FoxFlag)) : Option Nat := foxCheck 399 1 seen

/-- LANE_FOX: PASS, FAILED and DONE. -/
def foxValue (failed : Option Nat) : Nat :=
  match failed with
  | none => 2 ^ 28 + 399
  | some k => k % 4096 * 2 ^ 16 + k % 65536

/-- The test ends: the result, the tokens, and the units' states. A failure puts LANE/VOTER into FAULT, and no program runs until
module reset. -/
def foxEnd (s : State) (failed : Option Nat) : State :=
  let s := (.voter :: laneUnits).foldl leaveMaint s
  let s := releaseTokens s .foxglove
  let s := { s with voter := { s.voter with foxRun := false, fox := s.voter.fox.deliver (foxValue failed) } }
  match failed with
  | none => s.finish .voter .ok 0
  | some _ => failSelf ({ s with voter := { s.voter with halted := true } }.finish .voter .ok 1) .voter 9 s.voter.disAddr

/-! ### The commands of Table VOTE-11 -/

/-- EXCLUDE: planned PAIR at the next boundary. -/
def excludeCmd (s : State) (l : Lane) : State :=
  { takeTokens s .splitJoin .voter with voter := { s.voter with change := some (.exclude l) } }

/-- JOIN: a lane that EXCLUDE took out first runs its self-test. -/
def joinCmd (s : State) (l : Lane) : State :=
  let s := takeTokens s .splitJoin .voter
  let s := { s with voter := { s.voter with rejoin := some { lane := l, resync := false, commanded := true, since := some s.tick.n } } }
  if s.voter.planned then laneTest s l else s

/-- SPLIT at the next boundary; an excluded lane first runs its self-test. -/
def splitCmd (s : State) : State :=
  let s := { takeTokens s .splitJoin .voter with voter := { s.voter with change := some .split } }
  match s.voter.out with
  | some l => laneTest s l
  | none => s

def mergeCmd (s : State) (warm : Bool) : State :=
  { takeTokens s .splitJoin .voter with voter := { s.voter with change := some (.merge warm) } }

def foxCmd (s : State) : State := { takeTokens s .foxglove .voter with voter := { s.voter with foxDue := true } }

/-- The mode precondition of a command (Table VOTE-11, R235, R237). -/
def voterReady (s : State) (code arg : Nat) : Bool :=
  match code with
  | 0x80 => s.voter.mode = .triple
  | 0x81 => s.voter.mode = .pair && s.voter.out = Lane.ofNat? arg && (match Lane.ofNat? arg with
      | some l => (s.ucb (.lane l)).state = .quiesced | none => false)
  | 0x82 =>
    (s.prog.image.bind (·.split)).isSome && !synced s && s.voter.fenced.isEmpty && s.voter.latentDue.isEmpty
      && (s.voter.mode = .triple || (s.voter.mode = .pair && s.voter.planned
        && (s.voter.out.all fun l => (s.ucb (.lane l)).state = .quiesced)))
  | _ => s.voter.mode = .split

/-! ### Registers (Tables VOTE-8 to VOTE-10) -/

def roleBits (x : LaneSt) : Nat := b2n x.bist * 8 + x.role.code

def laneCode (l : Option Lane) : Nat := (l.map (·.idx)).getD 3

def voterRead (s : State) (off : Nat) : W32 :=
  let v := s.voter
  match off with
  | 0x100 => pack ((b2n (modePending s), 1) :: modeBits s)
  | 0x108 => pack [(roleBits s.laneC, 16), (roleBits s.laneB, 8), (roleBits s.laneA, 0)]
  | 0x10C => BitVec.ofNat 32 v.csn
  | 0x110 => BitVec.ofNat 32 (v.csn / 2 ^ 32)
  | 0x114 => BitVec.ofNat 32 v.mark
  | 0x118 => BitVec.ofNat 32 (v.mark / 2 ^ 32)
  | 0x11C => pack [(laneCode v.disLane, 30), (v.disHow, 28), (v.disKind, 24), (v.disPos, 0)]
  | 0x120 => BitVec.ofNat 32 v.disAddr
  | 0x124 => BitVec.ofNat 32 v.digest.toNat
  | 0x128 => BitVec.ofNat 32 (v.digest.toNat / 2 ^ 32)
  | 0x12C =>
    match v.rejoin with
    | some r => if r.since.isSome then pack [(r.lane.idx, 30), (b2n r.copying, 29), (b2n r.recopy, 28), (min r.kibLeft 0xFFFFFF, 0)]
                else 0xC0000000
    | none => 0xC0000000
  | 0x130 => v.fox.word
  | 0x134 => BitVec.ofNat 32 (min (queuePeak s) 63)
  | _ => 0

def laneRead (s : State) (l : Lane) (off : Nat) : W32 :=
  let x := s.lane l
  match off with
  | 0x100 => pack [(x.role.code, 4), (2 * l.idx, 0)]
  | 0x104 => pack [(x.excl, 24), (x.latent, 16), (x.dis, 0)]
  | 0x108 => pack [(x.uncorrected, 16), (x.corrected, 0)]
  | _ => 0

/-- Figures since restart start again. -/
def restartCounts (s : State) : State :=
  let s := s.mapLanes fun _ x => { x with excl := 0, latent := 0, dis := 0 }
  { s with voter := { s.voter with qmax := 0 } }

end Sys2Proof.Machine
end

