-- ==== Sys2Proof/Machine/Commands.lean ====
section
/-! DEFINITION. Commands: the checks of R31, the common commands of Tables UNIT-3 and UNIT-4 on single units and on groups (R44),
the unit-specific commands of every chapter, and how commands end that run on. -/

namespace Sys2Proof.Machine

open Sys2Proof

/-! ### Check 1: entitlement (R35 and the units' chapters) -/

def boundTo (s : State) (p : Nat) (u : UnitId) : Bool := (progOf s p).bound.any fun h => h = handleOf u

/-- A writer may command or set a unit (R35): the safety part every unit, the non-safety part a unit that is not bound, a SPLIT
program a unit assigned to it, the module itself any, SVC none. -/
def mayCommand (s : State) (w : Writer) (u : UnitId) : Bool :=
  match w with
  | .safety | .module => true
  | .nonSafety => !boundTo s 0 u
  | .split l => boundTo s (1 + l.idx) u
  | .svc => false

def isSafety : Writer → Bool
  | .safety | .module => true
  | _ => false

/-- The unit takes no QUIESCE, GATE_OFF or RESET from any writer. -/
def neverGated : UnitId → Bool
  | .tick | .place | .voter | .lane _ | .pair | .flt | .time | .clk | .evr | .lcs | .pwr => true
  | _ => false

/-- The unit takes QUIESCE, GATE_OFF and RESET from the safety part only (R326, R438). -/
def gatedBySafety : UnitId → Bool
  | .safe | .hlk | .link _ => true
  | _ => false

def gateCommand (code : Nat) : Bool := code = 3 || code = 4 || code = 7

/-- Entitlement to a common command. -/
def commonEntitled (w : Writer) (u : UnitId) (code : Nat) : Bool :=
  match u with
  | .pairUnit | .partner => false
  | .lane _ => !(gateCommand code || code = 1 || code = 2)
  | .svc => !(code = 4 || code = 7)
  | _ => if gateCommand code && neverGated u then false else if gateCommand code && gatedBySafety u then isSafety w else true

/-- The safety part, or in SPLIT the program to which the image assigns the unit (R302, R523). -/
def safetyOrAssigned (s : State) (w : Writer) (u : UnitId) : Bool :=
  match w with
  | .split l => s.voter.mode = .split && boundTo s (1 + l.idx) u
  | _ => isSafety w

/-- The unit-specific command codes of a unit. -/
def specificCodes : UnitId → List Nat
  | .tick | .can _ | .time | .hlk | .pwr => [0x80]
  | .place | .voter => [0x80, 0x81, 0x82, 0x83, 0x84]
  | .pair => [0x80, 0x81, 0x82]
  | .flt | .safe => [0x80, 0x81]
  | .lcs => [0x80, 0x81, 0x90, 0x91, 0x92, 0x93, 0x94, 0x95]
  | _ => []

/-- Entitlement to a unit-specific command (Tables TICK-7, PLACE-12, VOTE-11, PAIR-7, FLT-7, SAF-6, TIME-6, HLK-9, LCS-6, UPD-7
and PWR-7). -/
def specificEntitled (s : State) (w : Writer) (u : UnitId) (code arg : Nat) : Bool :=
  let notSplit : Bool := s.voter.mode ≠ .split
  match u with
  | .tick => isSafety w && notSplit
  | .place =>
    if code = 0x80 then isSafety w && notSplit
    else if code = 0x81 then isSafety w
    else if code = 0x84 then isSafety w && notSplit && !((mainProg s).expected.any fun e => e.1 = 0)
    else true
  | .voter =>
    if code = 0x80 || code = 0x81 then isSafety w && notSplit
    else if code = 0x82 then isSafety w
    else if notSplit then isSafety w
    else safetyOrAssigned s w .voter
  | .pair | .safe | .hlk => isSafety w
  | .flt => safetyOrAssigned s w .flt && !(code = 0x81 && injectArgOk arg && injectRestricted arg && lifeCycle s ≠ .integration)
  | .time => if arg % 8 = 0 then isSafety w else true
  | .lcs => if code = 0x94 then safetyOrAssigned s w .lcs else isSafety w
  | .pwr => safetyOrAssigned s w .pwr
  | _ => true

/-- Check 1 as a whole; a code that no command has is left to check 4. -/
def entitled (s : State) (w : Writer) (u : UnitId) (code arg : Nat) : Bool :=
  mayCommand s w u && commonEntitled w u code
    && (w = .module || code < 0x80 || (specificCodes u).all (· ≠ code) || specificEntitled s w u code arg)

/-! ### Check 4: code and argument -/

/-- A unit with a self-test of its own that TEST starts; the test is number 1. -/
def hasTest : UnitId → Bool
  | .can _ | .eth _ | .ser _ | .svc | .hlk | .link _ | .clk | .lane _ => true
  | _ => false

/-- The target of an update command (Table UPD-7): itself, the partner, or a card. -/
inductive UpdTarget | self | partner | card (slot : Fin 32)
deriving DecidableEq, Repr

def updTarget (n : Nat) : Option UpdTarget :=
  if n = 0 then some .self else if n = 1 then some .partner else if n < 0x20 then none else (fin? 32 (n - 0x20)).map .card

def specificArgOk (s : State) (u : UnitId) (code arg : Nat) : Bool :=
  match u with
  | .tick => code = 0x80 && arg ≤ 1
  | .place =>
    if code = 0x80 || code = 0x81 || code = 0x83 then arg = 0
    else if code = 0x82 then 1 ≤ arg && arg ≤ 16777215
    else code = 0x84 && arg ≤ 1
  | .voter =>
    if code = 0x80 || code = 0x81 then arg ≤ 2
    else if code = 0x82 || code = 0x84 then arg = 0
    else code = 0x83 && arg ≤ 1
  | .pair => 0x80 ≤ code && code ≤ 0x82 && arg = 0
  | .flt => if code = 0x80 then ackArgOk arg else code = 0x81 && injectArgOk arg
  | .safe => if code = 0x80 then arg = 0 else code = 0x81 && 2 ≤ arg && arg ≤ 8
  | .can _ => code = 0x80 && arg = 0
  | .time => code = 0x80 && setCheck s arg ≠ .badArg
  | .hlk => code = 0x80 && rescanArgOk arg
  | .lcs =>
    if code = 0x80 || code = 0x81 || code = 0x93 || code = 0x94 || code = 0x95 then arg = 0
    else if code = 0x90 then arg < 256 && (updTarget arg).isSome
    else if code = 0x91 then arg < 512 && (updTarget (arg % 256)).isSome && (arg < 256 || arg % 256 = 0)
    else code = 0x92 && arg < 256 && (updTarget arg).isSome && arg ≠ 1
  | .pwr => code = 0x80 && arg = 0
  | _ => false

def codeArgOk (s : State) (u : UnitId) (code arg : Nat) : Bool :=
  if code = 5 then hasTest u && arg = 1
  else if code ≤ 7 then arg = 0
  else 0x80 ≤ code && specificArgOk s u code arg

/-! ### Check 5: the state (Table UNIT-4) and what else a command needs -/

/-- Table UNIT-4; unit-specific commands are legal in RUN. -/
def stateCheck (st : UState) (code : Nat) : Status :=
  if st = .maint then .busyMaint
  else if 0x80 ≤ code then (if st = .run then .ok else .illegalState)
  else
    match code, st with
    | 1, .off | 1, .quiesced => .ok
    | 2, .quiesced | 2, .run => .ok
    | 3, .quiesced | 3, .run => .ok
    | 4, .off | 4, .quiesced | 4, .run => .ok
    | 5, .quiesced => .ok
    | 6, .fault => .ok
    | 7, _ => .ok
    | _, _ => .illegalState

/-- BRAKE_TEST may start (R323). -/
def brakeTestReady (s : State) : Bool :=
  ownCommits s && !s.safe.bk0.cmd && !s.safe.bk1.cmd && (!series s || synced s)

def partnerReachable (s : State) : Bool := s.pair.role ≠ .standby && (s.pair.state = .synced || s.pair.state = .linked)

/-- The current package is of a kind that goes to a target (R493, R502, R505). -/
def pkgFor (s : State) (t : UpdTarget) : Bool :=
  match s.upd.pkg, t with
  | some p, .card _ => p.payload.kind = 4
  | some p, _ => p.payload.kind = 1 || p.payload.kind = 2
  | none, _ => false

/-- Checks 1 to 4 of Table PAIR-3 have passed and check 5 or 6 failed (R503). -/
def linkedByImage (s : State) : Bool :=
  s.pair.state = .linked && s.pair.sync.valid && (s.pair.sync.value / 2 ^ 20 = 5 || s.pair.sync.value / 2 ^ 20 = 6)

/-- The preconditions of the LCS/UPD commands (Tables LCS-6 and UPD-7, R495, R501, R502, R505). -/
def lcsReady (s : State) (code arg : Nat) : Bool :=
  let t := (updTarget (arg % 256)).getD .self
  match code with
  | 0x80 => lifeCycle s = .integration
  | 0x81 => lifeCycle s = .fieldService
  | 0x90 =>
    pkgFor s t && (match t with
      | .self => !s.upd.trial
      | .partner => !s.upd.trial && partnerReachable s
      | .card slot => s.pair.role ≠ .standby && cardReachable s slot)
  | 0x91 =>
    match t with
    | .self => s.upd.prepared && !s.upd.trial
    | .partner => s.upd.partnerPrep && partnerReachable s
    | .card slot => slot.val ∈ s.upd.cardPrep && cardReachable s slot
  | 0x92 =>
    match t with
    | .self => s.upd.trial && s.upd.fallbackAt.isNone
    | .partner => false
    | .card slot => slot.val ∈ s.upd.cardTrial && cardReachable s slot
  | 0x93 => !s.upd.applying
  | 0x94 => (s.upd.pkg.any fun p => p.payload.kind = 3) && s.pair.role ≠ .standby
  | _ => s.pair.role ≠ .standby && linkedByImage s && s.upd.handover.isNone

/-- The activity that a command starts (Table UNIT-6). -/
def activityOf (u : UnitId) (code arg : Nat) : Option Activity :=
  match u with
  | .voter => if code = 0x84 then some .foxglove else some .splitJoin
  | .safe => if code = 0x80 then some .brakeTest else some .offPulseRetime
  | .pair => if code = 0x81 then some .partnerResync else none
  | .lcs => if code = 0x90 || code = 0x95 || (code = 0x91 && arg % 256 = 1) then some .firmwareApply else none
  | _ => none

/-- What a legal command still needs: NOT_READY, or BUSY_MAINT where a token of its activity is held. -/
def readyCheck (s : State) (u : UnitId) (code arg : Nat) : Status :=
  let ready : Bool :=
    if code = 6 then (s.ucb u).faultClass.isNone
    else if code < 0x80 then true
    else
      match u with
      | .place => code ≠ 0x84 || arg = 1 || s.place.captured.isSome
      | .voter => voterReady s code arg
      | .pair => pairReady s code
      | .safe => code ≠ 0x80 || brakeTestReady s
      | .can n => canBusOff (s.can n)
      | .time => setCheck s arg = .ok
      | .lcs => lcsReady s code arg
      | _ => true
  if !ready then .notReady
  else if code < 0x80 then .ok
  else
    match activityOf u code arg with
    | some a => if tokensFree s a then .ok else .busyMaint
    | none => .ok

/-! ### The checks in their order (R31, R44) -/

/-- Checks 1 to 3. While a unit's token is held every command is turned away: the activities are run by units, not by writers (log
entry 34). CLOSE_SERVICE is never held back (R486). -/
def firstChecks (s : State) (w : Writer) (u : UnitId) (code arg : Nat) : Status :=
  let b := s.ucb u
  let free : Bool := u = .lcs && code = 0x81
  if !entitled s w u code arg then .denied
  else if b.token.isSome && !free && w ≠ .module then .busyMaint
  else if b.busy && !free && !(code = 7 && b.state = .test) then .busy
  else .ok

def oneCheck (s : State) (w : Writer) (u : UnitId) (code arg : Nat) : Status :=
  match firstChecks s w u code arg with
  | .ok =>
    if !codeArgOk s u code arg then .badArg
    else
      match stateCheck (s.stateOf u) code with
      | .ok => readyCheck s u code arg
      | st => st
  | st => st

/-- A group whose state is its members': it has no state of its own to check. -/
def isGroup (u : UnitId) : Bool := u = .sys || u = .net

/-- The first member that refuses, from the lowest handle upwards, with its code; `n` bounds the nesting. DESIGN CHOICE (log entry 122): a
member that is a group itself is consulted at its own place in the order, and of its members the innermost that refuses is the one
named. -/
def memberRefusal (s : State) (w : Writer) (code arg : Nat) : Nat → UnitId → Option (Status × UnitId)
  | 0, _ => none
  | n + 1, u => (membersOf s u).findSome? fun m =>
      if isGroup m then
        match firstChecks s w m code arg with
        | .ok => memberRefusal s w code arg n m
        | st => some (st, m)
      else
        match oneCheck s w m code arg with
        | .ok => memberRefusal s w code arg n m
        | st => some (st, m)

/-- The outcome of every check on a command, with the member that refuses it. -/
def commandCheck (s : State) (w : Writer) (u : UnitId) (code arg : Nat) : Status × Option UnitId :=
  if isGroup u then
    match firstChecks s w u code arg with
    | .ok =>
      match memberRefusal s w code arg 3 u with
      | some (st, m) => (st, some m)
      | none => (.ok, none)
    | st => (st, none)
  else
    match oneCheck s w u code arg with
    | .ok =>
      match u with
      | .composite _ => match memberRefusal s w code arg 65 u with
        | some (st, m) => (st, some m)
        | none => (.ok, none)
      | _ => (.ok, none)
    | st => (st, none)

/-! ### The common commands -/

/-- What a common command does to one unit that it reaches, once the unit is quiet. -/
def applyCommon (s : State) (u : UnitId) (code : Nat) : State :=
  let st := (s.ucb u).state
  match code with
  | 1 => if st = .off then (enterState s u .quiesced).setUcb u (fun b => { b with forced := false }) else s
  | 2 => if st = .quiesced then enterState s u .run else s
  | 3 => if st = .run then enterState s u .quiesced else s
  | 4 => if st = .off then s else enterState s u .off
  | 5 =>
    match u with
    | .lane l => laneTest s l
    | _ => enterState s u .test
  | 6 =>
    let s := (enterState s u .off).setUcb u fun b => { b with faultClass := none, faultTaken := false }
    match u with
    | .lane l => laneTest s l
    | _ => s
  | 7 => resetUnit s u
  | _ => s

/-- The units that a command to `u` reaches, parent before child, siblings by ascending handle; `n` bounds the nesting. -/
def parentFirst (s : State) : Nat → UnitId → List UnitId
  | 0, u => [u]
  | n + 1, u => u :: (membersOf s u).flatMap (parentFirst s n)

/-- The same, child before parent. -/
def childFirst (s : State) : Nat → UnitId → List UnitId
  | 0, u => [u]
  | n + 1, u => (membersOf s u).flatMap (childFirst s n) ++ [u]

def reached (s : State) (u : UnitId) (code : Nat) : List UnitId :=
  ((match u with
    | .sys | .net | .composite _ => if gateCommand code then childFirst s 65 u else parentFirst s 65 u
    | _ => [u])).filter fun v => !isGroup v

/-- A unit that has transactions to drain: one in RUN, a composite excepted (R38, R115). -/
def drains (s : State) (u : UnitId) : Bool :=
  match u with
  | .composite _ => false
  | _ => (s.ucb u).state = .run

/-- ENABLE clears FORCED of a group too (R27). -/
def groupEnabled (s : State) (u : UnitId) (code : Nat) : State :=
  if code = 1 && isGroup u then
    (u :: (membersOf s u).filter isGroup).foldl (fun s v => s.setUcb v fun b => { b with forced := false }) s
  else s

/-- The command is carried out on every unit that it reaches, and ends OK; RESET leaves itself in UCB_STATUS (R30). -/
def carryOut (s : State) (u : UnitId) (code : Nat) : State :=
  groupEnabled ((reached s u code).foldl (fun s v => applyCommon s v code) s) u code

/-- A common command that has passed every check. -/
def runCommon (s : State) (w : Writer) (u : UnitId) (code arg : Nat) : State :=
  if code = 5 then carryOut (s.begin_ u w code arg) u code
  else if gateCommand code && !(code = 3 && s.stateOf u = .quiesced) && (reached s u code).any (drains s) then
    let s := s.begin_ u w code arg
    let s := s.setUcb u fun b => { b with draining := true }
    (reached s u code).foldl (fun s v => if drains s v then s.setUcb v fun b => { b with draining := true } else s) s
  else (carryOut s u code).complete u code .ok 0

/-- Drain completes, or the command ends DEFERRED with every unit in the state it held (R38, R44). -/
def quiescenceEnd (s : State) (u : UnitId) (stuck : List UnitId) : State :=
  let b := s.ucb u
  match b.running with
  | none => s
  | some r =>
    if !gateCommand r.code || !b.draining then s
    else
      let us := reached s u r.code
      let late := us.filter fun v => (s.ucb v).draining && v ∈ stuck
      let calm (s : State) : State := us.foldl (fun s v => s.setUcb v fun b => { b with draining := false }) s
      match late with
      | [] =>
        let s := calm s
        let s := s.setUcb u fun b => { b with busy := false, draining := false, running := none }
        let s := carryOut s u r.code
        s.setUcb u fun b => { b with code := .ok, cmd := r.code, result := b.result.deliver (resultValue .ok r.code 0) }
      | v :: vs =>
        let low := (vs.map handleOf).foldl min (handleOf v)
        calm (s.finish u .deferred (if isGroup u then low else 0))

def execQuiescenceEnd (u : UnitId) (stuck : List UnitId) (s : State) : Out := .next (quiescenceEnd s u stuck)

/-- SELF_TEST of a unit that TEST reached. -/
def selfTestKind : UnitId → Nat
  | .can _ => 7 | .hlk | .link _ => 9 | _ => 6

def selfTestAddr : UnitId → Nat
  | .clk => clkMon
  | u => baseOf u

/-- A self-test reaches its end (R543). -/
def selfTestEnd (s : State) (u : UnitId) (passed : Bool) : State :=
  if (s.ucb u).state ≠ .test then s
  else
    let s := s.finish u .ok (b2n (!passed))
    match u with
    | .lane l => laneTestEnd s l passed
    | _ => if passed then enterState s u .quiesced else failSelf s u (selfTestKind u) (selfTestAddr u)

def execSelfTestEnd (u : UnitId) (passed : Bool) (s : State) : Out := .next (selfTestEnd s u passed)

/-! ### The unit-specific commands -/

/-- The lane of a lane argument. -/
def laneArg (arg : Nat) : Lane := (Lane.ofNat? arg).getD .a

/-- ACTIVATE (R494, R502, R505): to itself the checks come first; a card or the partner resets into its prepared slot. -/
def activateCmd (s : State) (arg : Nat) : State :=
  match updTarget (arg % 256) with
  | some .self =>
    if compatible s then activateSelf (s.complete .lcs 0x91 .ok 0) (arg / 256 = 1)
    else raiseOpen { (s.complete .lcs 0x91 .faulted 0) with upd := { s.upd with reason := activateReason s } } .lcs 0x22
  | some .partner =>
    updRecord { (s.complete .lcs 0x91 .ok 0) with upd := { s.upd with partnerPrep := false } } 0x111 1 ((s.upd.pkg.map (·.version)).getD 0)
  | some (.card slot) =>
    let x := s.upd
    updRecord { (s.complete .lcs 0x91 .ok 0) with
        upd := { x with cardPrep := x.cardPrep.filter (· ≠ slot.val), cardTrial := mark x.cardTrial slot } } 0x111 (0x20 + slot)
      ((s.upd.pkg.map (·.version)).getD 0)
  | none => s

/-- CONFIRM of the module or of a card. -/
def confirmCmd (s : State) (arg : Nat) : State :=
  let s := s.complete .lcs 0x92 .ok 0
  match updTarget arg with
  | some (.card slot) =>
    updRecord { s with upd := { s.upd with cardTrial := s.upd.cardTrial.filter (· ≠ slot.val) } } 0x112 arg
      ((s.upd.pkg.map (·.version)).getD 0)
  | _ => confirmSelf s

/-- ACCEPT_CHANGE (R501); in SPLIT the set addresses the program of the lane that issues it. -/
def acceptCmd (s : State) (w : Writer) : State :=
  let lane : Option Lane := match w with | .split l => some l | _ => none
  match s.upd.pkg with
  | some p =>
    match p.payload with
    | .change c =>
      if changeOk s p.base lane c then acceptChange (s.complete .lcs 0x94 .ok 0) { c with lane }
      else raiseOpen (s.complete .lcs 0x94 .faulted 0) .lcs 0x25
    | _ => s
  | none => s

/-- APPLY begins (R493, R502, R505): its tokens are held until COMMAND_COMPLETE. -/
def applyCmd (s : State) (arg : Nat) : State :=
  let s := takeTokens s .firmwareApply .lcs
  match updTarget arg with
  | some .self => applyBegin s
  | _ => { s with upd := { s.upd with applying := true } }

/-- A unit-specific command that has passed every check. -/
def runSpecific (s : State) (w : Writer) (u : UnitId) (code arg : Nat) : State :=
  let go := s.begin_ u w code arg
  let done (d : Nat) : State := s.complete u code .ok d
  match u, code with
  | .tick, _ => { go with tick := { go.tick with restart := some (arg = 1) } }
  | .place, 0x80 => rebalanceBegin go
  | .place, 0x81 => returnAll go
  | .place, 0x82 => profileStart go arg
  | .place, 0x83 => (profileStop s).complete u code .ok 0
  | .place, _ => adoptProfile (done 0) (arg = 1)
  | .voter, 0x80 => excludeCmd go (laneArg arg)
  | .voter, 0x81 => joinCmd go (laneArg arg)
  | .voter, 0x82 => splitCmd go
  | .voter, 0x83 => mergeCmd go (arg = 1)
  | .voter, _ => foxCmd go
  | .pair, 0x80 => go
  | .pair, 0x81 => resyncCmd go
  | .pair, _ => detachCmd (done 0)
  | .flt, 0x80 => acknowledge (done 0) (arg / 16 % 2 = 1) (arg % 16)
  | .flt, _ => inject go arg
  | .safe, 0x80 => beginBrakeTest (takeTokens go .brakeTest .safe) false false
  | .safe, _ => { (takeTokens go .offPulseRetime .safe) with safe := { go.safe with pwNext := some arg } }
  | .can n, _ => if (s.can n).state = 3 then done 0 else (done 0).setCan n { s.can n with state := 3, recov := 0 }
  | .time, _ => setBegin go arg
  | .hlk, _ => rescanBegin go arg
  | .lcs, 0x80 => lockNow (done 0)
  | .lcs, 0x81 => closeService (done 0)
  | .lcs, 0x90 => applyCmd go arg
  | .lcs, 0x91 => activateCmd s arg
  | .lcs, 0x92 => confirmCmd s arg
  | .lcs, 0x93 => abortUpdate (done 0)
  | .lcs, 0x94 => acceptCmd s w
  | .lcs, _ => { go with upd := { go.upd with handover := some (s.tick.n + 2) }, pair := { go.pair with handover := s.tick.n + 2 } }
  | .pwr, _ => resetAtBoundary go .command
  | _, _ => s

/-! ### A command written to UCB_CMD -/

/-- A card proxy applies checks 1 to 3 and forwards the command to a card that answers (R430, R432). -/
def cardCommand (s : State) (w : Writer) (slot : Fin 32) (sub : Fin 17) (code arg : Nat) : State :=
  let u : UnitId := .card slot sub
  match firstChecks s w u code arg with
  | .ok =>
    if !cardReachable s slot then refuse s u code .notReady none
    else forwardCommand s slot sub w code arg
  | st => refuse s u code st none

/-- A command written to a unit (R31, R32, R544). -/
def ucbCommand (s : State) (w : Writer) (u : UnitId) (code arg : Nat) : State :=
  if !inTree s u then s
  else if code = 0 then s.setUcb u fun b => { b with code := .ok, cmd := 0 }
  else
    match u with
    | .card slot sub => cardCommand s w slot sub code arg
    | _ =>
      match commandCheck s w u code arg with
      | (.ok, _) => if code < 0x80 then runCommon s w u code arg else runSpecific s w u code arg
      | (st, member) => refuse s u code st member

/-! ### Commands that end later (R32) -/

/-- APPLY ends (R493, R502, R505). -/
def applyEnd (s : State) (arg : Nat) (code : Status) : State :=
  let s := { releaseTokens s .firmwareApply with upd := { s.upd with applying := false } }
  match s.upd.pkg, updTarget arg with
  | some p, some .self =>
    let (ok, s) := applySelf s p (code = .ok)
    s.finish .lcs (if ok then .ok else .faulted) (if ok then p.version % 65536 else 0)
  | some p, some .partner =>
    if code = .ok then
      (updRecord { s with upd := { s.upd with partnerPrep := true } } 0x110 1 p.version).finish .lcs .ok (p.version % 65536)
    else (raise s .lcs 0x26 (baseOf .partner)).finish .lcs .faulted 0
  | some p, some (.card slot) =>
    let idm := fromLE (((s.card slot).record.drop 4).take 2)
    if code = .ok && p.hwType = idm then
      (updRecord { s with upd := { s.upd with cardPrep := mark s.upd.cardPrep slot } } 0x110 arg p.version).finish .lcs .ok (p.version % 65536)
    else
      (raise { s with upd := { s.upd with reason := if p.hwType = idm then 0x09 else 0x02 } } .lcs 0x21 (baseOf (.card slot 0))).finish .lcs
        .faulted 0
  | _, _ => s.finish .lcs .faulted 0

/-- An asynchronous command ends that has no event of its own: APPLY, or a card's command through its proxy. -/
def commandComplete (s : State) (u : UnitId) (code : Status) (data : Nat) : State :=
  match u, (s.ucb u).running with
  | .lcs, some r => if r.code = 0x90 then applyEnd s r.arg code else s
  | .card slot sub, some _ => if cardReachable s slot then cardDone s slot sub code data else s
  | _, _ => s

def execCommandComplete (u : UnitId) (code : Status) (data : W16) (s : State) : Out := .next (commandComplete s u code data.toNat)

/-! ### The rows -/

def execEnable (w : Writer) (u : UnitId) (arg : BitVec 24) (s : State) : Out := .next (ucbCommand s w u 1 arg.toNat)
def execStart (w : Writer) (u : UnitId) (arg : BitVec 24) (s : State) : Out := .next (ucbCommand s w u 2 arg.toNat)
def execQuiesce (w : Writer) (u : UnitId) (arg : BitVec 24) (s : State) : Out := .next (ucbCommand s w u 3 arg.toNat)
def execGateOff (w : Writer) (u : UnitId) (arg : BitVec 24) (s : State) : Out := .next (ucbCommand s w u 4 arg.toNat)
def execTest (w : Writer) (u : UnitId) (arg : BitVec 24) (s : State) : Out := .next (ucbCommand s w u 5 arg.toNat)
def execClear (w : Writer) (u : UnitId) (arg : BitVec 24) (s : State) : Out := .next (ucbCommand s w u 6 arg.toNat)
def execReset (w : Writer) (u : UnitId) (arg : BitVec 24) (s : State) : Out := .next (ucbCommand s w u 7 arg.toNat)
def execNopCommand (w : Writer) (u : UnitId) (arg : BitVec 24) (s : State) : Out := .next (ucbCommand s w u 0 arg.toNat)
def execRestart (w : Writer) (arg : BitVec 24) (s : State) : Out := .next (ucbCommand s w .tick 0x80 arg.toNat)
def execRebalance (w : Writer) (arg : BitVec 24) (s : State) : Out := .next (ucbCommand s w .place 0x80 arg.toNat)
def execPlaceReturn (w : Writer) (arg : BitVec 24) (s : State) : Out := .next (ucbCommand s w .place 0x81 arg.toNat)
def execProfileStart (w : Writer) (arg : BitVec 24) (s : State) : Out := .next (ucbCommand s w .place 0x82 arg.toNat)
def execProfileStop (w : Writer) (arg : BitVec 24) (s : State) : Out := .next (ucbCommand s w .place 0x83 arg.toNat)
def execAdopt (w : Writer) (arg : BitVec 24) (s : State) : Out := .next (ucbCommand s w .place 0x84 arg.toNat)
def execExclude (w : Writer) (arg : BitVec 24) (s : State) : Out := .next (ucbCommand s w .voter 0x80 arg.toNat)
def execJoin (w : Writer) (arg : BitVec 24) (s : State) : Out := .next (ucbCommand s w .voter 0x81 arg.toNat)
def execSplit (w : Writer) (arg : BitVec 24) (s : State) : Out := .next (ucbCommand s w .voter 0x82 arg.toNat)
def execMerge (w : Writer) (arg : BitVec 24) (s : State) : Out := .next (ucbCommand s w .voter 0x83 arg.toNat)
def execFoxglove (w : Writer) (arg : BitVec 24) (s : State) : Out := .next (ucbCommand s w .voter 0x84 arg.toNat)
def execSwitchover (w : Writer) (arg : BitVec 24) (s : State) : Out := .next (ucbCommand s w .pair 0x80 arg.toNat)
def execResync (w : Writer) (arg : BitVec 24) (s : State) : Out := .next (ucbCommand s w .pair 0x81 arg.toNat)
def execDetach (w : Writer) (arg : BitVec 24) (s : State) : Out := .next (ucbCommand s w .pair 0x82 arg.toNat)
def execAck (w : Writer) (arg : BitVec 24) (s : State) : Out := .next (ucbCommand s w .flt 0x80 arg.toNat)
def execInject (w : Writer) (arg : BitVec 24) (s : State) : Out := .next (ucbCommand s w .flt 0x81 arg.toNat)
def execBrakeTest (w : Writer) (arg : BitVec 24) (s : State) : Out := .next (ucbCommand s w .safe 0x80 arg.toNat)
def execPulseRetime (w : Writer) (arg : BitVec 24) (s : State) : Out := .next (ucbCommand s w .safe 0x81 arg.toNat)
def execRecover (w : Writer) (n : Fin 6) (arg : BitVec 24) (s : State) : Out := .next (ucbCommand s w (.can n) 0x80 arg.toNat)
def execTimeSet (w : Writer) (arg : BitVec 24) (s : State) : Out := .next (ucbCommand s w .time 0x80 arg.toNat)
def execRescan (w : Writer) (arg : BitVec 24) (s : State) : Out := .next (ucbCommand s w .hlk 0x80 arg.toNat)
def execLock (w : Writer) (arg : BitVec 24) (s : State) : Out := .next (ucbCommand s w .lcs 0x80 arg.toNat)
def execCloseService (w : Writer) (arg : BitVec 24) (s : State) : Out := .next (ucbCommand s w .lcs 0x81 arg.toNat)
def execApply (w : Writer) (arg : BitVec 24) (s : State) : Out := .next (ucbCommand s w .lcs 0x90 arg.toNat)
def execActivate (w : Writer) (arg : BitVec 24) (s : State) : Out := .next (ucbCommand s w .lcs 0x91 arg.toNat)
def execConfirm (w : Writer) (arg : BitVec 24) (s : State) : Out := .next (ucbCommand s w .lcs 0x92 arg.toNat)
def execAbort (w : Writer) (arg : BitVec 24) (s : State) : Out := .next (ucbCommand s w .lcs 0x93 arg.toNat)
def execAcceptChange (w : Writer) (arg : BitVec 24) (s : State) : Out := .next (ucbCommand s w .lcs 0x94 arg.toNat)
def execRestartHandover (w : Writer) (arg : BitVec 24) (s : State) : Out := .next (ucbCommand s w .lcs 0x95 arg.toNat)
def execModuleReset (w : Writer) (arg : BitVec 24) (s : State) : Out := .next (ucbCommand s w .pwr 0x80 arg.toNat)

end Sys2Proof.Machine
end

