-- ==== Sys2Proof/Machine/Registers.lean ====
section
/-! DEFINITION. Control space: what every register shows, what a read does, what a write does or refuses, the unit walk, fetches
into result windows, the 7100 mirror, and the reads of a diagnostics client (R9 to R13, R40, R41, R50, R51, R163, R457, R479). -/

namespace Sys2Proof.Machine

open Sys2Proof

/-! ### The walk of the unit tree (R50, R51, log entry 33) -/

/-- The children of a unit in the walk. -/
def childrenOf (s : State) (u : UnitId) : List UnitId :=
  match u with
  | .sys => topUnits ++ (cardSlots s).map (fun t => .card t 0) ++ outerComposites s
  | .voter => laneUnits
  | .hlk => linkUnits
  | _ => membersOf s u

/-- The parent of a unit in the walk. -/
def parentOf (s : State) (u : UnitId) : Option UnitId :=
  match u with
  | .sys => if synced s then some .pairUnit else none
  | .pairUnit => none
  | .partner => some .pairUnit
  | .lane _ => some .voter
  | .eth _ | .ser _ | .svc => some .net
  | .link _ => some .hlk
  | .card slot sub => if sub = 0 then some .sys else some (.card slot 0)
  | .composite k =>
    (compositeInst s k).map fun e =>
      match outerComposite? (progOf s e.1) e.2.index with
      | some j => .composite j
      | none => .sys
  | _ => some .sys

def handleOr (u : Option UnitId) : Nat := (u.map handleOf).getD 0xFFFF

/-- The sibling after a unit. -/
def nextAfter (u : UnitId) : List UnitId → Option UnitId
  | [] => none
  | v :: vs => if v = u then vs.head? else nextAfter u vs

/-- The unit that SYS_WALK_SEL names, if the handle is assigned. -/
def walked (s : State) (bank : Nat) : Option UnitId :=
  (unitOfHandle (s.reg .sys 0x110 bank).toNat).filter (inTree s)

/-- Units in the tree. The pair unit and the partner proxy keep their handles (log entry 33) and count only while the partner is in sync,
when they are formed (R46; DEDUCED, log entry 108). -/
def unitCount (s : State) : Nat :=
  moduleUnits.length + ((cardSlots s).map fun t => 1 + (cardMembers s t).length).sum
    + ((progsInForce s).map fun p => ((progOf s p).insts.filter fun e => e.unitIndex.isSome).length).sum + (if synced s then 2 else 0)

def sysRead (s : State) (bank off : Nat) : W32 :=
  match off with
  | 0x100 => pack [(Config.hwType, 16), (Config.hwIssue.toNat, 8)]
  | 0x104 => BitVec.ofNat 32 Config.serial.toNat
  | 0x108 => BitVec.ofNat 32 (Config.serial.toNat / 2 ^ 32)
  | 0x114 => BitVec.ofNat 32 (((walked s bank).map baseOf).getD 0)
  | 0x118 =>
    match walked s bank with
    | some u => pack [(handleOr (parentOf s u), 16), (handleOr (childrenOf s u).head?, 0)]
    | none => 0xFFFFFFFF
  | 0x11C =>
    match walked s bank with
    | some u => pack [(handleOr ((parentOf s u).bind fun p => nextAfter u (childrenOf s p)), 16), ((membersOf s u).length, 0)]
    | none => 0xFFFF0000
  | 0x120 => BitVec.ofNat 32 (unitCount s)
  | _ => 0

/-! ### What registers show -/

/-- The unit clock runs (UCB_GATE.OPEN): SYS always, NET while a member does. -/
def unitOpen (s : State) (u : UnitId) : Bool :=
  match u with
  | .sys => true
  | .net => s.stateOf .net ≠ .off
  | _ => (s.ucb u).gateOpen

/-- The control block (Tables UNIT-1 and UNIT-2). -/
def ucbRead (s : State) (u : UnitId) (off : Nat) : W32 :=
  let b := s.ucb u
  let ms := (membersOf s u).map (s.stateOf ·)
  match off with
  | 0x00 => pack [(handleOf u, 16), (typeOf u, 8), (originOf u, 5), (b2n (!ms.isEmpty), 4), (Config.layoutIssue.toNat, 0)]
  | 0x04 => pack [(b.prev.code, 8), ((s.stateOf u).code, 0)]
  | 0x0C => pack [(b2n b.busy, 31), (b2n (mixed ms), 30), (b.code.code, 24), (b.cmd, 16), (b.refused, 0)]
  | 0x10 => pack [(b2n b.forced, 8), (b2n b.draining, 1), (b2n (unitOpen s u), 0)]
  | 0x14 => pack [(b.fKind, 24), (b.fClass, 20), (b.fLevel, 17), (b2n b.fConseq, 16), (b.sent, 0)]
  | 0x18 => b.result.word
  | 0x1C =>
    match b.token with
    | some (a, h) => pack [(1, 31), (a.code, 28), (h, 0)]
    | none => 0x0000FFFF
  | _ => 0

/-- Table TICK-6. -/
def tickRead (s : State) (bank off : Nat) : W32 :=
  let t := s.tick
  let p := if s.voter.mode = .split then 1 + bank else 0
  let k := s.regField .tick 0x130 7 0 bank
  let st := taskStat s p k
  match off with
  | 0x100 => BitVec.ofNat 32 t.period
  | 0x104 => t.next
  | 0x10C => pack [(b2n t.stopped, 15), (b2n t.retLag, 14), (b2n t.rephased, 13), (b2n t.warm, 12), (t.align.code, 8), (t.phase, 0)]
  | 0x110 => BitVec.ofNat 32 t.n
  | 0x114 => BitVec.ofNat 32 (t.n / 2 ^ 32)
  | 0x118 => BitVec.ofNat 32 t.time
  | 0x11C => BitVec.ofNat 32 (t.time / 2 ^ 32)
  | 0x120 => pack [(min 0xFFFF t.lagMax, 16), (min 0xFFFF t.lag, 0)]
  | 0x124 => pack [(min 0xFFFF t.bphMax, 16), (min 0xFFFF t.bph, 0)]
  | 0x128 => pack [(min 0xFFFF t.slackMin, 16), (min 0xFFFF t.slack, 0)]
  | 0x12C => pack [(t.stopTask, 16), (t.stopCause, 0)]
  | 0x134 =>
    match (progOf s p).tasks.find? fun d => d.index = k with
    | some d => pack [(1, 11), (d.cls.code, 8), (b2n d.safety, 7), (b2n d.skip, 6),
        ((mapGetD ((mapFor s p).elim [] (·.phases)) k 0) % 8, 0)]
    | none => 0
  | 0x138 => pack [(min 0xFFFF st.max, 16), (min 0xFFFF st.last, 0)]
  | 0x13C => BitVec.ofNat 32 (min 0xFFFF st.skips)
  | _ => 0

/-- A register that is kept per bank (R51). -/
def banked (u : UnitId) (off : Nat) : Bool :=
  match u with
  | .sys => off = 0x110 | .tick => off = 0x130 | .place => off = 0x118 | .pair => off = 0x130
  | .flt => off = 0x10C || off = 0x180 | .can _ => off = 0x13C | .net => off = 0x10C | .time => off = 0x100 | .hlk => off = 0x120
  | .evr => off = 0x110 || off = 0x114 || off = 0x118
  | _ => false

/-- Under which object a setting stands: its bank, the source that FLT_SRC_SEL names, or the code that EVR_CODE_SEL names. -/
def objOf (s : State) (u : UnitId) (bank off : Nat) : Nat :=
  if banked u off then bank
  else
    match u, off with
    | .flt, 0x110 => (s.reg .flt 0x10C bank).toNat
    | .evr, 0x11C => (s.reg .evr 0x118 bank).toNat
    | _, _ => 0

/-- What a register without a stored setting shows. -/
def shown (s : State) (u : UnitId) (bank off : Nat) : W32 :=
  match u with
  | .sys => sysRead s bank off
  | .tick => tickRead s bank off
  | .place => placeRead s bank off
  | .voter => voterRead s off
  | .lane l => laneRead s l off
  | .pair => pairRead s bank off
  | .flt => fltRead s bank off
  | .safe => safeRead s off
  | .can n => canRead s n bank off
  | .net | .eth _ | .ser _ | .svc => netRead s u bank off
  | .time => timeRead s bank off
  | .hlk | .link _ => hlkRead s u bank off
  | .clk => clkRead s off
  | .evr => evrRead s bank off
  | .lcs => if off < 0x200 then lcsRead s off else updRead s off
  | .pwr => pwrRead s off
  | .card _ _ | .pairUnit | .partner | .composite _ => 0

/-- The value of a defined unit-specific register: a setting's active value (R13), zero where only written, else what is shown. -/
def specificRead (s : State) (u : UnitId) (bank off : Nat) (d : RegDef) : W32 :=
  if u = .tick && off = 0x104 then s.tick.next
  else if d.rw ||| d.rws ≠ 0 then s.reg u off (objOf s u bank off) ||| (if d.ro = 0 then 0 else shown s u bank off &&& d.ro)
  else if d.wo ≠ 0 then 0
  else shown s u bank off

/-- The registers above the control block that a unit presents. -/
def regAt (s : State) (u : UnitId) (off : Nat) : Option RegDef := if off < 0x100 then none else findReg s.clk.compat u off

/-! ### Result windows (R41) -/

/-- What a read clears: FRESH of a result window, and the error codes of CANn_STATUS. -/
def readEffect (s : State) (u : UnitId) (bank off : Nat) : State :=
  if off = 0x18 then s.setUcb u fun b => { b with result := b.result.consume }
  else
    match u, off with
    | .voter, 0x130 => { s with voter := { s.voter with fox := s.voter.fox.consume } }
    | .pair, 0x10C => { s with pair := { s.pair with sync := s.pair.sync.consume } }
    | .place, 0x11C =>
      let f := fetchOf s.place.fetch bank
      { s with place := { s.place with fetch := mapPut bank { f with result := f.result.consume } s.place.fetch } }
    | .can n, _ => canReadEffect s n bank off
    | .net, 0x110 =>
      let f := fetchOf s.net.fetch bank
      { s with net := { s.net with fetch := mapPut bank { f with result := f.result.consume } s.net.fetch } }
    | .hlk, 0x124 =>
      let f := fetchOf s.hlk.fetch bank
      { s with hlk := { s.hlk with fetch := mapPut bank { f with result := f.result.consume } s.hlk.fetch } }
    | .time, 0x104 =>
      let x := mapGetD s.time.snaps bank {}
      { s with time := { s.time with snaps := mapPut bank { x with result := x.result.consume } s.time.snaps } }
    | .clk, 0x11C => { s with clk := { s.clk with swres := s.clk.swres.consume } }
    | .safe, 0x124 => { s with safe := { s.safe with btestWin := s.safe.btestWin.consume } }
    | _, _ => s

/-! ### Access errors (Table FLT-4) -/

/-- The unit that reports an access to an address: the one whose window holds it, SYS for a hole of control space (log entry 35). -/
def reporter (s : State) (addr : Nat) : UnitId :=
  match unitOfAddr addr with
  | some (u, _) => if inTree s u then u else .sys
  | none => .sys

/-- An access ends with an error response that its unit reports. -/
def accessFault (s : State) (addr kind : Nat) : State := raise s (reporter s addr) kind addr

/-- The unit that opens a writer's or reader's transactions: the voter for the program, LCS/UPD for SVC; none for the module itself. -/
def opener : Writer → Option UnitId
  | .module => none
  | .svc => some .lcs
  | _ => some .voter

/-- The initiator of a transaction that ended with an error response reports it, with the base of the target unit (R280, R284). -/
def errorResponse (s : State) (w : Writer) (target : UnitId) : State :=
  match opener w with
  | some u => raise s u 0xF4 (baseOf target)
  | none => s

/-- An access that ends with an error response: the report of the addressed unit, and that of the initiator. -/
def failAccess (s : State) (w : Writer) (addr kind : Nat) : State := errorResponse (accessFault s addr kind) w (reporter s addr)

/-- An access to a unit that is not in the tree: a card that is absent reports nothing itself. -/
def absentAccess (s : State) (w : Writer) (u : UnitId) (addr : Nat) : State :=
  match u with
  | .card _ _ => errorResponse s w u
  | _ => failAccess s w addr 0xF1

/-- What an access to a unit's window meets before it reaches a register; none where it may go on. The second part is the fault
kind, 0 for an error response that is not reported (R38). -/
def accessError (s : State) (u : UnitId) (off : Nat) : Option Nat :=
  if off < 0x20 then none
  else if (regAt s u off).isNone then some 0xF1
  else if (s.ucb u).draining then some 0
  else if !unitOpen s u then some 0xF2
  else none

/-! ### Reads -/

/-- A read of an on-module register: its value, or an error response; card addresses at 0x100 and above are the bridge's. -/
def readRegister (s : State) (w : Writer) (addr : Nat) : (Nat × Bool) × State :=
  if addr % 4 ≠ 0 then ((0, false), failAccess s w addr 0xF0)
  else
    match unitOfAddr addr with
    | none => ((0, false), failAccess s w addr 0xF1)
    | some (u, off) =>
      if !inTree s u then ((0, false), absentAccess s w u addr)
      else
        match accessError s u off with
        | some k => ((0, false), if k = 0 then s else failAccess s w addr k)
        | none =>
          let bank := bankOf w
          if off < 0x20 then (((ucbRead s u off).toNat, true), readEffect s u bank off)
          else
            match regAt s u off with
            | some d => (((specificRead s u bank off d).toNat, true), readEffect s u bank off)
            | none => ((0, false), s)

/-- A program's read of any address of control space on the context that issues it: nothing yet when a card is asked. While HLK drains
the error response is not reported (R38). -/
def programRead (s : State) (w : Writer) (l : Lane) (k : CtxKind) (addr : Nat) : Option (Nat × Bool) × State :=
  match unitOfAddr addr with
  | some (.card slot sub, off) =>
    if addr % 4 = 0 && 0x100 ≤ off then
      if (s.ucb .hlk).draining then (some (0, false), s)
      else if !inTree s (.card slot sub) || !cardReachable s slot then (some (0, false), errorResponse s w (.card slot sub))
      else
        match cardRead s l k addr with
        | (some (v, false), s) => (some (v, false), failAccess s w addr 0xF1)
        | r => r
    else
      let (r, s) := readRegister s w addr
      (some r, s)
  | _ =>
    let (r, s) := readRegister s w addr
    (some r, s)

/-- A read of a result window. Its value goes to the program that reads; what stays behind is that FRESH is clear. -/
def execResultWindowRead (w : Writer) (addr : W32) (s : State) : Out := .next (readRegister s w addr.toNat).2

/-! ### Writes -/

/-- BAD_SETTING of a unit. -/
def badKind : UnitId → Nat
  | .tick | .can _ => 8
  | .place | .hlk => 0xA
  | .pair => 0xB
  | .flt => 3
  | .safe => 0xE
  | .net | .eth _ | .ser _ | .svc | .time | .clk => 7
  | _ => 5

/-- A value that the field ranges of a unit admit (R85). -/
def settingOk (s : State) (u : UnitId) (off obj : Nat) (v : W32) : Bool :=
  match u with
  | .tick =>
    if off = 0x104 then 5 ≤ field v 8 0 && field v 8 0 ≤ 400
    else if off = 0x108 then v.toNat < s.tick.period * Config.periodUnit
    else true
  | .place => off ≠ 0x118 || rdSelOk v
  | .pair => pairSettingOk off v
  | .flt => fltSettingOk s off obj v
  | .safe => safeSettingOk s off v
  | .can n => canSettingOk s n off v
  | .net | .eth _ | .ser _ | .svc => netSettingOk u off v
  | .time => timeSettingOk s off v
  | .hlk => hlkSettingOk off v
  | .clk => clkSettingOk s off v
  | .evr => evrSettingOk off obj v
  | .lcs => lcsSettingOk off v
  | .pwr => pwrSettingOk off v
  | _ => true

/-- BAD_SETTING: the value is discarded and the unit reports the register. -/
def badSetting (s : State) (u : UnitId) (off : Nat) : State := raise s u (badKind u) (baseOf u + off)

/-- What a write to a selecting register starts: a fetch, a sample or a copy (R41, R296, R414). -/
def selected? (s : State) (u : UnitId) (bank off : Nat) (v : W32) : State :=
  match u, off with
  | .place, 0x118 =>
    { s with place := { s.place with fetch := mapPut bank ((fetchOf s.place.fetch bank).begin_ v.toNat) s.place.fetch } }
  | .can n, 0x13C =>
    let c := s.can n
    s.setCan n { c with fetch := mapPut bank ((fetchOf c.fetch bank).begin_ v.toNat) c.fetch }
  | .net, 0x10C => { s with net := { s.net with fetch := mapPut bank ((fetchOf s.net.fetch bank).begin_ v.toNat) s.net.fetch } }
  | .hlk, 0x120 => { s with hlk := { s.hlk with fetch := mapPut bank ((fetchOf s.hlk.fetch bank).begin_ v.toNat) s.hlk.fetch } }
  | .time, 0x100 => timeSnap s bank v.toNat
  | .flt, 0x180 => copyHistory s bank v.toNat
  | _, _ => s

/-- A setting is stored: an RW register at once, an RWS register as pending (R12, R13); a value out of range is discarded (R85). An
unassigned record kind at PLACE_RD_SEL still fetches, and finds nothing (Table PLACE-13). -/
def storeSetting (s : State) (u : UnitId) (bank off : Nat) (d : RegDef) (value : W32) : State :=
  let obj := objOf s u bank off
  let v := value &&& (d.rw ||| d.rws)
  if !settingOk s u off obj v then
    let s := badSetting s u off
    if u = .place && off = 0x118 then selected? s u bank off v else s
  else if u = .tick && off = 0x104 then { s with tick := { s.tick with next := v } }
  else if d.rws ≠ 0 then s.setRegPending u off obj v
  else selected? (s.setReg u off obj v) u bank off v

/-- A native CLK register written through the mirror. -/
def storeClk (s : State) (off : Nat) (v : W32) (mirror : Nat) : State :=
  if clkSettingOk s off v then s.setRegPending .clk off 0 v else badSetting s .clk mirror

/-- The 7100 mirror (R457, Table CLK-6). -/
def mirrorWrite (s : State) (off : Nat) (v : W32) : State :=
  match off with
  | 0x804 =>
    let old := s.regNext .clk 0x104
    let src (c : Nat) : W32 := (old &&& 0xFFFFFFF0) ||| BitVec.ofNat 32 c
    match field v 1 0 with
    | 1 => storeClk s 0x104 (src 0) off
    | 2 => storeClk s 0x104 (src 7) off
    | _ => badSetting s .clk off
  | 0x808 | 0x80C | 0x810 => if bitAt v 31 then s.setReg .clk off 0 (v &&& 0x8000FFFF) else badSetting s .clk off
  | 0x814 => storeClk s 0x150 (BitVec.ofNat 32 ((field v 15 0 + 9) / 10)) off
  | 0x818 =>
    if 4 < field v 2 0 then badSetting s .clk off
    else storeClk s 0x10C (pack [(field v 15 8, 16), (c71OutBack (field v 2 0), 0)]) off
  | _ => s

/-- A write to CANn_TX_CANCEL (R364). A cancel that waits makes it an error response. Table CAN-8 shows bits [31:13] as zero and gives a
write with one of them set no meaning: such a value names no object and cancels nothing (DESIGN CHOICE, log entry 107). -/
def cancelWrite (s : State) (n : Fin 6) (bank : Nat) (v : W32) : Bool × State :=
  let p := if s.voter.mode = .split then 1 + bank else 0
  let key := if v.toNat < 0x2000 then objKey p v.toNat else 0x10000000 + v.toNat
  match canCancel s n key with
  | some s => (true, s)
  | none => (false, s)

/-- A write that has passed every check reaches its register. -/
def deliverWrite (s : State) (u : UnitId) (bank off : Nat) (d : RegDef) (v : W32) : Bool × State :=
  match u with
  | .can n =>
    if off = 0x128 then cancelWrite s n bank v
    else if d.rw ||| d.rws = 0 then (true, s) else (true, storeSetting s u bank off d v)
  | .clk =>
    if 0x800 ≤ off then (true, mirrorWrite s off v)
    else if d.rw ||| d.rws = 0 then (true, s) else (true, storeSetting s u bank off d v)
  | _ => if d.rw ||| d.rws = 0 then (true, s) else (true, storeSetting s u bank off d v)

/-- A write of one word to control space (R9, R10, R12, R35, R38, R40, R163, R430): whether it was accepted, and what it did. -/
def writeRegister (s : State) (w : Writer) (by_ : NearBy) (addr : Nat) (v : W32) (size : Nat) : Bool × State :=
  if size ≠ 4 || addr % 4 ≠ 0 then (false, failAccess s w addr 0xF0)
  else
    match unitOfAddr addr with
    | none => (false, failAccess s w addr 0xF1)
    | some (u, off) =>
      if !inTree s u then (false, absentAccess s w u addr)
      else if off = 8 then (true, ucbCommand s w u (field v 31 24) (field v 23 0))
      else if off < 0x20 then
        (if w = .module || mayCommand s w u then (true, s) else (false, failAccess s w addr 0xF3))
      else
        match u with
        | .card slot _ =>
          if off < 0x100 then (false, failAccess s w addr 0xF1)
          else if !(w = .module || mayCommand s w u) then (false, failAccess s w addr 0xF3)
          else if (s.ucb .hlk).draining then (false, s)
          else if !cardReachable s slot then (false, errorResponse s w u)
          else
            match cardWrite s by_ addr v with
            | (true, s) => (true, s)
            | (false, s) => (false, failAccess s w addr 0xF1)
        | _ =>
          match regAt s u off with
          | none => (false, failAccess s w addr 0xF1)
          | some d =>
            if !(w = .module || mayCommand s w u) then (false, failAccess s w addr 0xF3)
            else
              match accessError s u off with
              | some k => (false, if k = 0 then s else failAccess s w addr k)
              | none => deliverWrite s u (bankOf w) off d v

def execRegisterWrite (w : Writer) (addr value : W32) (size : Nat) (s : State) : Out :=
  .next (writeRegister s w .writer addr.toNat value size).2

def execPlaceRdSelWrite (w : Writer) (value : W32) (s : State) : Out :=
  .next (writeRegister s w .writer (baseOf .place + 0x118) value 4).2

def execCannFiltSelWrite (w : Writer) (n : Fin 6) (value : W32) (s : State) : Out :=
  .next (writeRegister s w .writer (baseOf (.can n) + 0x13C) value 4).2

def execNetDirSelWrite (w : Writer) (value : W32) (s : State) : Out :=
  .next (writeRegister s w .writer (baseOf .net + 0x10C) value 4).2

def execHlkIdmSelWrite (w : Writer) (value : W32) (s : State) : Out :=
  .next (writeRegister s w .writer (baseOf .hlk + 0x120) value 4).2

def execTimeSnapSelWrite (w : Writer) (value : W32) (s : State) : Out :=
  .next (writeRegister s w .writer (baseOf .time + 0x100) value 4).2

def execFltHistSelWrite (w : Writer) (value : W32) (s : State) : Out :=
  .next (writeRegister s w .writer (baseOf .flt + 0x180) value 4).2

def execCannTxCancel (w : Writer) (n : Fin 6) (value : W32) (s : State) : Out :=
  .next (writeRegister s w .writer (baseOf (.can n) + 0x128) value 4).2

/-- A write to the mirror window of CLK. -/
def execC71MirrorWrite (w : Writer) (off : BitVec 12) (value : W32) (s : State) : Out :=
  .next (writeRegister s w .writer (baseOf .clk + off.toNat) value 4).2

/-! ### Fetches -/

/-- A started fetch completes (R41); a stray event changes nothing. -/
def fetchDone (s : State) (u : UnitId) (bank : Nat) : State :=
  match u with
  | .place => placeFetchDone s bank
  | .can n => if (fetchOf (s.can n).fetch bank).busy then canFetchDone s n bank else s
  | .net => netFetchDone s bank
  | .hlk => hlkFetchDone s bank
  | _ => s

def execFetchComplete (u : UnitId) (bank : Lane) (s : State) : Out := .next (fetchDone s u bank.idx)

/-! ### Diagnostics over SVC (R479) -/

/-- Diagnostics are open: LCS_CFG.DIAG_EN is 1, or the state is RETURN. -/
def diagOpen (s : State) : Bool := bitAt (s.reg .lcs 0x114) 0 || lifeCycle s = .returned

/-- What a diagnostics client reads: a register, whatever its window shows, or a word of a record in the store. -/
def diagValue (s : State) (r : DiagRead) : Option W32 :=
  match r with
  | .register addr =>
    match unitOfAddr addr.toNat with
    | some (u, off) =>
      if addr.toNat % 4 ≠ 0 || !inTree s u || (accessError s u off).isSome then none
      else if off < 0x20 then some (ucbRead s u off)
      else (regAt s u off).map (specificRead s u 0 off)
    | none => none
  | .record seq word => some ((mapGetD s.evr.store (seq % 65536) []).getD (word % 16) 0)

/-- The report of a diagnostics access that ends with an error response (R9, R40); what a card's own window holds is the card's. -/
def diagFault (s : State) (r : DiagRead) : State :=
  match r with
  | .record _ _ => s
  | .register addr =>
    let a := addr.toNat
    if a % 4 ≠ 0 then failAccess s .svc a 0xF0
    else
      match unitOfAddr a with
      | none => failAccess s .svc a 0xF1
      | some (.card slot sub, off) =>
        if !inTree s (.card slot sub) then absentAccess s .svc (.card slot sub) a
        else if off < 0x20 || 0x100 ≤ off then s
        else failAccess s .svc a 0xF1
      | some (u, off) =>
        if !inTree s u then absentAccess s .svc u a
        else
          match accessError s u off with
          | some k => if k = 0 then s else failAccess s .svc a k
          | none => s

/-- LCS/UPD answers from its own port; nothing is consumed. -/
def diagRead (s : State) (r : DiagRead) : State :=
  if !diagOpen s then { s with lcs := { s.lcs with answer := none } }
  else { diagFault s r with lcs := { s.lcs with answer := diagValue s r } }

def execDiagnosticsRead (r : DiagRead) (s : State) : Out := .next (diagRead s r)

end Sys2Proof.Machine
end

