-- ==== Sys2Proof/Machine/Vote.lean ====
section
/-! DEFINITION. The vote on effect records: the comparison of Table VOTE-2, what fences a lane, and what each kind of record does
once it passes (R121 to R124, R160, R217 to R224). -/

namespace Sys2Proof.Machine

open Sys2Proof

/-! ### Comparison (R217, R218) -/

/-- Header, address and beats agree bit for bit. -/
def sameRecord (x y : EffectRec) : Bool :=
  x.kind = y.kind && x.size = y.size && x.last = y.last && x.safety = y.safety && x.tag = y.tag && x.addr = y.addr && x.beats = y.beats

/-- The comparator of two lanes. -/
def comparatorOf : Lane → Lane → Comparator
  | .a, .b | .b, .a => .ab
  | .b, .c | .c, .b => .bc
  | _, _ => .ca

/-- What a comparator reports of two lanes' records; a faulty one reports the opposite. -/
def agreeAt (bad : Option Comparator) (x y : Lane × EffectRec) : Bool :=
  Bool.xor (sameRecord x.2 y.2) (bad = some (comparatorOf x.1 y.1))

/-- The outcome of a comparison: the agreeing lanes with their record and the minority lane, or the kind of a stop. -/
inductive VoteOutcome
  | pass (agreeing : List Lane) (r : EffectRec) (minority : Option (Lane × EffectRec))
  | stop (kind : Nat)
deriving DecidableEq, Repr

/-- Table VOTE-2 for three lanes. -/
def voteThree (bad : Option Comparator) (x y z : Lane × EffectRec) : VoteOutcome :=
  match agreeAt bad x y, agreeAt bad y z, agreeAt bad z x with
  | true, true, true => .pass [x.1, y.1, z.1] x.2 none
  | true, false, false => .pass [x.1, y.1] x.2 (some z)
  | false, true, false => .pass [y.1, z.1] y.2 (some x)
  | false, false, true => .pass [z.1, x.1] x.2 (some y)
  | false, false, false => .stop 4
  | _, _, _ => .stop 5

/-- Table VOTE-2 for two lanes. -/
def voteTwo (bad : Option Comparator) (x y : Lane × EffectRec) : VoteOutcome :=
  if agreeAt bad x y then .pass [x.1, y.1] x.2 none else .stop 4

/-- The outcome for the lanes that hold a record at the position. -/
def voteOf (bad : Option Comparator) : List (Lane × EffectRec) → VoteOutcome
  | [x, y, z] => voteThree bad x y z
  | [x, y] => voteTwo bad x y
  | _ => .stop 4

/-- The records at the position, by lane of the voted set. -/
def headsOf (s : State) (ls : List Lane) : List (Lane × EffectRec) :=
  ls.filterMap fun l => (s.lane l).queue.head?.map fun r => (l, r)

/-! ### What a passed record does (Table VOTE-1) -/

/-- The bytes that the beats of a record carry. -/
def EffectRec.bytes (r : EffectRec) : List Byte :=
  match r.beats with
  | [v] => bytesLE (2 ^ r.size) v
  | vs => vs.flatMap (bytesLE 8)

/-- An output-image write or message joins the open group of its stream (R160). -/
def joinGroup (gs : List EmitGroup) (p : Nat) (k : CtxKind) (w : OutWrite) (last : Bool) : List EmitGroup :=
  let done : Option Nat := if last then some w.csn else none
  match gs with
  | [] => [{ prog := p, ctx := k, writes := [w], done }]
  | g :: rest =>
    if g.prog = p && g.ctx = k && g.done.isNone then { g with writes := g.writes ++ [w], done } :: rest
    else g :: joinGroup rest p k w last

def passOutput (s : State) (p : Nat) (r : EffectRec) : State :=
  let msg : Bool := r.kind = 2
  let key := if msg then objKey p r.addr else r.addr
  let data := if msg then r.bytes.take (((msgDecl s key).map (·.len)).getD r.bytes.length) else r.bytes
  let w : OutWrite := { prog := p, msg, key, data, tag := r.tag, csn := s.voter.csn }
  { s with voter := { s.voter with groups := joinGroup s.voter.groups p r.ctx w r.last } }

/-- The writer that a record stands for (R35). -/
def writerOf (s : State) (l : Lane) (r : EffectRec) : Writer :=
  if s.voter.mode = .split then .split l else if r.safety then .safety else .nonSafety

/-- A register write reaches its unit; an error response is kept for the context's FENCE (R164). A context that waits for a write to
a composite unit goes on (R115). -/
def passWrite (s : State) (ls : List Lane) (r : EffectRec) : State :=
  let l := ls.headD .a
  let (ok, s) := writeRegister s (writerOf s l r) (.program l r.ctx) r.addr (BitVec.ofNat 32 (r.beats.headD 0)) 4
  ls.foldl (fun s l =>
    let x := s.lane l
    let c := x.ctx r.ctx
    s.setLane l (x.setCtx r.ctx { c with uwrErr := c.uwrErr || !ok, wait := if c.wait = .composite then .none else c.wait })) s

/-- The lane set of an exception record (R465): A, B and C from the highest bit down. -/
def laneMask (ls : List Lane) : Nat := (ls.map fun l => 4 / 2 ^ l.idx).sum

/-- A program exception passes (R121 to R124): its message; the safe state, or the end of the activation; and FAULT of the innermost
composite unit. -/
def passException (s : State) (ls : List Lane) (r : EffectRec) : State :=
  let kind := r.beats.headD 0
  let info := r.info.map fun i => { i with lanes := laneMask ls }
  let comp : Option (Fin 32767) := (info.map (·.inst)).bind fun i => composite? (laneProg s (ls.headD .a)) i
  let source : UnitId := match comp with | some k => .composite k | none => .voter
  let s := raiseAs s source kind 4 (if r.safety then 4 else 2) r.addr info
  let s := match comp with
    | some k => (enterState s (.composite k) .fault).setUcb (.composite k) fun b => { b with faultClass := some 4, faultTaken := false }
    | none => s
  if r.safety then enterSafe s ⟨handleOf source, kind, 4, 2⟩
  else ls.foldl (fun s l => abortTask s l r.ctx) s

/-- A retentive write passes into the inactive generation (R82). -/
def passRetentive (s : State) (r : EffectRec) : State :=
  let g := inactiveGen s
  let s := s.setInactiveGen { g with bytes := Memory.writeBytes g.bytes r.addr r.bytes }
  let s := { s with pair := { s.pair with bytesOut := s.pair.bytesOut + r.bytes.length } }
  let left := s.prog.retLeft - 1
  { s with prog := { s.prog with retLeft := left, retDone := s.prog.retDone || (left = 0 && !s.prog.retMore) } }

/-- A migration copy reaches its new place in the bulk store (R207). -/
def passMigration (s : State) (r : EffectRec) : State :=
  match (s.place.rebalance.bind (·.set.head?)).bind fun m => migrationKey m r.addr with
  | some key => s.writeBulk key r.bytes
  | none => s

/-- The effect of a record that passes; it takes the next CSN (R223). -/
def passEffect (s : State) (ls : List Lane) (r : EffectRec) : State :=
  let s := { s with voter := { s.voter with csn := s.voter.csn + 1 } }
  let p := progNo s (ls.headD .a)
  match r.kind with
  | 0 => s.writeBulk (bulkKey p r.addr) r.bytes
  | 1 | 2 => passOutput s p r
  | 3 => passWrite s ls r
  | 4 => passException s ls r
  | 6 => passRetentive s r
  | 7 => passMigration s r
  | _ => s

/-- A record passes for the lanes that agree: it leaves their queues, and what waited for room follows. -/
def passFor (s : State) (ls : List Lane) (r : EffectRec) : State :=
  let s := ls.foldl (fun s l => s.setLane l { s.lane l with queue := (s.lane l).queue.drop 1 }) (noteQueues s)
  let s := { s with voter := { s.voter with pos := s.voter.pos + 1 } }
  ls.foldl refillQueue (passEffect s ls r)

/-! ### The decision (R218 to R222) -/

/-- The decision on a comparison. -/
def decide? (s : State) (o : VoteOutcome) (r : EffectRec) : State :=
  match o with
  | .stop kind => noPass s kind r
  | .pass ls x none => passFor s ls x
  | .pass ls x (some (l, y)) =>
    let s := laneAgainst s l 1 0 y
    if s.voter.halted then s else passFor s ls x

/-- The record that reached the voter first; of those of one instant that of the lowest-lettered lane (R223). -/
def firstHead : List (Lane × EffectRec) → Option (Lane × EffectRec)
  | [] => none
  | h :: hs => match firstHead hs with
    | some g => if h.2.at_ ≤ g.2.at_ then some h else some g
    | none => some h

/-- The voter decides the next position: a lane out of its slot is fenced first, and the others are then compared. -/
def voteDecision (s : State) (outOfSlot : Option Lane) (bad : Option Comparator) : State :=
  if s.voter.halted then s
  else if s.voter.mode = .split then
    match firstHead (headsOf s (runSet s)) with
    | some (l, r) => passFor s [l] r
    | none => s
  else
    let hs := headsOf s (voteSet s)
    if hs.length < 2 || hs.length ≠ (voteSet s).length then s
    else
      let s := match outOfSlot with
        | some l => match hs.find? fun (h : Lane × EffectRec) => h.1 = l with
          | some h => laneAgainst s l 3 2 h.2
          | none => s
        | none => s
      if s.voter.halted then s
      else
        let hs := hs.filter fun (h : Lane × EffectRec) => decide (h.1 ∈ voteSet s)
        match hs with
        | h :: _ => decide? s (voteOf bad hs) h.2
        | [] => s

def execVoteDecision (outOfSlot : Option Lane) (badComparator : Option Comparator) (s : State) : Out :=
  .next (voteDecision s outOfSlot badComparator)

/-- A lane's record is missing (R219): the remaining two are compared as in PAIR; a match passes and the lane takes LATE. -/
def lateAt (s : State) (l : Lane) : State :=
  if s.voter.halted || s.voter.mode = .split || !decide (l ∈ voteSet s) || !(s.lane l).queue.isEmpty then s
  else
    match headsOf s (voteSet s) with
    | [x, y] =>
      if agreeAt none x y then
        let s := laneAgainst s l 2 1 x.2
        if s.voter.halted then s else passFor s [x.1, y.1] x.2
      else noPass s 4 x.2
    | [x] => laneAgainst s l 2 1 x.2
    | _ => s

def execLate (l : Lane) (s : State) : Out := .next (lateAt s l)

end Sys2Proof.Machine
end

