-- ==== Sys2Proof/Machine/IsaSys.lean ====
section
/-! DEFINITION. The SYS group and TRAP: NOP, FENCE, TWAIT, YIELD, URD, UWR, and the events that end their waits (R16, R162 to R166). -/

namespace Sys2Proof.Machine

open Sys2Proof

/-- NOP. -/
def execNop (l : Lane) (f : RFmt) (s : State) : Out :=
  .next (issue s l (RFmt.len f) [] (RFmt.plain f false false false) fun k c => s.setCtx l k (c.past (RFmt.len f)))

/-! ### FENCE (R164) -/

/-- A record that a context issued still waits for the vote. -/
def unvoted (x : LaneSt) (k : CtxKind) : Bool := (x.queue ++ x.spill).any fun r => r.ctx = k && r.kind ≠ 6

/-- A near-side transaction of the context, issued for the voted set or for this lane alone in SPLIT. -/
def ownReq (s : State) (l : Lane) (k : CtxKind) (r : NearReq) : Bool :=
  match r.by_ with | .program m j => j = k && (m = l || s.voter.mode ≠ .split) | _ => false

/-- A card write of the context waits in the bridge's queue. -/
def writeQueued (s : State) (l : Lane) (k : CtxKind) : Bool := s.hlk.queue.any fun r => r.write.isSome && ownReq s l k r

/-- A posted card write of the context has not been acknowledged. -/
def writePosted (s : State) (l : Lane) (k : CtxKind) : Bool := s.hlk.posted.any (ownReq s l k)

/-- Nothing that the context issued is under way: no record waits for the vote, and no write for its card. -/
def fenceClear (s : State) (l : Lane) (k : CtxKind) : Bool :=
  !unvoted (s.lane l) k && !writeQueued s l k && !writePosted s l k

/-- FENCE ends: T tells whether every UWR since the previous FENCE was accepted. -/
def LaneCtx.fenceEnd (c : LaneCtx) : LaneCtx :=
  ({ c with cf := setT c.cf (!c.uwrErr), uwrErr := false, wait := .none }).past 4

def execFence (l : Lane) (f : RFmt) (s : State) : Out :=
  .next (issue s l (RFmt.len f) [] (RFmt.plain f false false false) fun k c =>
    s.setCtx l k (if fenceClear s l k then c.fenceEnd else { c with wait := .fence }))

/-- The context that a lane runs and that waits. -/
def waitingCtx (s : State) (l : Lane) : Option (CtxKind × LaneCtx) :=
  let x := s.lane l
  if !programRuns s || !decide (l ∈ runSet s) then none
  else
    match x.current with
    | none => none
    | some k => if (x.ctx k).busy && (x.ctx k).wait ≠ .none then some (k, x.ctx k) else none

/-- Every effect of the waiting context has reached its destination; posted writes have been acknowledged (log entry 19). -/
def fenceDone (s : State) (l : Lane) : State :=
  match waitingCtx s l with
  | none => s
  | some (k, c) =>
    if c.wait ≠ .fence || unvoted (s.lane l) k || writeQueued s l k then s
    else (postedDone s).setCtx l k c.fenceEnd

def execFenceCompletion (l : Lane) (s : State) : Out := .next (fenceDone s l)

/-! ### TWAIT (R165) -/

/-- TWAIT ends at once: its target has passed. A lane that comes to it in the guard finds the target that the leading lane found (R134). -/
def twaitPassed (s : State) (target : Nat) : Bool := target ≤ s.tb3 && (s.tick.phase ≠ 3 || target < guardInstant s)

def execTwait (l : Lane) (f : RFmt) (s : State) : Out :=
  .next (issue s l (RFmt.len f) [f.ra.toNat] (RFmt.plain f false true false) fun k c =>
    let target := s.tick.time + (aOf c f).toNat
    s.setCtx l k (if twaitPassed s target then c.twaitEnd true else { c with wait := .twait target }))

/-- TB3 reaches the target before the guard. -/
def twaitDone (s : State) (l : Lane) (t : Nat) : State :=
  let s := s.at_ t
  match waitingCtx s l with
  | none => s
  | some (k, c) =>
    match c.wait with
    | .twait target => if target ≤ s.tb3 && target < guardInstant s then s.setCtx l k (c.twaitEnd true) else s
    | _ => s

def execTwaitCompletion (l : Lane) (at_ : Nat) (s : State) : Out := .next (twaitDone s l at_)

/-! ### YIELD (R166) -/

/-- YIELD suspends the F cycle until the next slack; a timed context goes on. -/
def execYield (l : Lane) (f : RFmt) (s : State) : Out :=
  .next (issue s l (RFmt.len f) [] (RFmt.plain f false false false) fun k c =>
    let c := c.past (RFmt.len f)
    if k = .free then resched (s.setCtx l k { c with yielded := true }) l else s.setCtx l k c)

/-! ### URD and UWR (R16, R163) -/

/-- A UWR that the context issued has not passed the voter yet. -/
def uwrWaits (x : LaneSt) (k : CtxKind) : Bool := (x.queue ++ x.spill).any fun r => r.ctx = k && r.kind = 3

/-- The writer and reader that a context stands for (R35, R51). -/
def readerOf (s : State) (l : Lane) (c : LaneCtx) : Writer :=
  if s.voter.mode = .split then .split l else if partSafe (laneProg s l) c then .safety else .nonSafety

/-- The context has asked a card for the word, in this lane or in another of the voted set. -/
def asked (s : State) (l : Lane) (k : CtxKind) (addr : Nat) : Bool :=
  let mine (r : NearReq) : Bool := r.addr = addr && r.write.isNone && ownReq s l k r
  s.hlk.queue.any mine || s.hlk.heldRead.any mine

/-- A UWR that the context issued has not been accepted by its unit (R163). -/
def uwrPending (s : State) (l : Lane) (k : CtxKind) : Bool := uwrWaits (s.lane l) k || writeQueued s l k || writePosted s l k

/-- The read of a context that waits in a URD: from the replay buffer, or performed once for the voted set. -/
def tryRead (s : State) (l : Lane) (k : CtxKind) (addr : Nat) : State :=
  let c := (s.lane l).ctx k
  match replayFor s l k 0 addr with
  | some r =>
    match c.wait with
    | .urd rd a _ => (takeReplay s l k 0 addr).setCtx l k { c with wait := .urd rd a (some (r.value, r.ok)) }
    | _ => s
  | none =>
    if uwrPending s l k || asked s l k addr then s
    else
      match programRead s (readerOf s l c) l k addr with
      | (some (v, ok), s) => readArrived s l k addr v ok
      | (none, s) => s

def execUrd (l : Lane) (f : RFmt) (s : State) : Out :=
  .next (issue s l (RFmt.len f) [f.rd.toNat, f.ra.toNat] (RFmt.plain f true true false) fun k c =>
    let addr := (aOf c f).toNat % 2 ^ 32
    if addr < 0xF0000000 then except s l k c xSpaceBound 7 addr
    else tryRead (s.setCtx l k { c with wait := .urd f.rd.toNat addr none }) l k addr)

/-- The value of a URD is delivered, with T clear after an error response. -/
def LaneCtx.urdEnd (c : LaneCtx) (rd v : Nat) (ok : Bool) : LaneCtx :=
  (({ c with cf := setT c.cf ok, wait := .none }).wr rd (BitVec.ofNat 64 (if ok then v else 0))).past 4

/-- Posted writes that a URD waits for have been acknowledged (log entry 19). -/
def ackWrites (s : State) (l : Lane) (k : CtxKind) : State := if writePosted s l k then postedDone s else s

/-- The read data are there, or the read can be performed now. -/
def urdDone (s : State) (l : Lane) : State :=
  match waitingCtx s l with
  | none => s
  | some (k, c) =>
    match c.wait with
    | .urd _ addr got =>
      let s := if got.isNone then tryRead (ackWrites s l k) l k addr else s
      match ((s.lane l).ctx k).wait with
      | .urd rd _ (some (v, ok)) => s.setCtx l k (((s.lane l).ctx k).urdEnd rd v ok)
      | _ => s
    | _ => s

def execUrdCompletion (l : Lane) (s : State) : Out := .next (urdDone s l)

/-- The address lies in a composite unit's window. -/
def inComposite (addr : Nat) : Bool := match unitOfAddr addr with | some (.composite _, _) => true | _ => false

/-- UWR: an effect; a write to a composite unit takes effect before the instruction that follows (R115); below the windows it is SPACE_BOUND,
as R163 says of its pair (log entry 101). -/
def execUwr (l : Lane) (f : RFmt) (s : State) : Out :=
  .next (issue s l (RFmt.len f) (RFmt.regs f) (RFmt.plain f false true true) fun k c =>
    let addr := (aOf c f).toNat % 2 ^ 32
    if addr < 0xF0000000 then except s l k c xSpaceBound 7 addr
    else if queueFull (s.lane l) then s
    else
      let r : EffectRec :=
        { kind := 3, size := 2, last := false, safety := partSafe (laneProg s l) c, tag := .good, addr,
          beats := [(bOf c f).toNat % 2 ^ 32], ctx := k }
      (s.present l r).setCtx l k { c.past (RFmt.len f) with wait := if inComposite addr then .composite else .none })

/-! ### TRAP -/

/-- TRAP raises USER_TRAP; its code goes to the record (R124, R465). -/
def execTrap (l : Lane) (f : IFmt) (s : State) : Out :=
  .next (issue s l 4 [] (f.rd = 0 && f.ra = 0) fun k c => except s l k c xUserTrap 0 f.imm.toNat)

end Sys2Proof.Machine
end

