-- ==== Sys2Proof/Machine/Guard.lean ====
section
/-! DEFINITION. The guard of a tick and the safety windows within it: suspension, overruns, the digest comparison, the retentive
emission, and a boundary that does not come (R19, R62, R64, R76 to R79, R82, R134, R165, R231, R259). -/

namespace Sys2Proof.Machine

open Sys2Proof

/-! ### Suspension (R64, R94, R165) -/

/-- Every lane stops for the guard, where the leading lane stands (R134); a lane that executes no code runs nothing. -/
def suspendAll (s : State) : State :=
  let g := guardInstant s
  s.mapLanes fun l x =>
    if x.role = .voting || x.role = .split then x.suspend g (leadCount s l) none else stopFor g x none

/-! ### The pages of the copy (R259) -/

/-- A page of a lane's own memory among the dirtied pages, beside those of the bulk store. -/
def ownPage (i : Nat) : Nat := 2 ^ 80 + i

/-- A copy of each tick goes to a standby. -/
def copies (s : State) : Bool :=
  (s.pair.role = .active || s.pair.role = .seize) && (s.pair.state = .syncing || s.pair.state = .synced)

/-- The pages that each lane has tracked, as they stand before the comparison clears them. -/
def trackedLines (s : State) : List (Lane × List Nat) := Lane.all.map fun l => (l, trackedPages s [l])

/-- The lowest-lettered lane of the majority: one of the voted set that the comparison has not found against the others. -/
def majorityLane (s : State) : Option Lane := ((voteSet s).filter fun l => decide (l ∉ s.voter.latentDue)).head?

/-- The pages with a tracked line of the lowest-lettered lane of the majority join those that the next copy carries (R259). -/
def gatherPages (s : State) (pages : List (Lane × List Nat)) : State :=
  if !copies s then s
  else
    let ps := ((majorityLane s).bind fun l => (pages.find? fun e => e.1 = l).map (·.2)).getD []
    { s with pair := { s.pair with dirtyBulk := (ps.map ownPage).foldl mark s.pair.dirtyBulk } }

/-! ### Overruns (R76 to R78) -/

/-- The tasks of a context that have not ended. -/
def unended (c : LaneCtx) : List Nat := ((if c.busy then [c.task] else []) ++ c.todo.map (·.1)).eraseDups

/-- The same over the lanes that run a program. -/
def unendedIn (s : State) (p : Nat) (k : CtxKind) : List Nat :=
  (((runSet s).filter fun l => progNo s l = p).flatMap fun l => unended ((s.lane l).ctx k)).eraseDups

/-- The policy of a task is SKIP. -/
def policySkip (s : State) (p t : Nat) : Bool := ((progOf s p).tasks.find? fun d => d.index = t).any (·.skip)

/-- The task and the cause of a stop: a resumed task that has not ended, or one of policy STOP. -/
def stopOf (s : State) (p : Nat) : Option (Nat × Nat) :=
  match unendedIn s p .skip, unendedIn s p .safety ++ (unendedIn s p .timed).filter fun t => !policySkip s p t with
  | t :: _, _ => some (t, 2)
  | [], t :: _ => some (t, 1)
  | [], [] => none

/-- The watchdog stops the controller (R77). -/
def stopController (s : State) (task cause : Nat) : State :=
  let s := raiseOpen s .tick (if cause = 2 then 3 else 1)
  let s := discardEmissions (commitSafe (driveSafe s) [0, 1, 2, 3])
  { s with tick := { s.tick with stopped := true, stopTask := task, stopCause := cause },
           pwr := { s.pwr with safeSince := some (s.pwr.safeSince.getD (s.tb3, s.regField .pwr 0x11C 15 0)) } }

/-- A SKIP task is counted, and its next activation is left out (R78). -/
def noteSkip (s : State) (p t : Nat) : State :=
  let r := taskStat s p t
  raiseOpen { s with tick := { s.tick with
    tasks := mapPut (taskKey p t) { r with skips := satUp 0xFFFF r.skips, leaveOut := true } s.tick.tasks } } .tick 2

/-- What a context issued and the voter has not passed goes with it when it is suspended. -/
def relabel (r : EffectRec) : EffectRec := if r.ctx = .timed then { r with ctx := .skip } else r

/-- The suspended tasks of a lane keep their registers, buffer and instances to come. -/
def suspendTimed (x : LaneSt) : LaneSt :=
  { x with skip := x.timed, timed := {}, queue := x.queue.map relabel, spill := x.spill.map relabel }

def skipTasks (s : State) (p : Nat) (ts : List Nat) : State :=
  let s := ts.foldl (fun s t => noteSkip s p t) s
  let s := ((runSet s).filter fun l => progNo s l = p).foldl (fun s l => s.setLane l (suspendTimed (s.lane l))) s
  let group (g : EmitGroup) : EmitGroup := if g.prog = p && g.ctx = .timed && g.done.isNone then { g with ctx := .skip } else g
  let read (r : Replay) : Replay := if r.ctx = .timed then { r with ctx := .skip } else r
  { s with voter := { s.voter with groups := s.voter.groups.map group, replay := s.voter.replay.map read } }

/-- The overruns of one program. -/
def overrun (s : State) (p : Nat) : State :=
  if !running s then s
  else
    match stopOf s p, unendedIn s p .timed with
    | some (t, cause), _ => stopController s t cause
    | none, [] => s
    | none, ts => skipTasks s p ts

def overruns (s : State) : State := if programRuns s then (progsInForce s).foldl overrun s else s

/-- The slack of the tick that ends (Table TICK-6). -/
def noteSlack (s : State) : State :=
  if !programRuns s then s
  else
    let us := if s.tick.phase = 2 then min 0xFFFF ((s.tb3 - s.tick.slackStart) / 1000) else 0
    { s with tick := { s.tick with slack := us, slackMin := min s.tick.slackMin us } }

/-! ### The retentive emission (R82) -/

/-- The 8-byte words that one tick emits at most: 64 KiB per ms of P. -/
def retLimit (s : State) : Nat := 8192 * s.tick.period / 20

/-- The records of some words of the generation, with the data that a lane holds. -/
def retRecords (s : State) (l : Lane) (ws : List Nat) : List EffectRec :=
  let now := retentiveNow s l 0 (mainProg s)
  let g := inactiveGen s
  let byteOf (k : Nat) : Byte := ((now.find? fun (b : Nat × Byte) => b.1 = k).map (·.2)).getD (Memory.readByte g.bytes k)
  ws.map fun w =>
    { kind := 6, size := 3, last := false, safety := false, tag := .good, addr := 8 * w,
      beats := [fromLE ((List.range 8).map fun i => byteOf (8 * w + i))], ctx := .safety }

/-- Each lane of the voted set emits the words by which its data differ from the inactive generation; without a difference the
generation is complete. A generation that takes more than one tick lags until it is made valid (RET_LAG). -/
def retentiveEmission (s : State) : State :=
  if !programRuns s || s.voter.mode = .split || s.prog.retLeft ≠ 0 || s.prog.retDone || programHeld s then s
  else
    match (voteSet s).head? with
    | none => s
    | some lead =>
      let ws := ((retentiveDirty s lead).map fun b => b.1 / 8).eraseDups
      let now := ws.take (retLimit s)
      if now.isEmpty then { s with prog := { s.prog with retDone := true, retMore := false } }
      else
        let s := (voteSet s).foldl (fun s l =>
          (retRecords s l now).foldl (fun s r => s.present l r) s) s
        let more := decide (now.length < ws.length)
        { s with prog := { s.prog with retLeft := now.length, retMore := more }, tick := { s.tick with retLag := more || s.tick.retLag } }

/-! ### The guard -/

/-- The guard starts: the lanes stop, and those that have not come to the leading lane's instruction run on to it (R64, R134). -/
def guardBegin (s : State) : State :=
  let s := suspendAll (noteSlack s)
  let s := { s with tick := { s.tick with phase := 3, guardOpen := true } }
  (runSet s).foldl (fun s l => if (s.lane l).stops.isEmpty then s else resched s l) s

/-- The work of the guard once every lane stands at one instruction: overruns, the comparison, and what follows it. -/
def guardRest (s : State) : State :=
  let s := { s with tick := { s.tick with guardOpen := false } }
  let pages := trackedLines s
  let s := gatherPages (digestStep (overruns s)) pages
  noteQueues (retentiveEmission (rebalanceGuard (recopyStep s)))

/-- The guard's work that can be done now. -/
def guardGo (s : State) : State := if s.tick.guardOpen && caughtUp s then guardRest s else s

def guardWork (s : State) : State := guardGo (guardBegin s)

/-- The guard ends with its tick: what waits for a lane that has not come to its instruction is done without it (log entry 109). -/
def guardClose (s : State) : State :=
  if s.tick.guardOpen then guardRest (s.mapLanes fun _ x => { suspendLane x with stops := [] }) else s

/-- The guard starts once a tick has come to it. -/
def guardDue (s : State) : Bool := s.tick.begun && (s.tick.phase = 1 || s.tick.phase = 2)

/-- The guard start; while the guard waits for a lane, the event carries out what can be done by now (log entry 109). -/
def execGuardStart (at_ : Nat) (s : State) : Out :=
  .next (if guardDue s then guardWork (s.at_ at_) else guardGo (if s.tick.guardOpen then s.at_ at_ else s))

/-! ### BOUNDARY_MISSED (R79) -/

/-- A boundary has not begun within its limit. DESIGN CHOICE (log entry 123): TICK_STOP shows this cause with task 0, over that of an
earlier stop. -/
def boundaryMissed (s : State) : State :=
  if s.pwr.step ≠ 9 || s.pwr.failed ≠ 0 then s
  else
    let s := raiseSafeOpen s .tick 5
    { s with tick := { s.tick with stopTask := 0, stopCause := 3 } }

def execBoundaryMissed (at_ : Nat) (s : State) : Out := .next (boundaryMissed (s.at_ at_))

/-! ### Safety windows (R19, R134) -/

/-- The lanes give way to a safety instance whose window has opened, each at the instruction at which the leading lane stands (R134). -/
def preempt (s s' : State) (l : Lane) (i : Nat) : State :=
  resched (s'.setLane l ((s.lane l).suspend (guardInstant s) (leadCount s l) (some i))) l

def safetyWindow (s : State) (i : Nat) : State :=
  if !programRuns s || !guardDue s then s else (runSet s).foldl (fun s' l => preempt s s' l i) s

def execSafetyWindowStart (inst : W16) (s : State) : Out := .next (safetyWindow s inst.toNat)

end Sys2Proof.Machine
end

