-- ==== Sys2Proof/Machine/Sensors.lean ====
section
/-! DEFINITION. What the module measures: voltages, currents and counts of a physical process, which the rows carry no value of. They are
sampled at each boundary as free values (DESIGN CHOICE, log entry 133). -/

namespace Sys2Proof.Machine

open Sys2Proof

/-- The `i`th measured value of `w` bits that an open number holds. -/
def sample (v i w : Nat) : Nat := v / 2 ^ (32 * i) % 2 ^ w

/-- The input and the bulk rail (R511), and the offset of the recovered reference over its last window (R447, Table CLK-8). -/
def sampleSupply (v : Nat) (s : State) : State :=
  { s with pwr := { s.pwr with vin := sample v 0 16, bulk := sample v 1 16, ac := sample v 2 1 = 1 },
           clk := { s.clk with recPpb := (sample v 3 32 : Int) - 2 ^ 31 } }

/-- The field supplies, and the current of each input and output, the largest of an output kept (R329, R333, R340, Table FIO-5). -/
def sampleField (v : Nat) (s : State) : State :=
  let s := { s with safe := { s.safe with lpaVolt := sample v 4 8, lpbVolt := sample v 5 8 } }
  let s := (List.range 18).foldl (fun s ch => s.setDi ch { s.di ch with current := sample v (6 + ch) 8 }) s
  (List.finRange 8).foldl (fun s (m : Fin 8) =>
    let i := sample v (24 + m.val) 16
    s.setDout m { s.dout m with current := i, currentMax := max i (s.dout m).currentMax }) s

/-- The recessive sequences that a recovery has counted (R367), and the packets that a Hollyhock link repeated or received with a bad CRC
(R418, Table HLK-8). -/
def sampleLinks (v : Nat) (s : State) : State :=
  let s := (List.finRange 6).foldl (fun s (n : Fin 6) =>
    let c := s.can n
    if c.state = 3 then s.setCan n { c with recov := min 128 (c.recov + sample v (32 + n.val) 8) } else s) s
  (List.finRange 4).foldl (fun s (n : Fin 4) =>
    let k := s.link n
    if k.up then s.setLink n { k with repeats := min 0xFFFF (k.repeats + sample v (40 + n.val) 16),
                                      crc := min 0xFFFF (k.crc + sample v (44 + n.val) 16) } else s) s

/-- Every measured value is taken anew. -/
def sampleAll (s : State) : State :=
  let (v, s) := s.free
  sampleLinks v (sampleField v (sampleSupply v s))

end Sys2Proof.Machine
end

