-- ==== Sys2Proof/Machine/Swap.lean ====
section
/-! DEFINITION. The first part of step 1 of a boundary: the settings of the image at the first boundary, the shadow swap with what each
new setting starts, and the units that the first boundary brings to RUN (R13, R37, R59, R65, R90, R301, R332, R352, R376, R394, R397,
R402, R409, R448, R466). -/

namespace Sys2Proof.Machine

open Sys2Proof

/-! ### The settings of the image (R5, step 9 of Sequence ARC-2) -/

/-- One register value that the image writes, checked as any write is (R85). -/
def imageSetting (s : State) (e : Nat × Nat × W32) : State :=
  match unitOfAddr e.1 with
  | none => s
  | some (u, off) =>
    match findReg s.clk.compat u off with
    | none => s
    | some d =>
      let v := e.2.2 &&& (d.rw ||| d.rws)
      if u = .clk && 0x800 ≤ off then mirrorWrite s off e.2.2
      else if d.rw ||| d.rws = 0 then s
      else if !settingOk s u off e.2.1 v then badSetting s u off
      else if u = .tick && off = 0x104 then { s with tick := { s.tick with next := v } }
      else if d.rws ≠ 0 then s.setRegPending u off e.2.1 v
      else s.setReg u off e.2.1 v

def imageSettings (s : State) : State := (mainProg s).settings.foldl imageSetting s

/-! ### The shadow swap (R13, R37) -/

/-- A pending value that the swap makes active, with the value before. -/
structure Swapped where
  u : UnitId
  off : Nat
  obj : Nat
  old : W32
  new : W32
deriving DecidableEq, Repr

def swapped? (s : State) (e : Nat × W32) : Option Swapped :=
  match unitOfAddr (e.1 / 0x100000) with
  | some (u, off) => some { u, off, obj := e.1 % 0x100000, old := s.reg u off (e.1 % 0x100000), new := e.2 }
  | none => none

/-- A value of a unit was written. -/
def wrote (ws : List Swapped) (u : UnitId) (off : Nat) : Bool := ws.any fun (w : Swapped) => w.u = u && w.off = off

/-- A value of a unit's registers from `lo` up to below `hi` has changed. -/
def changedIn (ws : List Swapped) (u : UnitId) (lo hi : Nat) : Bool :=
  ws.any fun (w : Swapped) => w.u = u && lo ≤ w.off && w.off < hi && w.old ≠ w.new

/-- The value that a register had before the swap. -/
def valueBefore (s : State) (ws : List Swapped) (u : UnitId) (off : Nat) : W32 :=
  ((ws.find? fun (w : Swapped) => w.u = u && w.off = off).map (·.old)).getD (s.reg u off)

/-- A new TICK_OFFSET re-phases a grid on TB0. -/
def offsetSwap (s : State) (ws : List Swapped) : State :=
  if changedIn ws .tick 0x108 0x10C && (s.tick.align = .aligned || s.tick.align = .holdover) then
    { s with tick := { s.tick with rephaseDue := true } }
  else s

/-- A DI group whose range changes settles anew: its inputs are BAD until each has settled. -/
def rangeSwap (s : State) (ws : List Swapped) (g : Fin 4) : State :=
  if changedIn ws .safe (0x500 + 4 * g) (0x504 + 4 * g) then
    (List.range 4).foldl (fun s i => s.setDi (4 * g + i) { s.di (4 * g + i) with settling := true }) s
  else s

def canSwaps (s : State) (ws : List Swapped) (n : Fin 6) : State :=
  if changedIn ws (.can n) 0x100 0x110 then
    canSwap s n (valueBefore s ws (.can n) 0x100) (changedIn ws (.can n) 0x104 0x110)
  else s

def ethSwaps (s : State) (ws : List Swapped) (x : Fin 4) : State :=
  if changedIn ws (.eth x) 0x100 0x104 then ethSwap s x (valueBefore s ws (.eth x) 0x100) else s

/-- Arming takes its next instant after `t`. -/
def pgSwap (s : State) (ws : List Swapped) (t k : Nat) : State :=
  if changedIn ws .time (0x300 + 0x20 * k) (0x318 + 0x20 * k) then pgArm s k t else s

def clkSwaps (s : State) (ws : List Swapped) : State :=
  clkSwap s (valueBefore s ws .clk 0x104) (wrote ws .clk 0x104) (wrote ws .clk 0x10C)

def bucketSwaps (s : State) (ws : List Swapped) : State :=
  (ws.filter fun (w : Swapped) => w.u = .evr && w.off = 0x11C && w.old ≠ w.new).foldl (fun s w => bucketSwap s w.obj) s

/-- Every pending value becomes active, and what depends on it follows; `t` is the nominal instant. -/
def shadowSwap (s : State) (t : Nat) : State :=
  let ws := s.regsPending.filterMap (swapped? s)
  let s := { s with regs := mapMerge s.regs s.regsPending, regsPending := [] }
  let s := (List.finRange 4).foldl (fun s g => rangeSwap s ws g) (offsetSwap s ws)
  let s := (List.finRange 6).foldl (fun s n => canSwaps s ws n) s
  let s := (List.finRange 4).foldl (fun s x => ethSwaps s ws x) s
  let s := bucketSwaps (clkSwaps s ws) ws
  let s := resource s t
  pgSwap (pgSwap s ws t 0) ws t 1

/-! ### The units at the first boundary -/

/-- The units that enter RUN at the first boundary whatever the map. -/
def firstUnits : List UnitId := [.tick, .place, .voter] ++ laneUnits ++ [.pair, .safe, .clk, .lcs, .hlk] ++ linkUnits ++ [.svc]

/-- The map in force uses a port. -/
def portUsed (s : State) (q : Port) : Bool := (progsInForce s).any fun p => ((mapFor s p).map fun m => m.routes.any (·.port = some q)).getD false

/-- The port units that the map in force uses. -/
def usedUnits (s : State) : List UnitId :=
  ((List.finRange 6).filter fun n => portUsed s (.can n)).map .can ++ ((List.finRange 4).filter fun x => portUsed s (.eth x)).map .eth
    ++ ((List.finRange 4).filter fun x => portUsed s (.ser x)).map .ser

/-- Units that the start has not left in FAULT enter RUN, and the static node directory is loaded. -/
def openUnits (s : State) : State :=
  loadDirectory ((firstUnits ++ usedUnits s).foldl (fun s u => if (s.ucb u).state = .fault then s else enterState s u .run) s)

end Sys2Proof.Machine
end

