-- ==== Sys2Proof/Machine/Boundary.lean ====
section
/-! DEFINITION. The boundary sequence (R58 to R60, R65, R71, R72, R75, R80 to R83, R116, R118, R237, R238, R251, R254, R258, R259, R262,
R264 to R269, R497, R499, R504, R521). Steps 1 to 3 are one indivisible effect of the command. -/

namespace Sys2Proof.Machine

open Sys2Proof

/-! ### Step 0: the boundary on its grid (R58 to R60, R72, R258) -/

/-- A standby whose number falls at the sync boundary forgets the buffers of its own count. -/
def forgetCount (s : State) (n : Nat) : State :=
  if n ≤ s.tick.n then s.mapLanes fun _ x => { x with in0 := {}, in1 := {}, in2 := {} } else s

def setAlign (s : State) (a : Align) (rephased : Bool) : State := { s with tick := { s.tick with align := a, rephased } }

/-- The state of alignment that goes with a boundary's place on its grid. -/
def takePoint (s : State) (g : GridPoint) : State :=
  let due := s.tick.rephaseDue
  let s := { s with tick := { s.tick with rephased := false, rephaseDue := false } }
  match g.move with
  | .follow => forgetCount (if due then setAlign s (alignNow s) false else s) g.n
  | .count => if s.tick.begun then s else setAlign s .free false
  | .rephase => if s.tick.begun then setAlign s (alignNow s) true else setAlign s .aligned false
  | .behind => raiseOpen (setAlign s .behind false) .tick 7

/-- TICK_LATE and TICK_BPH of this boundary, and BOUNDARY_LATE in ALIGNED (R61, R63, R79). -/
def noteLate (s : State) (lag bph : Nat) : State :=
  let lag' := min 0xFFFF lag
  let bph' := min 0xFFFF bph
  let s := { s with tick := { s.tick with
    lag := lag', lagMax := max s.tick.lagMax lag', bph := bph', bphMax := max s.tick.bphMax bph' } }
  if s.tick.align = .aligned && 1000 < lag then raiseOpen s .tick 4 else s

/-! ### Step 1: the pair (R251, R254, R265 to R268, R504) -/

/-- Contexts, queues and waiting effects of every lane end; the data stay. -/
def dropWork (s : State) : State :=
  let s := s.mapLanes fun _ x =>
    { x with current := none, safety := {}, timed := {}, skip := {}, free := {}, queue := [], spill := [], stops := [] }
  { s with voter := { s.voter with groups := [], replay := [] }, tick := { s.tick with guardOpen := false } }

/-- The former active module claims STANDBY after a hand-over; SWITCHOVER ends. -/
def standDown (s : State) : State :=
  let h := s.pair.handover
  let s := dropWork s
  let s := { s with tick := { s.tick with running := false },
                    pair := { s.pair with handover := 0, finalSent := false, sent := none, dirtyOld := [], dirtyBulk := [],
                                          follow := none, peerRevertDue := false } }
  let s := setRole s .standby
  match (s.ucb .pair).running with
  | some r => if r.code = 0x80 then s.finish .pair .ok (h % 65536) else s
  | none => s

/-- The standby of a LINKED pair claims SEIZE and makes a cold restart of its own image. -/
def seizeLinked (s : State) : State :=
  setRole { s with pair := { s.pair with seizeLeft := 8, handover := 0, follow := none },
                   tick := { s.tick with running := false, restart := some false } } .seize

/-- The program goes on from the state of the last copy. -/
def runFromCopy (s : State) : State :=
  { s with tick := { s.tick with running := true }, prog := { s.prog with firstTick := false } }

/-- The announced hand-over ends at boundary `n`: the standby proceeds as at a takeover, unless it is stopped or in the safe state (R308). -/
def handoverDue (s : State) (n : Nat) : Bool :=
  running s && s.pair.role = .standby && s.pair.state = .synced && s.pair.finalSent && s.pair.handover ≠ 0 && s.pair.handover < n
    && !s.pair.takeover

/-- The pair's part of step 1. A module that is in no pair role yet becomes active. -/
def pairStep (s : State) (n : Nat) : State :=
  let p := s.pair
  if p.role = .standby then
    if p.takeover && running s then runFromCopy (takeOver s false)
    else if handoverDue s n then runFromCopy (takeOver s true)
    else if running s && p.state = .linked && p.handover ≠ 0 && p.handover ≤ n then seizeLinked s
    else if p.state = .syncing && p.copied then reclaim (syncFormed s)
    else reclaim (revertStep s)
  else if p.role = .none then setRole s .active
  else if p.finalSent && p.handover < n then standDown s
  else if p.role = .active && 2 ≤ p.higher then depose s
  else seizeStep s

/-! ### Step 1: restart and the first program tick (R80 to R83, R116, R206, R237, R238) -/

/-- The composite units of the programs that run, at their first tick (R116). -/
def composeUnits (s : State) : State :=
  (progsInForce s).foldl (fun s p => (progOf s p).insts.foldl (fun s d =>
    match unitAt d with
    | some k => s.setUcb (.composite k) (·.gated (if d.autoRun then .run else .off))
    | none => s) s) s

/-- MERGE has held its tokens through the re-initialisation (R248). -/
def releaseMerge (s : State) : State :=
  if s.voter.change.isNone && s.voter.rejoin.isNone && holds s .splitJoin then releaseTokens s .splitJoin else s

/-- The programs run from this boundary on: their output-image values stand at the image's initial values (R80, R307). -/
def beginTicks (s : State) : State :=
  let s := (progsInForce s).foldl (fun s p => initOutputs s p (progOf s p)) s
  releaseMerge (composeUnits { s with tick := { s.tick with running := true, reinit := false },
                                      prog := { s.prog with firstTick := false } })

/-- Figures and held payloads since the restart start again. -/
def clearFigures (s : State) : State :=
  let s := restartCounts s
  { s with
    place := { s.place with overLast := 0, overCount := 0 },
    pair := { s.pair with stations := s.pair.stations.map fun e => (e.1, { e.2 with held := [] }) } }

/-- The inputs of a computation differ from those of the set in force. -/
def inputsChanged (s : State) : Bool :=
  match s.place.set.head? with
  | some m => sha256 (inputRecord (placeInput s m.period) m) ≠ m.inDigest
  | none => false

/-- RESTART and MERGE have their result. DESIGN CHOICE (log entry 124): 'that boundary' of R83 is the one at which the command takes
effect, also where the re-initialisation goes on beyond it. -/
def endRestart (s : State) (code : Status) (kind : Nat) : State :=
  let s := match (s.ucb .tick).running with
    | some r => if r.code = 0x80 then s.finish .tick code kind else s
    | none => s
  match (s.ucb .voter).running with
  | some r => if r.code = 0x83 then s.finish .voter code kind else s
  | none => s

/-- A restart takes effect: data from the image or the generation, and the program off until the next boundary, or until a new map
set is there. -/
def restartNow (s : State) (warm : Bool) : State :=
  let (can, s) := restartProgram (dropWork s) warm
  let s := clearFigures { s with tick := { s.tick with running := false, restart := none } }
  let s := endRestart s .ok (b2n can)
  if inputsChanged s then { s with tick := { s.tick with reinit := true }, place := { s.place with computing := true } } else s

/-- The new set of a restart comes into force with the first program tick, with the map that the losses of now call for (R203, R206). -/
def adoptLoaded (s : State) (inp : PlaceInput) (ms : List PMap) : State :=
  let s := loadBase (adoptSet { s with place := { s.place with loaded := none } } inp ms) ms
  (restartProgram (switchMain s) s.tick.warm).2

/-- The start of a program that has not run since the reset, or since this module was a standby (R81). -/
def startProgram (s : State) : State := clearFigures (restartProgram s (mainProg s).warm).2

/-- What a boundary's step 1 opens: whether step 3 commits safe values only, whether this is a first program tick, and whether SPLIT
begins. -/
structure Opening where
  safeOnly : Bool := false
  first : Bool := false
  switch : Bool := false
deriving DecidableEq, Repr

/-- A restart that is due, the first program tick, or the start of the program. -/
def programStep (s : State) : State × Opening :=
  match s.tick.restart with
  | some warm =>
    if running s then (restartNow s warm, { safeOnly := true })
    else (releaseMerge (endRestart { s with tick := { s.tick with restart := none } } .faulted 0), {})
  | none =>
    if s.tick.reinit then
      match s.place.loaded with
      | some (inp, ms) => (beginTicks (adoptLoaded s inp ms), { first := true })
      | none => (s, { safeOnly := true })
    else if s.prog.firstTick && running s then (beginTicks s, { first := true })
    else if !s.tick.running && running s && !programHeld s && s.place.map.isSome then
      (beginTicks (startProgram s), { first := true })
    else (s, {})

/-- SPLIT begins: its programs start cold and run from this boundary (R65, R237). A mode change leaves G and X as they are (R170). -/
def enterSplit (s : State) : State :=
  let t := clearFigures (beginTicks (restartProgram s false).2)
  { t with voter := { t.voter with gen := s.voter.gen, xlate := s.voter.xlate } }

/-! ### Step 1 as a whole -/

/-- Accepted change sets take effect together, and go with the next copy. -/
def takeChanges (s : State) : State :=
  let k := (s.prog.changesDue.map (·.size)).sum
  let s := s.prog.changesDue.foldl applyChange s
  { s with prog := { s.prog with changesDue := [] }, pair := { s.pair with bytesOut := s.pair.bytesOut + k } }

/-- The channels lay out their RAM for the programs that run from now on. -/
def layoutAll (s : State) : State := (List.finRange 6).foldl (fun s n => canLayout s n false) s

/-- The trial window counts while the module runs the program as active or single module (R497). -/
def trialStep (s : State) : State :=
  let counts := s.upd.trial && s.tick.running && running s && !programHeld s
  match s.upd.trialRun with
  | none => if counts && s.upd.trialLeft ≠ 0 then { s with upd := { s.upd with trialRun := some s.tb3 } } else s
  | some _ => if counts then s else { s with upd := { s.upd with trialLeft := trialSeconds s, trialRun := none } }

/-- The settings and the units of the first boundary, and the shadow swap of every boundary. -/
def swapStep (s : State) (t : Nat) : State :=
  if s.tick.begun then shadowSwap s t
  else openUnits (shadowSwap (imageSettings s) t)

/-- Activities that the module starts by itself and that found a token held try again (R55). -/
def retryStep (s : State) : State :=
  retryResync (clkChange (Lane.all.foldl (fun s l => latentResync (rejoin s l) l) s))

/-- Modes, losses and the map for boundary `n`. A lane that leaves ends a running REBALANCE as any other loss does (R207). A hand-over
keeps the map of the copy. -/
def modeStep (s : State) (n : Nat) : State :=
  let mode := s.voter.mode
  let leaves : Bool := !(s.voter.fenced ++ s.voter.latentDue).isEmpty
  let handed := handoverDue s n
  let s := pairStep (foxStep (voterStep (retryStep s))) n
  let s := if (mode = .split) ≠ (s.voter.mode = .split) then layoutAll s else s
  let s := rebalanceSwitch (rebalanceLost s leaves) n
  if handed then s else placeStep s

/-- Losses that the shadow swap itself brings take effect one boundary later (R202): `f` runs without them. -/
def withoutNewLosses (s : State) (lost : List Resource) (f : State → State) : State :=
  let late := s.place.lost.filter fun r => r ∉ lost
  let s := f { s with place := { s.place with lost := s.place.lost.filter fun r => r ∈ lost } }
  late.foldl State.lose s

def step1 (s : State) (n t : Nat) : State × Opening :=
  let split := s.voter.mode = .split
  let lost := s.place.lost
  let s := restartsDue (dropPrefetch (swapStep s t) fun _ => true)
  let s := takeChanges (setsAtBoundary (inaugEffect s) t)
  let s := withoutNewLosses s lost fun s => modeStep s n
  let s := degradeCount (profileTick s)
  let (s, o) : State × Opening :=
    if s.voter.mode = .split && !split then (enterSplit s, { first := true, switch := true }) else programStep s
  (noteGroups (reclaim (trialStep s)), o)

/-! ### Step 4: the state copy (R259, R262, R264, R268) -/

/-- KiB of the copy of a tick: its pages, the two images, the register image, and the change sets and retentive writes of the tick
(Table PAIR-4). -/
def copyKib (s : State) : Nat :=
  copySize s.pair.dirtyBulk.length ((mainProg s).inSize + (mainProg s).outSize) s.pair.bytesOut 0 s.regs.length

/-- A copy that the standby has not acknowledged by now is coalesced. -/
def coalesce (s : State) : State :=
  match s.pair.sent with
  | none => { s with pair := { s.pair with coalescing := false, coalesced := 0 } }
  | some _ =>
    let k := s.pair.coalesced + 1
    let s := raiseOpen { s with pair := { s.pair with
      sent := none, coalescing := true, coalesced := k, coalCount := satUp 0xFF s.pair.coalCount,
      dirtyBulk := s.pair.dirtyOld.foldl mark s.pair.dirtyBulk, dirtyOld := [] } } .pair 3
    if s.regField .pair 0x104 19 16 < k then
      let s := raiseOpen { s with pair := { s.pair with lostCount := satUp 0xFF s.pair.lostCount } } .pair 4
      partnerLost s .syncing
    else s

/-- The copy of tick n − 1 starts, with the hand-over that it announces; the copy of the hand-over boundary is final. -/
def copyStep (s : State) (n : Nat) : State :=
  if !copies s || s.pair.seizeLeft = 8 then
    { s with pair := { s.pair with dirtyBulk := [], dirtyOld := [], sent := none, bytesOut := 0 } }
  else
    let s := coalesce (announceHandover s n)
    if !copies s then s
    else
      let kib := copyKib s
      { s with pair := { s.pair with
        sent := some { tick := n - 1, kib, started := s.tb3 }, dirtyOld := s.pair.dirtyBulk, dirtyBulk := [],
        copyLast := kib, copyMax := max s.pair.copyMax kib, bytesOut := 0,
        finalSent := s.pair.handover = n } }

/-- The active module of a LINKED pair claims STANDBY at the boundary that RESTART_HANDOVER named, after its commit. -/
def linkedHandover (s : State) (n : Nat) : State :=
  match s.upd.handover with
  | none => s
  | some h =>
    if n < h || s.pair.role = .standby then s
    else
      let s := dropWork { s with tick := { s.tick with running := false },
                                 upd := { s.upd with handover := none }, pair := { s.pair with handover := 0 } }
      let s := setRole s .standby
      let s := offer s 0x115 .lcs (bytesLE 8 h)
      match (s.ucb .lcs).running with
      | some r => if r.code = 0x95 then s.finish .lcs .ok (h % 65536) else s
      | none => s

/-! ### Step 5: activation (R71 to R76, R78, R186) -/

/-- The boundary numbers for which a task is activated at boundary `n`: those that a re-phase has passed count with it. -/
def numbersDue (s : State) (prev n : Nat) : List Nat :=
  if s.tick.rephased then (List.range (min 8 (n - prev))).map (n - ·) else [n]

/-- The tick pattern for which a task is due, if it is. -/
def duePattern (m : PMap) (ks : List Nat) (t : TaskDecl) : Option Nat :=
  if t.cls = .f then none
  else (ks.find? fun k => activeIn t.cls (mapGetD m.phases t.index 0) (k % 8)).map (· % 8)

/-- The top-level instances of the due tasks of a program, in map order: task, instance. -/
def dueInsts (s : State) (pn : Nat) (p : Program) (m : PMap) (ks : List Nat) : List (Nat × Nat) :=
  let all : List (Nat × Nat × Nat) := p.tasks.flatMap fun t =>
    match duePattern m ks t with
    | none => []
    | some pat =>
      if (taskStat s pn t.index).leaveOut then []
      else t.insts.map fun i =>
        ((((m.insts.find? fun r => r.index = i).bind fun r => mapGet? pat r.at_).map (·.1)).getD 0xFFFF, t.index, i)
  (sortBy (fun (a b : Nat × Nat × Nat) => a.1 ≤ b.1) all).map (·.2)

/-- An activation left out has been left out once (R78). -/
def clearLeaveOut (s : State) (pn : Nat) (ks : List Nat) : State :=
  match mapFor s pn with
  | none => s
  | some m =>
    (progOf s pn).tasks.foldl (fun s t =>
      let r := taskStat s pn t.index
      if r.leaveOut && (duePattern m ks t).isSome then
        { s with tick := { s.tick with tasks := mapPut (taskKey pn t.index) { r with leaveOut := false } s.tick.tasks } }
      else s) s

/-- A lane's contexts for the tick: the safety instances, of which the first may start at once, and the others; the F cycle may go
on in the slack. -/
def activateLane (p : Program) (due : List (Nat × Nat)) (x : LaneSt) : LaneSt :=
  let safe (e : Nat × Nat) : Bool := ((progInst p e.2).map (·.safety)).getD false
  let b := newestBuf x
  let ss := due.filter safe
  { x with
    safety := { x.safety with todo := ss, buf := b, share := 0, opened := if ss.isEmpty then 0 else 1 },
    timed := { x.timed with todo := due.filter fun e => !safe e, buf := b,
                            share := if x.skip.busy || !x.skip.todo.isEmpty then 3 - x.skip.share else 1 },
    free := { x.free with yielded := false } }

def activate (s : State) (prev n : Nat) : State :=
  let ks := numbersDue s prev n
  let s := (runSet s).foldl (fun s l =>
    match mapFor s (progNo s l) with
    | some m => s.setLane l (activateLane (laneProg s l) (dueInsts s (progNo s l) (laneProg s l) m ks) (s.lane l))
    | none => s) s
  (progsInForce s).foldl (fun s pn => clearLeaveOut s pn ks) s

/-- The boundary phase ends: the tick has its number and time, positions in the stream of effects count from here (R217), the lanes go
on, and the windows of units restarted at this boundary close (R292). -/
def step5 (s : State) (prev n t : Nat) : State :=
  let s := { s with tick := { s.tick with n, time := t, phase := 1, begun := true, slackStart := t },
                    voter := { s.voter with pos := 0 },
                    pair := { s.pair with times := mapPut n t (s.pair.times.filter fun e => n ≤ e.1 + 8 && e.1 < n) } }
  let s := if programRuns s && !programHeld s then activate s prev n else s
  closeRestarted (notePhase (if programHeld s then s else (runSet s).foldl resched s))

/-! ### The boundary -/

/-- Steps 0 to 5 of the boundary at a point of its grid. Its nominal instant is the tick-consistent time (R167). -/
def runBoundary (s : State) (g : GridPoint) (lag bph : Nat) : State :=
  let prev := s.tick.n
  let n := g.n
  let t := g.time
  let s := sampleAll (sendBeacon (takePoint s g) n)
  let s := { s with tick := { s.tick with phase := 0 } }
  let gs := s.voter.groups
  let (s, o) := step1 (noteLate s lag bph) n t
  let s := latchStep s n t
  let s := (List.finRange 6).foldl (fun s k => tmQueue s k n) (clearTx s)
  let s := commitStep s n gs o.safeOnly o.switch
  let s := linkedHandover (copyStep s n) n
  step5 s (if o.first then n - 1 else prev) n t

/-- The reset that is due at this boundary: MODULE_RESET, or the end of an expired trial. -/
def dueReset (s : State) : Option ResetCause :=
  match s.pwr.resetDue, s.upd.fallbackAt with
  | some c, _ => some c
  | none, some t => if t ≤ s.tb3 then some .fallback else none
  | none, none => none

/-- Boundaries run from step 9 of the start. -/
def boundariesRun (s : State) : Bool := s.pwr.step = 9 && s.pwr.failed = 0 && !s.pwr.inReset

/-- The time of step 9 in PWR_START. -/
def noteStart (s : State) : State :=
  if s.tick.begun then s else { s with pwr := { s.pwr with startMs := min 0xFFFF (s.tb3 / 1000000) } }

/-- The next boundary: of the grid, or the first after the reset. -/
def pointNow (s : State) (lag : Nat) : GridPoint := if s.tick.begun then nextPoint s else firstPoint s (s.tb3 - lag)

/-- A boundary, which begins `lag` after its nominal instant. Where the guard's work has not been done, it is done first. The grid gives
the instant, and TB3 has reached it (log entry 110). -/
def boundaryAt (s : State) (at_ lag bph : Nat) : State :=
  if !boundariesRun s then s
  else
    let s := s.at_ at_
    match dueReset s with
    | some c => enterReset s c
    | none =>
      let s := noteStart (guardClose (if guardDue s then guardWork s else s))
      let g := pointNow s lag
      runBoundary (s.at_ (g.time + lag)) g lag bph

def execBoundary (at_ lag bph : Nat) (s : State) : Out := .next (boundaryAt s at_ lag bph)

end Sys2Proof.Machine
end

