-- ==== Sys2Proof/Machine/IsaCell.lean ====
section
/-! DEFINITION. Timer, counter and edge cells (R152 to R154, R169, R171 to R173, R176 to R178). -/

namespace Sys2Proof.Machine

open Sys2Proof

/-! ### Timer cells (Tables TMR-3, TMR-4) -/

structure TimerCell where
  acc : Nat
  tlast : Nat
  gen : Nat
  seed : Bool
  run : Bool
  q : Bool
  inPrev : Bool
deriving DecidableEq, Repr

/-- The largest accumulated time. -/
def accTop : Nat := 2 ^ 63 - 1

/-- A timer cell as it stands; reserved bits are ignored and a negative ACC is taken as 0 (R172). -/
def timerOf (bs : List Byte) : TimerCell :=
  let acc := fromLE ((bs.drop 8).take 8)
  let ctrl := (bs.getD 24 0).toNat
  { acc := if 2 ^ 63 ≤ acc then 0 else acc, tlast := fromLE ((bs.drop 16).take 8), gen := fromLE ((bs.drop 28).take 4),
    seed := ctrl.testBit 7, run := ctrl.testBit 2, q := ctrl.testBit 1, inPrev := ctrl.testBit 0 }

/-- The 32 bytes of a timer cell with elapsed time `et`; reserved bits are written back as zero. -/
def TimerCell.bytes (t : TimerCell) (et : Nat) : List Byte :=
  bytesLE 8 et ++ bytesLE 8 t.acc ++ bytesLE 8 t.tlast
    ++ [BitVec.ofNat 8 (b2n t.seed * 128 + b2n t.run * 4 + b2n t.q * 2 + b2n t.inPrev), 0, 0, 0] ++ bytesLE 4 t.gen

/-- The interval since the previous execution (R169); a cell with GEN 0 has none and gives 0. -/
def timerInterval (g : Nat) (x : Option Int) (t : Nat) (c : TimerCell) : Nat :=
  if c.gen = 0 then 0
  else if c.gen = g then ((t : Int) - c.tlast).toNat
  else
    match x with
    | some x => if c.gen + 1 = g then ((t : Int) - (c.tlast + x)).toNat else 0
    | none => 0

inductive TimerKind | on | off | pulse
deriving DecidableEq, Repr

def satAcc (a d : Nat) : Nat := min accTop (a + d)

/-- TON (R173). -/
def tonStep (c : TimerCell) (pt d : Nat) (i : Bool) : TimerCell :=
  let c := if !i then { c with acc := 0, q := false }
    else if !c.inPrev then { c with acc := 0, q := decide (pt ≤ 0) }
    else { c with acc := satAcc c.acc d, q := decide (pt ≤ satAcc c.acc d) }
  { c with run := i && !c.q }

/-- TOF (R173). -/
def tofStep (c : TimerCell) (pt d : Nat) (i : Bool) : TimerCell :=
  if i then { c with acc := 0, q := true, run := false }
  else if c.inPrev then { c with acc := 0, run := decide (0 < pt), q := decide (0 < pt) }
  else if c.run then { c with acc := satAcc c.acc d, run := decide (satAcc c.acc d < pt), q := decide (satAcc c.acc d < pt) }
  else c

/-- TP (R173). -/
def tpStep (c : TimerCell) (pt d : Nat) (i : Bool) : TimerCell :=
  let c := if !c.run && i && !c.inPrev then { c with acc := 0, run := decide (0 < pt) }
    else if c.run then { c with acc := satAcc c.acc d, run := decide (satAcc c.acc d < pt) }
    else c
  let c := if !c.run && !i then { c with acc := 0 } else c
  { c with q := c.run }

/-- One execution of a timer instruction at tick-consistent time `t`: the new bytes and Q. -/
def timerStep (kind : TimerKind) (g : Nat) (x : Option Int) (t : Nat) (i : Bool) (pt : Int) (bs : List Byte) : List Byte × Bool :=
  let c := timerOf bs
  let pt := pt.toNat
  let d := timerInterval g x t c
  let c := { c with tlast := t, gen := g, inPrev := if c.seed then i else c.inPrev, seed := false }
  let c := match kind with | .on => tonStep c pt d i | .off => tofStep c pt d i | .pulse => tpStep c pt d i
  let c := { c with inPrev := i }
  (c.bytes (min c.acc pt), c.q)

/-! ### Counter cells (Tables TMR-6, TMR-7) -/

/-- The limits of a RANGE code; a code above 4 is taken as 0 (R172). -/
def rangeLimits : Nat → Int × Int
  | 1 => (-2 ^ 31, 2 ^ 31 - 1)
  | 2 => (-2 ^ 15, 2 ^ 15 - 1)
  | 3 => (0, 2 ^ 32 - 1)
  | 4 => (0, 2 ^ 16 - 1)
  | _ => (-2 ^ 63, 2 ^ 63 - 1)

inductive CounterKind | up | down | both
deriving DecidableEq, Repr

/-- CV after one execution (R177): R before LD before counting; simultaneous edges cancel. -/
def countStep (cv lo hi pv : Int) (r ld up dn : Bool) : Int :=
  if r then 0
  else if ld then min (max pv lo) hi
  else if up && !dn && decide (cv < hi) then cv + 1
  else if dn && !up && decide (lo < cv) then cv - 1
  else cv

/-- One execution of a counter instruction with the inputs of ra: the new bytes, QU and QD. DESIGN CHOICE (log entry 126): a RANGE code
above 4, taken as 0, is written back as 0. -/
def counterStep (kind : CounterKind) (a : Nat) (pv : Int) (bs : List Byte) : List Byte × Bool × Bool :=
  let ctrl := (bs.getD 8 0).toNat
  let range := (bs.getD 9 0).toNat
  let lim := rangeLimits range
  let hasU := decide (kind ≠ .down)
  let hasD := decide (kind ≠ .up)
  let cu := hasU && a.testBit 0
  let cd := hasD && a.testBit 1
  let seed := ctrl.testBit 7
  let cuPrev := if seed then cu else ctrl.testBit 0
  let cdPrev := if seed then cd else ctrl.testBit 1
  let cv := countStep (toSigned 64 (fromLE (bs.take 8))) lim.1 lim.2 pv (hasU && a.testBit 2) (hasD && a.testBit 3)
    (cu && !cuPrev) (cd && !cdPrev)
  let qu := if hasU then decide (pv ≤ cv) else ctrl.testBit 2
  let qd := if hasD then decide (cv ≤ 0) else ctrl.testBit 3
  let ctrl' := b2n qd * 8 + b2n qu * 4 + b2n (if hasD then cd else ctrl.testBit 1) * 2 + b2n (if hasU then cu else ctrl.testBit 0)
  (bytesLE 8 (ofSigned 64 cv) ++ [BitVec.ofNat 8 ctrl', BitVec.ofNat 8 (if range ≤ 4 then range else 0)] ++ List.replicate 6 0, qu, qd)

/-! ### Edge cells (R178) -/

/-- One execution of an edge detector: the new bytes and Q. -/
def edgeStep (rising clk : Bool) (bs : List Byte) : List Byte × Bool :=
  let b := (bs.getD 0 0).toNat
  let prev := if b.testBit 7 then clk else b.testBit 0
  let q := if rising then clk && !prev else prev && !clk
  (BitVec.ofNat 8 (b2n q * 2 + b2n clk) :: List.replicate 7 0, q)

/-! ### Addressing and write-back (R152, R153) -/

def CFmt.len (f : CFmt) : Nat := if f.cell = 0 then 8 else 4

/-- The cell's byte offset in the instance in ib. -/
def cellOff (f : CFmt) : Nat := if f.cell = 0 then f.ext.toNat else f.cell.toNat * 8

def cellExc (p : Program) (c : LaneCtx) (off size : Nat) : Option Nat :=
  match progInst p c.ib.toNat with
  | none => some xSignature
  | some d =>
    orElseExc (off % 8 ≠ 0) xAlign (orElseExc (instSize p d < off + size) xSpaceBound (orElseExc (off < 16) xSpaceWrite none))

/-- The cell written back: locally, or as one effect with a beat for each word. -/
def cellBack (s : State) (l : Lane) (k : CtxKind) (c : LaneCtx) (a : Access) (bs : List Byte) : State :=
  let s := s.setCtx l k c
  match placeOf s (progNo s l) a with
  | .own addr => s.setLane l ((s.lane l).store addr bs)
  | .bulk _ =>
    s.present l
      { kind := 0, size := 3, last := false, safety := partSafe (laneProg s l) c, tag := .good, addr := refOf a.space a.inst a.off,
        beats := beatsOf (bs.length / 8) bs, ctx := k }

/-- A cell instruction: `g` gives the new bytes, the value for rd and cf.T. -/
def cellOp (s : State) (l : Lane) (f : CFmt) (size : Nat) (legal : Bool) (g : LaneCtx → List Byte → List Byte × Nat × Bool) : Out :=
  .next (issue s l (CFmt.len f) [f.rd.toNat, f.ra.toNat, f.rb.toNat] legal fun k c =>
    let a : Access := { stack := false, space := 0, inst := c.ib.toNat, off := cellOff f }
    match cellExc (laneProg s l) c a.off size with
    | some kind => except s l k c kind a.space a.off
    | none =>
      if isEffect s l a && queueFull (s.lane l) then s
      else
        let r := g c (readAccess s l k c a size).1
        cellBack (noteRead s l k a size) l k (({ c with cf := setT c.cf r.2.2 }.wr f.rd.toNat (BitVec.ofNat 64 r.2.1)).past (CFmt.len f)) a r.1)

/-- A timer instruction: IN = ra[0], PT = rb as TIME. -/
def timerOp (s : State) (l : Lane) (f : CFmt) (kind : TimerKind) : Out :=
  cellOp s l f 32 true fun c bs =>
    let r := timerStep kind s.voter.gen s.voter.xlate c.time (bitAt (c.rd f.ra.toNat) 0) (c.rd f.rb.toNat).toInt bs
    (r.1, b2n r.2, r.2)

def execTon (l : Lane) (f : CFmt) (s : State) : Out := timerOp s l f .on

def execTof (l : Lane) (f : CFmt) (s : State) : Out := timerOp s l f .off

def execTp (l : Lane) (f : CFmt) (s : State) : Out := timerOp s l f .pulse

/-- A counter instruction: inputs in ra[3:0], PV = rb as INT64. -/
def counterOp (c : LaneCtx) (f : CFmt) (kind : CounterKind) (bs : List Byte) : List Byte × Bool × Bool :=
  counterStep kind ((c.rd f.ra.toNat).toNat % 16) (c.rd f.rb.toNat).toInt bs

def execCtu (l : Lane) (f : CFmt) (s : State) : Out :=
  cellOp s l f 16 true fun c bs => let r := counterOp c f .up bs; (r.1, b2n r.2.1, r.2.1)

def execCtd (l : Lane) (f : CFmt) (s : State) : Out :=
  cellOp s l f 16 true fun c bs => let r := counterOp c f .down bs; (r.1, b2n r.2.2, r.2.2)

/-- rd := QU + 2 × QD; cf.T := QU. -/
def execCtud (l : Lane) (f : CFmt) (s : State) : Out :=
  cellOp s l f 16 true fun c bs => let r := counterOp c f .both bs; (r.1, b2n r.2.1 + 2 * b2n r.2.2, r.2.1)

def execRtrig (l : Lane) (f : CFmt) (s : State) : Out :=
  cellOp s l f 8 (f.rb = 0) fun c bs => let r := edgeStep true (bitAt (c.rd f.ra.toNat) 0) bs; (r.1, b2n r.2, r.2)

def execFtrig (l : Lane) (f : CFmt) (s : State) : Out :=
  cellOp s l f 8 (f.rb = 0) fun c bs => let r := edgeStep false (bitAt (c.rd f.ra.toNat) 0) bs; (r.1, b2n r.2, r.2)

end Sys2Proof.Machine
end

