-- ==== Sys2Proof/Machine/IsaFlow.lean ====
section
/-! DEFINITION. Branches, function-block calls and the stack (R93, R113 to R115, R148 to R151). -/

namespace Sys2Proof.Machine

open Sys2Proof

/-- B: pc := address of the B word + 4 × DISP22 when the condition holds. -/
def execB (l : Lane) (f : BFmt) (s : State) : Out :=
  .next (issue s l 4 [] (f.cond.toNat < 15) fun k c =>
    if condHolds f.cond.toNat c.cf then s.setCtx l k { c with pc := c.pc + f.disp.signExtend 32 * 4 }
    else s.setCtx l k (c.past 4))

/-- JR: pc := ra[31:0]; a target that is not a multiple of 4 is illegal at the JR. -/
def execJr (l : Lane) (f : RFmt) (s : State) : Out :=
  .next (issue s l (RFmt.len f) (RFmt.regs f) (RFmt.plain f false true false) fun k c =>
    let t := field (aOf c f) 31 0
    if t % 4 ≠ 0 then except s l k c xIllegal else s.setCtx l k { c with pc := BitVec.ofNat 32 t })

/-- Word SIG of an instance (Table PGM-8). -/
def sigOf (p : Program) (d : InstDecl) : Nat := (d.ty % 4096) * 2 ^ 20 + ((progType p d.ty).map (·.layout)).getD 0 % 2 ^ 20

/-- The composite unit that an instance is, if it is one, and its state (R115). -/
def compositeState (s : State) (d : InstDecl) : Option UState := (d.unitIndex.bind (fin? 32767)).map fun k => (s.ucb (.composite k)).state

/-- The frame of R93: return pc, ib, cf and qf. -/
def frameOf (c : LaneCtx) (ret : W32) : List Byte :=
  bytesLE 4 ret.toNat ++ bytesLE 4 c.ib.toNat ++ [c.cf, c.qf] ++ List.replicate 6 0

/-- Part of the target against the part in ib (R149 step 2). -/
def callPartition (p : Program) (c : LaneCtx) (d : InstDecl) : Bool :=
  if partSafe p c then !d.safety && !d.safeRead else d.safety

/-- FBCALL (R149), step by step. -/
def fbcall (s : State) (l : Lane) (k : CtxKind) (c : LaneCtx) (target sig : Nat) : State :=
  let p := laneProg s l
  match progInst p target with
  | none => except s l k c xSignature
  | some d =>
    if sigOf p d ≠ sig then except s l k c xSignature
    else if callPartition p c d then except s l k c xPartition
    else if (match compositeState s d with | some .run => false | some _ => true | none => false) then
      s.setCtx l k ({ c with cf := setT c.cf false }.past 8)
    else if 64 ≤ c.depth then except s l k c xCallDepth
    else if c.sp.toNat < (shareOf p c.share).1 + 16 then except s l k c xStackOverflow
    else
      let sp := c.sp - 16
      let x := (s.lane l).store (stackAddr p sp.toNat) (frameOf c (c.pc + 8))
      s.setLane l (x.setCtx k { c with sp := sp, ib := BitVec.ofNat 16 target, cf := 0, qf := 0, depth := c.depth + 1,
                                       pc := BitVec.ofNat 32 (typeEntry p target) })

def execFbcall (l : Lane) (f : FFmt) (s : State) : Out :=
  .next (issue s l 8 [f.ra.toNat] (f.z = 0 && (if f.ri then f.idx = 0 else f.ra = 0)) fun k c =>
    fbcall s l k c (if f.ri then field (c.rd f.ra.toNat) 15 0 else f.idx.toNat) f.ext.toNat)

/-- FBRET (R150): the end of the top-level instance at the stack top, else the pop of the frame at sp. -/
def fbret (s : State) (l : Lane) (k : CtxKind) (c : LaneCtx) : State :=
  let p := laneProg s l
  if c.sp.toNat = (shareOf p c.share).2 then instanceEnds s l k c
  else
    let at_ (off len : Nat) : Nat := Memory.readNat (s.lane l).mem (stackAddr p c.sp.toNat + off) len
    let ib := at_ 4 2
    if (progInst p ib).isNone then except s l k c xSignature
    else s.setCtx l k { c with
      pc := BitVec.ofNat 32 (at_ 0 4), ib := BitVec.ofNat 16 ib, cf := setT (BitVec.ofNat 8 (at_ 8 1 % 0x80)) true,
      qf := BitVec.ofNat 8 (at_ 9 1 % 0x40), sp := c.sp + 16, depth := c.depth - 1 }

def execFbret (l : Lane) (f : RFmt) (s : State) : Out :=
  .next (issue s l (RFmt.len f) [] (RFmt.plain f false false false) fun k c => fbret s l k c)

/-- sp moved within the context's stack share, or STACK_OVERFLOW (R151). -/
def moveSp (s : State) (l : Lane) (k : CtxKind) (c : LaneCtx) (sp : Int) : State :=
  let sh := shareOf (laneProg s l) c.share
  if sp < sh.1 || (sh.2 : Int) < sp then except s l k c xStackOverflow
  else s.setCtx l k ({ c with sp := BitVec.ofInt 32 sp }.past 4)

/-- ENTER: sp := sp − 16 × IMM16. -/
def execEnter (l : Lane) (f : IFmt) (s : State) : Out :=
  .next (issue s l 4 [] (f.rd = 0 && f.ra = 0) fun k c => moveSp s l k c ((c.sp.toNat : Int) - 16 * f.imm.toNat))

/-- LEAVE: sp := sp + 16 × IMM16. -/
def execLeave (l : Lane) (f : IFmt) (s : State) : Out :=
  .next (issue s l 4 [] (f.rd = 0 && f.ra = 0) fun k c => moveSp s l k c ((c.sp.toNat : Int) + 16 * f.imm.toNat))

end Sys2Proof.Machine
end

