-- ==== Sys2Proof/Machine/IsaInt.lean ====
section
/-! DEFINITION. The INT group (R141, R142, Table ISA-7). -/

namespace Sys2Proof.Machine

open Sys2Proof

/-- TY is one that the INT group accepts, and operand b is well formed. -/
def intLegal (f : RFmt) : Bool := RFmt.tyIs f Ty.isInt && RFmt.bOk f

/-- An "a only" instruction: RB = 0 and I = 0. -/
def intLegalA (f : RFmt) : Bool := RFmt.tyIs f Ty.isInt && RFmt.aOnly f

def execAdd (l : Lane) (f : RFmt) (s : State) : Out :=
  computeR s l f (intLegal f) fun p c => intAdd (RFmt.theTy f) (trapMode p c) c.cf (aOf c f) (bOf c f)

def execSub (l : Lane) (f : RFmt) (s : State) : Out :=
  computeR s l f (intLegal f) fun p c => intSub (RFmt.theTy f) (trapMode p c) c.cf (aOf c f) (bOf c f)

def execMul (l : Lane) (f : RFmt) (s : State) : Out :=
  computeR s l f (intLegal f) fun p c => intMul (RFmt.theTy f) (trapMode p c) c.cf (aOf c f) (bOf c f)

def execDiv (l : Lane) (f : RFmt) (s : State) : Out :=
  computeR s l f (intLegal f) fun p c => intDiv (RFmt.theTy f) (trapMode p c) c.cf (aOf c f) (bOf c f)

def execMod (l : Lane) (f : RFmt) (s : State) : Out :=
  computeR s l f (intLegal f) fun p c => intMod (RFmt.theTy f) (trapMode p c) c.cf (aOf c f) (bOf c f)

def execNeg (l : Lane) (f : RFmt) (s : State) : Out :=
  computeR s l f (intLegalA f) fun p c => intNeg (RFmt.theTy f) (trapMode p c) c.cf (aOf c f)

def execAbs (l : Lane) (f : RFmt) (s : State) : Out :=
  computeR s l f (intLegalA f) fun p c => intAbs (RFmt.theTy f) (trapMode p c) c.cf (aOf c f)

def execMin (l : Lane) (f : RFmt) (s : State) : Out :=
  computeR s l f (intLegal f) fun _ c => intMin (RFmt.theTy f) c.cf (aOf c f) (bOf c f)

def execMax (l : Lane) (f : RFmt) (s : State) : Out :=
  computeR s l f (intLegal f) fun _ c => intMax (RFmt.theTy f) c.cf (aOf c f) (bOf c f)

def execLimit (l : Lane) (f : RFmt) (s : State) : Out :=
  computeR s l f (intLegal f) fun _ c => intLimit (RFmt.theTy f) c.cf (dOf c f) (aOf c f) (bOf c f)

/-- MULH accepts INT64 and UINT64 only. -/
def execMulh (l : Lane) (f : RFmt) (s : State) : Out :=
  computeR s l f (RFmt.tyIs f (fun t => t = .int64 || t = .uint64) && RFmt.bOk f) fun _ c =>
    intMulh (RFmt.theTy f) c.cf (aOf c f) (bOf c f)

end Sys2Proof.Machine
end

