-- ==== Sys2Proof/Machine/IsaLogic.lean ====
section
/-! DEFINITION. The LOGIC and BIT groups and CMP (R145 to R147, Table ISA-9). -/

namespace Sys2Proof.Machine

open Sys2Proof

/-- An integer type other than TIME. -/
def plainInteger (t : Ty) : Bool := t.isInt && t ≠ .time

/-- LOGIC accepts BOOL and the integer types. -/
def logicLegal (f : RFmt) : Bool := RFmt.tyIs f (fun t => t = .bool || plainInteger t) && RFmt.bOk f

/-- Shifts, rotates and BIT accept the integer types only. -/
def bitLegal (f : RFmt) : Bool := RFmt.tyIs f plainInteger && RFmt.bOk f

def bitLegalA (f : RFmt) : Bool := RFmt.tyIs f plainInteger && RFmt.aOnly f

def execAnd (l : Lane) (f : RFmt) (s : State) : Out :=
  computeR s l f (logicLegal f) fun _ c => logicAnd (RFmt.theTy f) c.cf (aOf c f) (bOf c f)

def execOr (l : Lane) (f : RFmt) (s : State) : Out :=
  computeR s l f (logicLegal f) fun _ c => logicOr (RFmt.theTy f) c.cf (aOf c f) (bOf c f)

def execXor (l : Lane) (f : RFmt) (s : State) : Out :=
  computeR s l f (logicLegal f) fun _ c => logicXor (RFmt.theTy f) c.cf (aOf c f) (bOf c f)

def execAndn (l : Lane) (f : RFmt) (s : State) : Out :=
  computeR s l f (logicLegal f) fun _ c => logicAndn (RFmt.theTy f) c.cf (aOf c f) (bOf c f)

def execNot (l : Lane) (f : RFmt) (s : State) : Out :=
  computeR s l f (RFmt.tyIs f (fun t => t = .bool || plainInteger t) && RFmt.aOnly f) fun _ c =>
    logicNot (RFmt.theTy f) c.cf (aOf c f)

def execShl (l : Lane) (f : RFmt) (s : State) : Out :=
  computeR s l f (bitLegal f) fun _ c => logicShl (RFmt.theTy f) c.cf (aOf c f) (bOf c f)

def execShr (l : Lane) (f : RFmt) (s : State) : Out :=
  computeR s l f (bitLegal f) fun _ c => logicShr (RFmt.theTy f) c.cf (aOf c f) (bOf c f)

def execSar (l : Lane) (f : RFmt) (s : State) : Out :=
  computeR s l f (bitLegal f) fun _ c => logicSar (RFmt.theTy f) c.cf (aOf c f) (bOf c f)

def execRol (l : Lane) (f : RFmt) (s : State) : Out :=
  computeR s l f (bitLegal f) fun _ c => logicRol (RFmt.theTy f) c.cf (aOf c f) (bOf c f)

def execRor (l : Lane) (f : RFmt) (s : State) : Out :=
  computeR s l f (bitLegal f) fun _ c => logicRor (RFmt.theTy f) c.cf (aOf c f) (bOf c f)

def execBtst (l : Lane) (f : RFmt) (s : State) : Out :=
  computeR s l f (bitLegal f) fun _ c => bitTest (RFmt.theTy f) c.cf (aOf c f) (bOf c f)

def execBset (l : Lane) (f : RFmt) (s : State) : Out :=
  computeR s l f (bitLegal f) fun _ c => bitSet (RFmt.theTy f) c.cf (aOf c f) (bOf c f)

def execBclr (l : Lane) (f : RFmt) (s : State) : Out :=
  computeR s l f (bitLegal f) fun _ c => bitClr (RFmt.theTy f) c.cf (aOf c f) (bOf c f)

def execBinv (l : Lane) (f : RFmt) (s : State) : Out :=
  computeR s l f (bitLegal f) fun _ c => bitInv (RFmt.theTy f) c.cf (aOf c f) (bOf c f)

def execBext (l : Lane) (f : RFmt) (s : State) : Out :=
  computeR s l f (bitLegal f) fun _ c => bitExt (RFmt.theTy f) c.cf (aOf c f) (bOf c f)

def execBins (l : Lane) (f : RFmt) (s : State) : Out :=
  computeR s l f (bitLegal f) fun _ c => bitIns (RFmt.theTy f) c.cf (dOf c f) (aOf c f) (bOf c f)

def execPopc (l : Lane) (f : RFmt) (s : State) : Out :=
  computeR s l f (bitLegalA f) fun _ c => bitPop (RFmt.theTy f) c.cf (aOf c f)

def execClz (l : Lane) (f : RFmt) (s : State) : Out :=
  computeR s l f (bitLegalA f) fun _ c => bitClz (RFmt.theTy f) c.cf (aOf c f)

/-- CMP: FN 0x00 to 0x05 are assigned. -/
def execCmp (l : Lane) (fn : BitVec 6) (f : RFmt) (s : State) : Out :=
  computeR s l f (fn.toNat < 6 && (RFmt.type? f).isSome && RFmt.bOk f) fun _ c =>
    compareRes (RFmt.theTy f) fn.toNat c.cf (aOf c f) (bOf c f)

end Sys2Proof.Machine
end

