-- ==== Sys2Proof/Machine/IsaMove.lean ====
section
/-! DEFINITION. Moves and constants (R135, Table ISA-5). -/

namespace Sys2Proof.Machine

open Sys2Proof

/-- A 16-bit immediate sign-extended to 64 bits. -/
def imm64 (f : IFmt) : W64 := f.imm.signExtend 64

/-- LI: rd := IMM16 sign-extended; RA = 0. -/
def execLi (l : Lane) (f : IFmt) (s : State) : Out :=
  .next (compute s l 4 f.rd.toNat [] (f.ra = 0) fun _ c => .res (imm64 f) c.cf)

/-- ADDI: rd := ra + IMM16 as INT64, under the overflow mode, with the flags of ADD. -/
def execAddi (l : Lane) (f : IFmt) (s : State) : Out :=
  .next (compute s l 4 f.rd.toNat [f.ra.toNat] true fun p c => intAdd .int64 (trapMode p c) c.cf (c.rd f.ra.toNat) (imm64 f))

/-- MOV: rd := ra, or the extension word sign-extended. -/
def execMov (l : Lane) (f : RFmt) (s : State) : Out :=
  computeR s l f (f.ty = 0 && f.rb = 0 && (!f.i || f.ra = 0)) fun _ c =>
    .res (if f.i then f.ext.signExtend 64 else aOf c f) c.cf

/-- MOVHI: rd := (extension word << 32) OR ra[31:0]; I = 1. -/
def execMovhi (l : Lane) (f : RFmt) (s : State) : Out :=
  computeR s l f (f.ty = 0 && f.rb = 0 && f.i) fun _ c =>
    .res (BitVec.ofNat 64 (f.ext.toNat * 2 ^ 32 + (aOf c f).toNat % 2 ^ 32)) c.cf

/-- SEL: rd := ra when cf.T = 1, else rb. -/
def execSel (l : Lane) (f : RFmt) (s : State) : Out :=
  computeR s l f (RFmt.plain f true true true) fun _ c =>
    .res (if bitAt c.cf cfT then aOf c f else c.rd f.rb.toNat) c.cf

/-- RDCF: rd := cf. -/
def execRdcf (l : Lane) (f : RFmt) (s : State) : Out :=
  computeR s l f (RFmt.plain f true false false) fun _ c => .res (c.cf.zeroExtend 64) c.cf

/-- WRCF: cf := ra[6:0]. -/
def execWrcf (l : Lane) (f : RFmt) (s : State) : Out :=
  computeR s l f (RFmt.plain f false true false) fun _ c => .res 0 (BitVec.ofNat 8 (field (aOf c f) 6 0))

/-- RDQF: rd := qf. -/
def execRdqf (l : Lane) (f : RFmt) (s : State) : Out :=
  computeR s l f (RFmt.plain f true false false) fun _ c => .res (c.qf.zeroExtend 64) c.cf

/-- WRQF: qf := ra[5:0]. -/
def execWrqf (l : Lane) (f : RFmt) (s : State) : Out :=
  .next (issue s l (RFmt.len f) (RFmt.regs f) (RFmt.plain f false true false) fun k c =>
    s.setCtx l k ({ c with qf := BitVec.ofNat 8 (field (aOf c f) 5 0) }.past (RFmt.len f)))

/-- RDTK: rd := tk. -/
def execRdtk (l : Lane) (f : RFmt) (s : State) : Out :=
  computeR s l f (RFmt.plain f true false false) fun _ c => .res c.tk c.cf

end Sys2Proof.Machine
end

