-- ==== Sys2Proof/Machine/IsaReal.lean ====
section
/-! DEFINITION. The REAL group and the conversions (R143, R144, Table ISA-8). -/

namespace Sys2Proof.Machine

open Sys2Proof

/-- TY is REAL32 or REAL64, and operand b is well formed. -/
def realLegal (f : RFmt) : Bool := RFmt.tyIs f Ty.isReal && RFmt.bOk f

def realLegalA (f : RFmt) : Bool := RFmt.tyIs f Ty.isReal && RFmt.aOnly f

def execFadd (l : Lane) (f : RFmt) (s : State) : Out :=
  computeR s l f (realLegal f) fun p c => realAdd (RFmt.theTy f) (trapMode p c) c.cf (aOf c f) (bOf c f)

def execFsub (l : Lane) (f : RFmt) (s : State) : Out :=
  computeR s l f (realLegal f) fun p c => realSub (RFmt.theTy f) (trapMode p c) c.cf (aOf c f) (bOf c f)

def execFmul (l : Lane) (f : RFmt) (s : State) : Out :=
  computeR s l f (realLegal f) fun p c => realMul (RFmt.theTy f) (trapMode p c) c.cf (aOf c f) (bOf c f)

def execFdiv (l : Lane) (f : RFmt) (s : State) : Out :=
  computeR s l f (realLegal f) fun p c => realDiv (RFmt.theTy f) (trapMode p c) c.cf (aOf c f) (bOf c f)

def execFsqrt (l : Lane) (f : RFmt) (s : State) : Out :=
  computeR s l f (realLegalA f) fun p c => realSqrt (RFmt.theTy f) (trapMode p c) c.cf (aOf c f)

def execFabs (l : Lane) (f : RFmt) (s : State) : Out :=
  computeR s l f (realLegalA f) fun p c => realAbs (RFmt.theTy f) (trapMode p c) c.cf (aOf c f)

def execFneg (l : Lane) (f : RFmt) (s : State) : Out :=
  computeR s l f (realLegalA f) fun p c => realNeg (RFmt.theTy f) (trapMode p c) c.cf (aOf c f)

def execFmin (l : Lane) (f : RFmt) (s : State) : Out :=
  computeR s l f (realLegal f) fun p c => realMin (RFmt.theTy f) (trapMode p c) c.cf (aOf c f) (bOf c f)

def execFmax (l : Lane) (f : RFmt) (s : State) : Out :=
  computeR s l f (realLegal f) fun p c => realMax (RFmt.theTy f) (trapMode p c) c.cf (aOf c f) (bOf c f)

def execFma (l : Lane) (f : RFmt) (s : State) : Out :=
  computeR s l f (realLegal f) fun p c => realFma (RFmt.theTy f) (trapMode p c) c.cf (dOf c f) (aOf c f) (bOf c f)

def execFlimit (l : Lane) (f : RFmt) (s : State) : Out :=
  computeR s l f (realLegal f) fun p c => realLimit (RFmt.theTy f) (trapMode p c) c.cf (dOf c f) (aOf c f) (bOf c f)

/-- The target type that RB[14:11] of the base word codes: the low four bits of the RB field, the top one zero. -/
def cvtTarget (f : RFmt) : Option Ty := Ty.ofCode f.rb.toNat

/-- CVT accepts every pair of types. -/
def cvtLegal (f : RFmt) : Bool := !f.i && (RFmt.type? f).isSome && (cvtTarget f).isSome

/-- TRUNC needs a real source and an integer or TIME target. -/
def truncLegal (f : RFmt) : Bool :=
  !f.i && RFmt.tyIs f Ty.isReal && match cvtTarget f with | some t => t.isInt | none => false

def execCvt (l : Lane) (f : RFmt) (s : State) : Out :=
  computeR s l f (cvtLegal f) fun p c =>
    convert (RFmt.theTy f) ((cvtTarget f).getD .bool) false (trapMode p c) c.cf (aOf c f)

def execTrunc (l : Lane) (f : RFmt) (s : State) : Out :=
  computeR s l f (truncLegal f) fun p c =>
    convert (RFmt.theTy f) ((cvtTarget f).getD .bool) true (trapMode p c) c.cf (aOf c f)

end Sys2Proof.Machine
end

