-- ==== Sys2Proof/Machine/Start.lean ====
section
/-! DEFINITION. The start (Sequence ARC-2): reset release, clocks, the recorder scan, the Foxglove test, identity memories, the life
cycle and the boot slot, the map set, the partner, the brake test, and the time limits (R23, R242, R256, R434, R442, R461, R472,
R477, R496 to R499, R516 to R519). An event that its step does not await changes nothing (log entry 1). -/

namespace Sys2Proof.Machine

open Sys2Proof

/-- The start is at a step, neither stopped nor in reset. -/
def startAt (s : State) (k : Nat) : Bool := s.pwr.step = k && s.pwr.failed = 0 && !s.pwr.inReset

/-- A step of the start begins. -/
def beginStart (s : State) (k : Nat) : State := { s with pwr := { s.pwr with step := k } }

/-! ### Steps 1 and 2 (R442, R461, R516) -/

/-- The straps by their samples: a strap whose first three differ takes the next three, and none is valid when those differ. -/
def sampleStraps (s1 s2 s3 t1 t2 t3 : BitVec 13) : Option (BitVec 13) :=
  let d := (s1 ^^^ s2) ||| (s1 ^^^ s3)
  let e := ((t1 ^^^ t2) ||| (t1 ^^^ t3)) &&& d
  if e = 0 then some ((s1 &&& ~~~d) ||| (t1 &&& d)) else none

/-- PERIOD of Table TICK-1. -/
def strapPeriod (straps : W32) : Nat :=
  match field straps 4 2 with
  | 0 => 20 | 1 => 5 | 2 => 10 | 3 => 40 | 4 => 80 | 5 => 100 | 6 => 200 | _ => 400

/-- The units that enter QUIESCED at reset release, and those that enter RUN; the others stay OFF. -/
def quiescedUnits : List UnitId := [.tick, .place, .voter, .pair, .hlk, .safe, .clk, .lcs] ++ laneUnits ++ linkUnits

def runUnits : List UnitId := [.flt, .evr, .pwr]

def releaseUnits (s : State) : State :=
  let s := quiescedUnits.foldl (fun s u => s.setUcb u (·.gated .quiesced)) s
  noteGroups (runUnits.foldl (fun s u => s.setUcb u (·.gated .run)) s)

/-- The cause word that PWR_CAUSE shows. -/
def causeWord (s : State) : W32 := pack [(s.pwr.cause, 24), (s.pwr.prior, 16)]

/-- Reset release with valid straps: step 1 ends and step 2 begins. A module that was never powered before takes TICK_NEXT from the
strap; TICK_PERIOD shows the strap's period until step 6 takes one (R57, R90). -/
def release (s : State) (straps : BitVec 13) (cards : W32) : State :=
  let s := wakeUp s
  let w : W32 := straps.setWidth 32
  let first := s.pwr.starts = 0 && s.evr.store.isEmpty
  let s := { s with
    pwr := { s.pwr with inReset := false, strap := w, strapNow := w, starts := (s.pwr.starts + 1) % 65536, step := 2 },
    tick := { s.tick with period := strapPeriod w, next := if first then BitVec.ofNat 32 (strapPeriod w) else s.tick.next },
    time := { s.time with now := 0 },
    clk := { s.clk with compat := bitAt w 0 } }
  let s := releaseUnits s
  let s := (List.finRange 32).foldl (fun s (t : Fin 32) =>
    if bitAt cards t.val then s.setCard t { s.card t with line := true } else s) s
  offerPrivileged s 1 (handleOf .sys)
    (bytesLE 4 (causeWord s).toNat ++ bytesLE 1 Config.hwIssue.toNat ++ bytesLE 1 (lifeCycle s).code)

/-- Reset release: straps that differ in both sets of samples keep the module in reset. -/
def resetRelease (s : State) (straps : Option (BitVec 13)) (cards : W32) : State :=
  if !s.pwr.inReset then s
  else match straps with
    | some w => release s w cards
    | none => enterReset s .brownout

def execResetRelease (s1 s2 s3 t1 t2 t3 : BitVec 13) (cards : W32) (s : State) : Out :=
  .next (resetRelease s (sampleStraps s1 s2 s3 t1 t2 t3) cards)

def oscBit : Osc → Nat
  | .frc => 0 | .src => 1 | .tcxo => 2 | .xo32k => 3 | .tim2 => 4

/-- An oscillator may be used and its monitor is armed. -/
def oscReady (s : State) (o : Osc) : State :=
  if s.pwr.inReset then s
  else { s with clk := { s.clk with oscReady := Nat.lor s.clk.oscReady (2 ^ oscBit o),
                                    tim2Failed := s.clk.tim2Failed && o ≠ .tim2 } }

def execOscWaitExpiry (osc : Osc) (s : State) : Out := .next (oscReady s osc)

/-- Step 2: the domains move onto the PLLs, the monitors are armed, and TIME enters RUN (R417). -/
def pllLock (s : State) : State :=
  if startAt s 2 && s.clk.oscReady.testBit 2 && !s.clk.armed then
    enterState { s with clk := { s.clk with linkStop := false, canSilent := false, sysFrc := false, coreFrc := false, armed := true } }
      .time .run
  else s

def execPllLock (s : State) : Out := .next (pllLock s)

/-! ### Steps 3 and 4 (R242, R434, R472) -/

/-- The scan ends once the clocks are valid, and the Foxglove test begins with its tokens (R53, R248). -/
def scanDone (s : State) : State :=
  if startAt s 2 && s.clk.armed then foxBegin (takeTokens (beginStart (scanRecorder s) 3) .foxglove .voter) else s

def execRecorderScan (s : State) : Out := .next (scanDone s)

/-- Self-test 1 of a lane at step 3. -/
def startLane (passed : Bool) (s : State) (l : Lane) : State :=
  let s := s.setLane l { s.lane l with bist := passed }
  if passed then s else failSelf s (.lane l) 0xD s.voter.disAddr

/-- Step 4 begins: the records of the backplane and of every occupied slot are to be read. -/
def readRecords (s : State) : State :=
  let slots := (List.range 32).filter fun t => (s.card t).line
  { (beginStart s 4) with hlk := { s.hlk with rescan := some { slots, ok := 0 } } }

/-- The Foxglove test ends, at step 3 with the lanes' self-tests. -/
def foxDone (s : State) (seen : List (Nat × List FoxFlag)) (bist : Bool × Bool × Bool) : State :=
  let failed := foxFailed seen
  if !s.voter.foxRun then s
  else if !startAt s 3 then foxEnd s failed
  else
    let s := foxEnd s failed
    let s := startLane bist.2.2 (startLane bist.2.1 (startLane bist.1 s .a) .b) .c
    if failed.isNone && bist = (true, true, true) then readRecords s else stopStart s 3 1

def execFoxgloveTestEnd (seen : List (Nat × List FoxFlag)) (bist : Bool × Bool × Bool) (s : State) : Out := .next (foxDone s seen bist)

/-- No record is left to read: step 5 begins. -/
def recordsRead (s : State) : Bool := s.hlk.bpOk && (s.hlk.rescan.all fun r => r.slots.isEmpty)

/-- The backplane record is one: its CRC checks and one of its processor slots is SLOT_ID (R434). -/
def backplaneOk (s : State) (rec : List Byte) : Bool :=
  recordOk rec && (recByte rec 0x19 = slotId s || recByte rec 0x1A = slotId s)

/-- A card's record at step 4. -/
def startCard (s : State) (slot : Fin 32) (rec : List Byte) : State :=
  let c := s.card slot
  let ok := recordOk rec && recByte rec 1 = 0
  let s := if ok then s.setCard slot { c with record := rec, valid := true, present := true, inUnit := true }
    else raise (s.setCard slot { c with valid := false }) .hlk 3 (baseOf (.card slot 0))
  match s.hlk.rescan with
  | some r => { s with hlk := { s.hlk with rescan := some { r with slots := r.slots.filter (· ≠ slot.val) } } }
  | none => s

/-! ### Step 5 (R477, R478, R484, R496 to R500) -/

/-- An image key's state: the module's key, or in BLANK the key that the image carries. -/
def bootKey (s : State) (g : ProgramImage) : Option Nat := if s.lcs.stored = .blank then g.key else s.lcs.ikey

/-- A slot's images verify: signatures, HW_TYPE, SERIAL and PEER range (R497). -/
def slotVerifies (s : State) (x : ImageSlot) : Bool :=
  match x.fw, x.pgm with
  | some f, some g =>
    x.valid && f.naneost && f.hwType = Config.hwType && (f.serial = 0 || f.serial = serialNo) &&
      g.hwType = Config.hwType && (g.serial = 0 || g.serial = serialNo) &&
      g.peerMin ≤ f.version && f.version ≤ g.peerMax && g.signedBy.isSome && g.signedBy = bootKey s g
  | _, _ => false

/-- A stored transition that waited for the reset (Table LCS-2). -/
def applyTransition (s : State) : State :=
  match s.lcs.nextState with
  | some x =>
    let old := lifeCycle s
    lcsChange { s with lcs := { s.lcs with stored := x, nextState := none } } old x
  | none => s

/-- The slot to boot: a prepared slot goes on trial, and a further start on trial counts; the fourth falls back. -/
def chooseSlot (s : State) : State :=
  let u := s.upd
  if u.pendingBoot then
    let old := (activeSlot u).pgm.map (·.digest)
    let new := (inactiveSlot u).pgm.map (·.digest)
    { s with upd := { u with slotB := !u.slotB, trial := true, trials := 1, trialLeft := 60 * u.trialMin, safeOnTrial := false,
                             pendingBoot := false, newlyApplied := old ≠ new } }
  else if u.trial then
    if 3 ≤ u.trials then
      fallBack { s with pwr := { s.pwr with prior := s.pwr.cause, cause := 0x10 } }
    else { s with upd := { u with trials := u.trials + 1 } }
  else s

/-- A fallback start reports itself once (R499). -/
def reportFallback (s : State) : State :=
  if s.upd.fallenBack then updRecord (raiseOpen s .lcs 0x24) 0x113 0 (((activeSlot s.upd).pgm.map (·.version)).getD 0) else s

/-- The start stops for want of an image; a package that waits is then applied (R496). -/
def stopForImage (s : State) : State :=
  let s := stopStart s 5 1
  match s.upd.pkg with
  | some p => if s.pwr.inReset then s else autoApply s p
  | none => s

/-- The image of the boot slot is accepted; the first image of a BLANK module brings its keys (Table LCS-2). Step 6 begins. -/
def acceptImage (s : State) (g : ProgramImage) : State :=
  let s := { s with prog := { s.prog with image := some g, changes := (activeSlot s.upd).changes } }
  let s := if s.lcs.stored = .blank then
      lcsChange { s with lcs := { s.lcs with stored := .integration, ikey := g.key, fkey := g.fkey } } .blank .integration
    else { s with lcs := { s.lcs with fkey := g.fkey } }
  beginStart s 6

/-- TICK_NEXT, the image or the strap gives the period (R56), and the computation of step 6 begins. -/
def beginCompute (s : State) : State :=
  let use := bitAt s.tick.next 31
  let p := if use then field s.tick.next 8 0 else ((mainProg s).period).getD (strapPeriod s.pwr.strap)
  { s with tick := { s.tick with period := p, next := s.tick.next &&& 0x7FFFFFFF },
           place := { s.place with computing := true } }

/-- The boot slot is verified; where it fails, the other slot when it is valid. -/
def bootSlot (s : State) : State :=
  let accept (s : State) : State :=
    match (activeSlot s.upd).pgm with
    | some g => beginCompute (acceptImage s g)
    | none => s
  if slotVerifies s (activeSlot s.upd) then accept s
  else
    let o : State := { s with upd := { s.upd with slotB := !s.upd.slotB, trial := false, trials := 0, trialLeft := 0,
                                                   newlyApplied := false } }
    if (inactiveSlot s.upd).valid && slotVerifies o (activeSlot o.upd) then accept o else stopForImage s

/-- Step 5: the life-cycle state is applied and the boot slot chosen and verified. An erasure that a reset cut short goes on. -/
def applyImage (s : State) : State :=
  let s := beginStart s 5
  let s := applyTransition s
  let s := { s with lcs := { s.lcs with applied := true } }
  if s.lcs.pending && s.lcs.stored ≠ .returned then eraseSecrets s
  else if s.lcs.stored = .manufacture || s.lcs.stored = .returned then stopStart s 5 1
  else bootSlot (reportFallback (chooseSlot s))

/-- A record read at step 4: the backplane's first, then the cards'. -/
def startRecord (s : State) (slot : Nat) (rec : List Byte) : State :=
  let s := if slot = 32 then
      (if backplaneOk s rec then { s with hlk := { s.hlk with backplane := rec, bpOk := true } }
       else stopStart (raise s .hlk 5 (baseOf .hlk)) 4 1)
    else match fin? 32 slot with
      | some t => if s.hlk.bpOk && (s.card t).line then startCard s t rec else s
      | none => s
  if startAt s 4 && recordsRead s then applyImage { s with hlk := { s.hlk with rescan := none } } else s

/-- An identity-memory read ends after up to three attempts. -/
def idmRead (s : State) (slot : Fin 33) (rec : List Byte) : State :=
  if startAt s 4 then startRecord s slot.val rec
  else if s.pwr.step = 9 && s.pwr.failed = 0 && !s.pwr.inReset && (s.hlk.rescan.any fun r => slot.val ∈ r.slots) then
    match fin? 32 slot.val with
    | some t => cardRecord s t rec
    | none => s
  else s

def execIdmReadComplete (slot : Fin 33) (record : List Byte) (s : State) : Out := .next (idmRead s slot record)

/-! ### Step 6 (R184, R206, R519) -/

/-- The set of step 6 is adopted, and the start goes on to step 7 unless BOOT_HOLD holds it. -/
def setReady (s : State) (mismatch : Bool) (us : Nat) : State :=
  let s := { s with place := { s.place with us, computing := false } }
  match loadSet s s.tick.period mismatch with
  | (false, s) => stopStart s 6 1
  | (true, s) =>
    if bitAt s.pwr.strap 1 then { s with pwr := { s.pwr with hold := true, failed := 6, reason := 3 } } else beginStart s 7

/-- The set of a restart: in force from the first program tick, or no program runs. -/
def restartSet (s : State) (mismatch : Bool) (us : Nat) : State :=
  let s := { s with place := { s.place with us, computing := false } }
  let inp := placeInput s s.tick.period
  match computeResult s inp mismatch with
  | .fails kind => raiseOpen s .place kind
  | .done ms => { s with place := { s.place with loaded := some (inp, ms) } }

def mapComplete (s : State) (mismatch : Bool) (us : Nat) : State :=
  if !s.place.computing || s.pwr.inReset then s
  else if startAt s 6 then setReady s mismatch us
  else if s.tick.reinit then restartSet s mismatch us
  else if s.place.rebalance.any fun r => r.since.isNone then rebalanceComputed s mismatch us
  else combinedDone s mismatch us

def execPlacementMapComplete (mismatch : Bool) (us : Nat) (s : State) : Out := .next (mapComplete s mismatch us)

/-! ### Steps 7 and 8 (R256, R323) -/

/-- The image's brake settings, which the test needs before the first boundary (log entry 38). -/
def brakeSettings (s : State) : State :=
  (mainProg s).settings.foldl (fun s e =>
    match unitOfAddr e.1 with
    | some (.safe, off) =>
      if (off = 0x114 || off = 0x118) && safeSettingOk s off e.2.2 then s.setReg .safe off 0 e.2.2 else s
    | _ => s) s

/-- Step 8: a full test, or an electrical-only one with SERIES wiring unless the module is to become active (Table SAF-3). It holds its
tokens (R53). -/
def beginBrakeStep (s : State) : State :=
  let s := takeTokens (brakeSettings (beginStart s 8)) .brakeTest .safe
  beginBrakeTest s (series s && !toBecomeActive s) true

/-- A resync can run: a partner has arrived or one is due, and its tokens are free. -/
def resyncReady (s : State) : Bool := (s.pair.state = .handshake || s.pair.resyncDue) && tokensFree s .partnerResync

/-- A resync; at step 7 the start goes on once its checks are made. -/
def resync (s : State) (p : PeerIdentity) : State :=
  if startAt s 7 then (if resyncReady s then beginBrakeStep (partnerResync s p) else s)
  else if boundariesRun s then partnerResync s p
  else s

def execPartnerResync (peer : PeerIdentity) (s : State) : Out := .next (resync s peer)

/-- No partner's beacon for 500 ms: the module continues alone. -/
def beaconWait (s : State) : State := if startAt s 7 && !s.pair.peerUp then beginBrakeStep s else s

def execBeaconWaitTimeout (s : State) : Out := .next (beaconWait s)

/-! ### Time limits (R518) -/

/-- A step overruns its limit. Step 9 ends with the first boundary. -/
def stepTimeout (s : State) : State :=
  if s.pwr.inReset || s.pwr.failed ≠ 0 || s.pwr.step = 0 || (s.pwr.step = 9 && s.tick.begun) then s
  else stopStart s s.pwr.step 2

def execStartStepTimeout (s : State) : Out := .next (stepTimeout s)

end Sys2Proof.Machine
end

