-- ==== Sys2Proof/Machine/Dispatch.lean ====
section
/-! DEFINITION. The meaning of each command: one arm per row of the opcode table. -/

namespace Sys2Proof.Machine

open Sys2Proof

def exec (i : Instr) (s : State) : Host.Outcome State Fault Refusal :=
  match i with
  | .resetRelease s1 s2 s3 t1 t2 t3 cards => Sys2Proof.Machine.execResetRelease s1 s2 s3 t1 t2 t3 cards s
  | .oscWaitExpiry osc => Sys2Proof.Machine.execOscWaitExpiry osc s
  | .pllLock => Sys2Proof.Machine.execPllLock s
  | .recorderScan => Sys2Proof.Machine.execRecorderScan s
  | .foxgloveTestEnd seen bist => Sys2Proof.Machine.execFoxgloveTestEnd seen bist s
  | .idmReadComplete slot record => Sys2Proof.Machine.execIdmReadComplete slot record s
  | .placementMapComplete mismatch us => Sys2Proof.Machine.execPlacementMapComplete mismatch us s
  | .startStepTimeout => Sys2Proof.Machine.execStartStepTimeout s
  | .boundary at_ lag bph => Sys2Proof.Machine.execBoundary at_ lag bph s
  | .unitResetRestart u => Sys2Proof.Machine.execUnitResetRestart u s
  | .reactionWindowClose u => Sys2Proof.Machine.execReactionWindowClose u s
  | .guardStart at_ => Sys2Proof.Machine.execGuardStart at_ s
  | .boundaryMissed at_ => Sys2Proof.Machine.execBoundaryMissed at_ s
  | .safetyWindowStart inst => Sys2Proof.Machine.execSafetyWindowStart inst s
  | .windowOver inst => Sys2Proof.Machine.execWindowOver inst s
  | .li l f => Sys2Proof.Machine.execLi l f s
  | .addi l f => Sys2Proof.Machine.execAddi l f s
  | .mov l f => Sys2Proof.Machine.execMov l f s
  | .movhi l f => Sys2Proof.Machine.execMovhi l f s
  | .sel l f => Sys2Proof.Machine.execSel l f s
  | .rdcf l f => Sys2Proof.Machine.execRdcf l f s
  | .wrcf l f => Sys2Proof.Machine.execWrcf l f s
  | .rdqf l f => Sys2Proof.Machine.execRdqf l f s
  | .wrqf l f => Sys2Proof.Machine.execWrqf l f s
  | .rdtk l f => Sys2Proof.Machine.execRdtk l f s
  | .ld l f => Sys2Proof.Machine.execLd l f s
  | .loadDataReturn l => Sys2Proof.Machine.execLoadDataReturn l s
  | .st l f => Sys2Proof.Machine.execSt l f s
  | .ldq l f => Sys2Proof.Machine.execLdq l f s
  | .ref l f => Sys2Proof.Machine.execRef l f s
  | .add l f => Sys2Proof.Machine.execAdd l f s
  | .sub l f => Sys2Proof.Machine.execSub l f s
  | .mul l f => Sys2Proof.Machine.execMul l f s
  | .div l f => Sys2Proof.Machine.execDiv l f s
  | .mod l f => Sys2Proof.Machine.execMod l f s
  | .neg l f => Sys2Proof.Machine.execNeg l f s
  | .abs l f => Sys2Proof.Machine.execAbs l f s
  | .min l f => Sys2Proof.Machine.execMin l f s
  | .max l f => Sys2Proof.Machine.execMax l f s
  | .limit l f => Sys2Proof.Machine.execLimit l f s
  | .mulh l f => Sys2Proof.Machine.execMulh l f s
  | .fadd l f => Sys2Proof.Machine.execFadd l f s
  | .fsub l f => Sys2Proof.Machine.execFsub l f s
  | .fmul l f => Sys2Proof.Machine.execFmul l f s
  | .fdiv l f => Sys2Proof.Machine.execFdiv l f s
  | .fsqrt l f => Sys2Proof.Machine.execFsqrt l f s
  | .fabs l f => Sys2Proof.Machine.execFabs l f s
  | .fneg l f => Sys2Proof.Machine.execFneg l f s
  | .fmin l f => Sys2Proof.Machine.execFmin l f s
  | .fmax l f => Sys2Proof.Machine.execFmax l f s
  | .fma l f => Sys2Proof.Machine.execFma l f s
  | .flimit l f => Sys2Proof.Machine.execFlimit l f s
  | .cvt l f => Sys2Proof.Machine.execCvt l f s
  | .trunc l f => Sys2Proof.Machine.execTrunc l f s
  | .and l f => Sys2Proof.Machine.execAnd l f s
  | .or l f => Sys2Proof.Machine.execOr l f s
  | .xor l f => Sys2Proof.Machine.execXor l f s
  | .andn l f => Sys2Proof.Machine.execAndn l f s
  | .not l f => Sys2Proof.Machine.execNot l f s
  | .shl l f => Sys2Proof.Machine.execShl l f s
  | .shr l f => Sys2Proof.Machine.execShr l f s
  | .sar l f => Sys2Proof.Machine.execSar l f s
  | .rol l f => Sys2Proof.Machine.execRol l f s
  | .ror l f => Sys2Proof.Machine.execRor l f s
  | .btst l f => Sys2Proof.Machine.execBtst l f s
  | .bset l f => Sys2Proof.Machine.execBset l f s
  | .bclr l f => Sys2Proof.Machine.execBclr l f s
  | .binv l f => Sys2Proof.Machine.execBinv l f s
  | .bext l f => Sys2Proof.Machine.execBext l f s
  | .bins l f => Sys2Proof.Machine.execBins l f s
  | .popc l f => Sys2Proof.Machine.execPopc l f s
  | .clz l f => Sys2Proof.Machine.execClz l f s
  | .cmp l fn f => Sys2Proof.Machine.execCmp l fn f s
  | .b l f => Sys2Proof.Machine.execB l f s
  | .jr l f => Sys2Proof.Machine.execJr l f s
  | .fbcall l f => Sys2Proof.Machine.execFbcall l f s
  | .fbret l f => Sys2Proof.Machine.execFbret l f s
  | .enter l f => Sys2Proof.Machine.execEnter l f s
  | .leave l f => Sys2Proof.Machine.execLeave l f s
  | .ton l f => Sys2Proof.Machine.execTon l f s
  | .tof l f => Sys2Proof.Machine.execTof l f s
  | .tp l f => Sys2Proof.Machine.execTp l f s
  | .ctu l f => Sys2Proof.Machine.execCtu l f s
  | .ctd l f => Sys2Proof.Machine.execCtd l f s
  | .ctud l f => Sys2Proof.Machine.execCtud l f s
  | .rtrig l f => Sys2Proof.Machine.execRtrig l f s
  | .ftrig l f => Sys2Proof.Machine.execFtrig l f s
  | .qout l f => Sys2Proof.Machine.execQout l f s
  | .qclr l f => Sys2Proof.Machine.execQclr l f s
  | .qtst l f => Sys2Proof.Machine.execQtst l f s
  | .qmax l f => Sys2Proof.Machine.execQmax l f s
  | .msend l f => Sys2Proof.Machine.execMsend l f s
  | .mrecv l f => Sys2Proof.Machine.execMrecv l f s
  | .mstat l f => Sys2Proof.Machine.execMstat l f s
  | .cmt l f => Sys2Proof.Machine.execCmt l f s
  | .vsync l f => Sys2Proof.Machine.execVsync l f s
  | .nop l f => Sys2Proof.Machine.execNop l f s
  | .fence l f => Sys2Proof.Machine.execFence l f s
  | .fenceCompletion l => Sys2Proof.Machine.execFenceCompletion l s
  | .twait l f => Sys2Proof.Machine.execTwait l f s
  | .twaitCompletion l at_ => Sys2Proof.Machine.execTwaitCompletion l at_ s
  | .yield l f => Sys2Proof.Machine.execYield l f s
  | .urd l f => Sys2Proof.Machine.execUrd l f s
  | .urdCompletion l => Sys2Proof.Machine.execUrdCompletion l s
  | .uwr l f => Sys2Proof.Machine.execUwr l f s
  | .trap l f => Sys2Proof.Machine.execTrap l f s
  | .voteDecision outOfSlot badComparator => Sys2Proof.Machine.execVoteDecision outOfSlot badComparator s
  | .late l => Sys2Proof.Machine.execLate l s
  | .scrub e => Sys2Proof.Machine.execScrub e s
  | .rejoin l => Sys2Proof.Machine.execRejoin l s
  | .rejoinCopyComplete differs => Sys2Proof.Machine.execRejoinCopyComplete differs s
  | .rejoinFail => Sys2Proof.Machine.execRejoinFail s
  | .latentResync l => Sys2Proof.Machine.execLatentResync l s
  | .enable w u arg => Sys2Proof.Machine.execEnable w u arg s
  | .start w u arg => Sys2Proof.Machine.execStart w u arg s
  | .quiesce w u arg => Sys2Proof.Machine.execQuiesce w u arg s
  | .gateOff w u arg => Sys2Proof.Machine.execGateOff w u arg s
  | .test w u arg => Sys2Proof.Machine.execTest w u arg s
  | .clear w u arg => Sys2Proof.Machine.execClear w u arg s
  | .reset w u arg => Sys2Proof.Machine.execReset w u arg s
  | .nopCommand w u arg => Sys2Proof.Machine.execNopCommand w u arg s
  | .quiescenceEnd u stuck => Sys2Proof.Machine.execQuiescenceEnd u stuck s
  | .commandComplete u code data => Sys2Proof.Machine.execCommandComplete u code data s
  | .selfTestEnd u passed => Sys2Proof.Machine.execSelfTestEnd u passed s
  | .resultWindowRead w addr => Sys2Proof.Machine.execResultWindowRead w addr s
  | .registerWrite w addr value size => Sys2Proof.Machine.execRegisterWrite w addr value size s
  | .placeRdSelWrite w value => Sys2Proof.Machine.execPlaceRdSelWrite w value s
  | .cannFiltSelWrite w n value => Sys2Proof.Machine.execCannFiltSelWrite w n value s
  | .netDirSelWrite w value => Sys2Proof.Machine.execNetDirSelWrite w value s
  | .hlkIdmSelWrite w value => Sys2Proof.Machine.execHlkIdmSelWrite w value s
  | .timeSnapSelWrite w value => Sys2Proof.Machine.execTimeSnapSelWrite w value s
  | .fltHistSelWrite w value => Sys2Proof.Machine.execFltHistSelWrite w value s
  | .fetchComplete u bank => Sys2Proof.Machine.execFetchComplete u bank s
  | .cannTxCancel w n value => Sys2Proof.Machine.execCannTxCancel w n value s
  | .c71MirrorWrite w off value => Sys2Proof.Machine.execC71MirrorWrite w off value s
  | .restart w arg => Sys2Proof.Machine.execRestart w arg s
  | .rebalance w arg => Sys2Proof.Machine.execRebalance w arg s
  | .migrateTimeout => Sys2Proof.Machine.execMigrateTimeout s
  | .placeReturn w arg => Sys2Proof.Machine.execPlaceReturn w arg s
  | .profileStart w arg => Sys2Proof.Machine.execProfileStart w arg s
  | .profileComplete p => Sys2Proof.Machine.execProfileComplete p s
  | .profileStop w arg => Sys2Proof.Machine.execProfileStop w arg s
  | .adopt w arg => Sys2Proof.Machine.execAdopt w arg s
  | .combinedLoss => Sys2Proof.Machine.execCombinedLoss s
  | .resourceReturn r => Sys2Proof.Machine.execResourceReturn r s
  | .exclude w arg => Sys2Proof.Machine.execExclude w arg s
  | .join w arg => Sys2Proof.Machine.execJoin w arg s
  | .split w arg => Sys2Proof.Machine.execSplit w arg s
  | .merge w arg => Sys2Proof.Machine.execMerge w arg s
  | .foxglove w arg => Sys2Proof.Machine.execFoxglove w arg s
  | .beacon link b at_ => Sys2Proof.Machine.execBeacon link b at_ s
  | .beaconsAbsent => Sys2Proof.Machine.execBeaconsAbsent s
  | .partnerResync peer => Sys2Proof.Machine.execPartnerResync peer s
  | .beaconWaitTimeout => Sys2Proof.Machine.execBeaconWaitTimeout s
  | .syncTimeout => Sys2Proof.Machine.execSyncTimeout s
  | .stateCopy c trailerOk => Sys2Proof.Machine.execStateCopy c trailerOk s
  | .copyMissing => Sys2Proof.Machine.execCopyMissing s
  | .revertDue => Sys2Proof.Machine.execRevertDue s
  | .switchover w arg => Sys2Proof.Machine.execSwitchover w arg s
  | .resync w arg => Sys2Proof.Machine.execResync w arg s
  | .detach w arg => Sys2Proof.Machine.execDetach w arg s
  | .brakeWord bk0 bk1 => Sys2Proof.Machine.execBrakeWord bk0 bk1 s
  | .brakeWordTimeout => Sys2Proof.Machine.execBrakeWordTimeout s
  | .stationLost idx => Sys2Proof.Machine.execStationLost idx s
  | .faultMessage source at_ => Sys2Proof.Machine.execFaultMessage source at_ s
  | .ack w arg => Sys2Proof.Machine.execAck w arg s
  | .inject w arg => Sys2Proof.Machine.execInject w arg s
  | .injectMissed => Sys2Proof.Machine.execInjectMissed s
  | .degradeExpired => Sys2Proof.Machine.execDegradeExpired s
  | .offPulse => Sys2Proof.Machine.execOffPulse s
  | .offPulseEvaluation own low => Sys2Proof.Machine.execOffPulseEvaluation own low s
  | .extFeedPersist ch => Sys2Proof.Machine.execExtFeedPersist ch s
  | .readbackCheck ch high => Sys2Proof.Machine.execReadbackCheck ch high s
  | .pulseStarved ch => Sys2Proof.Machine.execPulseStarved ch s
  | .brakeFeedbackCheck x level at_ => Sys2Proof.Machine.execBrakeFeedbackCheck x level at_ s
  | .brakeNorel x => Sys2Proof.Machine.execBrakeNorel x s
  | .brakeTest w arg => Sys2Proof.Machine.execBrakeTest w arg s
  | .brakeTestStep obs => Sys2Proof.Machine.execBrakeTestStep obs s
  | .pulseRetime w arg => Sys2Proof.Machine.execPulseRetime w arg s
  | .btestDue => Sys2Proof.Machine.execBtestDue s
  | .edge ch level began => Sys2Proof.Machine.execEdge ch level began s
  | .diBreak ch => Sys2Proof.Machine.execDiBreak ch s
  | .diOvervolt ch active => Sys2Proof.Machine.execDiOvervolt ch active s
  | .rangeSettled ch => Sys2Proof.Machine.execRangeSettled ch s
  | .supplyLow brakes => Sys2Proof.Machine.execSupplyLow brakes s
  | .supplyHigh brakes => Sys2Proof.Machine.execSupplyHigh brakes s
  | .doOverload m => Sys2Proof.Machine.execDoOverload m s
  | .doOvertemp m => Sys2Proof.Machine.execDoOvertemp m s
  | .doOpen m => Sys2Proof.Machine.execDoOpen m s
  | .doFeed m => Sys2Proof.Machine.execDoFeed m s
  | .canFrameReceived n f at_ => Sys2Proof.Machine.execCanFrameReceived n f at_ s
  | .queueDrain n => Sys2Proof.Machine.execQueueDrain n s
  | .transmitChoice n at_ => Sys2Proof.Machine.execTransmitChoice n at_ s
  | .frameTransmitted n at_ => Sys2Proof.Machine.execFrameTransmitted n at_ s
  | .frameError n e => Sys2Proof.Machine.execFrameError n e s
  | .recover w n arg => Sys2Proof.Machine.execRecover w n arg s
  | .recoveryComplete n => Sys2Proof.Machine.execRecoveryComplete n s
  | .referenceMessage n f at_ => Sys2Proof.Machine.execReferenceMessage n f at_ s
  | .tmLost n => Sys2Proof.Machine.execTmLost n s
  | .tmMaster n => Sys2Proof.Machine.execTmMaster n s
  | .ethLinkChange x up speed => Sys2Proof.Machine.execEthLinkChange x up speed s
  | .sync x offset domain at_ => Sys2Proof.Machine.execSync x offset domain at_ s
  | .telegramReceived x t => Sys2Proof.Machine.execTelegramReceived x t s
  | .inauguration r => Sys2Proof.Machine.execInauguration r s
  | .poll x => Sys2Proof.Machine.execPoll x s
  | .serialResponse x r => Sys2Proof.Machine.execSerialResponse x r s
  | .respTimeout x => Sys2Proof.Machine.execRespTimeout x s
  | .measurement => Sys2Proof.Machine.execMeasurement s
  | .tim0Edge at_ => Sys2Proof.Machine.execTim0Edge at_ s
  | .srcLost tb src => Sys2Proof.Machine.execSrcLost tb src s
  | .holdExpired tb => Sys2Proof.Machine.execHoldExpired tb s
  | .timeSet w arg => Sys2Proof.Machine.execTimeSet w arg s
  | .pulseInstant k at_ => Sys2Proof.Machine.execPulseInstant k at_ s
  | .captureEdge k src rising at_ => Sys2Proof.Machine.execCaptureEdge k src rising at_ s
  | .cardReadCompletion d => Sys2Proof.Machine.execCardReadCompletion d s
  | .readTimeout => Sys2Proof.Machine.execReadTimeout s
  | .cardRequest slot link r => Sys2Proof.Machine.execCardRequest slot link r s
  | .lockedSequence slot => Sys2Proof.Machine.execLockedSequence slot s
  | .lockTimeout => Sys2Proof.Machine.execLockTimeout s
  | .statusPacket slot sub p => Sys2Proof.Machine.execStatusPacket slot sub p s
  | .hlkLinkDown n => Sys2Proof.Machine.execHlkLinkDown n s
  | .cardAbsent slot => Sys2Proof.Machine.execCardAbsent slot s
  | .cardPresence slot => Sys2Proof.Machine.execCardPresence slot s
  | .rescan w arg => Sys2Proof.Machine.execRescan w arg s
  | .clkFail f => Sys2Proof.Machine.execClkFail f s
  | .referenceQualified => Sys2Proof.Machine.execReferenceQualified s
  | .clockSourceChange => Sys2Proof.Machine.execClockSourceChange s
  | .refUnqual => Sys2Proof.Machine.execRefUnqual s
  | .slewComplete => Sys2Proof.Machine.execSlewComplete s
  | .recordWrite => Sys2Proof.Machine.execRecordWrite s
  | .tokenRefill code => Sys2Proof.Machine.execTokenRefill code s
  | .challenge purpose nonce => Sys2Proof.Machine.execChallenge purpose nonce s
  | .challengeResponse d at_ => Sys2Proof.Machine.execChallengeResponse d at_ s
  | .lockoutExpiry => Sys2Proof.Machine.execLockoutExpiry s
  | .unlockToken d => Sys2Proof.Machine.execUnlockToken d s
  | .diagnosticsRead r => Sys2Proof.Machine.execDiagnosticsRead r s
  | .debugIntrusive => Sys2Proof.Machine.execDebugIntrusive s
  | .returnRequest consent vendor at_ => Sys2Proof.Machine.execReturnRequest consent vendor at_ s
  | .erasureComplete ok => Sys2Proof.Machine.execErasureComplete ok s
  | .lock w arg => Sys2Proof.Machine.execLock w arg s
  | .closeService w arg => Sys2Proof.Machine.execCloseService w arg s
  | .package p => Sys2Proof.Machine.execPackage p s
  | .apply w arg => Sys2Proof.Machine.execApply w arg s
  | .activate w arg => Sys2Proof.Machine.execActivate w arg s
  | .confirm w arg => Sys2Proof.Machine.execConfirm w arg s
  | .abort w arg => Sys2Proof.Machine.execAbort w arg s
  | .acceptChange w arg => Sys2Proof.Machine.execAcceptChange w arg s
  | .restartHandover w arg => Sys2Proof.Machine.execRestartHandover w arg s
  | .trialExpired => Sys2Proof.Machine.execTrialExpired s
  | .pfWarn => Sys2Proof.Machine.execPfWarn s
  | .powerReturn => Sys2Proof.Machine.execPowerReturn s
  | .shutdown => Sys2Proof.Machine.execShutdown s
  | .resetEntry cause => Sys2Proof.Machine.execResetEntry cause s
  | .externalReset us => Sys2Proof.Machine.execExternalReset us s
  | .presenceOpen => Sys2Proof.Machine.execPresenceOpen s
  | .brownout => Sys2Proof.Machine.execBrownout s
  | .watchdog => Sys2Proof.Machine.execWatchdog s
  | .safeRestart => Sys2Proof.Machine.execSafeRestart s
  | .moduleReset w arg => Sys2Proof.Machine.execModuleReset w arg s
  | .strapChanged straps => Sys2Proof.Machine.execStrapChanged straps s
  | .tempHigh temp => Sys2Proof.Machine.execTempHigh temp s
  | .tempCrit temp => Sys2Proof.Machine.execTempCrit temp s
  | .sweetpeaLinkChange k up => Sys2Proof.Machine.execSweetpeaLinkChange k up s
  | .copyAcknowledged ack => Sys2Proof.Machine.execCopyAcknowledged ack s
  | .hollyhockLinkUp n => Sys2Proof.Machine.execHollyhockLinkUp n s
  | .svcSession opened peer => Sys2Proof.Machine.execSvcSession opened peer s
  | .breakCleared ch => Sys2Proof.Machine.execBreakCleared ch s
  | .fieldSupplyRecovered brakes => Sys2Proof.Machine.execFieldSupplyRecovered brakes s
  | .junctionCooled m => Sys2Proof.Machine.execJunctionCooled m s
  | .openLoadCleared m => Sys2Proof.Machine.execOpenLoadCleared m s
  | .busIntegration n => Sys2Proof.Machine.execBusIntegration n s
  | .pathDelayMeasurement x ns => Sys2Proof.Machine.execPathDelayMeasurement x ns s
  | .bestMasterClock x master => Sys2Proof.Machine.execBestMasterClock x master s

end Sys2Proof.Machine
end

