-- ==== Sys2Proof/Safety.lean ====
section
/-! DEFINITION. What counts as a safe run: the canonical form of every byte store, the module held in reset or in the safe state, and
the brakes applied. -/

namespace Sys2Proof.Machine

/-- The byte stores of a lane. -/
def LaneSt.memOk (x : LaneSt) : Bool := Memory.wf x.mem && Memory.wf x.in0.bytes && Memory.wf x.in1.bytes && Memory.wf x.in2.bytes

/-- The retentive generation saved with an image slot. -/
def ImageSlot.memOk (x : ImageSlot) : Bool := match x.saved with | some g => Memory.wf g.bytes | none => true

/-- Every byte store has its one canonical form: the bulk store, the lanes' memories and input buffers, the retentive generations and
those saved with the image slots, the cards' mailboxes. -/
def State.memOk (s : State) : Bool :=
  Memory.wf s.bulk && s.laneA.memOk && s.laneB.memOk && s.laneC.memOk && Memory.wf s.prog.retA.bytes && Memory.wf s.prog.retB.bytes
    && ImageSlot.memOk s.upd.a && ImageSlot.memOk s.upd.b && s.hlk.cards.all fun c => Memory.wf c.2.mailbox

/-- The module is in reset or in the safe state: no program drives an output (R308, R513). -/
def State.held (s : State) : Bool := s.pwr.inReset || s.safe.safe

/-- Both brake outputs command apply and are off (R306, R313). -/
def State.braked (s : State) : Bool := !s.safe.bk0.cmd && !s.safe.bk1.cmd && !s.safe.bk0.drv && !s.safe.bk1.drv

/-- A byte of the bulk store, or of a lane's own memory. -/
def State.bulkByte (s : State) (a : Nat) : Byte := Memory.readByte s.bulk a
def State.laneByte (s : State) (l : Lane) (a : Nat) : Byte := Memory.readByte (s.lane l).mem a

/-- Lane `l` is to execute an instruction of `len` bytes of its program and goes on after it: its running context `k` holds `c` once
the outstanding loads into the listed registers have delivered and the instruction is counted, pc names a word of the code, and the
leading lane has not stopped at the instruction that follows. -/
def Executes (s : State) (l : Lane) (regs : List Nat) (len : Nat) (k : CtxKind) (c : LaneCtx) : Prop :=
  ∃ c0, runCtx s l = some (k, c0) ∧ c = (c0.settle regs).counted ∧ fetchOk (laneProg s l) c.pc.toNat len = true ∧
    (s.lane l).onward = true

/-- The same for an instruction of format R. -/
def ExecutesR (s : State) (l : Lane) (f : RFmt) (k : CtxKind) (c : LaneCtx) : Prop :=
  Executes s l (f.rd.toNat :: [f.ra.toNat, f.rb.toNat]) (if f.i then 8 else 4) k c

/-- The instruction puts `v` into rd and `cf` into cf, moves pc past itself and changes nothing else of the machine. -/
def Delivers (i : Instr) (s : State) (l : Lane) (k : CtxKind) (c : LaneCtx) (len rd : Nat) (v : W64) (cf : Byte) : Prop :=
  exec i s = .next (s.setCtx l k (({ c with cf := cf }.wr rd v).past len))

/-- The same for format R. -/
def DeliversR (i : Instr) (s : State) (l : Lane) (f : RFmt) (k : CtxKind) (c : LaneCtx) (v : W64) (cf : Byte) : Prop :=
  Delivers i s l k c (if f.i then 8 else 4) f.rd.toNat v cf

/-- The instruction raises an exception of `kind` at pc: its event goes into the lane's effect queue, which has room, the context waits
for the voter's decision, and nothing else of the machine changes. -/
def Excepts (i : Instr) (s : State) (l : Lane) (k : CtxKind) (c : LaneCtx) (kind : Nat) : Prop :=
  ∃ r : EffectRec, r.kind = 4 ∧ r.addr = c.pc.toNat ∧ r.beats = [kind] ∧ r.ctx = k ∧
    exec i s = .next (s.setLane l
      ((s.lane l).setCtx k { (s.lane l).ctx k with wait := .exception, count := c.count } |> fun x => { x with queue := x.queue ++ [r] }))

/-- The command completes, in a state with a property. -/
def Gives (i : Instr) (s : State) (P : State → Prop) : Prop := ∃ t, exec i s = .next t ∧ P t

/-- A unit of the module that is neither a group nor a lane, a card or a composite: a command to it reaches it alone. -/
def plainUnit : UnitId → Bool
  | .sys | .net | .lane _ | .card _ _ | .pairUnit | .partner | .composite _ => false
  | _ => true

/-- A command of `code` to a unit has passed every check (R31). -/
def Legal (s : State) (w : Writer) (u : UnitId) (code arg : Nat) : Prop := commandCheck s w u code arg = (.ok, none)

/-- UCB_STATUS and UCB_RESULT of a unit whose command has ended with an outcome (R32, R41, R42). -/
def Ended (s t : State) (u : UnitId) (code : Nat) (st : Status) (data : Nat) : Prop :=
  (t.ucb u).busy = false ∧ (t.ucb u).running = none ∧
    (t.ucb u).result = { valid := true, fresh := true, lost := (s.ucb u).result.fresh, value := resultValue st code data }

/-- UCB_STATUS and UCB_RESULT of a unit that is to execute a command it has accepted (R32, R42). -/
def Busy (s t : State) (u : UnitId) (w : Writer) (code arg : Nat) : Prop :=
  (t.ucb u).busy = true ∧ (t.ucb u).code = .ok ∧ (t.ucb u).cmd = code ∧ (t.ucb u).running = some { code := code, arg := arg, writer := w } ∧
    (t.ucb u).result = (s.ucb u).result.start

/-- A unit that no open reaction window masks reports a fault of `kind` at `address`: the message is held for the collector, or waits
behind the one that is held (R278, R281). -/
def Reports (s t : State) (u : UnitId) (kind address : Nat) : Prop :=
  masked s u = false →
    let m : FaultMsg := { source := handleOf u, kind, cls := (kindOf u kind).1, level := (kindOf u kind).2, address := address % 2 ^ 32 }
    if (s.ucb u).held = none then (t.ucb u).held = some m
    else (t.ucb u).held = (s.ucb u).held ∧ (t.ucb u).waiting = (s.ucb u).waiting ++ [m]

/-- TB3 has reached the instant that an event carries, and nothing else of TIME has changed. -/
def State.timeAt (s : State) (now : Nat) : TimeState := { s.time with now := max s.time.now now }

end Sys2Proof.Machine
end

