-- ==== Sys2Proof/Certificates/Slice0/Obligations.lean ====
section
/-! DEFINITION. The statements for the provers. A docstring names the rules of the manual that the statement is drawn from. -/

open Sys2Proof Sys2Proof.Machine

/-- A step takes the command at the front of the queue and runs it on the queue's rest. On an empty queue the step is one clock cycle (log
entry 2). -/
def Obligations.AStepRunsTheFrontCommand : Prop :=
  ∀ s : State, (∀ c rest, step { s with pending := c :: rest } = exec c { s with pending := rest }) ∧
    (s.pending = [] → step s = .next (clockTick s))

/-- From R29, R52, R57, R90, R277, R304, R417, R476, R513. The machine after reset: held in reset with the brakes applied and no command
waiting, every setting at its reset value and none pending, no token held, the collector and the recorder's queue empty, every time base
at zero with no generator armed, and every byte store in its canonical form. -/
def Obligations.ResetLeavesEverythingAtItsResetValue : Prop :=
  State.reset.pending = [] ∧ State.reset.pwr.inReset = true ∧ State.reset.held = true ∧ State.reset.braked = true ∧
    State.reset.memOk = true ∧ State.reset.regsPending = [] ∧ State.reset.evr.queue = [] ∧ State.reset.flt.history = [] ∧
    State.reset.flt.seq = 0 ∧ State.reset.flt.windows = [] ∧ State.reset.time.now = 0 ∧ State.reset.tick.begun = false ∧
    (∀ b ∈ [State.reset.time.tb0, State.reset.time.tb1, State.reset.time.tb2, State.reset.time.tb4], b.val = 0 ∧ b.epoch = 0) ∧
    (∀ u off obj, State.reset.reg u off obj = resetValue State.reset u off) ∧
    (∀ u, (State.reset.ucb u).token = none ∧ (State.reset.ucb u).busy = false ∧ (State.reset.ucb u).held = none)

/-- From R135, Table ISA-5. LI, MOV, MOVHI, SEL, RDCF, RDQF and RDTK put their operand into rd and change neither cf nor anything else;
WRCF and WRQF write cf and qf and nothing else. Unused fields of their formats are zero; a write of g0 is discarded. -/
def Obligations.MovesPutTheirOperandIntoRd : Prop :=
  ∀ (s : State) (l : Lane) (k : CtxKind) (c : LaneCtx),
    (∀ f : IFmt, Executes s l [f.rd.toNat] 4 k c → f.ra = 0 →
      Delivers (.li l f) s l k c 4 f.rd.toNat (f.imm.signExtend 64) c.cf) ∧
    (∀ f : RFmt, ExecutesR s l f k c → f.ty = 0 → f.rb = 0 →
      (f.i = true → f.ra = 0 → DeliversR (.mov l f) s l f k c (f.ext.signExtend 64) c.cf) ∧
      (f.i = false → DeliversR (.mov l f) s l f k c (c.rd f.ra.toNat) c.cf) ∧
      (f.i = true → ∃ v : W64, v.toNat = f.ext.toNat * 2 ^ 32 + (c.rd f.ra.toNat).toNat % 2 ^ 32 ∧
        DeliversR (.movhi l f) s l f k c v c.cf) ∧
      (f.i = false → f.ra = 0 →
        DeliversR (.rdcf l f) s l f k c (c.cf.zeroExtend 64) c.cf ∧
        DeliversR (.rdqf l f) s l f k c (c.qf.zeroExtend 64) c.cf ∧
        DeliversR (.rdtk l f) s l f k c c.tk c.cf) ∧
      (f.i = false → f.rd = 0 →
        exec (.wrcf l f) s = .next (s.setCtx l k ({ c with cf := BitVec.ofNat 8 ((c.rd f.ra.toNat).toNat % 128) }.past 4)))) ∧
    (∀ f : RFmt, Executes s l [f.ra.toNat, f.rb.toNat] 4 k c → f.ty = 0 → f.rb = 0 → f.i = false → f.rd = 0 →
      exec (.wrqf l f) s = .next (s.setCtx l k ({ c with qf := BitVec.ofNat 8 ((c.rd f.ra.toNat).toNat % 64) }.past 4))) ∧
    (∀ f : RFmt, ExecutesR s l f k c → f.ty = 0 → f.i = false →
      DeliversR (.sel l f) s l f k c (if c.cf.getLsbD 6 then c.rd f.ra.toNat else c.rd f.rb.toNat) c.cf)

/-- From R107, R135, R141, R142. ADD, SUB, MUL, NEG, ABS and ADDI write the exact result, clamped to the range of the type in SAT mode: Z
says that it is zero, S is set by a clamp and otherwise kept, V (signed types and TIME) or C (unsigned types) says that the exact result
lay outside, U and T are kept; in TRAP mode a result outside raises INT_OVERFLOW. DIV truncates toward zero and MOD takes the sign of a;
by zero, SAT mode gives the largest value of the sign of the dividend, 0 for 0 ÷ 0 and for MOD, with S and V or C, and TRAP mode raises
DIV_ZERO. MIN, MAX, LIMIT and MULH set only Z and N. -/
def Obligations.IntegerInstructionsFollowTheirTable : Prop :=
  (∀ (s : State) (l : Lane) (k : CtxKind) (c : LaneCtx) (t : Ty) (i : Instr) (x : Int) (len rd : Nat),
    ((∃ f : RFmt, ExecutesR s l f k c ∧ Ty.ofCode f.ty.toNat = some t ∧ t.isInt = true ∧
        len = (if f.i then 8 else 4) ∧ rd = f.rd.toNat ∧
        (let a := intOf t (c.rd f.ra.toNat)
         let b := intOf t (if f.i then extOperand t f.ext else c.rd f.rb.toNat)
         ((f.i = true → f.rb = 0) ∧ (i, x) ∈ [(Instr.add l f, a + b), (.sub l f, a - b), (.mul l f, a * b)]) ∨
           (f.i = false ∧ f.rb = 0 ∧ (i, x) ∈ [(Instr.neg l f, -a), (.abs l f, (a.natAbs : Int))]))) ∨
      (∃ f : IFmt, Executes s l [f.rd.toNat, f.ra.toNat] 4 k c ∧ t = .int64 ∧ len = 4 ∧ rd = f.rd.toNat ∧ i = .addi l f ∧
        x = (c.rd f.ra.toNat).toInt + f.imm.toInt)) →
    (trapMode (laneProg s l) c = false ∨ (loOf t ≤ x ∧ x ≤ hiOf t) →
      ∃ cf : Byte, let v := max (loOf t) (min (hiOf t) x)
        Delivers i s l k c len rd (regForm t (ofSigned t.width v)) cf ∧
        (cf.getLsbD 0 = decide (v = 0)) ∧ cf.getLsbD 5 = (c.cf.getLsbD 5 || decide (v ≠ x)) ∧
        (t.isSigned = true → cf.getLsbD 3 = decide (v ≠ x)) ∧
        (t.isSigned = false → cf.getLsbD 2 = decide (v ≠ x) ∧ cf.getLsbD 3 = false) ∧
        cf.getLsbD 4 = c.cf.getLsbD 4 ∧ cf.getLsbD 6 = c.cf.getLsbD 6) ∧
    (trapMode (laneProg s l) c = true → (x < loOf t ∨ hiOf t < x) → queueFull (s.lane l) = false → Excepts i s l k c 0x45)) ∧
  (∀ (s : State) (l : Lane) (k : CtxKind) (c : LaneCtx) (f : RFmt) (t : Ty),
    ExecutesR s l f k c → Ty.ofCode f.ty.toNat = some t → t.isInt = true → (f.i = true → f.rb = 0) →
    let a := intOf t (c.rd f.ra.toNat)
    let b := intOf t (if f.i then extOperand t f.ext else c.rd f.rb.toNat)
    let trap := trapMode (laneProg s l) c
    (b ≠ 0 → (∃ cf, DeliversR (.mod l f) s l f k c (regForm t (ofSigned t.width (a.tmod b))) cf) ∧
      (trap = false ∨ a.tdiv b ≤ hiOf t →
        ∃ cf, DeliversR (.div l f) s l f k c (regForm t (ofSigned t.width (min (hiOf t) (a.tdiv b)))) cf)) ∧
    (b = 0 → trap = false → ∀ e ∈ [(Instr.div l f, if a = 0 then 0 else if a < 0 then loOf t else hiOf t), (.mod l f, 0)],
      ∃ cf : Byte, DeliversR e.1 s l f k c (regForm t (ofSigned t.width e.2)) cf ∧ cf.getLsbD 5 = true ∧
        cf.getLsbD (if t.isSigned then 3 else 2) = true) ∧
    (b = 0 → trap = true → queueFull (s.lane l) = false → Excepts (.div l f) s l k c 0x46 ∧ Excepts (.mod l f) s l k c 0x46)) ∧
  (∀ (s : State) (l : Lane) (k : CtxKind) (c : LaneCtx) (f : RFmt) (t : Ty),
    ExecutesR s l f k c → Ty.ofCode f.ty.toNat = some t → t.isInt = true → (f.i = true → f.rb = 0) →
    let a := intOf t (c.rd f.ra.toNat)
    let b := intOf t (if f.i then extOperand t f.ext else c.rd f.rb.toNat)
    let d := intOf t (c.rd f.rd.toNat)
    ∀ e ∈ [(Instr.min l f, min a b), (.max l f, max a b), (.limit l f, min (max d a) b)]
        ++ (if t = .int64 ∨ t = .uint64 then [(Instr.mulh l f, a * b / 2 ^ 64)] else []),
      ∃ cf : Byte, DeliversR e.1 s l f k c (regForm t (ofSigned t.width e.2)) cf ∧ cf.getLsbD 0 = decide (e.2 = 0) ∧
        cf.getLsbD 1 = (regForm t (ofSigned t.width e.2)).getLsbD (t.width - 1) ∧
        (∀ j, 2 ≤ j → j ≤ 6 → cf.getLsbD j = c.cf.getLsbD j))

/-- From R106, R107, R143. A REAL instruction on finite operands completes in SAT mode, FDIV with a divisor that is not zero and FSQRT of
a number that is not below zero. Every one rounds its exact result once to nearest even: Z and N describe it, C and V are cleared, and S,
T and U are kept. A result that overflows is the largest finite value of its sign in SAT mode, with Z and C clear, N its sign and V and S
set, and raises REAL_OVERFLOW in TRAP mode, DIV_ZERO where a finite number is divided by zero; an invalid operation raises REAL_INVALID in
either mode. -/
def Obligations.RealResultsAreRoundedOnceOrInvalid : Prop :=
  ∀ (s : State) (l : Lane) (k : CtxKind) (c : LaneCtx) (f : RFmt) (t : Ty),
    ExecutesR s l f k c → Ty.ofCode f.ty.toNat = some t → t.isReal = true →
    let m := fmtOf t
    let a := realOf t (c.rd f.ra.toNat)
    let b := realOf t (if f.i then extOperand t f.ext else c.rd f.rb.toNat)
    let d := realOf t (c.rd f.rd.toNat)
    let trap := trapMode (laneProg s l) c
    let finite (r : Machine.Real) : Prop := ∃ n x e, r = Machine.Real.fin n x e
    ((f.i = true → f.rb = 0) → trap = false → finite a → finite b → finite d →
      (∀ i ∈ [Instr.fadd l f, .fsub l f, .fmul l f, .fma l f, .fmin l f, .fmax l f, .flimit l f],
        ∃ v cf, DeliversR i s l f k c v cf) ∧
      ((∀ n e, b ≠ Machine.Real.fin n 0 e) → ∃ v cf, DeliversR (.fdiv l f) s l f k c v cf)) ∧
    (f.i = false → f.rb = 0 → trap = false → finite a →
      (∀ i ∈ [Instr.fabs l f, .fneg l f], ∃ v cf, DeliversR i s l f k c v cf) ∧
      ((∀ x e, a = Machine.Real.fin true x e → x = 0) → ∃ v cf, DeliversR (.fsqrt l f) s l f k c v cf)) ∧
    (∀ (i : Instr) (r : RealOut),
      ((f.i = true → f.rb = 0) ∧ (i, r) ∈ [(Instr.fadd l f, addReal m a b), (.fsub l f, addReal m a (negReal b)),
          (.fmul l f, mulReal m a b), (.fdiv l f, divReal m a b), (.fma l f, fmaReal m d a b),
          (.fmin l f, toFmt m (noNan a b minReal)), (.fmax l f, toFmt m (noNan a b maxReal)),
          (.flimit l f, toFmt m (noNan (noNan d a maxReal) b minReal))]) ∨
        (f.i = false ∧ f.rb = 0 ∧ (i, r) ∈ [(Instr.fsqrt l f, sqrtReal m a), (.fabs l f, toFmt m (absReal a)),
          (.fneg l f, toFmt m (negReal a))]) →
      (∀ bits, r = .val bits → ∃ cf : Byte, DeliversR i s l f k c (BitVec.ofNat 64 bits) cf ∧
        cf.getLsbD 0 = realIsZero m bits ∧ cf.getLsbD 1 = realIsNeg m bits ∧ cf.getLsbD 2 = false ∧ cf.getLsbD 3 = false ∧
        cf.getLsbD 4 = c.cf.getLsbD 4 ∧ cf.getLsbD 5 = c.cf.getLsbD 5 ∧ cf.getLsbD 6 = c.cf.getLsbD 6) ∧
      (∀ neg, r = .ovf neg → trap = false → ∃ cf : Byte, DeliversR i s l f k c (BitVec.ofNat 64 (maxBits m neg)) cf ∧
        cf.getLsbD 0 = false ∧ cf.getLsbD 1 = neg ∧ cf.getLsbD 2 = false ∧ cf.getLsbD 3 = true ∧ cf.getLsbD 5 = true ∧
        cf.getLsbD 4 = c.cf.getLsbD 4 ∧ cf.getLsbD 6 = c.cf.getLsbD 6) ∧
      (∀ neg, r = .ovf neg → trap = true → queueFull (s.lane l) = false →
        Excepts i s l k c (if i = .fdiv l f ∧ (match b with | .fin _ 0 _ => true | _ => false) = true then 0x46 else 0x48)) ∧
      (r = .invalid → queueFull (s.lane l) = false → Excepts i s l k c 0x47))

/-- From R106, R107, R144. CVT and TRUNC of a real, and CVT of an integer, TIME or BOOL, to an integer type or TIME: the nearest integer,
ties to even, by CVT and the integer toward zero by TRUNC, clamped in SAT mode, an infinity to the limit of its sign, with Z, V or C and S
as by INT; INT_OVERFLOW in TRAP mode outside the range. CVT to a real type rounds once, and to BOOL gives 0 for zero and 1 otherwise with
every flag kept. A NaN raises REAL_INVALID. -/
def Obligations.ConversionsRoundAndClamp : Prop :=
  ∀ (s : State) (l : Lane) (k : CtxKind) (c : LaneCtx) (f : RFmt) (src dst : Ty),
    ExecutesR s l f k c → Ty.ofCode f.ty.toNat = some src → Ty.ofCode f.rb.toNat = some dst → f.i = false →
    let a := c.rd f.ra.toNat
    let trap := trapMode (laneProg s l) c
    let goes (i : Instr) (x : Int) : Prop :=
      let v := max (loOf dst) (min (hiOf dst) x)
      (trap = false ∨ v = x → ∃ cf : Byte, DeliversR i s l f k c (regForm dst (ofSigned dst.width v)) cf ∧
        cf.getLsbD 0 = decide (v = 0) ∧ cf.getLsbD 5 = (c.cf.getLsbD 5 || decide (v ≠ x)) ∧
        (dst.isSigned = true → cf.getLsbD 3 = decide (v ≠ x)) ∧
        (dst.isSigned = false → cf.getLsbD 2 = decide (v ≠ x) ∧ cf.getLsbD 3 = false) ∧
        cf.getLsbD 4 = c.cf.getLsbD 4 ∧ cf.getLsbD 6 = c.cf.getLsbD 6) ∧
      (trap = true → v ≠ x → queueFull (s.lane l) = false → Excepts i s l k c 0x45)
    (src.isReal = true → dst.isInt = true →
      (∀ n m e, realOf src a = .fin n m e → goes (.cvt l f) (realToInt false n m e) ∧ goes (.trunc l f) (realToInt true n m e)) ∧
      (∀ neg, realOf src a = .inf neg →
        goes (.cvt l f) (if neg then loOf dst - 1 else hiOf dst + 1) ∧ goes (.trunc l f) (if neg then loOf dst - 1 else hiOf dst + 1)) ∧
      (realOf src a = .nan → queueFull (s.lane l) = false → Excepts (.trunc l f) s l k c 0x47)) ∧
    (src.isReal = true → realOf src a = .nan → queueFull (s.lane l) = false → Excepts (.cvt l f) s l k c 0x47) ∧
    (src.isReal = false → dst.isInt = true → goes (.cvt l f) (convSource src a)) ∧
    (dst.isReal = true → ∀ bits,
      (src.isReal = true ∧ realOf src a ≠ .nan ∧ toFmt (fmtOf dst) (realOf src a) = .val bits ∨
        src.isReal = false ∧ intToReal (fmtOf dst) (convSource src a) = .val bits) →
      ∃ cf, DeliversR (.cvt l f) s l f k c (BitVec.ofNat 64 bits) cf) ∧
    (dst = .bool →
      (∀ n m e, src.isReal = true → realOf src a = .fin n m e → DeliversR (.cvt l f) s l f k c (if m = 0 then 0 else 1) c.cf) ∧
      (∀ neg, src.isReal = true → realOf src a = .inf neg → DeliversR (.cvt l f) s l f k c 1 c.cf) ∧
      (src.isReal = false → DeliversR (.cvt l f) s l f k c (if convSource src a = 0 then 0 else 1) c.cf)) ∧
    (src.isReal = false ∨ dst.isInt = false → queueFull (s.lane l) = false → Excepts (.trunc l f) s l k c 0x40)

/-- From R145. AND, OR, XOR, ANDN and NOT work bit by bit within the width, set Z and N and keep the other flags. SHL, SHR, SAR, ROL and
ROR move bits by b within the width. BTST sets only T and rd; BSET, BCLR and BINV change bit b of a, and leave a where b lies beyond the
width; BEXT and BINS move a field; POPC counts ones and CLZ leading zeros. -/
def Obligations.LogicShiftAndBitInstructionsWorkBitByBit : Prop :=
  (∀ (s : State) (l : Lane) (k : CtxKind) (c : LaneCtx) (f : RFmt) (t : Ty),
    ExecutesR s l f k c → Ty.ofCode f.ty.toNat = some t → t = .bool ∨ (t.isInt = true ∧ t ≠ .time) → (f.i = true → f.rb = 0) →
    let a := c.rd f.ra.toNat
    let b := if f.i then extOperand t f.ext else c.rd f.rb.toNat
    (t = .bool → f.i = true → f.ext.toNat < 2) →
    ∀ e ∈ [(Instr.and l f, fun (x y : Bool) => x && y), (.or l f, fun x y => x || y), (.xor l f, fun x y => x != y),
        (.andn l f, fun x y => x && !y)]
        ++ (if t ≠ .bool ∧ f.i = false ∧ f.rb = 0 then [(Instr.not l f, fun (x _ : Bool) => !x)] else []),
      ∃ (v : W64) (cf : Byte), DeliversR e.1 s l f k c v cf ∧ v = regForm t v.toNat ∧
        (∀ j, j < t.width → v.getLsbD j = e.2 (a.getLsbD j) (b.getLsbD j)) ∧
        cf.getLsbD 0 = decide (v = 0) ∧ cf.getLsbD 1 = v.getLsbD (t.width - 1) ∧
        (∀ j, 2 ≤ j → j ≤ 6 → cf.getLsbD j = c.cf.getLsbD j)) ∧
  (∀ (s : State) (l : Lane) (k : CtxKind) (c : LaneCtx) (f : RFmt) (t : Ty),
    ExecutesR s l f k c → Ty.ofCode f.ty.toNat = some t → t.isInt = true → t ≠ .time → (f.i = true → f.rb = 0) →
    let a := c.rd f.ra.toNat
    let n := (if f.i then extOperand t f.ext else c.rd f.rb.toNat).toNat
    let w := t.width
    ∀ e ∈ [(Instr.shl l f, fun (j : Nat) => decide (n ≤ j) && a.getLsbD (j - n)),
        (.shr l f, fun j => decide (j + n < w) && a.getLsbD (j + n)),
        (.sar l f, fun j => a.getLsbD (min (j + n) (w - 1))),
        (.rol l f, fun j => a.getLsbD ((j + (w - n % w)) % w)),
        (.ror l f, fun j => a.getLsbD ((j + n % w) % w))],
      ∃ (v : W64) (cf : Byte), DeliversR e.1 s l f k c v cf ∧ v = regForm t v.toNat ∧
        (∀ j, j < w → v.getLsbD j = e.2 j) ∧ cf.getLsbD 0 = decide (v = 0) ∧ (∀ j, 2 ≤ j → j ≤ 6 → cf.getLsbD j = c.cf.getLsbD j)) ∧
  (∀ (s : State) (l : Lane) (k : CtxKind) (c : LaneCtx) (f : RFmt) (t : Ty),
    ExecutesR s l f k c → Ty.ofCode f.ty.toNat = some t → t.isInt = true → t ≠ .time → (f.i = true → f.rb = 0) →
    let a := c.rd f.ra.toNat
    let b := (if f.i then extOperand t f.ext else c.rd f.rb.toNat).toNat
    let d := c.rd f.rd.toNat
    let w := t.width
    let pos := b % 256
    let len := b / 256 % 256
    (∃ (v : W64) (cf : Byte), DeliversR (.btst l f) s l f k c v cf ∧ v.toNat = (decide (b < w) && a.getLsbD b).toNat ∧
      cf.getLsbD 6 = (decide (b < w) && a.getLsbD b) ∧ (∀ j, j ≤ 5 → cf.getLsbD j = c.cf.getLsbD j)) ∧
    (∀ e ∈ [(Instr.bset l f, fun (j : Nat) => decide (j = b) || a.getLsbD j), (.bclr l f, fun j => !decide (j = b) && a.getLsbD j),
        (.binv l f, fun j => decide (j = b) != a.getLsbD j),
        (.bins l f, fun j => if pos ≤ j ∧ j < pos + len then a.getLsbD (j - pos) else d.getLsbD j)],
      ∃ (v : W64) (cf : Byte), DeliversR e.1 s l f k c v cf ∧ (∀ j, j < w → v.getLsbD j = e.2 j)) ∧
    (∃ (v : W64) (cf : Byte), DeliversR (.bext l f) s l f k c v cf ∧
      (∀ j, v.getLsbD j = (decide (j < len) && decide (pos + j < w) && a.getLsbD (pos + j)))) ∧
    (f.i = false → f.rb = 0 →
      (∃ (v : W64) (cf : Byte), DeliversR (.popc l f) s l f k c v cf ∧
        v.toNat = ((List.range w).filter fun j => a.getLsbD j).length) ∧
      (∃ (v : W64) (cf : Byte), DeliversR (.clz l f) s l f k c v cf ∧ v.toNat ≤ w ∧
        (∀ j, w - v.toNat ≤ j → j < w → a.getLsbD j = false) ∧ (v.toNat < w → a.getLsbD (w - 1 - v.toNat) = true))))

/-- From R147. CMP writes the outcome of its relation to T and rd. For integer types, TIME and BOOL, Z says that a equals b, C that a is
below b unsigned, and U is kept; for real types Z, N and U say equal, below and unordered, and an unordered pair satisfies NE alone. -/
def Obligations.CmpWritesTheRelation : Prop :=
  ∀ (s : State) (l : Lane) (k : CtxKind) (c : LaneCtx) (f : RFmt) (fn : BitVec 6) (t : Ty),
    ExecutesR s l f k c → Ty.ofCode f.ty.toNat = some t → (f.i = true → f.rb = 0) → (t = .bool → f.i = true → f.ext.toNat < 2) →
    let x := c.rd f.ra.toNat
    let y := if f.i then extOperand t f.ext else c.rd f.rb.toNat
    (t.isReal = false → ∀ p : Bool,
      (fn.toNat, p) ∈ [(0, decide (intOf t x = intOf t y)), (1, decide (intOf t x ≠ intOf t y)), (2, decide (intOf t x < intOf t y)),
        (3, decide (intOf t x ≤ intOf t y)), (4, decide (intOf t y < intOf t x)), (5, decide (intOf t y ≤ intOf t x))] →
      ∃ cf : Byte, DeliversR (.cmp l fn f) s l f k c (BitVec.ofNat 64 p.toNat) cf ∧ cf.getLsbD 6 = p ∧
        cf.getLsbD 0 = decide (rawOf t x = rawOf t y) ∧ cf.getLsbD 2 = decide (rawOf t x < rawOf t y) ∧
        cf.getLsbD 4 = c.cf.getLsbD 4 ∧ cf.getLsbD 5 = c.cf.getLsbD 5) ∧
    (t.isReal = true → ∀ p : Bool, let o := cmpReal (realOf t x) (realOf t y)
      (fn.toNat, p) ∈ [(0, decide (o = some .eq)), (1, decide (o ≠ some .eq)), (2, decide (o = some .lt)),
        (3, decide (o = some .lt ∨ o = some .eq)), (4, decide (o = some .gt)), (5, decide (o = some .gt ∨ o = some .eq))] →
      ∃ cf : Byte, DeliversR (.cmp l fn f) s l f k c (BitVec.ofNat 64 p.toNat) cf ∧ cf.getLsbD 6 = p ∧
        cf.getLsbD 0 = decide (o = some .eq) ∧ cf.getLsbD 1 = decide (o = some .lt) ∧ cf.getLsbD 4 = decide (o = none) ∧
        cf.getLsbD 2 = false ∧ cf.getLsbD 3 = false)

/-- From R132, R136, R137, R139, R140. LD delivers the register form of the bytes at its address: from a lane's own memory at once, from
the input image with the tag in qf, from the bulk store as an outstanding load, which LOAD_DATA_RETURN completes, oldest first. LDQ
delivers the tag that LD would see and REF the reference. No byte of memory changes. -/
def Obligations.LoadsDeliverTheRegisterForm : Prop :=
  ∀ (s : State) (l : Lane) (k : CtxKind) (c : LaneCtx),
    (∀ (f : MFmt) (t : Ty), Executes s l [f.rd.toNat, f.ra.toNat] (if f.x then 8 else 4) k c → MFmt.legal f = true →
      Ty.ofCode f.ty.toNat = some t →
      let a := formAddress c f t.size
      let len := if f.x then 8 else 4
      let bytes := (readAccess s l k c a t.size).1
      accessExc (laneProg s l) c a t.size t.size false = none →
      ((t = .bool → fromLE bytes ≤ 1) →
        (∀ addr, isImage a = false → placeOf s (progNo s l) a = .own addr →
          exec (.ld l f) s = .next (s.setCtx l k ((c.wr f.rd.toNat (regForm t (Memory.readNat (s.lane l).mem addr t.size))).past len))) ∧
        (∀ key, isImage a = false → placeOf s (progNo s l) a = .bulk key →
          exec (.ld l f) s = .next ((noteLoad s l k (.bulk key) t.size).setCtx l k
            ((c.fetchBulk f.rd.toNat (regForm t (fromLE bytes))).past len))) ∧
        (a.stack = false → a.space = 1 →
          ∃ q : Byte, exec (.ld l f) s = .next (s.setCtx l k (({ c with qf := q }.wr f.rd.toNat
              (regForm t (Memory.readNat ((s.lane l).inBuf c.buf).bytes a.off t.size))).past len)) ∧
            field q 5 4 = field c.qf 5 4 ∧ field q 1 0 = (readAccess s l k c a t.size).2.code)) ∧
      (isImage a = true → MFmt.legalQ f = true → exec (.ldq l f) s
        = .next (s.setCtx l k ((c.wr f.rd.toNat (BitVec.ofNat 64 (readAccess s l k c a t.size).2.code)).past len))) ∧
      (f.base.toNat ≠ 2 → exec (.ref l f) s
        = .next (s.setCtx l k ((c.wr f.rd.toNat (BitVec.ofNat 64 (refOf a.space a.inst a.off))).past len)))) ∧
    (∀ (d : BulkLoad) (ds : List BulkLoad), (s.lane l).current = some k → (s.lane l).ctx k = c → c.loads = d :: ds →
      exec (.loadDataReturn l) s = .next (s.setCtx l k ({ c with loads := ds }.wr d.rd d.value)))

/-- From R100, R101, R109, R138. ST completes wherever it raises no exception and, for the bulk store, finds room in the effect queue. It
writes the low bytes of rd, a BOOL as 0 or 1: into the lane's own memory at the address formed, into the running task's output buffer with
the tag qf.OUT, or as one effect record for the bulk store. Every other byte, register and lane, and the bulk store itself, stay. -/
def Obligations.StoreChangesOnlyTheAddressedBytes : Prop :=
  ∀ (s : State) (l : Lane) (k : CtxKind) (c : LaneCtx) (f : MFmt) (t : Ty),
    Executes s l [f.rd.toNat, f.ra.toNat] (if f.x then 8 else 4) k c → MFmt.legal f = true → Ty.ofCode f.ty.toNat = some t →
    let a := formAddress c f t.size
    let len := if f.x then 8 else 4
    let v := c.rd f.rd.toNat
    let byteOf (j : Nat) : Nat := if t = .bool then v.toNat % 2 else v.toNat / 256 ^ j % 256
    accessExc (laneProg s l) c a t.size t.size true = none →
    (queueFull (s.lane l) = false → ∃ x : LaneSt, exec (.st l f) s = .next (s.setLane l x) ∧ (x.ctx k).pc = (c.past len).pc ∧
      (x.ctx k).gs = c.gs ∧ (x.ctx k).cf = c.cf ∧ (x.ctx k).qf = c.qf ∧ (∀ k', k' ≠ k → x.ctx k' = (s.lane l).ctx k')) ∧
    (∀ addr, isImage a = false → placeOf s (progNo s l) a = .own addr →
      ∃ x : LaneSt, exec (.st l f) s = .next (s.setLane l x) ∧
        x = { ((s.lane l).setCtx k (c.past len)) with mem := x.mem, tracked := x.tracked } ∧
        (∀ j, j < t.size → (Memory.readByte x.mem (addr + j)).toNat = byteOf j) ∧
        (∀ y, y < addr ∨ addr + t.size ≤ y → Memory.readByte x.mem y = s.laneByte l y)) ∧
    (a.stack = false → a.space = 2 → ∃ c' : LaneCtx, exec (.st l f) s = .next (s.setCtx l k c') ∧
      c' = { c.past len with out := c'.out, outTags := c'.outTags } ∧
      (∀ j, j < t.size → ∃ b, mapGet? (a.off + j) c'.out = some b ∧ b.toNat = byteOf j) ∧
      (∀ y, y < a.off ∨ a.off + t.size ≤ y → mapGet? y c'.out = mapGet? y c.out) ∧
      (∀ v ∈ (laneProg s l).outputs, v.off < a.off + t.size → a.off < v.off + v.ty.size →
        mapGet? v.off c'.outTags = some (Tag.decode (field c.qf 5 4)))) ∧
    (∀ key, isImage a = false → placeOf s (progNo s l) a = .bulk key → queueFull (s.lane l) = false →
      ∃ r : EffectRec, exec (.st l f) s = .next (s.setLane l
          ((s.lane l).setCtx k (c.past len) |> fun x => { x with queue := x.queue ++ [r] })) ∧
        r.kind = 0 ∧ r.addr = refOf a.space a.inst a.off ∧ r.ctx = k ∧ r.safety = partSafe (laneProg s l) c ∧
        r.bytes = (List.range t.size).map (fun j => BitVec.ofNat 8 (byteOf j)))

/-- From R148, Table ISA-10. B goes to its own address plus 4 × DISP22 when its condition holds and to the next word when it does not; JR
goes to a target that is a multiple of 4, and raises ILLEGAL_OP at the JR otherwise. Neither changes a register or a flag. -/
def Obligations.BranchesFollowTheirConditions : Prop :=
  ∀ (s : State) (l : Lane) (k : CtxKind) (c : LaneCtx),
    (∀ (f : BFmt) (p : Bool), Executes s l [] 4 k c →
      (f.cond.toNat, p) ∈ [(0x0, true), (0x1, c.cf.getLsbD 6), (0x2, !c.cf.getLsbD 6), (0x3, c.cf.getLsbD 0), (0x4, !c.cf.getLsbD 0),
        (0x5, c.cf.getLsbD 1), (0x6, !c.cf.getLsbD 1), (0x7, c.cf.getLsbD 2), (0x8, !c.cf.getLsbD 2), (0x9, c.cf.getLsbD 3),
        (0xA, !c.cf.getLsbD 3), (0xB, c.cf.getLsbD 5), (0xC, !c.cf.getLsbD 5), (0xD, c.cf.getLsbD 4), (0xE, !c.cf.getLsbD 4)] →
      exec (.b l f) s = .next (s.setCtx l k { c with pc := if p then c.pc + f.disp.signExtend 32 * 4 else c.pc + 4 })) ∧
    (∀ f : RFmt, Executes s l [f.ra.toNat, f.rb.toNat] 4 k c → f.ty = 0 → f.rd = 0 → f.rb = 0 → f.i = false →
      let target := (c.rd f.ra.toNat).toNat % 2 ^ 32
      (target % 4 = 0 → exec (.jr l f) s = .next (s.setCtx l k { c with pc := BitVec.ofNat 32 target })) ∧
      (target % 4 ≠ 0 → queueFull (s.lane l) = false → Excepts (.jr l f) s l k c 0x40))

/-- From R152, R153, R169, R171 to R173. TON, TOF and TP on a cell in the lane's own memory: Q goes to rd and T; ET, ACC and TLAST are
written back and every byte outside the cell stays. TON counts while IN stays 1 and gives Q once ACC reaches PT; TOF holds Q after IN
falls until ACC reaches PT; TP runs a pulse of PT from a rising IN. -/
def Obligations.TimersMeasureTickConsistentTime : Prop :=
  ∀ (s : State) (l : Lane) (k : CtxKind) (c : LaneCtx) (f : CFmt) (i : Instr) (addr : Nat) (q : Bool) (acc : Nat),
    Executes s l [f.rd.toNat, f.ra.toNat, f.rb.toNat] (if f.cell = 0 then 8 else 4) k c →
    cellExc (laneProg s l) c (cellOff f) 32 = none →
    placeOf s (progNo s l) { stack := false, space := 0, inst := c.ib.toNat, off := cellOff f } = .own addr →
    (let cell := timerOf (Memory.readBytes (s.lane l).mem addr 32)
     let inp := (c.rd f.ra.toNat).getLsbD 0
     let prev := if cell.seed then inp else cell.inPrev
     let pt := (c.rd f.rb.toNat).toInt.toNat
     let sum := min (2 ^ 63 - 1) (cell.acc + timerInterval s.voter.gen s.voter.xlate c.time cell)
     (i = .ton l f ∧ acc = (if inp ∧ prev then sum else 0) ∧ q = (inp && decide (pt ≤ acc))) ∨
     (i = .tof l f ∧ acc = (if inp ∨ prev then 0 else if cell.run then sum else cell.acc) ∧
       q = (if inp then true else if prev then decide (0 < pt) else if cell.run then decide (acc < pt) else cell.q)) ∨
     (i = .tp l f ∧ cell.run = false ∧ inp = true ∧ prev = false ∧ acc = 0 ∧ q = decide (0 < pt)) ∨
     (i = .tp l f ∧ cell.run = true ∧ q = decide (sum < pt) ∧ acc = (if !q ∧ !inp then 0 else sum)) ∨
     (i = .tp l f ∧ cell.run = false ∧ (inp = false ∨ prev = true) ∧ q = false ∧ acc = (if inp then cell.acc else 0))) →
    ∃ x : LaneSt, exec i s = .next (s.setLane l x) ∧
      x = { ((s.lane l).setCtx k (({ c with cf := setT c.cf q }.wr f.rd.toNat (BitVec.ofNat 64 q.toNat)).past (if f.cell = 0 then 8 else 4)))
        with mem := x.mem, tracked := x.tracked } ∧
      Memory.readNat x.mem addr 8 = min acc (c.rd f.rb.toNat).toInt.toNat ∧ Memory.readNat x.mem (addr + 8) 8 = acc ∧
      Memory.readNat x.mem (addr + 16) 8 = c.time % 2 ^ 64 ∧
      (∀ y, y < addr ∨ addr + 32 ≤ y → Memory.readByte x.mem y = s.laneByte l y)

/-- From R93, R115, R149 to R151. FBCALL of an instance whose signature and part agree pushes the frame of return pc, ib, cf and qf and
goes on at the entry of its type with cf and qf zero; a composite unit that is not in RUN is skipped with T = 0. FBRET below the stack top
pops the frame, with T = 1. ENTER and LEAVE move sp by 16 × IMM16 within the stack share of the context, and raise STACK_OVERFLOW when sp
would leave it. -/
def Obligations.CallsReturnsAndStackMovesKeepTheShare : Prop :=
  (∀ (s : State) (l : Lane) (k : CtxKind) (c : LaneCtx),
    (∀ (f : FFmt) (d : InstDecl), Executes s l [f.ra.toNat] 8 k c → f.z = 0 → f.ri = false → f.ra = 0 →
      progInst (laneProg s l) f.idx.toNat = some d → sigOf (laneProg s l) d = f.ext.toNat → callPartition (laneProg s l) c d = false →
      (∀ st, compositeState s d = some st → st ≠ .run →
        exec (.fbcall l f) s = .next (s.setCtx l k ({ c with cf := setT c.cf false }.past 8))) ∧
      ((compositeState s d = none ∨ compositeState s d = some .run) → c.depth < 64 →
        (shareOf (laneProg s l) c.share).1 + 16 ≤ c.sp.toNat →
        ∃ x : LaneSt, exec (.fbcall l f) s = .next (s.setLane l x) ∧
          (let entry := BitVec.ofNat 32 (typeEntry (laneProg s l) f.idx.toNat)
           let c' := { c with sp := c.sp - 16, ib := f.idx, cf := 0, qf := 0, depth := c.depth + 1, pc := entry }
           x = { ((s.lane l).setCtx k c') with mem := x.mem, tracked := x.tracked }) ∧
          (let base := stackAddr (laneProg s l) (c.sp - 16).toNat
           Memory.readNat x.mem base 4 = (c.pc + 8).toNat ∧ Memory.readNat x.mem (base + 4) 2 = c.ib.toNat ∧
           Memory.readByte x.mem (base + 8) = c.cf ∧ Memory.readByte x.mem (base + 9) = c.qf ∧
           ∀ y, y < base ∨ base + 16 ≤ y → Memory.readByte x.mem y = s.laneByte l y))) ∧
    (∀ f : RFmt, Executes s l [] 4 k c → f.ty = 0 → f.rd = 0 → f.ra = 0 → f.rb = 0 → f.i = false →
      c.sp.toNat ≠ (shareOf (laneProg s l) c.share).2 →
      (let base := stackAddr (laneProg s l) c.sp.toNat
       let m := (s.lane l).mem
       (progInst (laneProg s l) (Memory.readNat m (base + 4) 2)).isSome = true →
       exec (.fbret l f) s = .next (s.setCtx l k { c with
         pc := BitVec.ofNat 32 (Memory.readNat m base 4), ib := BitVec.ofNat 16 (Memory.readNat m (base + 4) 2),
         cf := setT (BitVec.ofNat 8 ((Memory.readByte m (base + 8)).toNat % 128)) true,
         qf := BitVec.ofNat 8 ((Memory.readByte m (base + 9)).toNat % 64), sp := c.sp + 16, depth := c.depth - 1 })))) ∧
  (∀ (s : State) (l : Lane) (k : CtxKind) (c : LaneCtx) (f : IFmt) (i : Instr) (sp : Int),
    Executes s l [] 4 k c → f.rd = 0 → f.ra = 0 →
    (i, sp) ∈ [(Instr.enter l f, (c.sp.toNat : Int) - 16 * f.imm.toNat), (.leave l f, (c.sp.toNat : Int) + 16 * f.imm.toNat)] →
    let share := shareOf (laneProg s l) c.share
    ((share.1 : Int) ≤ sp ∧ sp ≤ share.2 → exec i s = .next (s.setCtx l k ({ c with sp := BitVec.ofInt 32 sp }.past 4))) ∧
    (sp < share.1 ∨ (share.2 : Int) < sp → queueFull (s.lane l) = false → Excepts i s l k c 0x4A))

/-- From R152, R154, R176 to R178. CTU, CTD and CTUD on a cell in the lane's own memory: R before LD before counting, opposite edges
cancel, and the count stops at its limits; QU says that CV has reached PV and QD that it is at most 0. RTRIG and FTRIG give Q at a change
of CLK in their direction. Every byte outside the cell stays. -/
def Obligations.CountersAndEdgesFollowTheirInputs : Prop :=
  ∀ (s : State) (l : Lane) (k : CtxKind) (c : LaneCtx) (f : CFmt) (addr size : Nat),
    Executes s l [f.rd.toNat, f.ra.toNat, f.rb.toNat] (if f.cell = 0 then 8 else 4) k c →
    cellExc (laneProg s l) c (cellOff f) size = none →
    placeOf s (progNo s l) { stack := false, space := 0, inst := c.ib.toNat, off := cellOff f } = .own addr →
    let m := (s.lane l).mem
    let a := c.rd f.ra.toNat
    (∀ (i : Instr) (kind : CounterKind) (v : Nat) (cv : Int), size = 16 →
      (let ctrl := Memory.readByte m (addr + 8)
       let lim := rangeLimits (Memory.readByte m (addr + 9)).toNat
       let old := toSigned 64 (Memory.readNat m addr 8)
       let pv := (c.rd f.rb.toNat).toInt
       let hasU := decide (kind ≠ .down)
       let hasD := decide (kind ≠ .up)
       let seed := ctrl.getLsbD 7
       let up := hasU && a.getLsbD 0 && !(if seed then a.getLsbD 0 else ctrl.getLsbD 0)
       let down := hasD && a.getLsbD 1 && !(if seed then a.getLsbD 1 else ctrl.getLsbD 1)
       cv = (if hasU && a.getLsbD 2 then 0 else if hasD && a.getLsbD 3 then min (max pv lim.1) lim.2
             else if up && !down && decide (old < lim.2) then old + 1 else if down && !up && decide (lim.1 < old) then old - 1 else old) ∧
       (i, kind, v) ∈ [(Instr.ctu l f, CounterKind.up, (decide (pv ≤ cv)).toNat), (.ctd l f, .down, (decide (cv ≤ 0)).toNat),
         (.ctud l f, .both, (decide (pv ≤ cv)).toNat + 2 * (decide (cv ≤ 0)).toNat)]) →
      ∃ x : LaneSt, exec i s = .next (s.setLane l x) ∧
        x = { ((s.lane l).setCtx k (({ c with cf := setT c.cf (decide (v % 2 = 1)) }.wr f.rd.toNat (BitVec.ofNat 64 v)).past
          (if f.cell = 0 then 8 else 4))) with mem := x.mem, tracked := x.tracked } ∧
        Memory.readNat x.mem addr 8 = ofSigned 64 cv ∧
        (∀ y, y < addr ∨ addr + 16 ≤ y → Memory.readByte x.mem y = s.laneByte l y)) ∧
    (∀ (i : Instr) (q : Bool), size = 8 → f.rb = 0 →
      (let b := Memory.readByte m addr
       let prev := if b.getLsbD 7 then a.getLsbD 0 else b.getLsbD 0
       (i, q) ∈ [(Instr.rtrig l f, a.getLsbD 0 && !prev), (.ftrig l f, prev && !a.getLsbD 0)]) →
      ∃ x : LaneSt, exec i s = .next (s.setLane l x) ∧
        x = { ((s.lane l).setCtx k (({ c with cf := setT c.cf q }.wr f.rd.toNat (BitVec.ofNat 64 q.toNat)).past (if f.cell = 0 then 8 else 4)))
          with mem := x.mem, tracked := x.tracked } ∧
        (∀ y, y < addr ∨ addr + 8 ≤ y → Memory.readByte x.mem y = s.laneByte l y))

/-- From R155, R160 to R162, R164 to R166. QOUT, QCLR, QTST and QMAX act on qf's fields; NOP, YIELD in a timed context, FENCE with nothing
under way and TWAIT for an instant already reached go on at the next word, FENCE with T telling whether every UWR was accepted. -/
def Obligations.QualityAndSystemInstructionsGoOn : Prop :=
  ∀ (s : State) (l : Lane) (k : CtxKind) (c : LaneCtx) (f : RFmt),
    f.ty = 0 → f.i = false →
    (Executes s l [f.ra.toNat, f.rb.toNat] 4 k c → f.rd = 0 → f.rb = 0 →
      exec (.qout l f) s = .next (s.setCtx l k
        ({ c with qf := BitVec.ofNat 8 ((c.rd f.ra.toNat).toNat % 4 * 16 + c.qf.toNat % 16) }.past 4))) ∧
    (ExecutesR s l f k c → f.rb = 0 → let t := decide (c.qf.toNat / 4 % 4 ≤ (c.rd f.ra.toNat).toNat % 4)
      DeliversR (.qtst l f) s l f k c (BitVec.ofNat 64 t.toNat) (setT c.cf t)) ∧
    (ExecutesR s l f k c →
      DeliversR (.qmax l f) s l f k c (BitVec.ofNat 64 (max ((c.rd f.ra.toNat).toNat % 4) ((c.rd f.rb.toNat).toNat % 4))) c.cf) ∧
    (Executes s l [f.ra.toNat] 4 k c → f.rd = 0 → f.rb = 0 → s.tick.time + (c.rd f.ra.toNat).toNat ≤ s.time.now → s.tick.phase ≠ 3 →
      exec (.twait l f) s = .next (s.setCtx l k ({ c with cf := setT c.cf true, wait := .none }.past 4))) ∧
    (Executes s l [] 4 k c → f.rd = 0 → f.ra = 0 → f.rb = 0 →
      exec (.qclr l f) s = .next (s.setCtx l k ({ c with qf := BitVec.ofNat 8 (c.qf.toNat / 16 % 4 * 16 + c.qf.toNat % 4) }.past 4)) ∧
      exec (.nop l f) s = .next (s.setCtx l k (c.past 4)) ∧
      (k ≠ .free → exec (.yield l f) s = .next (s.setCtx l k (c.past 4))) ∧
      ((s.lane l).queue = [] → (s.lane l).spill = [] → s.hlk.posted = [] → (∀ r ∈ s.hlk.queue, r.write = none) → exec (.fence l f) s
        = .next (s.setCtx l k ({ c with cf := setT c.cf (!c.uwrErr), uwrErr := false, wait := .none }.past 4))))

/-- From R157 to R159. MSEND of an object that may still be sent copies the payload for the next emission with T = 1 and the number of
sends in rd; at the limit it sends nothing, with T = 0. MRECV of a message that is not there gives 0 and T = 0. MSTAT gives the object's
status. -/
def Obligations.MessageInstructionsUseTheirObject : Prop :=
  ∀ (s : State) (l : Lane) (k : CtxKind) (c : LaneCtx) (f : RFmt) (m : MsgDecl),
    Executes s l (f.rd.toNat :: [f.ra.toNat, f.rb.toNat]) 4 k c → f.ty = 0 → f.i = false →
    let p := laneProg s l
    let a := refAccess (c.rd f.rb.toNat) 0
    let n := mapGetD c.sends m.index 0
    objectOf p (c.rd f.ra.toNat) = some m →
    (m.tx = true → (m.safety = true → partSafe p c = true) → accessExc p c a m.len (payloadAlign m.len) false = none →
      (n < m.sendMax → ∃ msg : SentMsg, msg.object = m.index ∧ msg.data = (readAccess s l k c a m.len).1 ∧
        msg.tag = Tag.decode (field c.qf 5 4) ∧ exec (.msend l f) s = .next ((noteRead s l k a m.len).setCtx l k
          (({ c with cf := setT c.cf true, sends := mapPut m.index (n + 1) c.sends, msgs := c.msgs ++ [msg] }.wr f.rd.toNat
            (BitVec.ofNat 64 (n + 1))).past 4))) ∧
      (m.sendMax ≤ n → exec (.msend l f) s
        = .next (s.setCtx l k (({ c with cf := setT c.cf false }.wr f.rd.toNat (BitVec.ofNat 64 m.sendMax)).past 4)))) ∧
    (m.tx = false → (partSafe p c = true → m.safety = true ∨ m.safeRead = true) →
      recvExc p c a m.len (payloadAlign m.len) = none →
      let msgs := (mapGetD ((s.lane l).inBuf c.buf).areas m.index {}).msgs
      (msgs[(c.rd f.ra.toNat).toNat / 2 ^ 16 % 2 ^ 16]? = none → exec (.mrecv l f) s
        = .next (s.setCtx l k (({ c with cf := setT c.cf false }.wr f.rd.toNat 0).past 4))) ∧
      (∀ bs tag addr, msgs[(c.rd f.ra.toNat).toNat / 2 ^ 16 % 2 ^ 16]? = some (bs, tag) → bs.length = 8 → m.len = 8 →
        a.space = 0 → placeOf s (progNo s l) a = .own addr → (s.lane l).spill = [] →
        ∃ x : LaneSt, exec (.mrecv l f) s = .next (s.setLane l x) ∧ Memory.readBytes x.mem addr 8 = bs ∧
          x = { ((s.lane l).setCtx k (({ c with cf := setT c.cf true, qf := loadTag c.qf tag }.wr f.rd.toNat (BitVec.ofNat 64 m.len)).past 4))
            with mem := x.mem, tracked := x.tracked } ∧
          (∀ y, y < addr ∨ addr + 8 ≤ y → Memory.readByte x.mem y = s.laneByte l y))) ∧
    (f.rb = 0 → (m.tx = true ∨ (partSafe p c = true → m.safety = true ∨ m.safeRead = true)) →
      let q := mapGetD ((s.lane l).inBuf c.buf).areas m.index {}
      exec (.mstat l f) s = .next (s.setCtx l k ((c.wr f.rd.toNat (BitVec.ofNat 64 (n % 256 * 2 ^ 24 +
        q.undelivered.toNat * 2 ^ 18 + q.rerouted.toNat * 2 ^ 17 + q.overrun.toNat * 2 ^ 16 + q.msgs.length))).past 4)))

/-- From R123, R124, R160, R161, R163, R217. UWR, VSYNC and TRAP each put one record into the lane's effect queue, a register write, a
vote event with its own pc or an exception event; CMT emits what the context has stored and sent, or nothing when it has done neither.
That UWR below the windows raises SPACE_BOUND is DEDUCED (log entry 101). -/
def Obligations.EffectsEnterTheQueue : Prop :=
  ∀ (s : State) (l : Lane) (k : CtxKind) (c : LaneCtx), queueFull (s.lane l) = false →
    (∀ f : RFmt, Executes s l [f.ra.toNat, f.rb.toNat] 4 k c → f.ty = 0 → f.i = false → f.rd = 0 →
      (let addr := (c.rd f.ra.toNat).toNat % 2 ^ 32
       (0xF0000000 ≤ addr → ∃ r : EffectRec, exec (.uwr l f) s = .next (s.setLane l
            ((s.lane l).setCtx k { c.past 4 with wait := if inComposite addr then .composite else .none }
              |> fun x => { x with queue := x.queue ++ [r] })) ∧
          r.kind = 3 ∧ r.addr = addr ∧ r.beats = [(c.rd f.rb.toNat).toNat % 2 ^ 32] ∧ r.ctx = k ∧
          r.safety = partSafe (laneProg s l) c ∧ r.at_ = s.tb3) ∧
       (addr < 0xF0000000 → Excepts (.uwr l f) s l k c 0x42)) ∧
      (f.rb = 0 → ∃ r : EffectRec, exec (.vsync l f) s = .next (s.setLane l
          ((s.lane l).setCtx k (c.past 4) |> fun x => { x with queue := x.queue ++ [r] })) ∧
        r.kind = 5 ∧ r.addr = c.pc.toNat ∧ r.beats = [(c.rd f.ra.toNat).toNat] ∧ r.ctx = k ∧
        r.safety = partSafe (laneProg s l) c ∧ r.at_ = s.tb3)) ∧
    (∀ f : IFmt, Executes s l [] 4 k c → f.rd = 0 → f.ra = 0 → Excepts (.trap l f) s l k c 0x4D) ∧
    (∀ f : RFmt, Executes s l [] 4 k c → f.ty = 0 → f.i = false → f.rd = 0 → f.ra = 0 → f.rb = 0 →
      (s.lane l).queue.length + (emission s l k c).length ≤ 32 →
      exec (.cmt l f) s = .next (s.setLane l
        ((s.lane l).setCtx k { c.past 4 with out := [], outTags := [], msgs := [], wait := .none } |> fun x =>
          { x with queue := x.queue ++ (emission s l k (c.past 4)).map (fun r => { r with at_ := s.tb3 }) })))

/-- From R16, R115, R163 to R165. FENCE_COMPLETION, TWAIT_COMPLETION and URD_COMPLETION let the waiting context go on at the next word
with its outcome in T, a URD with the value in rd. A URD of a word that the replay buffer holds for the lane waits with that value; below
the control space it raises SPACE_BOUND. -/
def Obligations.WaitsEndWithTheirOutcome : Prop :=
  (∀ (s : State) (l : Lane) (k : CtxKind) (c : LaneCtx), waitingCtx s l = some (k, c) →
    (c.wait = .fence → (s.lane l).queue = [] → (s.lane l).spill = [] → (∀ r ∈ s.hlk.queue, r.write = none) →
      exec (.fenceCompletion l) s
      = .next ((postedDone s).setCtx l k ({ c with cf := setT c.cf (!c.uwrErr), uwrErr := false, wait := .none }.past 4))) ∧
    (∀ t target, c.wait = .twait target → target ≤ t → target < guardInstant s → exec (.twaitCompletion l t) s
      = .next ((s.at_ t).setCtx l k ({ c with cf := setT c.cf true, wait := .none }.past 4))) ∧
    (∀ rd addr v ok, c.wait = .urd rd addr (some (v, ok)) → exec (.urdCompletion l) s
      = .next (s.setCtx l k ((({ c with cf := setT c.cf ok, wait := .none }).wr rd (BitVec.ofNat 64 (if ok then v else 0))).past 4)))) ∧
  (∀ (s : State) (l : Lane) (k : CtxKind) (c : LaneCtx) (f : RFmt) (r : Replay),
    Executes s l [f.rd.toNat, f.ra.toNat] 4 k c → f.ty = 0 → f.i = false → f.rb = 0 →
    let addr := (c.rd f.ra.toNat).toNat % 2 ^ 32
    (addr < 0xF0000000 → queueFull (s.lane l) = false → Excepts (.urd l f) s l k c 0x42) ∧
    (∀ u off, plainUnit u = true → off < 0x20 → off % 4 = 0 → off ≠ 0x18 → addr = baseOf u + off → s.voter.replay = [] →
      (s.lane l).queue = [] → (s.lane l).spill = [] → s.hlk.queue = [] → s.hlk.posted = [] → s.hlk.heldRead = none →
      Gives (.urd l f) s fun t => t = { s.setLane l (t.lane l) with voter := { s.voter with replay := t.voter.replay } } ∧
        t.lane l = (s.lane l).setCtx k { c with wait := .urd f.rd.toNat addr (some ((ucbRead s u off).toNat, true)) } ∧
        (∀ x ∈ t.voter.replay, x.ctx = k ∧ x.addr = addr ∧ x.value = (ucbRead s u off).toNat ∧ l ∉ x.left)) ∧
    (0xF0000000 ≤ addr → (s.lane l).role = .voting → s.voter.replay = [r] → r.ctx = k → r.len = 0 → r.addr = addr → l ∈ r.left →
      ∃ t, exec (.urd l f) s = .next t ∧ ((t.lane l).ctx k).wait = .urd f.rd.toNat addr (some (r.value, r.ok)) ∧
        ((t.lane l).ctx k).pc = c.pc))

/-- From R30, R31, R32, R38, R41, Table UNIT-4. A common command that passes its checks: ENABLE, START, QUIESCE, GATE_OFF, TEST, CLEAR and
RESET take one unit to the state that the table names and end OK, QUIESCE in RUN first draining it; RESET returns every setting to its
reset value; NOP sets CODE and CMD and nothing else. -/
def Obligations.CommonCommandsMoveTheUnit : Prop :=
  ∀ (s : State) (w : Writer) (u : UnitId), plainUnit u = true → (s.ucb u).running = none → (s.ucb u).busy = false →
    ((s.ucb u).state = .off → Legal s w u 1 0 → Gives (.enable w u 0) s fun t =>
      t = { s with ucbs := t.ucbs } ∧ (t.ucb u).state = .quiesced ∧ (t.ucb u).prev = .off ∧ (t.ucb u).gateOpen = true ∧
        (t.ucb u).forced = false ∧ Ended s t u 1 .ok 0) ∧
    ((s.ucb u).state = .quiesced →
      (Legal s w u 2 0 → Gives (.start w u 0) s fun t =>
        (t.ucb u).state = .run ∧ (t.ucb u).prev = .quiesced ∧ Ended s t u 2 .ok 0 ∧ u ∉ t.flt.degradedUnits) ∧
      (Legal s w u 3 0 → Gives (.quiesce w u 0) s fun t =>
        t = { s with ucbs := t.ucbs } ∧ (t.ucb u).state = .quiesced ∧ Ended s t u 3 .ok 0) ∧
      (Legal s w u 4 0 → Gives (.gateOff w u 0) s fun t =>
        (t.ucb u).state = .off ∧ (t.ucb u).gateOpen = false ∧ Ended s t u 4 .ok 0) ∧
      (Legal s w u 5 1 → Gives (.test w u 1) s fun t =>
        t = { s with ucbs := t.ucbs } ∧ (t.ucb u).state = .test ∧ (t.ucb u).prev = .quiesced ∧ Busy s t u w 5 1)) ∧
    ((s.ucb u).state = .run → Legal s w u 3 0 → Gives (.quiesce w u 0) s fun t =>
      t = { s with ucbs := t.ucbs } ∧ (t.ucb u).state = .run ∧ (t.ucb u).draining = true ∧ Busy s t u w 3 0) ∧
    ((s.ucb u).state = .fault → Legal s w u 6 0 → Gives (.clear w u 0) s fun t =>
      (t.ucb u).state = .off ∧ (t.ucb u).faultClass = none ∧ Ended s t u 6 .ok 0) ∧
    ((s.ucb u).state ≠ .run → Legal s w u 7 0 → Gives (.reset w u 0) s fun t =>
      (t.ucb u).state = .off ∧ (t.ucb u).refused = 0 ∧ (t.ucb u).sent = 0 ∧ Ended s t u 7 .ok 0 ∧
        (∀ off obj, off < 0x1000 → obj < 0x100000 → t.reg u off obj = resetValue s u off)) ∧
    (∀ arg, exec (.nopCommand w u arg) s = .next (s.setUcb u fun b => { b with code := .ok, cmd := 0 }))

/-- From R31, R34, Table UNIT-5. The checks in their order: a writer that may not command the unit gets DENIED, a held token BUSY_MAINT, a
running command BUSY, an unassigned code or a bad argument BAD_ARG, a state outside Table UNIT-4 ILLEGAL_STATE. A refused command changes
nothing but UCB_STATUS, and for ILLEGAL_STATE the count and the record. -/
def Obligations.RefusedCommandsHaveNoEffect : Prop :=
  ∀ (s : State) (w : Writer) (u : UnitId) (arg : BitVec 24) (i : Instr) (code : Nat), plainUnit u = true →
    (i, code) ∈ [(Instr.enable w u arg, 1), (.start w u arg, 2), (.quiesce w u arg, 3), (.gateOff w u arg, 4), (.test w u arg, 5),
      (.clear w u arg, 6), (.reset w u arg, 7)] →
    let b := s.ucb u
    let argOk : Bool := if code = 5 then hasTest u && decide (arg.toNat = 1) else decide (arg.toNat = 0)
    ∀ st : Status,
      ((entitled s w u code arg.toNat = false ∧ st = .denied) ∨
       (entitled s w u code arg.toNat = true ∧ w ≠ .module ∧ b.token.isSome = true ∧ st = .busyMaint) ∨
       (entitled s w u code arg.toNat = true ∧ b.token = none ∧ b.busy = true ∧ ¬(code = 7 ∧ b.state = .test) ∧ st = .busy) ∨
       (entitled s w u code arg.toNat = true ∧ b.token = none ∧ b.busy = false ∧ argOk = false ∧ st = .badArg) ∨
       (entitled s w u code arg.toNat = true ∧ b.token = none ∧ b.busy = false ∧ argOk = true ∧ b.state ≠ .maint ∧
         (b.state, code) ∈ [(UState.run, 1), (.test, 1), (.fault, 1), (.off, 2), (.test, 2), (.fault, 2), (.off, 3), (.test, 3), (.fault, 3),
           (.test, 4), (.fault, 4), (.off, 5), (.run, 5), (.test, 5), (.off, 6), (.quiesced, 6), (.run, 6), (.test, 6)] ∧
         st = .illegalState)) →
      Gives i s fun t => t = { s with ucbs := t.ucbs, evr := t.evr } ∧ (∀ v, v ≠ u → t.ucb v = s.ucb v) ∧
        t.ucb u = { b with code := st, cmd := code, refused := if st = .illegalState then min 0xFFFF (b.refused + 1) else b.refused }

/-- From R38, R44, R430, R543. What ends a command later: a drained QUIESCE takes the unit to QUIESCED and ends OK, one that a transaction
holds up ends DEFERRED with the unit in RUN; a self-test ends OK with its finding, in QUIESCED or in FAULT; a card's command ends with the
outcome that the card reports. -/
def Obligations.CommandsEndWithTheirOutcome : Prop :=
  ∀ (s : State) (u : UnitId) (r : Running), (s.ucb u).running = some r →
    (plainUnit u = true → r.code = 3 → (s.ucb u).draining = true → (s.ucb u).state = .run →
      (Gives (.quiescenceEnd u []) s fun t => (t.ucb u).state = .quiesced ∧ (t.ucb u).prev = .run ∧ (t.ucb u).draining = false ∧
        Ended s t u 3 .ok 0) ∧
      (Gives (.quiescenceEnd u [u]) s fun t => t = { s with ucbs := t.ucbs } ∧ (t.ucb u).state = .run ∧ (t.ucb u).draining = false ∧
        Ended s t u 3 .deferred 0)) ∧
    (plainUnit u = true → r.code = 5 → (s.ucb u).state = .test →
      (Gives (.selfTestEnd u true) s fun t => t = { s with ucbs := t.ucbs } ∧ (t.ucb u).state = .quiesced ∧ Ended s t u 5 .ok 0) ∧
      (Gives (.selfTestEnd u false) s fun t => (t.ucb u).state = .fault ∧ Ended s t u 5 .ok 1 ∧ (t.ucb u).faultClass.isSome = true)) ∧
    (∀ slot sub code data, u = .card slot sub → cardReachable s slot = true → r.writer ≠ .module →
      Gives (.commandComplete u code data) s fun t => t = { s with ucbs := t.ucbs } ∧ (t.ucb u).state = (s.ucb u).state ∧
        Ended s t u r.code code data.toNat)

/-- From R9, R10, R12, R35, R40, R41. A whole word written to an RW or RWS register by a writer that may set the unit, of a value that its
fields admit: an RW setting takes the value's writable bits at once, an RWS setting shows its old value and holds the new one as pending.
A write of another size or alignment, to no register, by another writer or to a gated unit changes no setting. -/
def Obligations.RegisterWritesReachTheirSetting : Prop :=
  ∀ (s : State) (w : Writer) (u : UnitId) (off : Nat) (d : RegDef) (v : W32),
    plainUnit u = true → 0x100 ≤ off → off < 0x800 → off % 4 = 0 → regAt s u off = some d →
    let addr := BitVec.ofNat 32 (baseOf u + off)
    let obj := objOf s u (bankOf w) off
    let masked := v &&& (d.rw ||| d.rws)
    (mayCommand s w u = true → unitOpen s u = true → (s.ucb u).draining = false → settingOk s u off obj masked = true →
      (u, off) ∉ [(UnitId.tick, 0x104), (.place, 0x118), (.net, 0x10C), (.hlk, 0x120), (.time, 0x100), (.flt, 0x180)] →
      (∀ n, u ≠ .can n ∨ (off ≠ 0x13C ∧ off ≠ 0x128)) → d.rw ||| d.rws ≠ 0 →
      Gives (.registerWrite w addr v 4) s fun t => t = { s with regs := t.regs, regsPending := t.regsPending } ∧
        (d.rws = 0 → t.reg u off obj = masked ∧ t.regsPending = s.regsPending) ∧
        (d.rws ≠ 0 → t.regs = s.regs ∧ t.regNext u off obj = masked)) ∧
    (∀ size, (size ≠ 4 ∨ mayCommand s w u = false ∧ w ≠ .module ∨ unitOpen s u = false) →
      Gives (.registerWrite w addr v size) s fun t => t = { s with ucbs := t.ucbs }) ∧
    (∀ (a : W32) (size : Nat), (size ≠ 4 ∨ a.toNat % 4 ≠ 0 ∨ unitOfAddr a.toNat = none ∨
        ∃ u' off', unitOfAddr a.toNat = some (u', off') ∧ plainUnit u' = true ∧ 0x20 ≤ off' ∧ regAt s u' off' = none) →
      Gives (.registerWrite w a v size) s fun t => t = { s with ucbs := t.ucbs })

/-- From R41, R296, R387, R414, R436, Tables PLACE-8, CAN-8, NET-4, HLK-7, TIME-4 and FLT-12. A write to a selecting register of an open
unit takes the selection and starts its fetch: the result window of the writer's bank starts and the fetch is busy. FETCH_COMPLETE ends it
and a read of the window takes its freshness. TIME_SNAP_SEL takes the snapshot at once and FLT_HIST_SEL copies the entry. -/
def Obligations.SelectionsStartTheirFetch : Prop :=
  ∀ (s : State) (w : Writer) (v : W32),
    let bank := bankOf w
    let open_ (u : UnitId) : Prop := mayCommand s w u = true ∧ unitOpen s u = true ∧ (s.ucb u).draining = false
    (open_ .place → rdSelOk v = true → Gives (.placeRdSelWrite w v) s fun t =>
      t = { s with regs := t.regs, place := { s.place with fetch := t.place.fetch } } ∧ t.reg .place 0x118 bank = v ∧
        (fetchOf t.place.fetch bank).busy = true ∧ (fetchOf t.place.fetch bank).result.valid = false) ∧
    (∀ n : Fin 6, open_ (.can n) → Gives (.cannFiltSelWrite w n v) s fun t =>
      t = { s with regs := t.regs, cans := t.cans } ∧ t.reg (.can n) 0x13C bank = v &&& 0x3FF ∧
        (fetchOf (t.can n).fetch bank).busy = true ∧ (fetchOf (t.can n).fetch bank).result.valid = false) ∧
    (open_ .net → settingOk s .net 0x10C bank (v &&& 0x3FFF) = true → Gives (.netDirSelWrite w v) s fun t =>
      t = { s with regs := t.regs, net := { s.net with fetch := t.net.fetch } } ∧ t.reg .net 0x10C bank = v &&& 0x3FFF ∧
        (fetchOf t.net.fetch bank).busy = true ∧ (fetchOf t.net.fetch bank).result.valid = false) ∧
    (open_ .hlk → settingOk s .hlk 0x120 bank (v &&& 0x3F3F) = true → Gives (.hlkIdmSelWrite w v) s fun t =>
      t = { s with regs := t.regs, hlk := { s.hlk with fetch := t.hlk.fetch } } ∧ t.reg .hlk 0x120 bank = v &&& 0x3F3F ∧
        (fetchOf t.hlk.fetch bank).busy = true ∧ (fetchOf t.hlk.fetch bank).result.valid = false) ∧
    (open_ .time → settingOk s .time 0x100 bank (v &&& 0x7) = true → Gives (.timeSnapSelWrite w v) s fun t =>
      t = { s with regs := t.regs, time := { s.time with snaps := t.time.snaps } } ∧ t.reg .time 0x100 bank = v &&& 0x7) ∧
    (open_ .flt → Gives (.fltHistSelWrite w v) s fun t =>
      t = { s with regs := t.regs, flt := { s.flt with histCopy := t.flt.histCopy } } ∧ t.reg .flt 0x180 bank = v &&& 0xF ∧
        mapGet? bank t.flt.histCopy = s.flt.history[(v &&& 0xF).toNat]?) ∧
    (∀ l : Lane, let bank := l.idx
      ((fetchOf s.place.fetch bank).busy = true → Gives (.fetchComplete .place l) s fun t =>
        t = { s with place := { s.place with fetch := t.place.fetch } } ∧ (fetchOf t.place.fetch bank).busy = false ∧
          (fetchOf t.place.fetch bank).result.valid = true ∧ (fetchOf t.place.fetch bank).result.fresh = true) ∧
      ((fetchOf s.hlk.fetch bank).busy = true → Gives (.fetchComplete .hlk l) s fun t =>
        t = { s with hlk := { s.hlk with fetch := t.hlk.fetch } } ∧ (fetchOf t.hlk.fetch bank).busy = false ∧
          (fetchOf t.hlk.fetch bank).result.valid = true) ∧
      ((fetchOf s.net.fetch bank).busy = true → Gives (.fetchComplete .net l) s fun t =>
        t = { s with net := { s.net with fetch := t.net.fetch } } ∧ (fetchOf t.net.fetch bank).busy = false ∧
          (fetchOf t.net.fetch bank).result.valid = true) ∧
      (∀ n : Fin 6, (fetchOf (s.can n).fetch bank).busy = true → Gives (.fetchComplete (.can n) l) s fun t =>
        t = { s with cans := t.cans } ∧ (∀ m, m ≠ n → t.can m = s.can m) ∧ (fetchOf (t.can n).fetch bank).busy = false ∧
          (fetchOf (t.can n).fetch bank).result.valid = true)) ∧
    ((s.ucb .voter).draining = false → unitOpen s .voter = true → s.voter.fox.valid = true →
      Gives (.resultWindowRead w 0xF0030130) s fun t =>
        t = { s with voter := { s.voter with fox := { s.voter.fox with fresh := false } } }) ∧
    (∀ u, plainUnit u = true → (s.ucb u).result.valid = true → Gives (.resultWindowRead w (BitVec.ofNat 32 (baseOf u + 0x18))) s fun t =>
      t = s.setUcb u fun b => { b with result := { b.result with fresh := false } })

/-- From R364, R457, R479, Table CLK-6. A cancel of a TX object or buffer takes its waiting frames off the channel; a write to the 7100
mirror writes the native register that Table CLK-6 names; a diagnostics read is answered from LCS/UPD's own port, and only while
diagnostics are open; a misaligned one has no answer and is reported. -/
def Obligations.IndirectAccessesReachTheirRegister : Prop :=
  ∀ (s : State) (w : Writer) (v : W32),
    (mayCommand s w .clk = true → unitOpen s .clk = true → (s.ucb .clk).draining = false →
      (field v 1 0 = 1 → clkSettingOk s 0x104 (s.regNext .clk 0x104 &&& 0xFFFFFFF0) = true → Gives (.c71MirrorWrite w 0x804 v) s fun t =>
        t = { s with regsPending := t.regsPending } ∧ t.regNext .clk 0x104 = s.regNext .clk 0x104 &&& 0xFFFFFFF0) ∧
      (bitAt v 31 = true → Gives (.c71MirrorWrite w 0x808 v) s fun t =>
        t = { s with regs := t.regs } ∧ t.reg .clk 0x808 = v &&& 0x8000FFFF)) ∧
    (∀ r : DiagRead,
      (diagOpen s = false → exec (.diagnosticsRead r) s = .next { s with lcs := { s.lcs with answer := none } }) ∧
      (diagOpen s = true → Gives (.diagnosticsRead r) s fun t =>
        t = { s with ucbs := t.ucbs, lcs := { s.lcs with answer := diagValue s r } } ∧ ((diagValue s r).isSome = true → t.ucbs = s.ucbs) ∧
          (∀ a : W32, r = .register a → a.toNat % 4 ≠ 0 → reporter s a.toNat ≠ .lcs →
            diagValue s r = none ∧ Reports s t (reporter s a.toNat) 0xF0 a.toNat))) ∧
    (∀ n : Fin 6, mayCommand s w (.can n) = true → unitOpen s (.can n) = true → (s.ucb (.can n)).draining = false →
      (s.can n).cancel = none → (s.can n).sending = none → v.toNat < 0x2000 →
      let key := objKey (if s.voter.mode = .split then 1 + bankOf w else 0) v.toNat
      let k := ((s.can n).txBufs.flatMap fun b => b.2.filter fun f => f.object = key).length
        + ((s.can n).txQueue.filter fun f => f.object = key).length
      Gives (.cannTxCancel w n v) s fun t => t = { s with cans := t.cans } ∧ (∀ m, m ≠ n → t.can m = s.can m) ∧
        (t.can n).cres.valid = true ∧ (t.can n).cres.value = cresValue (if k = 0 then 0 else 1) k v.toNat ∧
        (t.can n).txQueue = (s.can n).txQueue.filter (fun f => f.object ≠ key) ∧
        (∀ b ∈ (t.can n).txBufs, ∀ f ∈ b.2, f.object ≠ key))

/-- From R356 to R358, Table CAN-3. A valid frame on a channel that takes part in the bus, error active in NORMAL mode: REC falls by one;
the first entry that admits the frame counts a hit; a frame of the object's length enters the object's ring, the oldest leaving a full one
unless the ring stands frozen for the latch, or the receive queue of its part; a frame of another length, a remote frame and one that
nothing admits are counted and go. A queue drains S before N. Another channel and the rest of the machine stay. -/
def Obligations.CanFramesGoWhereTheFilterSays : Prop :=
  ∀ (s : State) (n : Fin 6) (f : CanFrame) (now : Nat),
    let c := s.can n
    (canRun s n = true → canMode s n = 0 → canBusOff c = false → c.act ≠ 0 → c.act ≠ 2 → (f.fd = true → canFd s n = true) →
      c.tec < 128 → c.rec_ < 128 → ∃ t, exec (.canFrameReceived n f now) s = .next t ∧
        t = { s with time := s.timeAt now, cans := t.cans, ucbs := t.ucbs } ∧ (∀ m, m ≠ n → t.can m = s.can m) ∧ (t.can n).rec_ = c.rec_ - 1 ∧
        (f.remote = true → (t.can n).remote = min 255 (c.remote + 1) ∧ (t.can n).rxBufs = c.rxBufs) ∧
        (f.remote = false → c.filter.find? (fun e => e.admits f) = none → (t.can n).noMatch = (c.noMatch + 1) % 65536 ∧
          (t.can n).rxBufs = c.rxBufs) ∧
        (∀ (e : FilterEntry) (d : MsgDecl), f.remote = false → c.filter.find? (fun e => e.admits f) = some e →
          msgDecl s e.object = some d →
          (f.data.length ≠ d.len → (t.can n).badLen = min 255 (c.badLen + 1) ∧ (t.can n).rxBufs = c.rxBufs) ∧
          (f.data.length = d.len → ∃ cell : FrameCell, cell.object = e.object ∧ cell.ident = f.ident ∧ cell.data = f.data ∧
            cell.stamp = now ∧ cell.got = t.tb3 ∧ (t.can n).rxOk = (c.rxOk + 1) % 65536 ∧
            (e.dest = 0 → mapGetD (t.can n).rxBufs e.object [] =
              (let ring := mapGetD c.rxBufs e.object []
               if shadowed s cell.got || decide (ring.length < d.rxDepth) then ring ++ [cell] else ring.drop 1 ++ [cell])) ∧
            (e.dest = 1 → c.queueS.length < 64 → (t.can n).queueS = c.queueS ++ [cell]) ∧
            (e.dest = 2 → c.queueN.length < 64 → (t.can n).queueN = c.queueN ++ [cell])))) ∧
    (∀ (cell : FrameCell) (q : List FrameCell) (d : MsgDecl), msgDecl s cell.object = some d →
      (c.queueS = cell :: q ∨ (c.queueS = [] ∧ c.queueN = cell :: q)) →
      Gives (.queueDrain n) s fun t => t = { s with cans := t.cans } ∧ (∀ m, m ≠ n → t.can m = s.can m) ∧
        (if c.queueS = [] then (t.can n).queueN = q else (t.can n).queueS = q ∧ (t.can n).queueN = c.queueN) ∧
        mapGetD (t.can n).rxBufs cell.object [] =
          (let ring := mapGetD c.rxBufs cell.object []
           if shadowed s cell.got || decide (ring.length < d.rxDepth) then ring ++ [cell] else ring.drop 1 ++ [cell]))

/-- From R352, R361, R362, R365 to R367. At a point at which a frame may start, the channel sends the candidate that would win arbitration
among the heads of its buffers and queue, or the reference message that is due. A sent frame counts in TX_OK and lowers TEC by one; a lost
arbitration puts the frame back and moves no counter; an error of the sender raises TEC by 8 and above 255 brings bus-off, BUS_OFF and the
loss of the port; recovery ends with both counters at 0; 11 recessive bits end the integration. -/
def Obligations.CanFramesAreSentByPriority : Prop :=
  ∀ (s : State) (n : Fin 6) (now : Nat),
    let c := s.can n
    (∀ p f, canRun s n = true → (s.ucb (.can n)).draining = false → canMode s n = 0 → canBusOff c = false → c.act = 1 → c.sending = none → txChoice c = some (p, f) →
      Gives (.transmitChoice n now) s fun t => t = { s with time := s.timeAt now, cans := t.cans } ∧ (t.can n).act = 3 ∧
        (∃ x, (t.can n).sending = some x ∧ x.place = p ∧ x.cell = { f with stamp := now, esi := decide (c.state = 1) }) ∧
        (c.refDue = some f ∧ p = 33 ∨
          c.refDue = none ∧ (p, f) ∈ txCandidates c ∧ (∀ y ∈ txCandidates c, arbKey f ≤ arbKey y.2))) ∧
    (∀ x, c.sending = some x → x.place < 33 → c.cancel = none → canBusOff c = false → c.tec < 128 → c.rec_ < 128 →
      bitAt (s.reg (.can n) 0x10C) 31 = false → c.cfgHeld = none →
      Gives (.frameTransmitted n now) s fun t => t = { s with time := s.timeAt now, cans := t.cans } ∧ (t.can n).sending = none ∧
        (t.can n).txOk = (c.txOk + 1) % 65536 ∧ (t.can n).tec = c.tec - 1 ∧ (t.can n).act = 1) ∧
    (∀ x, c.sending = some x → x.place = 32 → x.withdrawn = .no → canRun s n = true → canBusOff c = false →
      (Gives (.frameError n .arbitration) s fun t => t = { s with cans := t.cans } ∧ (t.can n).sending = none ∧
        (t.can n).txQueue = x.cell :: c.txQueue ∧ (t.can n).tec = c.tec ∧ (t.can n).act = 2) ∧
      (canMode s n = 0 → ∀ lec : Fin 7, ¬(lec = 6 ∧ c.state = 1) →
        (c.tec + 8 ≤ 255 → Gives (.frameError n (.send lec false)) s fun t => (t.can n).tec = c.tec + 8 ∧ (t.can n).lec = lec.val ∧
          (t.can n).txQueue = x.cell :: c.txQueue) ∧
        (255 < c.tec + 8 → Gives (.frameError n (.send lec false)) s fun t => canBusOff (t.can n) = true ∧
          Resource.port (.can n) ∈ t.place.lost ∧ Reports s t (.can n) 1 (baseOf (.can n))))) ∧
    (c.state = 3 → (s.ucb (.can n)).state = .run → Gives (.recoveryComplete n) s fun t =>
      t = { s with cans := t.cans, place := t.place } ∧ (t.can n).state = 0 ∧ (t.can n).tec = 0 ∧ (t.can n).rec_ = 0 ∧
        (t.can n).recovered = min 255 (c.recovered + 1)) ∧
    (canRun s n = true → c.act = 0 → canBusOff c = false → exec (.busIntegration n) s = .next (s.setCan n { c with act := 1 }))

/-- From R369 to R371. A slave takes a valid reference: its rank is the master, CYCLE is followed, and a follow-up gives the offset of the
previous one, which goes to TIME as a measurement of TB2. Without a reference for TIMEOUT a slave is WAITING again and reports REF_LOST; a
potential master becomes master with its own rank and reports the change. -/
def Obligations.CanTimeFollowsItsMaster : Prop :=
  ∀ (s : State) (n : Fin 6) (f : CanFrame) (now : Nat),
    let c := s.can n
    let stamp := s.time.tb2.ns now
    (tmRole s n ≠ 0 → canRun s n = true → canBusOff c = false → isReference s n f = true →
      (c.tmState ≠ 3 ∨ f.ident % 8 < tmRank s n) →
      Gives (.referenceMessage n f now) s fun t => (t.can n).tmState = 2 ∧ (t.can n).tmMaster = f.ident % 8 ∧
        (t.can n).tmCycle = (f.data.headD 0).toNat % 64 ∧ (t.can n).tmSof = stamp ∧ (t.can n).refDue = none ∧ t.time.now = max s.time.now now ∧
        (c.tmLast.isSome = true → c.tmMaster ≠ f.ident % 8 → Reports s t (.can n) 6 (baseOf (.can n))) ∧
        (∀ l, c.tmLast = some l → (f.data.headD 0).getLsbD 6 = true → (l.cycle + 1) % 64 = (f.data.headD 0).toNat % 64 →
          ∃ o : Int, (o - ((fromLE (f.data.drop 1) : Int) - l.tb2)) % 2 ^ 56 = 0 ∧ -2 ^ 55 ≤ o ∧ o < 2 ^ 55 ∧ (t.can n).tmOfs = o ∧
            t.time.handed = s.time.handed ++ [{ tb := 2, src := n.val, offset := o, disc := (f.data.headD 0).getLsbD 7, at_ := now }]) ∧
        (c.tmLast = none → t.time.handed = s.time.handed)) ∧
    (tmRole s n ≠ 0 → c.tmState ≠ 3 → Gives (.tmLost n) s fun t => t = { s with cans := t.cans, ucbs := t.ucbs } ∧
      t.can n = { c with tmState := 1, tmLast := none } ∧ Reports s t (.can n) 5 (baseOf (.can n))) ∧
    (tmRole s n = 2 → canRun s n = true → canBusOff c = false → c.tmState ≠ 3 → Gives (.tmMaster n) s fun t =>
      t = { s with cans := t.cans, ucbs := t.ucbs, time := t.time, tick := t.tick, freeCount := t.freeCount } ∧
        (∀ m, m ≠ n → t.can m = s.can m) ∧ (t.can n).tmState = 3 ∧ (t.can n).tmMaster = tmRank s n ∧
        Reports s t (.can n) 6 (baseOf (.can n)))

/-- From R317 to R320, R327. Slots come in turn: at its slot a scheduled channel that is energised is switched off for its pulse, and a
channel of the slot that is not keeps its state; a round takes a new pulse width and ends PULSE_RETIME. A clean evaluation gives the
channel its commanded state again; a readback of its own that stays high reports EXT_FEED and opens the bank's switch until module reset,
one that persists brings the safe state; a reaction of another channel reports CROSS and opens its bank too. -/
def Obligations.OffPulsesTestEveryScheduledOutput : Prop :=
  ∀ s : State,
    (∀ ch : OutCh, let i := s.safe.slot % 10
      slotOrder.getD i (.bk 0) = ch →
      (i ≠ 0 → scheduled s ch = true → energised s ch = true → safeRun s = true → (isBrakeCh ch = true → s.safe.btest = none) →
        Gives .offPulse s fun t => t = { s with safe := t.safe } ∧ t.safe.slot = i + 1 ∧ t.safe.pulse = some ch ∧ energised t ch = false ∧
          commanded t ch = commanded s ch ∧ (∀ y, y ≠ ch → energised t y = energised s y)) ∧
      (i ≠ 0 → (scheduled s ch = false ∨ energised s ch = false) →
        exec .offPulse s = .next { s with safe := { s.safe with slot := i + 1 } }) ∧
      (∀ w r, i = 0 → s.safe.pwNext = some w → (s.ucb .safe).running = some r → Gives .offPulse s fun t =>
        t.safe.pw = w ∧ t.safe.pwNext = none ∧ Ended s t .safe r.code .ok 0)) ∧
    (∀ (ch : OutCh) (low : List OutCh), s.safe.pulse = some ch →
      ((∀ y ∈ low, y = ch ∨ energised s y = false) → Gives (.offPulseEvaluation false low) s fun t =>
        t = { s with safe := t.safe } ∧ t.safe.pulse = none ∧
          (∀ x, ch = .bk x → (t.bk x).drv = ((s.bk x).cmd && !s.safe.openB && safeRun s)) ∧
          (∀ m, ch = .dout m → (t.dout m).drv = ((s.dout m).cmd && !(s.dout m).latched && !s.safe.openA && safeRun s))) ∧
      (Gives (.offPulseEvaluation true []) s fun t => t = { s with safe := t.safe, ucbs := t.ucbs } ∧ Reports s t .safe 1 ch.code ∧
        (if isBrakeCh ch then t.safe.openB = true ∧ t.safe.heldB = true ∧ (t.bk 0).drv = false ∧ (t.bk 1).drv = false
         else t.safe.openA = true ∧ t.safe.heldA = true ∧ ∀ m : Fin 8, (t.dout m).drv = false)) ∧
      (∀ y, y ≠ ch → energised s y = true → Gives (.offPulseEvaluation false [y]) s fun t =>
        t = { s with safe := t.safe, ucbs := t.ucbs } ∧ Reports s t .safe 3 (ch.code * 256 + y.code) ∧
          energised t ch = false ∧ energised t y = false ∧
          (if isBrakeCh y then t.safe.heldB = true else t.safe.heldA = true))) ∧
    (∀ ch : OutCh,
      ((if isBrakeCh ch then s.safe.openB else s.safe.openA) = true → Gives (.extFeedPersist ch) s fun t =>
        t.safe.safe = true ∧ t.braked = true ∧ Reports s t .safe 2 ch.code) ∧
      (scheduled s ch = true → s.safe.pulse = none →
        (commanded s ch = false → Gives (.readbackCheck ch true) s fun t => t = { s with safe := t.safe, ucbs := t.ucbs } ∧
          energised t ch = false ∧ Reports s t .safe 1 ch.code) ∧
        (energised s ch = true → Gives (.readbackCheck ch false) s fun t => t = { setReadback s ch false with ucbs := t.ucbs } ∧
          Reports s t .safe 4 ch.code)) ∧
      (8 ≤ mapGetD s.safe.skipRuns ch.code 0 → Gives (.pulseStarved ch) s fun t =>
        t = { s with safe := { s.safe with skipRuns := mapErase ch.code s.safe.skipRuns }, ucbs := t.ucbs } ∧
          Reports s t .safe 6 ch.code)) ∧
    (∀ (w : Writer) (arg : BitVec 24), Legal s w .safe 0x81 arg.toNat → Gives (.pulseRetime w arg) s fun t =>
      t = { s with safe := { s.safe with pwNext := some arg.toNat }, ucbs := t.ucbs } ∧ Busy s t .safe w 0x81 arg.toNat ∧
        (t.ucb .safe).token = some (.offPulseRetime, 6))

/-- From R316, R321. A brake feedback edge that the last driven change expects ends the wait for it, and one within 10 ms reports
BRAKE_UNEXPECTED; an unexpected release brings the safe state; T_REL passing without a release reports BRAKE_NOREL unless SERIES wiring
has no synced partner, and T_APP without an apply brings the safe state. A standby drives its brakes by the brake word, and applies both
when two words are missing. -/
def Obligations.BrakeFeedbackIsJudged : Prop :=
  ∀ (s : State) (x : Fin 2),
    (∀ (level : Bool) (now : Nat), let released := bfReleased s x level
      (s.bk x).bf ≠ level →
      (ownCommits s = true → s.safe.btest = none → safeRun s = true →
        (∀ w, (s.bk x).watch = some w → w.release = released →
          (now ≤ w.from_ + brakeLimit s released → Gives (.brakeFeedbackCheck x level now) s fun t =>
            t = { s with time := s.timeAt now, safe := t.safe, ucbs := t.ucbs } ∧ t.bk x = { s.bk x with bf := level, watch := none } ∧
              (if now < w.from_ + 10000000 then Reports s t .safe 9 x.val else t.ucbs = s.ucbs)) ∧
          (w.from_ + 10000000 ≤ now → w.from_ + brakeLimit s released < now →
            (released = true → Gives (.brakeFeedbackCheck x level now) s fun t =>
              t = { s with time := s.timeAt now, safe := t.safe, ucbs := t.ucbs } ∧
                t.bk x = { s.bk x with bf := level, watch := none } ∧
                (if series s = true ∧ synced s = false then t.ucbs = s.ucbs else Reports s t .safe 7 x.val)) ∧
            (released = false → Gives (.brakeFeedbackCheck x level now) s fun t => t.safe.safe = true ∧ t.braked = true ∧
              Reports s t .safe 8 x.val))) ∧
        ((∀ w, (s.bk x).watch = some w → w.release ≠ released) →
          (released = true → Gives (.brakeFeedbackCheck x level now) s fun t => t.safe.safe = true ∧ t.braked = true ∧
            Reports s t .safe 8 x.val) ∧
          (released = false → Gives (.brakeFeedbackCheck x level now) s fun t =>
            t = { s with time := s.timeAt now, safe := t.safe, ucbs := t.ucbs } ∧ (t.bk x).bf = level ∧ Reports s t .safe 9 x.val))) ∧
      (ownCommits s = false → exec (.brakeFeedbackCheck x level now) s
        = .next (((s.at_ now).setBk x { s.bk x with bf := level }).setDi (16 + x.val) { s.di (16 + x.val) with raw := level }))) ∧
    (∀ w, (s.bk x).watch = some w → ownCommits s = true →
      (w.release = true → Gives (.brakeNorel x) s fun t => t = { s with safe := t.safe, ucbs := t.ucbs } ∧
        t.bk x = { s.bk x with watch := none } ∧
        (if series s = true ∧ synced s = false then t.ucbs = s.ucbs else Reports s t .safe 7 x.val)) ∧
      (w.release = false → Gives (.brakeNorel x) s fun t => t.safe.safe = true ∧ t.braked = true ∧ Reports s t .safe 8 x.val)) ∧
    (s.pair.role = .standby →
      (∀ b0 b1, Gives (.brakeWord b0 b1) s fun t => t = { s with safe := t.safe } ∧ t.safe.wordsMissed = 0 ∧ t.safe.stbyApply = false ∧
        (t.bk 0).drv = (b0 && !s.safe.openB && safeRun s) ∧ (t.bk 1).drv = (b1 && !s.safe.openB && safeRun s)) ∧
      (s.safe.wordsMissed = 0 → exec .brakeWordTimeout s = .next { s with safe := { s.safe with wordsMissed := 1 } }) ∧
      (s.safe.wordsMissed = 1 → Gives .brakeWordTimeout s fun t => t = { s with safe := t.safe, ucbs := t.ucbs } ∧
        (t.bk 0).drv = false ∧ (t.bk 1).drv = false ∧ t.safe.stbyApply = true ∧ Reports s t .safe 12 0x81))

/-- From R322 to R324, Table SAF-2. BRAKE_TEST starts SAFE_BTEST with its tokens. A phase whose observation lies in its limits leads to
the next one, which opens or closes the bank's switch or drives one brake; the last one passes the test, a failed one ends it with its
step, reported and with both brakes off; at start-up the outcome ends or stops step 8. A test older than its interval is due, once. -/
def Obligations.BrakeTestRunsInPhases : Prop :=
  ∀ s : State,
    (∀ w, Legal s w .safe 0x80 0 → Gives (.brakeTest w 0) s fun t => t = { s with safe := t.safe, ucbs := t.ucbs } ∧
      Busy s t .safe w 0x80 0 ∧ t.safe.btest = some { elec := false, startUp := false, phase := 0 } ∧ t.safe.btestWin.valid = false ∧
        (t.ucb .safe).token = some (.brakeTest, 6) ∧ (t.ucb .pair).token = some (.brakeTest, 6)) ∧
    (∀ (b : BrakeTest) (o : BrakeObs), s.safe.btest = some b →
      (phasePasses s b.phase o = true → (5 ≤ b.phase → o.otherMoved = false) →
        (b.phase ≠ lastPhase b → Gives (.brakeTestStep o) s fun t => t = { s with safe := t.safe } ∧
          t.safe.btest = some { b with phase := b.phase + 1 } ∧ t.safe.btestWin = s.safe.btestWin ∧
            (b.phase = 0 → t.safe.openB = true ∧ (t.bk 0).drv = false ∧ (t.bk 1).drv = false) ∧
            (b.phase = 1 → t.safe.openB = s.safe.heldB) ∧ (b.phase = 4 → (t.bk 0).drv = !s.safe.openB) ∧
            (b.phase = 5 → (t.bk 0).drv = false) ∧ (b.phase = 6 → (t.bk 1).drv = !s.safe.openB)) ∧
        (b.phase = lastPhase b → Gives (.brakeTestStep o) s fun t => t.safe.btest = none ∧ t.safe.btestWin.valid = true ∧
          t.safe.btestWin.value = btestValue true 0 b.elec ∧ (t.bk 0).drv = false ∧ (t.bk 1).drv = false ∧
            (b.elec = false → t.safe.lastTest = some (s.tb3 : Int)) ∧ (b.startUp = true → t.pwr.step = 9) ∧
            (∀ r, b.startUp = false → (s.ucb .safe).running = some r → Ended s t .safe r.code .ok 0))) ∧
      (5 ≤ b.phase → o.otherMoved = false → o.passed = false → Gives (.brakeTestStep o) s fun t =>
        (b.startUp = false → t.safe.btest = none ∧ t.safe.btestWin.value = btestValue false (stepOfPhase b.phase) b.elec ∧
          (t.bk 0).drv = false ∧ (t.bk 1).drv = false ∧ Reports s t .safe 10 0x81) ∧
        (b.startUp = true → s.upd.trial = false → t.pwr.failed = 8 ∧ t.pwr.reason = 1))) ∧
    (safeRun s = true → s.safe.dueSaid = false → s.regField .safe 0x134 7 0 * 60 < btestAge s → Gives .btestDue s fun t =>
      t = { s with safe := { s.safe with due := true, dueSaid := true }, ucbs := t.ucbs } ∧ Reports s t .safe 11 0x81)

/-- From R332, R333, R335 to R337, R339. A level that has held for the filter time becomes the channel's value with its stamp in whole
microseconds and one edge more, but not on a channel that is BAD, which only shows its raw level; a sensor break and an over-voltage make
a channel BAD and are reported once; when nothing makes it BAD any more its level is taken without an edge. Other channels stay. -/
def Obligations.InputsFollowTheirFilteredLevel : Prop :=
  ∀ (s : State) (ch : Fin 18), let d := s.di ch
    (∀ level began, Gives (.edge ch level began) s fun t => t = { s with safe := { s.safe with di := t.safe.di } } ∧
      (∀ k : Fin 18, k ≠ ch → t.di k = s.di k) ∧ (t.di ch).raw = level ∧
        (diBad s ch = false → d.accepted ≠ level → (t.di ch).accepted = level ∧ (t.di ch).stamp = began / 1000 * 1000 ∧
          (t.di ch).edges = (d.edges + 1) % 256) ∧
        (diBad s ch = true ∨ d.accepted = level → (t.di ch).accepted = d.accepted ∧ (t.di ch).edges = d.edges)) ∧
    (breakEn s ch = true → d.brk = false → Gives (.diBreak ch) s fun t =>
      t = { s with safe := { s.safe with di := t.safe.di }, ucbs := t.ucbs } ∧ t.di ch = { d with brk := true } ∧ diBad t ch = true ∧
        Reports s t .safe 0x10 (baseOf .safe + 0x204 + 0x10 * ch)) ∧
    (diRange s ch ≠ 2 → d.overvolt = false → Gives (.diOvervolt ch true) s fun t =>
      t = { s with safe := { s.safe with di := t.safe.di }, ucbs := t.ucbs } ∧ t.di ch = { d with overvolt := true } ∧ diBad t ch = true ∧
        Reports s t .safe 0x11 (baseOf .safe + 0x204 + 0x10 * ch)) ∧
    (∀ e ∈ [(Instr.diOvervolt ch false, { d with overvolt := false }), (.rangeSettled ch, { d with settling := false }),
        (.breakCleared ch, { d with brk := false })],
      Gives e.1 s fun t => t = { s with safe := { s.safe with di := t.safe.di } } ∧
        t.di ch = (if e.2.brk || e.2.overvolt || e.2.settling || !safeRun s then e.2 else { e.2 with accepted := d.raw }))

/-- From R329, R342 to R344. A trip switches an energised output off, latches it and reports OVERLOAD or OVERTEMP; an output found without
a load or fed from outside reports OPEN or FEED once; a field supply outside its limits is reported. The conditions clear with their end
and report nothing. Other outputs stay. -/
def Obligations.OutputsAndSuppliesReportTheirFaults : Prop :=
  ∀ (s : State) (m : Fin 8), let d := s.dout m
    let stat := baseOf .safe + 0x404 + 0x10 * m
    (d.drv = true →
      (Gives (.doOverload m) s fun t => t = { s with safe := { s.safe with douts := t.safe.douts }, ucbs := t.ucbs } ∧
        (t.dout m).latched = true ∧ (t.dout m).drv = false ∧ (t.dout m).overload = true ∧ (t.dout m).hot = d.hot ∧
          (∀ k : Fin 8, k ≠ m → t.dout k = s.dout k) ∧ Reports s t .safe 0x12 stat) ∧
      (Gives (.doOvertemp m) s fun t => t = { s with safe := { s.safe with douts := t.safe.douts }, ucbs := t.ucbs } ∧
        (t.dout m).latched = true ∧ (t.dout m).drv = false ∧ (t.dout m).overtemp = true ∧ (t.dout m).hot = true ∧
          (∀ k : Fin 8, k ≠ m → t.dout k = s.dout k) ∧ Reports s t .safe 0x13 stat)) ∧
    (bitAt (s.reg .safe (0x400 + 0x10 * m)) 0 = true → d.drv = false → s.safe.openA = false → s.safe.pulse = none → d.isOpen = false →
      Gives (.doOpen m) s fun t => t = { s with safe := { s.safe with douts := t.safe.douts }, ucbs := t.ucbs } ∧
        t.dout m = { d with isOpen := true } ∧ Reports s t .safe 0x14 stat) ∧
    (scheduled s (.dout m) = false → d.cmd = false → s.safe.openA = false → d.feed = false → Gives (.doFeed m) s fun t =>
      t = { s with safe := { s.safe with douts := t.safe.douts }, ucbs := t.ucbs } ∧ t.dout m = { d with feed := true, rb := true } ∧
        Reports s t .safe 0x15 stat) ∧
    (∀ e ∈ [(Instr.junctionCooled m, { d with hot := false }), (.openLoadCleared m, { d with isOpen := false })],
      Gives e.1 s fun t => t = { s with safe := { s.safe with douts := t.safe.douts } } ∧ t.dout m = e.2 ∧
        (∀ k : Fin 8, k ≠ m → t.dout k = s.dout k)) ∧
    (∀ brakes : Bool,
      (Gives (.supplyLow brakes) s fun t => t = { s with safe := t.safe, ucbs := t.ucbs } ∧
        (if brakes then t.safe.lpbLow else t.safe.lpaLow) = true ∧ Reports s t .safe 0x16 (baseOf .safe + 0x510)) ∧
      (Gives (.supplyHigh brakes) s fun t => t = { s with safe := t.safe, ucbs := t.ucbs } ∧
        (if brakes then t.safe.lpbHigh else t.safe.lpaHigh) = true ∧ Reports s t .safe 0x17 (baseOf .safe + 0x510)) ∧
      (Gives (.fieldSupplyRecovered brakes) s fun t => t = { s with safe := t.safe } ∧
        (if brakes then t.safe.lpbLow || t.safe.lpbHigh else t.safe.lpaLow || t.safe.lpaHigh) = false))

/-- From R378 to R381, R393, R432. A link that comes up shows its speed and its port starts to return; one that goes down discards its
queue, is lost to placement and reports LINK_DOWN on a port with a role. A Sync of the port's domain hands a measurement, with the path
delay, to the time base that the port steers; a delay exchange measures that path; a port chosen as best master clock is PTP master, and a
base without sources enters MASTER. A service session on SVC counts while it is open. -/
def Obligations.EthernetLinksCarryTime : Prop :=
  ∀ (s : State) (x : Fin 4), let e := s.eth x
    (∀ speed : BitVec 2, s.clk.linkStop = false → (s.ucb (.eth x)).state ≠ .off → speed ≠ 1 → Gives (.ethLinkChange x true speed) s fun t =>
      t = { s with net := { s.net with eth := t.net.eth }, place := t.place } ∧ (t.eth x).link = true ∧ (t.eth x).speed = speed.toNat ∧
        (∀ y, y ≠ x → t.eth y = s.eth y) ∧
        (Resource.port (.eth x) ∈ s.place.lost → ∃ k, (Resource.port (.eth x), k) ∈ t.place.returning)) ∧
    (∀ speed : BitVec 2, e.link = true → s.clk.failed.testBit 2 = false → Gives (.ethLinkChange x false speed) s fun t => (t.eth x).link = false ∧ (t.eth x).txq = [] ∧
      (∀ y, y ≠ x → t.eth y = s.eth y) ∧ Resource.port (.eth x) ∈ t.place.lost ∧
        (ethRole s x ≠ 0 → Reports s t (.eth x) 1 (baseOf (.eth x)))) ∧
    (ethSilent s x = false → ptpOn s x = true →
      (∀ (offset : Int) (domain : BitVec 8) (now : Nat), domain.toNat = s.regField (.eth x) 0x104 31 24 →
        Gives (.sync x offset domain now) s fun t => t = { s with net := { s.net with eth := t.net.eth }, time := t.time } ∧
          t.time = { s.timeAt now with handed := s.time.handed ++
            [{ tb := if ethRole s x = 2 then 1 else 0, src := x.val, offset := offset + pathDelay s x, disc := false, at_ := now }] } ∧
          t.eth x = { e with lastSync := now, ptp := if (s.tb (if ethRole s x = 2 then 1 else 0)).stepped then 3 else 2 }) ∧
      (∀ ns : W32, s.pair.role ≠ .standby → exec (.pathDelayMeasurement x ns) s
        = .next (s.setEth x { e with path := ns.toNat, measured := some ns.toNat })) ∧
      (bitAt (s.reg (.eth x) 0x104) 1 = true → s.pair.role ≠ .standby → Gives (.bestMasterClock x true) s fun t =>
        t.net = (s.setEth x { e with ptp := 4 }).net ∧
          (let i := if ethRole s x = 2 then 1 else 0
           eligible s i x = true → (s.tb i).current = [] → (t.tb i).state = .master))) ∧
    (∀ peer : W32, s.pwr.inReset = false → Gives (.svcSession true peer) s fun t =>
      t = { s with net := t.net, evr := t.evr } ∧ t.net = { s.net with svcSessions := s.net.svcSessions + 1, svcLink := true })

/-- From R382 to R388. A telegram that passes every test of R385 enters its slot, with its sequence counter, and counts in ACCEPTED; a
telegram for no slot, of another source or length, with a wrong topology counter or an old sequence counter is counted as rejected and the
slot stays; a frame whose own FCS fails counts in FCS alone. An inauguration with a new topology counter on a port in the ETB role waits
for the next boundary. -/
def Obligations.TelegramsAreTestedBeforeTheirSlot : Prop :=
  ∀ (s : State) (x : Fin 4) (m : Telegram), let e := s.eth x
    let found := (telegramsOn s x).find? fun d => !d.2.2.1.publish && decide (d.2.2.2 = m.slot)
    (ethSilent s x = false → m.frameOk = false →
      exec (.telegramReceived x m) s = .next (s.setEth x { e with fcs := min 255 (e.fcs + 1) })) ∧
    (ethSilent s x = false → m.frameOk = true →
      (found = none → exec (.telegramReceived x m) s = .next (s.setEth x { e with rejected := min 255 (e.rejected + 1) })) ∧
      (∀ key p d k, found = some (key, p, d, k) →
        ((m.fcsOk = false ∨ m.comId ≠ d.comId ∨ m.src ≠ d.ip ∨ m.data.length ≠ d.len ∨ (m.etb ≠ 0 ∧ m.etb ≠ s.net.etbTopo) ∨
            (m.optrn ≠ 0 ∧ m.optrn ≠ s.net.opTrnTopo) ∨
            (∃ l, mapGet? key s.net.slots = some l ∧ m.seq ≤ l.seq ∧ s.tick.n < l.tick + 3 * d.cycle)) →
          exec (.telegramReceived x m) s = .next (s.setEth x { e with rejected := min 255 (e.rejected + 1) })) ∧
        (m.fcsOk = true → m.comId = d.comId → m.src = d.ip → m.data.length = d.len → m.etb = 0 ∨ m.etb = s.net.etbTopo →
          m.optrn = 0 ∨ m.optrn = s.net.opTrnTopo → (∀ l, mapGet? key s.net.slots = some l → l.seq < m.seq) →
          Gives (.telegramReceived x m) s fun t => t = { s with net := t.net } ∧ (t.eth x).accepted = (e.accepted + 1) % 65536 ∧
            (∃ l, mapGet? key t.net.slots = some l ∧ l.seq = m.seq ∧ l.tick = s.tick.n ∧ l.data = m.data ∧ l.at_ = s.tb3) ∧
            (∀ j, j ≠ key → mapGet? j t.net.slots = mapGet? j s.net.slots)))) ∧
    (∀ i : Inauguration, ethRole s x = 1 → ethSilent s x = false → s.net.inaugDue = none → i.etb ≠ s.net.etbTopo →
      exec (.inauguration i) s = .next { s with net := { s.net with inaugDue := some i } })

/-- From R389 to R392. A port in RUN with a poll to come starts its exchange; a checked response of the polled device enters the staging
of its object and the list goes on; a missing or bad one is counted and the poll repeated while attempts are left. Another port stays. -/
def Obligations.SerialPollsRunInTurn : Prop :=
  ∀ (s : State) (x : Fin 4) (q : PollItem) (qs : List PollItem), let p := s.ser x
    serRun s x = true → programHeld s = false → p.polls = q :: qs →
    (p.active = true → p.running = false → (s.ucb (.ser x)).draining = false → exec (.poll x) s = .next (s.setSer x { p with running := true })) ∧
    (∀ (r : SerialReply) (k : Nat), p.running = true → r.ok = true → (msgDecl s q.object).map (·.address) = some r.address →
      answerOf s q.object = some k → qs ≠ [] → Gives (.serialResponse x r) s fun t => t = { s with net := { s.net with ser := t.net.ser } } ∧
        (∀ y, y ≠ x → t.ser y = s.ser y) ∧ (t.ser x).running = false ∧ (t.ser x).polls = qs ∧ (t.ser x).okCount = (p.okCount + 1) % 65536 ∧
        (mapGetD (t.ser x).rx k []).getLast? = some (s.tb3, r.data)) ∧
    (p.running = true →
      (0 < q.retries → Gives (.respTimeout x) s fun t => t = { s with net := { s.net with ser := t.net.ser } } ∧
        t.ser x = { p with timeouts := min 255 (p.timeouts + 1), running := false, polls := { q with retries := q.retries - 1 } :: qs }) ∧
      (q.retries = 0 → qs ≠ [] → Gives (.respTimeout x) s fun t =>
        t.ser x = { p with timeouts := min 255 (p.timeouts + 1), running := false, polls := qs }) ∧
      (∀ r : SerialReply, r.ok = false → 0 < q.retries → Gives (.serialResponse x r) s fun t =>
        t.ser x = { p with errors := min 255 (p.errors + 1), running := false, polls := { q with retries := q.retries - 1 } :: qs }))

/-- From R398, R400, R402, R407, R408. The oldest measurement handed over reaches its base: an ineligible source's changes nothing else,
one that is not valid is reported, the first makes the base ACQUIRING, the next steps it to the source's time with a new epoch and makes
it TRACKING, and a later one only changes its rate, within SLEW. TIM0 gives the distance to the nearest second. Without a current source a
base that was followed is in HOLDOVER and SRC_LOST is reported; HOLD_EXPIRED is said once. -/
def Obligations.TimeBasesFollowTheirSource : Prop :=
  ∀ s : State,
    (∀ (h : Handed) (hs : List Handed), s.time.handed = h :: hs → h.tb ≤ 2 → h.src < 6 → let b := s.tb h.tb
      (eligible s h.tb h.src = false → exec .measurement s = .next { s with time := { s.timeAt h.at_ with handed := hs } }) ∧
      (eligible s h.tb h.src = true →
        Gives .measurement s fun t =>
          t = { s with time := t.time, tick := t.tick, ucbs := t.ucbs, freeCount := t.freeCount } ∧ t.time.handed = hs ∧
          (h.disc = true → (t.tb h.tb).state = b.state ∧ (t.tb h.tb).epoch = b.epoch ∧
            Reports s t .time 3 (baseOf .time + 0x204 + 0x20 * h.tb)) ∧
          (h.disc = false → b.setReq = none → h.offset.natAbs ≤ 1000000000 →
            (b.state = .none → b.source = none → (t.tb h.tb).state = .acquiring ∧ (t.tb h.tb).source = some h.src ∧
              (t.tb h.tb).epoch = b.epoch) ∧
            (b.state = .acquiring → b.source = some h.src → b.anchor ≤ h.at_ → (t.tb h.tb).state = .tracking ∧
              (t.tb h.tb).stepped = true ∧ (t.tb h.tb).epoch = (b.epoch + 1) % 2 ^ 32 ∧
              (t.tb h.tb).ns h.at_ = ((b.ns h.at_ : Int) + h.offset).toNat) ∧
            (b.state = .tracking ∨ b.state = .locked → b.source = some h.src → (t.tb h.tb).epoch = b.epoch ∧
              -(slew s h.tb) ≤ (t.tb h.tb).r ∧ (t.tb h.tb).r ≤ slew s h.tb ∧
              ((t.tb h.tb).state = .tracking ∨ (t.tb h.tb).state = .locked))))) ∧
    (∀ now, let v := s.time.tb0.ns now % 1000000000
      v ≠ 500000000 → exec (.tim0Edge now) s = .next { s with time := { s.timeAt now with handed := s.time.handed ++
        [{ tb := 0, src := 4, offset := if v < 500000000 then -(v : Int) else 1000000000 - v, disc := false, at_ := now }] } }) ∧
    (∀ (i : Fin 3) (src : Nat), (s.tb i).current = [src] → tbMastered s i = false →
      (s.tb i).state = .locked ∨ (s.tb i).state = .tracking → Gives (.srcLost i src) s fun t =>
        (t.tb i).state = .holdover ∧ (t.tb i).source = none ∧ (t.tb i).current = [] ∧ (t.tb i).epoch = (s.tb i).epoch ∧
          Reports s t .time 1 (baseOf .time + 0x204 + 0x20 * i)) ∧
    (∀ i : Fin 3, holdOver s i s.tb3 = true → (s.tb i).holdSaid = false → Gives (.holdExpired i) s fun t =>
      t = { s with time := t.time, ucbs := t.ucbs } ∧ t.tb i = { s.tb i with holdSaid := true } ∧
        Reports s t .time 4 (baseOf .time + 0x204 + 0x20 * i))

/-- From R405, R409, R410, R412. SET keeps its request, the value registers' time or the source, until the base steps, and runs until
then; no base moves; a generator that has reached its instant raises its signal for its width, counts the pulse and takes the next
instant; a capture channel that watches the edge keeps its stamp in the chosen base, of which eight are held. -/
def Obligations.SetsPulsesAndCaptures : Prop :=
  ∀ s : State,
    (∀ (w : Writer) (arg : BitVec 24), Legal s w .time 0x80 arg.toNat → Gives (.timeSet w arg) s fun t =>
      t = { s with time := t.time, ucbs := t.ucbs } ∧ Busy s t .time w 0x80 arg.toNat ∧
        (t.tb (arg.toNat % 8)).setReq = some (if arg.toNat / 8 % 2 = 1 then .source
          else .value ((s.reg .time 0x120).toNat + (s.reg .time 0x124).toNat * 2 ^ 32) (s.reg .time 0x128).toNat) ∧
        (∀ i ∈ [0, 1, 2, 4], i ≠ arg.toNat % 8 → t.tb i = s.tb i) ∧ (∀ i now, (t.tb i).ns now = (s.tb i).ns now)) ∧
    (∀ (k : Fin 2) (now n : Nat), (s.pg k).next = some n → pgTb s k ≠ 3 → n ≤ (s.tb (pgTb s k)).ns now →
      Gives (.pulseInstant k now) s fun t => t = { s with time := t.time } ∧ t.pg k = { s.pg k with
        next := if pgPeriodic s k then some (n + pgPeriod s k) else none, highUntil := now + pgWidth s k,
        pulses := ((s.pg k).pulses + 1) % 32768 }) ∧
    (∀ (k : Fin 4) (src : Fin 3) (rising : Bool) (now : Nat), let cfg := s.reg .time (0x400 + 0x10 * k.val)
      bitAt cfg 31 = true → field cfg 9 8 = src.val → bitAt cfg (if rising then 4 else 5) = true → field cfg 2 0 ≠ 3 →
      let b := s.tb (field cfg 2 0)
      ∃ st : Stamp, st.sec = b.ns now / 1000000000 ∧ st.ns = b.ns now % 1000000000 ∧ st.epoch = b.epoch ∧
        Gives (.captureEdge k src rising now) s fun t => t = { s with time := t.time, ucbs := t.ucbs } ∧
          (t.cap k).events = ((s.cap k).events + 1) % 65536 ∧
          ((s.cap k).stamps.length < 8 → (t.cap k).stamps = (s.cap k).stamps ++ [st] ∧ t.ucbs = s.ucbs) ∧
          (8 ≤ (s.cap k).stamps.length → (t.cap k).stamps = (s.cap k).stamps.drop 1 ++ [st] ∧
            Reports s t .time 6 (baseOf .time + 0x404 + 0x10 * k.val)))

/-- From R447 to R449, R452 to R454. A monitor that is armed marks its clock failed: FRC, SRC and the crystals report it; the TCXO in use
and a PLL in use switch their domain to FRC at once, with the clock event and the safe state, and reset the module when FRC has failed
before. A preferred recovered reference that qualifies becomes the reference of the running change or makes the return due, but not once
its witness, the TCXO, has failed; a due change that finds its tokens free starts; it ends OK on the new reference, or TIMEOUT on the old
one with REF_UNQUAL. -/
def Obligations.ClocksFailOverAndChange : Prop :=
  ∀ s : State,
    (monitorArmed s .frc = true → s.clk.failed.testBit 0 = false → Gives (.clkFail (.marked .frc)) s fun t =>
      t = { s with clk := t.clk, ucbs := t.ucbs } ∧ t.clk.failed.testBit 0 = true ∧ Reports s t .clk 2 (baseOf .clk + 0x110)) ∧
    (∀ c b, (c, b) ∈ [(ClockId.src, 1), (.xo32k, 3)] → monitorArmed s c = true → Gives (.clkFail (.marked c)) s fun t =>
      t = { s with clk := t.clk, ucbs := t.ucbs } ∧ t.clk.failed.testBit b = true ∧ Reports s t .clk 3 (baseOf .clk + 0x110)) ∧
    (s.clk.failed.testBit 2 = true → exec .referenceQualified s = .next s) ∧
    (∀ c, (c = .tcxo ∧ s.clk.refInUse = 0 ∧ s.clk.failed.testBit 2 = false) ∨ (c = .corePll ∧ s.clk.coreFrc = false) ∨
        (c = .systemPll ∧ s.clk.sysFrc = false) → monitorArmed s c = true →
      (s.clk.failed.testBit 0 = false → Gives (.clkFail (.marked c)) s fun t => t.safe.safe = true ∧ t.braked = true ∧
        (c ≠ .systemPll → t.clk.coreFrc = true) ∧ (c ≠ .corePll → t.clk.sysFrc = true) ∧
          (c = .tcxo → t.clk.refInUse = 8 ∧ t.clk.failed.testBit 2 = true)) ∧
      (s.clk.failed.testBit 0 = true → s.pwr.inReset = false → Gives (.clkFail (.marked c)) s fun t => t.pwr.inReset = true)) ∧
    (clkPreferred s ≠ 0 →
      (∀ c, s.clk.change = some c → c.target = clkPreferred s → s.clk.failed.testBit 2 = false → Gives .referenceQualified s fun t =>
        t = { s with clk := t.clk } ∧ t.clk.change = some { c with slewing := true } ∧ t.clk.qualified = true ∧
          t.clk.refInUse = c.target) ∧
      (s.clk.change = none → s.clk.fallenBack = true → clkAutoReturn s = true → s.clk.due = none → s.clk.failed.testBit 2 = false → Gives .referenceQualified s fun t =>
        t = { s with clk := t.clk } ∧ t.clk.due = some { target := clkPreferred s, slewing := false, back := true })) ∧
    (∀ c, s.clk.due = some c → s.clk.change = none → tokensFree s .clockChange = true → Gives .clockSourceChange s fun t =>
      t = { s with clk := t.clk, ucbs := t.ucbs } ∧ t.clk.due = none ∧ t.clk.swres.valid = false ∧
        (∃ c', t.clk.change = some c' ∧ c'.target = c.target) ∧ (∀ u ∈ [UnitId.clk, .time, .tick], (t.ucb u).token = some (.clockChange, 0x50))) ∧
    (∀ c, s.clk.change = some c →
      (c.slewing = false → Gives .refUnqual s fun t => t = { s with clk := t.clk, ucbs := t.ucbs } ∧ t.clk.change = none ∧
        t.clk.refInUse = s.clk.refInUse ∧ t.clk.swres.valid = true ∧ t.clk.swres.value = 8 * 2 ^ 24 + s.clk.refInUse ∧
          Reports s t .clk 5 (baseOf .clk + 0x110)) ∧
      (c.slewing = true → Gives .slewComplete s fun t => t = { s with clk := t.clk, ucbs := t.ucbs } ∧ t.clk.change = none ∧
        t.clk.refInUse = c.target ∧ t.clk.fallenBack = false ∧ t.clk.swres.valid = true ∧ t.clk.swres.value = c.target))

/-- From R451. When FRC and TCXO disagree, the one that also disagrees with SRC is marked failed; when SRC disagrees with both of them,
SRC is. A single disagreement, or none, fails no clock, and the marks of the other clocks stay. A reference that fails with FRC failed
before resets the module. -/
def Obligations.ClocksJudgeOneAnotherTwoOutOfThree : Prop :=
  ∀ (s : State) (frcTcxo frcSrc tcxoSrc : Bool), s.pwr.inReset = false →
    let fails (c : ClockId) (bit : Nat) : Prop := monitorArmed s c = true →
      Gives (.clkFail (.compared frcTcxo frcSrc tcxoSrc)) s fun t =>
        (c = .tcxo ∧ s.clk.refInUse = 0 ∧ s.clk.failed.testBit 0 = true ∧ t.pwr.inReset = true) ∨
          (t.clk.failed.testBit bit = true ∧ ∀ n, n ≠ bit → t.clk.failed.testBit n = s.clk.failed.testBit n)
    (frcTcxo = true → frcSrc = true → tcxoSrc = false → fails .frc 0) ∧
    (frcTcxo = true → tcxoSrc = true → frcSrc = false → fails .tcxo 2) ∧
    (frcSrc = true → tcxoSrc = true → frcTcxo = false → fails .src 1) ∧
    ((frcTcxo = false ∧ frcSrc = false) ∨ (frcTcxo = false ∧ tcxoSrc = false) ∨ (frcSrc = false ∧ tcxoSrc = false) →
      exec (.clkFail (.compared frcTcxo frcSrc tcxoSrc)) s = .next s)

/-- From R462, R464, R466 to R468. A write turn moves the oldest queued record to its slot of the store, and only with an empty queue a
due rewrite; a bucket gains one token up to BURST. A record that needs a token is suppressed and counted without one, and takes the next
number with one. -/
def Obligations.RecorderWritesInOrder : Prop :=
  ∀ s : State,
    (∀ r q, s.evr.scanned = true → s.evr.queue = r :: q → Gives .recordWrite s fun t => t = { s with evr := t.evr } ∧ t.evr.queue = q ∧
      mapGet? (r.seq % 65536) t.evr.store = some r.words ∧ (∀ k, k ≠ r.seq % 65536 → mapGet? k t.evr.store = mapGet? k s.evr.store) ∧
        t.evr.rewrites = s.evr.rewrites ∧ t.evr.next = s.evr.next) ∧
    (∀ seq k rest, s.evr.scanned = true → s.evr.queue = [] → s.evr.rewrites = (seq, k) :: rest → Gives .recordWrite s fun t =>
      t = { s with evr := t.evr } ∧ t.evr.rewrites = rest ∧ (∀ j, j ≠ seq % 65536 → mapGet? j t.evr.store = mapGet? j s.evr.store)) ∧
    (∀ code : W16, (s.ucb .evr).state = .run → Gives (.tokenRefill code) s fun t => t = { s with evr := t.evr } ∧
      (bucketOf t code.toNat).tokens = min (burstOf s code.toNat) ((bucketOf s code.toNat).tokens + 1) ∧
        (bucketOf t code.toNat).suppressed = (bucketOf s code.toNat).suppressed ∧ t.evr.queue = s.evr.queue) ∧
    (∀ code u d, privileged code = false → s.evr.queue.length < 96 →
      ((bucketOf s code).tokens = 0 → (offer s code u d).evr.queue = s.evr.queue ∧
        (bucketOf (offer s code u d) code).suppressed = min 0xFFFF ((bucketOf s code).suppressed + 1)) ∧
      ((bucketOf s code).tokens ≠ 0 → ∃ r : EvrRecord, (offer s code u d).evr.queue = s.evr.queue ++ [r] ∧ r.code = code ∧
        r.source = handleOf u ∧ r.data = data12 d ∧ r.tb3 = s.tb3 ∧ r.lost = (bucketOf s code).suppressed ∧
        (s.evr.scanned = true → r.seq = s.evr.next ∧ (offer s code u d).evr.next = s.evr.next + 1)))

/-- From R478, R480 to R483. A challenge opens in FIELD; a response that verifies against it opens FIELD-SERVICE, clears FAILS and is
recorded, one that does not counts, and the third locks out until LOCKOUT_EXPIRY; an unlock token of the integrator leads to INTEGRATION
at the next reset and costs a relock; the first intrusive access of a session brings the safe state. -/
def Obligations.ServiceAccessNeedsItsProof : Prop :=
  ∀ s : State, s.pwr.inReset = false →
    (∀ nonce, lifeCycle s = .field → lockoutRuns s = false → exec (.challenge false nonce) s = .next { s with lcs :=
      { s.lcs with challenge := some { nonce := nonce, issued := s.tb3, purpose := .service } } }) ∧
    (∀ (d : SignedDoc) (now : Nat), lifeCycle s = .field → now ≤ s.time.now → responseRefused s = false →
      (responseOk s d = true → Gives (.challengeResponse d now) s fun t => t = { s with lcs := t.lcs, evr := t.evr, ucbs := t.ucbs } ∧
        lifeCycle t = .fieldService ∧ t.lcs.challenge = none ∧ t.lcs.fails = 0 ∧ t.lcs.service = some (decide (d.purpose = 1))) ∧
      (responseOk s d = false → Gives (.challengeResponse d now) s fun t => lifeCycle t = .field ∧ t.lcs.challenge = none ∧
        t.lcs.fails = min 3 (s.lcs.fails + 1) ∧ (∃ a, Reports s t .lcs 1 a) ∧
          (2 ≤ s.lcs.fails → lockoutRuns t = true) ∧ (s.lcs.fails < 2 → t.lcs.lockoutEnd = s.lcs.lockoutEnd))) ∧
    (s.lcs.lockoutEnd ≠ 0 → Gives .lockoutExpiry s fun t => t = { s with lcs := { s.lcs with lockoutEnd := 0 }, time := s.timeAt s.lcs.lockoutEnd } ∧
      lockoutRuns t = false ∧ t.lcs.fails = s.lcs.fails) ∧
    (∀ d : SignedDoc, lifeCycle s = .field →
      (docOk d s.lcs.ikey = true → s.lcs.relocks ≠ 0 → s.lcs.nextState = none → exec (.unlockToken d) s = .next { s with lcs :=
        { s.lcs with nextState := some .integration, relocks := s.lcs.relocks - 1 } }) ∧
      (docOk d s.lcs.ikey = false → Gives (.unlockToken d) s fun t => t = { s with ucbs := t.ucbs, freeCount := t.freeCount } ∧
        ∃ a, Reports s t .lcs 1 a)) ∧
    (intrusiveOpen s = true → s.lcs.intrusive = false → Gives .debugIntrusive s fun t => t.safe.safe = true ∧ t.braked = true ∧
      t.lcs.intrusive = true ∧ t.lcs.sessions = min 255 (s.lcs.sessions + 1) ∧ ∃ a, Reports s t .lcs 2 a)

/-- From R483, R484, Sequence LCS-1. A request to enter RETURN with the vendor's token and the consent begins the erasure: keys, images,
program data and every memory are gone; without them nothing is erased and the failure is reported. An erasure that checks sets RETURN and
resets the module; one that does not stops the start. -/
def Obligations.ReturnErasesTheModule : Prop :=
  ∀ s : State, s.pwr.inReset = false →
    (∀ (consent : Option SignedDoc) (vendor : SignedDoc) (now : Nat), now ≤ s.time.now → lifeCycle s ≠ .manufacture → lifeCycle s ≠ .returned →
      s.lcs.pending = false → (s.ucb .lcs).token = none → s.pwr.hold = true →
      (vendorOk s vendor = true → consentOk s consent = true → Gives (.returnRequest consent vendor now) s fun t =>
        t.lcs.pending = true ∧ t.lcs.ikey = none ∧ t.lcs.fkey = none ∧ t.upd.a = {} ∧ t.upd.b = {} ∧ t.bulk = [] ∧ t.laneA.mem = [] ∧
          t.laneB.mem = [] ∧ t.laneC.mem = [] ∧ t.prog.retA = {} ∧ t.prog.retB = {} ∧ t.regs = s.regs ∧ t.ucbs = s.ucbs ∧ t.safe = s.safe) ∧
      (vendorOk s vendor = false ∨ consentOk s consent = false → Gives (.returnRequest consent vendor now) s fun t =>
        t = { s with ucbs := t.ucbs, freeCount := t.freeCount } ∧ ∃ a, Reports s t .lcs 1 a)) ∧
    (s.lcs.erasing = true →
      (Gives (.erasureComplete true) s fun t => t.pwr.inReset = true ∧ t.lcs.stored = .returned ∧ lifeCycle t = .returned) ∧
      (Gives (.erasureComplete false) s fun t => t.pwr.failed = 5 ∧ t.lcs.stored = s.lcs.stored ∧ t.pwr.inReset = false ∧
        ∃ a, Reports s t .lcs 4 a))

/-- From R490, R491, R493, R497. A package that passes the checks of delivery becomes the current package, one that fails the first of
them is discarded with that reason and PKG_REJECT; an APPLY that ends writes the image into the inactive slot, which is then prepared, and
never touches the active one; a trial that expires brings the safe state and a fallback 10 ms later. -/
def Obligations.UpdatesNeverTouchTheActiveSlot : Prop :=
  ∀ s : State, s.pwr.inReset = false →
    (∀ p : Package, lifeCycle s ≠ .returned → s.lcs.pending = false →
      (packageReason s p = 0 → runsNoProgram s = false → exec (.package p) s = .next { s with upd := { s.upd with pkg := some p } }) ∧
      (packageReason s p ≠ 0 → Gives (.package p) s fun t =>
        t = { s with upd := { s.upd with reason := packageReason s p }, ucbs := t.ucbs } ∧ Reports s t .lcs 0x20 (packageReason s p)) ∧
      (p.headerOk = false → packageReason s p = 0x0C)) ∧
    (∀ (p : Package) (r : Running), s.upd.pkg = some p → (s.ucb .lcs).running = some r → r.code = 0x90 → r.arg = 0 →
      (applyReason s p = 0 → Gives (.commandComplete .lcs .ok 0) s fun t => t.upd.prepared = true ∧ t.upd.applying = false ∧
        activeSlot t.upd = activeSlot s.upd ∧ (inactiveSlot t.upd).valid = true ∧ Ended s t .lcs 0x90 .ok (p.version % 65536)) ∧
      (applyReason s p ≠ 0 → Gives (.commandComplete .lcs .ok 0) s fun t => t.upd.prepared = false ∧ activeSlot t.upd = activeSlot s.upd ∧
        t.upd.reason = applyReason s p ∧ Ended s t .lcs 0x90 .faulted 0)) ∧
    (s.upd.trial = true → s.upd.fallbackAt = none → Gives .trialExpired s fun t => t.safe.safe = true ∧ t.braked = true ∧
      t.upd.fallbackAt = some (s.tb3 + 10000000) ∧ t.upd.trialLeft = 0 ∧ ∃ a, Reports s t .lcs 0x23 a)

/-- From R511, R512, R517, Tables PWR-9 and PWR-10. The loss of the input sets PF, counts and reports it, its return clears PF before
shutdown; straps that differ from those sampled are shown and reported once; a board above 95 °C is reported, one above 105 °C brings the
safe state. -/
def Obligations.SupplyStrapsAndTemperature : Prop :=
  ∀ s : State,
    (s.pwr.pf = false → s.pwr.inReset = false → Gives .pfWarn s fun t => t = { s with pwr := t.pwr, ucbs := t.ucbs, evr := t.evr } ∧
      t.pwr = { s.pwr with pf := true, pfCount := min 255 (s.pwr.pfCount + 1) } ∧ Reports s t .pwr 1 (baseOf .pwr + 0x114)) ∧
    (s.pwr.pf = true → s.pwr.shutdown = false → Gives .powerReturn s fun t => t = { s with pwr := { s.pwr with pf := false }, evr := t.evr, ucbs := t.ucbs }) ∧
    (∀ straps : BitVec 13, straps.setWidth 32 ≠ s.pwr.strap → s.pwr.strapChanged = false → s.pwr.inReset = false →
      Gives (.strapChanged straps) s fun t => t = { s with pwr := t.pwr, ucbs := t.ucbs } ∧
        t.pwr = { s.pwr with strapNow := straps.setWidth 32, strapChanged := true } ∧ Reports s t .pwr 2 (baseOf .pwr + 0x10C)) ∧
    (∀ x : Int, 950 < x → Gives (.tempHigh x) s fun t => t = { s with pwr := t.pwr, ucbs := t.ucbs } ∧ t.pwr.temp = x ∧
      t.pwr.tempMax = max x s.pwr.tempMax ∧ Reports s t .pwr 3 (baseOf .pwr + 0x118)) ∧
    (∀ x : Int, 1050 < x → Gives (.tempCrit x) s fun t => t.safe.safe = true ∧ t.braked = true ∧ t.pwr.temp = x ∧
      Reports s t .pwr 4 (baseOf .pwr + 0x118))

/-- From R513 to R515, R518, R520. Every reset cause takes the module into reset, with its code in PWR_CAUSE, every control block and
setting at its reset value, every pin harmless, and the fuses, the recorder store and the retentive generations kept; a pulse of RST_N
below 2 µs is ignored. The watchdog resets from step 9 only, and the automatic restart once its time has passed in the safe state, without
a debug session and at most three times an hour. -/
def Obligations.EveryResetCauseResets : Prop :=
  ∀ (s : State), s.pwr.inReset = false → s.upd.trial = false →
    let isReset (t : State) (code : Nat) : Prop :=
      t.pwr.inReset = true ∧ t.pwr.cause = code ∧ t.pwr.prior = 0 ∧ t.ucbs = [] ∧ t.regs = [] ∧ t.regsPending = [] ∧ t.safe = {} ∧
        t.laneA = {} ∧ t.laneB = {} ∧ t.laneC = {} ∧ t.bulk = [] ∧ t.lcs.stored = s.lcs.stored ∧ t.lcs.relocks = s.lcs.relocks ∧
        t.lcs.ikey = s.lcs.ikey ∧ t.prog.retA = s.prog.retA ∧ t.prog.retB = s.prog.retB ∧ t.upd.slotB = s.upd.slotB ∧
        activeSlot t.upd = activeSlot s.upd ∧ t.pending = s.pending
    (∀ c, c ≠ .fallback → Gives (.resetEntry c) s fun t => isReset t c.code ∧ t.evr.store = s.evr.store) ∧
    (∀ us, 10 ≤ us → Gives (.externalReset us) s fun t => isReset t ResetCause.external.code) ∧
    (∀ us, us < 2 → exec (.externalReset us) s = .next s) ∧
    (Gives .presenceOpen s fun t => isReset t ResetCause.presence.code) ∧
    (Gives .brownout s fun t => isReset t ResetCause.brownout.code) ∧
    (s.pwr.step = 9 → Gives .watchdog s fun t => isReset t ResetCause.watchdog.code) ∧ (s.pwr.step ≠ 9 → exec .watchdog s = .next s) ∧
    (Gives .shutdown s fun t => isReset t ResetCause.powerFail.code ∧ t.lcs.service = none) ∧
    (∀ entered secs, s.pwr.safeSince = some (entered, secs) → secs ≠ 0 → s.lcs.sessions = 0 → pwrAuto s < 3 →
      (entered + secs * 1000000000 ≤ s.tb3 → Gives .safeRestart s fun t => isReset t ResetCause.safeRestart.code ∧
        t.pwr.autoEnds.length = s.pwr.autoEnds.length + 1) ∧
      (s.tb3 < entered + secs * 1000000000 → exec .safeRestart s = .next s))

/-- From R421 to R423, R426 to R429. The data of the held read reach the lane that waits for them, a MEMORY region's block a prefetch
entry; an error response or 20 µs without one give the lane an error, reported as CARD_ERR or READ_TIMEOUT; the near port is open again. A
card's request is served from its link, and RETRY is given while that link is locked; a locked sequence takes the card's links until its
read returns or 2 µs have passed. -/
def Obligations.BridgeCarriesOneReadAtATime : Prop :=
  ∀ s : State,
    (∀ (r : NearReq) (l : Lane) (k : CtxKind) (rd : Nat), s.hlk.heldRead = some r → r.by_ = .program l k → s.hlk.queue = [] →
      (s.lane l).current = some k → ((s.lane l).ctx k).wait = .urd rd r.addr none →
      (∀ d : CardData, d.error = false → (∀ t j n, cardRegion r.addr = some (t, j, n) → isMemory s t j n = false) →
        Gives (.cardReadCompletion d) s fun t => t.hlk = { s.hlk with heldRead := none } ∧ t.ucbs = s.ucbs ∧
          ((t.lane l).ctx k) = { (s.lane l).ctx k with wait := .urd rd r.addr (some (d.word.toNat, true)) } ∧
          (t.lane l).mem = (s.lane l).mem) ∧
      (∀ (d : CardData) t j n, d.error = false → cardRegion r.addr = some (t, j, n) → isMemory s t j n = true → s.hlk.prefetch = [] →
        Gives (.cardReadCompletion d) s fun u => u.hlk.heldRead = none ∧ (∃ e, u.hlk.prefetch = [e] ∧ e.block = r.addr / 64 * 64 ∧
          e.data = d.block ∧ e.slot = t.val) ∧ ((u.lane l).ctx k).wait = .urd rd r.addr (some (d.word.toNat, true))) ∧
      (∀ (d : CardData) t j n, d.error = true → cardRegion r.addr = some (t, j, n) → Gives (.cardReadCompletion d) s fun u =>
        u.hlk = { s.hlk with heldRead := none } ∧ ((u.lane l).ctx k).wait = .urd rd r.addr (some (0, false)) ∧
          Reports s u .voter 0xF4 (baseOf (.card t j))) ∧
      (Gives .readTimeout s fun t => t.hlk = { s.hlk with heldRead := none, readTo := min 255 (s.hlk.readTo + 1) } ∧
        ((t.lane l).ctx k).wait = .urd rd r.addr (some (0, false)) ∧ Reports s t .hlk 6 r.addr)) ∧
    (∀ (slot : Fin 32) (n : Fin 4), hlkUp s n = true → (s.card slot).present = true → (s.ucb .hlk).state = .run →
      (s.ucb .hlk).draining = false → outstanding s.hlk < 256 →
      ((s.link n).locked = false → (∀ d, Gives (.cardRequest slot n (.image d)) s fun t =>
          t = { s with hlk := { s.hlk with cards := t.hlk.cards } } ∧ (t.card slot).image = d ∧ (t.card slot).imageNew = true ∧
            (t.card slot).imageAt = s.tb3 ∧ (t.card slot).mailbox = (s.card slot).mailbox ∧ (∀ k : Fin 32, k ≠ slot → t.card k = s.card k)) ∧
        (∀ off, heldOn s n = false → exec (.cardRequest slot n (.mailboxRead off)) s = .next s) ∧
        (∀ d off, off + d.length ≤ 65536 → off < 65536 → Gives (.cardRequest slot n (.mailboxWrite off d)) s fun t =>
          t = { s with hlk := { s.hlk with cards := t.hlk.cards } } ∧ Memory.readBytes (t.card slot).mailbox off d.length = d)) ∧
      ((s.link n).locked = true → ∀ r, exec (.cardRequest slot n r) s
        = .next { s with hlk := { s.hlk with retry := (s.hlk.retry + 1) % 65536 } })) ∧
    (∀ slot : Fin 32,
      (cardReachable s slot = true → s.hlk.lockedSlot = none → s.hlk.heldRead = none → outstanding s.hlk < 256 →
        Gives (.lockedSequence slot) s fun t => t = { s with hlk := t.hlk } ∧ t.hlk.lockedSlot = some slot.val ∧
          t.hlk.heldRead = some { addr := baseOf (.card slot 0), write := none, by_ := .update } ∧
          (∀ n : Fin 4, (t.link n).locked = (decide (n ∈ cardEnds s slot) || (s.link n).locked))) ∧
      (s.hlk.lockedSlot = some slot.val → s.hlk.heldRead = none → Gives .lockTimeout s fun t =>
        t = { s with hlk := t.hlk, ucbs := t.ucbs } ∧ t.hlk.lockedSlot = none ∧ t.hlk.lockTo = min 255 (s.hlk.lockTo + 1) ∧
          (∀ n ∈ cardEnds s slot, (t.link n).locked = false) ∧ Reports s t .hlk 7 (baseOf (.card slot 0))))

/-- From R45, R418, R420, R430 to R435, R438. A status packet sets the proxy's state, ends its command or holds its fault; a link that
goes down is lost and reported, one that trains returns; an absent card shows OFF at every proxy, is reported and lost to placement; a
presence line and RESCAN start the reads of records, and a valid record of a new slot makes it a unit. -/
def Obligations.CardsComeAndGo : Prop :=
  ∀ (s : State) (slot : Fin 32),
    (∀ sub : Fin 17, let u := UnitId.card slot sub
      inTree s u = true → cardReachable s slot = true →
      (∀ x, sub ≠ 0 ∨ cardMembers s slot = [] → Gives (.statusPacket slot sub (.state x)) s fun t =>
        t = { s with ucbs := t.ucbs, flt := t.flt } ∧ (t.ucb u).state = x ∧ (x ≠ .run → t.flt = s.flt) ∧
        (x = .run → (s.ucb u).state ≠ .run → t.flt = { s.flt with degradedUnits := s.flt.degradedUnits.filter (· ≠ u) })) ∧
      (∀ r data, (s.ucb u).running = some r → r.writer ≠ .module → Gives (.statusPacket slot sub (.done 0 data)) s fun t => t = { s with ucbs := t.ucbs } ∧
        Ended s t u r.code .ok data) ∧
      (∀ kind level (a : W32), masked s u = false → (s.ucb u).held = none → Gives (.statusPacket slot sub (.fault kind 12 level a)) s fun t =>
        t = { s with ucbs := t.ucbs } ∧ ∃ m, (t.ucb u).held = some m ∧ m.source = handleOf u ∧ m.kind = kind ∧ m.cls = 12 ∧ m.level = level)) ∧
    (∀ n : Fin 4,
      (hlkUp s n = true → Gives (.hlkLinkDown n) s fun t => hlkUp t n = false ∧ Resource.port (.hlk n) ∈ t.place.lost ∧
        Reports s t (.link n) 1 (baseOf (.link n)) ∧ (∀ m, m ≠ n → t.link m = s.link m)) ∧
      (s.clk.linkStop = false → (s.ucb (.link n)).state = .run → Gives (.hollyhockLinkUp n) s fun t =>
        t = { s with hlk := { s.hlk with links := t.hlk.links }, place := t.place } ∧ hlkUp t n = true ∧
          (Resource.port (.hlk n) ∈ s.place.lost → ∃ k, (Resource.port (.hlk n), k) ∈ t.place.returning))) ∧
    ((s.card slot).inUnit = true → (s.card slot).lost = false → s.hlk.prefetch = [] → Gives (.cardAbsent slot) s fun t =>
      t = { s with hlk := { s.hlk with cards := t.hlk.cards }, ucbs := t.ucbs, place := t.place } ∧ (t.card slot).present = false ∧
        (t.card slot).lost = true ∧ (∀ k : Fin 32, k ≠ slot → t.card k = s.card k) ∧ Resource.card slot ∈ t.place.lost ∧
        (∀ sub, inTree s (.card slot sub) = true → (t.ucb (.card slot sub)).state = .off ∧ (t.ucb (.card slot sub)).busy = false) ∧
          Reports s t .hlk 2 (baseOf (.card slot 0))) ∧
    ((s.ucb .hlk).state = .run → (s.card slot).present = false → Gives (.cardPresence slot) s fun t =>
      t = { s with hlk := { s.hlk with cards := t.hlk.cards, rescan := t.hlk.rescan } } ∧ (t.card slot).line = true ∧
        ∃ r, t.hlk.rescan = some r ∧ slot.val ∈ r.slots) ∧
    (∀ w, Legal s w .hlk 0x80 slot.val → Gives (.rescan w (BitVec.ofNat 24 slot.val)) s fun t =>
      t = { s with hlk := { s.hlk with rescan := t.hlk.rescan }, ucbs := t.ucbs } ∧ Busy s t .hlk w 0x80 slot.val ∧
        ∃ r, t.hlk.rescan = some r ∧ slot.val ∈ r.slots) ∧
    (∀ (r : RescanRun) (rec : List Byte), s.pwr.step = 9 → s.pwr.failed = 0 → s.pwr.inReset = false → s.hlk.rescan = some r →
      slot.val ∈ r.slots → (s.card slot).inUnit = false →
      (recordOk rec = true → recByte rec 1 = 0 → Gives (.idmReadComplete slot.castSucc rec) s fun t =>
        (t.card slot).inUnit = true ∧ (t.card slot).record = rec ∧ (t.card slot).valid = true ∧
          (∀ r', t.hlk.rescan = some r' → slot.val ∉ r'.slots)) ∧
      (recordOk rec = false → Gives (.idmReadComplete slot.castSucc rec) s fun t => (t.card slot).inUnit = false ∧
        (t.card slot).valid = false ∧ Reports s t .hlk 3 (baseOf (.card slot 0))))

/-- From R23, R242, R256, R434, R442, R461, R472, R516 to R519, Sequence ARC-2. The start goes through its steps: release with valid
straps leads to step 2 with the units of the first tables in RUN or QUIESCED, straps that differ in both samplings leave the module in
reset; the clocks arm their monitors and TIME runs; the scan numbers the recorder and begins the Foxglove test; lanes that pass lead to
the records of step 4, the backplane's and the cards'; the map set leads to step 7, the partner or its absence to the brake test of step
8. A step that fails or overruns its limit stops the start with its number. -/
def Obligations.StartStepsFollowEachOther : Prop :=
  ∀ s : State,
    (∀ (straps x : BitVec 13) (cards : W32), s.pwr.inReset = true →
      Gives (.resetRelease straps straps straps x x x cards) s fun t => t.pwr.inReset = false ∧ t.pwr.step = 2 ∧
        t.pwr.strap = straps.setWidth 32 ∧ t.time.now = 0 ∧ t.pwr.starts = (s.pwr.starts + 1) % 65536 ∧
        (∀ u ∈ [UnitId.flt, .evr, .pwr], (t.ucb u).state = .run) ∧
        (∀ u ∈ [UnitId.tick, .place, .voter, .lane .a, .lane .b, .lane .c, .pair, .hlk, .safe, .clk, .lcs], (t.ucb u).state = .quiesced) ∧
        (∀ u ∈ [UnitId.can 0, .can 5, .eth 0, .ser 0, .time], (t.ucb u).state = .off) ∧ (∀ k : Fin 32, (t.card k).line = bitAt cards k)) ∧
    (∀ (s1 s2 s3 t1 t2 t3 : BitVec 13) (cards : W32) (i : Nat), s.pwr.inReset = true → s1.getLsbD i ≠ s2.getLsbD i → t1.getLsbD i ≠ t2.getLsbD i →
      Gives (.resetRelease s1 s2 s3 t1 t2 t3 cards) s fun t => t = { s with pwr := { s.pwr with cause := t.pwr.cause } }) ∧
    (∀ o, s.pwr.inReset = false → Gives (.oscWaitExpiry o) s fun t => t = { s with clk := t.clk } ∧
      t.clk.oscReady = Nat.lor s.clk.oscReady (2 ^ oscBit o) ∧ t.clk.failed = s.clk.failed) ∧
    (startAt s 2 = true → s.clk.oscReady.testBit 2 = true → s.clk.armed = false → Gives .pllLock s fun t => t.clk.armed = true ∧
      t.clk.linkStop = false ∧ t.clk.sysFrc = false ∧ t.clk.coreFrc = false ∧ (t.ucb .time).state = .run ∧ t.pwr.step = 2) ∧
    (startAt s 2 = true → s.clk.armed = true → s.evr.scanned = false → Gives .recorderScan s fun t => t.pwr.step = 3 ∧ t.evr.scanned = true ∧
      t.voter.foxRun = true ∧ ∀ l, (t.ucb (.lane l)).state = .maint) ∧
    (startAt s 3 = true → s.voter.foxRun = true → s.upd.trial = false →
      (∀ seen, foxFailed seen = none → Gives (.foxgloveTestEnd seen (true, true, true)) s fun t => t.pwr.step = 4 ∧ t.pwr.failed = 0 ∧ t.voter.foxRun = false ∧
        t.voter.fox.valid = true ∧ t.voter.fox.value = 2 ^ 28 + 399 ∧ (∀ l, (t.lane l).bist = true) ∧ t.hlk.rescan.isSome = true) ∧
      (∀ seen k, foxFailed seen = some k → Gives (.foxgloveTestEnd seen (true, true, true)) s fun t => t.pwr.failed = 3 ∧ t.voter.halted = true ∧
        (t.ucb .voter).state = .fault) ∧
      (∀ seen, foxFailed seen = none → Gives (.foxgloveTestEnd seen (true, false, true)) s fun t => t.pwr.failed = 3 ∧ (t.lane .b).bist = false ∧
        (t.ucb (.lane .b)).state = .fault)) ∧
    (∀ (r : RescanRun) (rec : List Byte), startAt s 4 = true → s.hlk.rescan = some r → s.upd.trial = false →
      (backplaneOk s rec = true → r.slots ≠ [] → Gives (.idmReadComplete 32 rec) s fun t =>
        t = { s with hlk := { s.hlk with backplane := rec, bpOk := true } }) ∧
      (backplaneOk s rec = false → Gives (.idmReadComplete 32 rec) s fun t => t.pwr.failed = 4 ∧ Reports s t .hlk 5 (baseOf .hlk))) ∧
    (∀ mismatch us, startAt s 6 = true → s.place.computing = true → s.upd.trial = false →
      let s' := { s with place := { s.place with us, computing := false } }
      ((loadSet s' s.tick.period mismatch).1 = true → bitAt s.pwr.strap 1 = false → Gives (.placementMapComplete mismatch us) s fun t =>
        t.pwr.step = 7 ∧ t.place.computing = false) ∧
      ((loadSet s' s.tick.period mismatch).1 = false → Gives (.placementMapComplete mismatch us) s fun t => t.pwr.failed = 6)) ∧
    (startAt s 7 = true →
      (s.pair.peerUp = false → Gives .beaconWaitTimeout s fun t => t.pwr.step = 8 ∧ ∃ b, t.safe.btest = some b ∧ b.startUp = true ∧ b.phase = 0) ∧
      (∀ p, resyncReady s = true → (s.ucb .pair).running = none → Gives (.partnerResync p) s fun t => t.pwr.step = 8 ∧
        t.pair.sync.valid = true ∧ t.pair.sync.value / 2 ^ 20 = syncCheck s p ∧ t.pair.resyncDue = false ∧
          ∃ b, t.safe.btest = some b ∧ b.startUp = true)) ∧
    (∀ k, startAt s k = true → 1 ≤ k → k ≤ 8 → s.upd.trial = false → Gives .startStepTimeout s fun t =>
      t = { s with pwr := { s.pwr with failed := k, reason := 2 }, safe := t.safe, ucbs := t.ucbs, voter := t.voter } ∧
        (∀ m : Fin 8, (t.dout m).drv = false) ∧ t.safe.openA = true ∧ t.safe.openB = true ∧ t.safe.bk0.drv = false ∧ t.safe.bk1.drv = false)

/-- From R250, R255, R257, R264, R265. A beacon on a link that is up shows the partner: a module that was alone begins the handshake; an
active one whose partner is no longer in sync loses it; a standby takes a claim below its rank as a cause for takeover. Without beacons
neither link is up and a synced partner is lost, or taken over from. A sync that takes too long is reported and due again. A single link
that goes down is reported. -/
def Obligations.PairFollowsTheBeacons : Prop :=
  ∀ s : State,
    (∀ (k : Fin 2) (b : Beacon) (now : Nat),
      (splUp s k = false → exec (.beacon k b now) s = .next s) ∧
      (splUp s k = true → s.pair.state = .alone → Gives (.beacon k b now) s fun t => t = { s with time := s.timeAt now, pair := t.pair } ∧
        t.pair = { s.pair with peer := b.claim, peerState := b.state, peerUp := true, peerRevertDue := b.revertDue, state := .handshake,
                               resyncDue := true }) ∧
      (splUp s k = true → s.pair.role = .active → s.pair.state = .synced → b.state ≠ 5 → s.pair.finalSent = false →
        Gives (.beacon k b now) s fun t => t.pair.state = .handshake ∧ Resource.partner ∈ t.place.lost ∧ Reports s t .pair 8 (baseOf .partner)) ∧
      (splUp s k = true → s.pair.role = .standby → s.pair.state = .synced → running s = true → s.pair.finalSent = false →
        leavesSync s.pair.peerState b.state = none →
        (b.claim.toNat / 2 ^ 14 < 2 ∨ b.claim.toNat / 2 ^ 8 % 64 < 32) → Gives (.beacon k b now) s fun t => t.pair.takeover = true ∧
          t.pair.handover = 0 ∧ t.pair.state = .synced)) ∧
    (s.pair.peerUp = true →
      (s.pair.role = .standby → s.pair.state = .synced → running s = true → Gives .beaconsAbsent s fun t => t = { s with pair := t.pair } ∧
        t.pair.takeover = true ∧ t.pair.link0 = false ∧ t.pair.link1 = false ∧ t.pair.peerUp = false) ∧
      (s.pair.role = .active → s.pair.state = .synced → Gives .beaconsAbsent s fun t => t.pair.state = .alone ∧ t.pair.link0 = false ∧
        t.pair.link1 = false ∧ Resource.partner ∈ t.place.lost ∧ Reports s t .pair 8 (baseOf .partner))) ∧
    (∀ k : Fin 2, s.clk.linkStop = false →
      (splUp s k = false → Gives (.sweetpeaLinkChange k true) s fun t => t = { s with pair := t.pair, place := t.place } ∧ splUp t k = true) ∧
      (splUp s k = true → Resource.partner ∉ s.place.lost → clkPreferred s ≠ 5 + k → s.clk.refInUse ≠ 5 + k →
        Gives (.sweetpeaLinkChange k false) s fun t =>
        t = { s with pair := t.pair, place := t.place, ucbs := t.ucbs, freeCount := t.freeCount } ∧ splUp t k = false ∧
          Resource.port (.spl k) ∈ t.place.lost ∧ ∃ a, Reports s t .pair 7 a)) ∧
    (s.pair.state = .syncing → Gives .syncTimeout s fun t => t = { s with pair := t.pair, ucbs := t.ucbs, freeCount := t.freeCount } ∧
      t.pair = { s.pair with resyncDue := true, copied := false } ∧ ∃ a, Reports s t .pair 9 a)

/-- From R260, R262, R265, R267, R270. A complete copy becomes the standby's state: its pages in every lane and in the bulk store, its
counter and its numbers; one that is missing or whose trailer is bad changes no data, is reported, and the second in a row is a cause for
takeover. The active module takes the acknowledgement of its copy. A count that reaches REVERT_HOLD asks for the hand-back. A lost station
is reported once. -/
def Obligations.StandbyTakesTheCopy : Prop :=
  ∀ s : State,
    (s.pair.role = .standby →
      (∀ c : StateCopy, s.pair.state = .syncing ∨ s.pair.state = .synced → c.changes = [] → c.units = [] → c.composites = [] → Gives (.stateCopy c true) s fun t =>
        t.bulk = putBytes s.bulk 0 c.bulkPages ∧ (∀ l, (t.lane l).mem = putBytes (s.lane l).mem 0 c.lanePages) ∧ t.voter.csn = c.mark ∧
          t.voter.mark = s.voter.mark ∧ t.voter.gen = c.gen ∧ t.pair.applied = c.tick ∧ t.pair.missing = 0 ∧ t.pair.copied = (s.pair.copied || c.full) ∧ t.place.copyLost = lossesOf c.loss c.lossCard ∧
          (s.pair.state = .syncing → c.claim.toNat / 2 ^ 14 ≥ 2 → c.claim.toNat / 2 ^ 8 % 64 ≥ 32 → t.pair.handover = c.handover)) ∧
      (s.pair.state = .synced → ∀ i, (i = Instr.copyMissing ∨ ∃ c, i = .stateCopy c false) → Gives i s fun t =>
        t = { s with pair := t.pair, ucbs := t.ucbs, freeCount := t.freeCount } ∧ t.pair.missing = min 2 (s.pair.missing + 1) ∧
          t.pair.missCount = min 0xFF (s.pair.missCount + 1) ∧ (∃ a, Reports s t .pair 2 a) ∧
          (1 ≤ s.pair.missing → running s = true → t.pair.takeover = true) ∧
          (s.pair.missing = 0 → t.pair.takeover = s.pair.takeover)) ∧
      (revertHolds s = true → revertHold s ≤ s.pair.revertSec → exec .revertDue s
        = .next { s with pair := { s.pair with revertDue := true } })) ∧
    (∀ c, s.pair.sent = some c → Gives (.copyAcknowledged { tick := c.tick }) s fun t => t = { s with pair := t.pair } ∧ t.pair.sent = none ∧
      t.pair.applied = c.tick ∧ t.pair.coalescing = false) ∧
    (∀ (idx : BitVec 12) (d : StationDecl) (u : UnitId), s.voter.mode ≠ .split → stationOf (mainProg s) idx.toNat = some d →
      stationUnit s 0 d = some u → (s.station idx.toNat).present = true → Gives (.stationLost idx) s fun t =>
        t = { s with pair := t.pair, ucbs := t.ucbs } ∧ (t.station idx.toNat).present = false ∧ Reports s t .pair 0xA (baseOf u) ∧
          exec (.stationLost idx) t = .next t)

/-- From R217, R218, R220, R221, R223, Table VOTE-2. In TRIPLE a bulk-store write or vote event that the lanes agree on bit for bit
passes, takes the next CSN and leaves their queues; with one lane against two the record of the two passes and the third lane takes
DISAGREE, or LATE where its record is missing, and is fenced with its records discarded; with no majority nothing passes and the module
enters the safe state. -/
def Obligations.TheVoterPassesWhatTheLanesAgreeOn : Prop :=
  ∀ (s : State) (x y z : Lane) (rx ry rz : EffectRec) (qx qy qz : List EffectRec),
    s.voter.halted = false → s.voter.mode = .triple → (∀ l, (s.lane l).role = .voting) → s.voter.fenced = [] → s.voter.latentDue = [] →
    (x, y, z) ∈ [(Lane.a, Lane.b, Lane.c), (.b, .c, .a), (.c, .a, .b)] →
    (s.lane x).queue = rx :: qx → (s.lane y).queue = ry :: qy → (∀ l, (s.lane l).spill = []) →
    (∀ l k, ((s.lane l).ctx k).wait ≠ .emit) →
    let passed (t : State) : Prop := t.voter.csn = s.voter.csn + 1 ∧ t.voter.pos = s.voter.pos + 1 ∧ t.voter.halted = false ∧
      t.bulk = (if rx.kind = 0 then Memory.writeBytes s.bulk (bulkKey 0 rx.addr) rx.bytes else s.bulk) ∧
      (t.lane x).queue = qx ∧ (t.lane y).queue = qy
    let fenced (t : State) : Prop := (t.lane z).role = .fenced ∧ (t.lane z).queue = [] ∧ (t.lane z).dis = min 0xFFFF ((s.lane z).dis + 1) ∧
      t.voter.fenced = [z]
    (sameRecord rx ry = true → rx.kind = 0 ∨ rx.kind = 5 →
      ((s.lane z).queue = rz :: qz →
        (sameRecord ry rz = true → Gives (.voteDecision none none) s fun t => passed t ∧ (t.lane z).queue = qz ∧ t.voter.fenced = []) ∧
        (sameRecord ry rz = false → Gives (.voteDecision none none) s fun t => passed t ∧ fenced t ∧ Reports s t (.lane z) 1 rz.addr)) ∧
      ((s.lane z).queue = [] → Gives (.late z) s fun t => passed t ∧ fenced t ∧ Reports s t (.lane z) 2 rx.addr)) ∧
    ((s.lane z).queue = rz :: qz → sameRecord rx ry = false → sameRecord ry rz = false → sameRecord rz rx = false →
      Gives (.voteDecision none none) s fun t => t.safe.safe = true ∧ t.braked = true ∧ t.voter.halted = true ∧ t.voter.csn = s.voter.csn ∧
        t.bulk = s.bulk ∧ (∀ l, (t.lane l).queue = (s.lane l).queue))

/-- From R234, R239, R240, R245. A corrected memory error is counted and reported; an uncorrectable one fences its lane, or brings the
safe state where the memory is shared. A due rejoin or resync takes its tokens and starts its copy with the lane in MAINT; a copy without
a difference goes on to the copying of marked lines; a difference, or 256 ticks without an end, leaves the lane excluded and its unit in
FAULT. -/
def Obligations.LanesLeaveAndReturn : Prop :=
  ∀ (s : State) (l : Lane),
    (∀ e : EccFinding, e.word = none → e.corrected = true → e.near = false →
      (e.lane = some l → Gives (.scrub e) s fun t => (t.lane l).corrected = min 0xFFFF ((s.lane l).corrected + 1) ∧
        t.voter = s.voter ∧ t.safe = s.safe ∧ Reports s t (.lane l) 0xA e.address) ∧
      (e.lane = none → Gives (.scrub e) s fun t => t = { s with ucbs := t.ucbs } ∧ Reports s t .voter 0xA e.address)) ∧
    (∀ e : EccFinding, e.word = none → e.corrected = false →
      (e.lane = some l → s.voter.mode = .triple → s.voter.fenced = [] → s.voter.latentDue = [] → (s.lane l).role = .voting →
        Gives (.scrub e) s fun t => (t.lane l).role = .fenced ∧ (t.lane l).queue = [] ∧ t.voter.fenced = [l] ∧
          (t.lane l).uncorrected = min 0xFFFF ((s.lane l).uncorrected + 1) ∧ Reports s t (.lane l) 0xB e.address) ∧
      (e.lane = none → Gives (.scrub e) s fun t => t.safe.safe = true ∧ t.braked = true)) ∧
    (∀ r : Rejoin, s.voter.rejoin = some r → r.lane = l →
      let started (t : State) (role : LaneRole) (kib : Nat) : Prop := (t.lane l).role = role ∧ (t.lane l).mem = (s.lane l).mem ∧
        (t.ucb (.lane l)).state = .maint ∧ (t.ucb (.lane l)).prev = .quiesced ∧ t.voter.mode = .pair ∧
        (∃ r', t.voter.rejoin = some r' ∧ r'.lane = l ∧ r'.resync = r.resync ∧ r'.copying = true ∧ r'.recopy = false ∧ r'.ready = false ∧
          r'.kibLeft = kib) ∧
        (r.commanded = false → ∀ u ∈ [UnitId.voter, .place, .tick, .pair], (t.ucb u).token = some (.splitJoin, 3))
      let failed (t : State) : Prop := (t.lane l).role = .excluded ∧ (t.ucb (.lane l)).state = .fault ∧ t.voter.rejoin = none ∧
        t.voter.mode = s.voter.mode
      (r.copying = false → r.recopy = false → r.ready = false → s.voter.mode = .pair → (s.ucb (.lane l)).state = .quiesced →
        r.commanded = true ∨ tokensFree s .splitJoin = true →
        (r.resync = false → s.voter.change = none → Gives (.rejoin l) s fun t => started t .rejoining 16640) ∧
        (r.resync = true → s.voter.out = some l → Gives (.latentResync l) s fun t => started t .resync (4 * r.pages.length))) ∧
      (r.copying = true → (exec (.rejoinCopyComplete false) s
          = .next { s with voter := { s.voter with rejoin := some { r with copying := false, recopy := true, kibLeft := 0 } } }) ∧
        Gives (.rejoinCopyComplete true) s failed) ∧
      (∀ n, r.since = some n → (n + 256 ≤ s.tick.n → Gives .rejoinFail s failed) ∧ (s.tick.n < n + 256 → exec .rejoinFail s = .next s)))

/-- From R19, R58 to R62, R64, R79, R134, R190. From step 9 on a BOUNDARY ends with the boundary's number and time of the grid in TICK and
the lanes in the task phase, and resets the module where a reset is due. GUARD_START takes the tick into the guard; once no lane is behind
the leading one, none runs a context. The start of a safety window lets the waiting safety instance run before whatever the lane ran, and
a window that ends before its instance reports it. A boundary sequence that has not started by half a period after its instant raises
BOUNDARY_MISSED and brings the safe state, which TICK_STOP shows with task 0 (the model's choice, log entry 123); a lag above 1 µs in
ALIGNED raises BOUNDARY_LATE. -/
def Obligations.TicksRunThroughTheirPhases : Prop :=
  ∀ s : State,
    (∀ now lag bph, boundariesRun s = true →
      (dueReset (s.at_ now) = none → Gives (.boundary now lag bph) s fun t => t.tick.begun = true ∧ (t.tick.phase = 1 ∨ t.tick.phase = 2) ∧
        (guardDue s = false → s.tick.guardOpen = false →
          (let g := pointNow (s.at_ now) lag
           t.tick.n = g.n ∧ t.tick.time = g.time) ∧
          (s.tick.begun = true → s.tick.rephaseDue = false → s.pair.role ≠ .standby → t.tick.n = s.tick.n + 1 ∧
            (s.tick.align ≠ .aligned → s.tick.align ≠ .holdover → t.tick.time = s.tick.time + periodNs s)))) ∧
      (∀ c, dueReset (s.at_ now) = some c → Gives (.boundary now lag bph) s fun t => t.pwr.inReset = true)) ∧
    (∀ now, guardDue s = true → Gives (.guardStart now) s fun t => t.tick.phase = 3 ∧ t.tick.n = s.tick.n ∧ t.tick.time = s.tick.time ∧
      ((∀ l, (s.lane l).stops = [] ∧ leadCount s l ≤ (s.lane l).total) → t.tick.guardOpen = false ∧ ∀ l, (t.lane l).current = none)) ∧
    (∀ now, guardDue s = false → s.tick.guardOpen = false → exec (.guardStart now) s = .next s) ∧
    (∀ (i : W16) (l : Lane) (task : Nat), programRuns s = true → guardDue s = true → l ∈ runSet s → (s.lane l).safety.busy = false →
      (s.lane l).safety.todo = [(task, i.toNat)] → (s.lane l).current ≠ some .safety → (s.lane l).stops = [] →
      leadCount s l ≤ (s.lane l).total → Gives (.safetyWindowStart i) s fun t =>
        (t.lane l).current = some .safety ∧ (t.lane l).safety.busy = true ∧ (t.lane l).safety.inst = i.toNat ∧
          (t.lane l).safety.todo = [] ∧ (t.lane l).timed = (s.lane l).timed) ∧
    (∀ i : W16,
      let late (l : Lane) : Prop := ((s.lane l).safety.busy = true ∧ (s.lane l).safety.inst = i.toNat) ∨
        ∃ e ∈ (s.lane l).safety.todo, e.2 = i.toNat
      ((∃ l ∈ runSet s, late l) → Gives (.windowOver i) s fun t =>
        t.place.overLast = i.toNat ∧ t.place.overCount = min 0xFFFF (s.place.overCount + 1) ∧ ∃ a, Reports s t .place 4 a) ∧
      ((∀ l ∈ runSet s, ¬late l) → exec (.windowOver i) s = .next s)) ∧
    (∀ now, s.pwr.step = 9 → s.pwr.failed = 0 → Gives (.boundaryMissed now) s fun t => t.safe.safe = true ∧ t.braked = true ∧
      t.tick.stopTask = 0 ∧ t.tick.stopCause = 3 ∧ t.tick.n = s.tick.n ∧ ∃ a, Reports s t .tick 5 a) ∧
    (∀ now, s.pwr.step ≠ 9 ∨ s.pwr.failed ≠ 0 → exec (.boundaryMissed now) s = .next { s with time := s.timeAt now }) ∧
    (∀ lag bph, s.tick.align = .aligned → 1000 < lag → ∃ a, Reports s (noteLate s lag bph) .tick 4 a)

/-- From R281, R285, R287, R288, R290, R292, R294, R299, R300, R305, R309. The collector takes a unit's message: the next number, the
newest entry of the history, and the unit free to send again; a message of level 0 in a quiet class is logged and one of level 4 brings
the safe state. ACK of a class, or of all, ends its escalation; INJECT is reported as the checker's fault, marked injected, and one that
no detector reports ends TIMEOUT in the safe state; so does DEGRADE_LIMIT. A reset unit restarts as it was, and a window closes after its
time. -/
def Obligations.FaultsAreClassifiedAndAnswered : Prop :=
  ∀ s : State,
    (∀ (u : UnitId) (now : Nat) (m : FaultMsg), (s.ucb u).held = some m → s.flt.windows = [] → firstSender s u = u →
      (m.level = 0 → m.conseq = false → m.injected = false → (u = .flt → m.kind ≠ 1) → mapGet? m.cls s.flt.unack = none →
        (countRule (s.at_ now) (handleOf u)).1 = 0 → (s.ucb u).waiting = [] → Gives (.faultMessage u now) s fun t =>
          t.flt.seq = (s.flt.seq + 1) % 2 ^ 32 ∧ (t.ucb u).held = none ∧ t.safe = s.safe ∧
          (∃ e, t.flt.history = (e :: s.flt.history).take 16 ∧ e.msg = m ∧ e.seq = t.flt.seq ∧ e.reaction = .log ∧ e.acked = false) ∧
          mapGet? m.cls t.flt.unack = some 0) ∧
      (m.level = 4 → Gives (.faultMessage u now) s fun t => t.flt.seq = (s.flt.seq + 1) % 2 ^ 32 ∧ t.safe.safe = true ∧ t.braked = true)) ∧
    ((s.ucb .flt).running = none → (s.ucb .flt).busy = false →
      (∀ w (arg : BitVec 24), Legal s w .flt 0x80 arg.toNat → Gives (.ack w arg) s fun t =>
        (let hit (c : Nat) : Bool := decide (16 ≤ arg.toNat) || decide (c = arg.toNat)
         t.flt.unack = s.flt.unack.filter (fun c => !hit c.1) ∧ t.flt.unackAll = s.flt.unackAll.filter (fun c => !hit c.1) ∧
         t.flt.seq = s.flt.seq ∧ t.flt.history.length = s.flt.history.length ∧ (∀ e ∈ t.flt.history, hit e.msg.cls = true → e.acked = true)) ∧
        Ended s t .flt 0x80 .ok 0) ∧
      (∀ w (arg : BitVec 24) (l : Lane), Legal s w .flt 0x81 arg.toNat → checkerOf (arg.toNat / 65536) = some (.ecc (.lane l)) →
        arg.toNat % 4 = 0 → masked s (.lane l) = false → (s.ucb (.lane l)).held = none → Gives (.inject w arg) s fun t =>
          t.flt.inject.isSome = true ∧ (t.lane l).corrected = min 0xFFFF ((s.lane l).corrected + 1) ∧ Busy s t .flt w 0x81 arg.toNat ∧
          ∃ m, (t.ucb (.lane l)).held = some m ∧ m.kind = 0xA ∧ m.injected = true)) ∧
    (∀ r, s.flt.inject.isSome = true → (s.ucb .flt).running = some r → Gives .injectMissed s fun t => t.flt.inject = none ∧
      t.safe.safe = true ∧ t.braked = true ∧ Ended s t .flt r.code .timeout 0) ∧
    (s.safe.degradeFrom.isSome = true → degradeLimit s ≤ s.safe.degradeTime → s.safe.safe = false → Gives .degradeExpired s fun t =>
      t.safe.safe = true ∧ t.braked = true ∧ t.safe.cause = ⟨6, 0xD, 2, 3⟩) ∧
    (∀ (u : UnitId) (w : ReactWindow), plainUnit u = true → s.flt.windows = [w] → w.subject = u → w.endsAt ≤ s.tb3 →
      (w.restart = true → (s.ucb u).state = .off → (s.ucb u).token = none → (s.ucb u).busy = false → Gives (.unitResetRestart u) s fun t =>
        (t.ucb u).state = (if (s.ucb u).prev = .run then UState.run else .quiesced) ∧ (t.ucb u).forced = false ∧
          t.flt.windows = [{ w with restart := false, closing := true }]) ∧
      (w.restart = false → exec (.reactionWindowClose u) s = .next { s with flt := { s.flt with windows := [] } }))

/-- From R31, R32, R80, R235 to R239, R242, R267, R274, R521, Tables VOTE-11, PAIR-7, CAN-9 and PWR-7. The mode commands that pass their
checks: RESTART, EXCLUDE, JOIN, SPLIT, MERGE, FOXGLOVE, SWITCHOVER, RESYNC and MODULE_RESET stay BUSY with their change due at a boundary,
those of a maintenance activity with its tokens; DETACH and RECOVER end OK at once. -/
def Obligations.ModeCommandsTakeEffectAtABoundary : Prop :=
  ∀ (s : State) (w : Writer) (arg : BitVec 24),
    let a := arg.toNat
    let held (t : State) (us : List UnitId) (x : Activity) (h : Nat) : Prop := ∀ u ∈ us, (t.ucb u).token = some (x, h)
    let split : List UnitId := [.voter, .place, .tick, .pair]
    (Legal s w .tick 0x80 a → Gives (.restart w arg) s fun t =>
      t = { s with ucbs := t.ucbs, tick := { s.tick with restart := some (decide (a = 1)) } } ∧ Busy s t .tick w 0x80 a) ∧
    (∀ l : Lane, a = l.idx →
      (Legal s w .voter 0x80 a → Gives (.exclude w arg) s fun t =>
        t = { s with ucbs := t.ucbs, voter := { s.voter with change := some (.exclude l) } } ∧ Busy s t .voter w 0x80 a ∧
          held t split .splitJoin 3) ∧
      (Legal s w .voter 0x81 a → Gives (.join w arg) s fun t => (∃ r, t.voter.rejoin = some r ∧ r.lane = l ∧ r.resync = false ∧
          r.commanded = true ∧ r.since = some s.tick.n) ∧ Busy s t .voter w 0x81 a ∧ held t split .splitJoin 3 ∧
          (s.voter.planned = true → (t.lane l).role = .test ∧ (t.ucb (.lane l)).state = .test))) ∧
    (Legal s w .voter 0x82 a → Gives (.split w arg) s fun t => t.voter.change = some .split ∧ t.voter.mode = s.voter.mode ∧
      Busy s t .voter w 0x82 a ∧ held t split .splitJoin 3) ∧
    (Legal s w .voter 0x83 a → Gives (.merge w arg) s fun t =>
      t = { s with ucbs := t.ucbs, voter := { s.voter with change := some (.merge (decide (a = 1))) } } ∧ Busy s t .voter w 0x83 a ∧
        held t split .splitJoin 3) ∧
    (Legal s w .voter 0x84 a → Gives (.foxglove w arg) s fun t =>
      t = { s with ucbs := t.ucbs, voter := { s.voter with foxDue := true } } ∧ Busy s t .voter w 0x84 a ∧
        held t [.voter, .flt, .evr, .tick] .foxglove 3) ∧
    (Legal s w .pair 0x80 a → Gives (.switchover w arg) s fun t => t = { s with ucbs := t.ucbs } ∧ Busy s t .pair w 0x80 a) ∧
    (Legal s w .pair 0x81 a → Gives (.resync w arg) s fun t => t.pair.state = .handshake ∧ t.pair.resyncDue = true ∧
      Busy s t .pair w 0x81 a ∧ held t [.pair, .place] .partnerResync 4) ∧
    (Legal s w .pair 0x82 a → (s.ucb .pair).running = none → (s.ucb .pair).busy = false → Gives (.detach w arg) s fun t =>
      t.pair.state = .linked ∧ t.pair.sent = none ∧ Ended s t .pair 0x82 .ok 0) ∧
    (∀ n : Fin 6, Legal s w (.can n) 0x80 a → (s.ucb (.can n)).running = none → (s.ucb (.can n)).busy = false →
      Gives (.recover w n arg) s fun t => t = { s with ucbs := t.ucbs, cans := t.cans } ∧ (t.can n).state = 3 ∧
        (∀ m, m ≠ n → t.can m = s.can m) ∧ Ended s t (.can n) 0x80 .ok 0) ∧
    (Legal s w .pwr 0x80 a → Gives (.moduleReset w arg) s fun t =>
      t = { s with ucbs := t.ucbs, pwr := { s.pwr with resetDue := some .command } } ∧ Busy s t .pwr w 0x80 a)

/-- From R203, R204, R207, R210, Tables PLACE-12 and PLACE-13. REBALANCE, RETURN and PROFILE_START stay BUSY with their work begun;
PROFILE_STOP, which ends a capture, and ADOPT end OK at once. A rebalance that has not switched after 64 ticks ends FAULTED with the maps
in force; a complete capture ends PROFILE_START; the engine's map for a combined loss waits for the next boundary, unless its two
computations differ, as does the return of a resource that has been healthy for its count. -/
def Obligations.PlacementCommandsBeginAndEnd : Prop :=
  ∀ (s : State) (w : Writer) (arg : BitVec 24),
    let a := arg.toNat
    (Legal s w .place 0x80 a → Gives (.rebalance w arg) s fun t =>
      t = { s with ucbs := t.ucbs, place := { s.place with rebalance := some {}, computing := true } } ∧ Busy s t .place w 0x80 a) ∧
    (Legal s w .place 0x81 a → Gives (.placeReturn w arg) s fun t =>
      t = { s with ucbs := t.ucbs, place := { s.place with returnNow := s.place.returning.map (·.1) } } ∧ Busy s t .place w 0x81 a) ∧
    (Legal s w .place 0x82 a → Gives (.profileStart w arg) s fun t =>
      t = { s with ucbs := t.ucbs, place := { s.place with capturing := some a, captured := none, ticks := 0 } } ∧
        Busy s t .place w 0x82 a) ∧
    (Legal s w .place 0x83 a → (s.ucb .place).running = none → (s.ucb .place).busy = false →
      Gives (.profileStop w arg) s fun t => t = { s with ucbs := t.ucbs, place := { s.place with capturing := none } } ∧
        Ended s t .place 0x83 .ok 0) ∧
    (Legal s w .place 0x84 a → (s.ucb .place).running = none → (s.ucb .place).busy = false → Gives (.adopt w arg) s fun t =>
      (activeSlot t.upd).profile = (if a = 1 then none else s.place.captured) ∧ (activeSlot t.upd).pgm = (activeSlot s.upd).pgm ∧
        t.place.captured = (if a = 1 then s.place.captured else none) ∧ Ended s t .place 0x84 .ok 0) ∧
    (∀ x n r, s.place.rebalance = some x → x.since = some n → n + 64 ≤ s.tick.n → (s.ucb .place).running = some r →
      Gives .migrateTimeout s fun t => t.place.rebalance = none ∧ t.place.migrating = false ∧ t.place.map = s.place.map ∧
        t.place.set = s.place.set ∧ Ended s t .place r.code .faulted 0 ∧ ∃ b, Reports s t .place 7 b) ∧
    (∀ p k r, s.place.capturing = some k → k ≤ s.place.ticks → (s.ucb .place).running = some r → Gives (.profileComplete p) s fun t =>
      t = { s with ucbs := t.ucbs, place := { s.place with capturing := none, captured := some p } } ∧ Ended s t .place r.code .ok 0) ∧
    (∀ m ms, s.place.combined = true → s.place.next = none → s.place.nextSplit = [] → s.voter.mode ≠ .split → s.place.set = m :: ms →
      let made (t : State) (us : Nat) : State := { s with ucbs := t.ucbs, freeCount := t.freeCount, place := { s.place with
        us, computing := s.place.rebalance.any (·.since.isNone), next := t.place.next } }
      (Gives .combinedLoss s fun t => t = made t ((s.tb3 - s.place.combinedAt) / 1000) ∧ t.place.next.isSome = true) ∧
      (∀ us, s.place.computing = true → s.pwr.inReset = false → startAt s 6 = false → s.tick.reinit = false →
        s.place.rebalance = none → Gives (.placementMapComplete true us) s fun t => t = made t us ∧ t.place.next = none)) ∧
    (∀ r, (∃ c, (r, c) ∈ s.place.returning ∧ 0 < s.regField .place 0x108 15 0 ∧ s.regField .place 0x108 15 0 ≤ c) →
      r ∉ s.place.returnNow → exec (.resourceReturn r) s
        = .next { s with place := { s.place with returnNow := s.place.returnNow ++ [r] } })

/-- From R482, R486, R493, R494, R498, R501, R504, Tables LCS-6 and UPD-7. LOCK takes INTEGRATION to FIELD and CLOSE_SERVICE ends
FIELD-SERVICE, both with every debug session closed. APPLY to the module itself begins with its tokens and an invalid inactive slot;
ACTIVATE of a compatible slot makes it the next to boot; CONFIRM ends the trial and raises the floors; ABORT discards the preparation;
ACCEPT_CHANGE of a set that passes its checks makes it due; RESTART_HANDOVER names its boundary. -/
def Obligations.LifeCycleAndUpdateCommandsDoTheirPart : Prop :=
  ∀ (s : State) (w : Writer), (s.ucb .lcs).running = none → (s.ucb .lcs).busy = false →
    (Legal s w .lcs 0x80 0 → Gives (.lock w 0) s fun t => t.lcs.stored = .field ∧ t.lcs.sessions = 0 ∧ t.lcs.intrusive = false ∧
      Ended s t .lcs 0x80 .ok 0) ∧
    (Legal s w .lcs 0x81 0 → Gives (.closeService w 0) s fun t => t.lcs.service = none ∧ t.lcs.sessions = 0 ∧ t.lcs.intrusive = false ∧
      Ended s t .lcs 0x81 .ok 0) ∧
    (Legal s w .lcs 0x90 0 → Gives (.apply w 0) s fun t => t = { s with ucbs := t.ucbs, upd := t.upd } ∧ t.upd.applying = true ∧
      t.upd.prepared = false ∧ (inactiveSlot t.upd).valid = false ∧ activeSlot t.upd = activeSlot s.upd ∧ Busy s t .lcs w 0x90 0 ∧
      (∀ u ∈ [UnitId.lcs, .pair], (t.ucb u).token = some (.firmwareApply, 0x70))) ∧
    (Legal s w .lcs 0x91 0 →
      (compatible s = true → Gives (.activate w 0) s fun t => t.upd.pendingBoot = true ∧ t.pwr = s.pwr ∧ Ended s t .lcs 0x91 .ok 0) ∧
      (compatible s = false → Gives (.activate w 0) s fun t => t.upd.pendingBoot = s.upd.pendingBoot ∧
        t.upd.reason = activateReason s ∧ Ended s t .lcs 0x91 .faulted 0 ∧ ∃ a, Reports s t .lcs 0x22 a)) ∧
    (Legal s w .lcs 0x91 0x100 → compatible s = true → Gives (.activate w 0x100) s fun t => t.upd.pendingBoot = true ∧
      t.pwr = { s.pwr with resetDue := some .update } ∧ Ended s t .lcs 0x91 .ok 0) ∧
    (Legal s w .lcs 0x92 0 → Gives (.confirm w 0) s fun t => t.upd.trial = false ∧ t.upd.trialLeft = 0 ∧
      t.upd.secFw = max s.upd.secFw (((activeSlot s.upd).fw.map (·.secver)).getD 0) ∧
      t.upd.secPgm = max s.upd.secPgm (((activeSlot s.upd).pgm.map (·.secver)).getD 0) ∧ Ended s t .lcs 0x92 .ok 0) ∧
    (Legal s w .lcs 0x93 0 → Gives (.abort w 0) s fun t => t = { s with ucbs := t.ucbs, upd := t.upd } ∧ t.upd.prepared = false ∧
      t.upd.prepBegun = false ∧ t.upd.pendingBoot = false ∧ activeSlot t.upd = activeSlot s.upd ∧
      (s.upd.prepBegun = true → (inactiveSlot t.upd).valid = false) ∧ Ended s t .lcs 0x93 .ok 0) ∧
    (∀ p c, Legal s w .lcs 0x94 0 → s.upd.pkg = some p → p.payload = .change c → (∀ l, w ≠ .split l) →
      (changeOk s p.base none c = true → Gives (.acceptChange w 0) s fun t => t.upd.pkg = none ∧
        t.prog.changesDue = s.prog.changesDue ++ [{ c with lane := none }] ∧
        (activeSlot t.upd).changes = (activeSlot s.upd).changes ++ [{ c with lane := none }] ∧ Ended s t .lcs 0x94 .ok 0) ∧
      (changeOk s p.base none c = false → Gives (.acceptChange w 0) s fun t => t.upd = s.upd ∧ t.prog = s.prog ∧
        Ended s t .lcs 0x94 .faulted 0 ∧ ∃ a, Reports s t .lcs 0x25 a)) ∧
    (Legal s w .lcs 0x95 0 → Gives (.restartHandover w 0) s fun t => t = { s with ucbs := t.ucbs, upd := t.upd, pair := t.pair } ∧
      t.upd.handover = some (s.tick.n + 2) ∧ t.pair.handover = s.tick.n + 2 ∧ Busy s t .lcs w 0x95 0)

/-- From R127, R128. A lane instruction whose encoding is not assigned raises ILLEGAL_OP at its pc and changes nothing else: a type
outside the group, a register operand beside an extension word, a type or extension word where the format has none, a reserved space or
condition, a used field that must be zero, or a fetch outside the code. -/
def Obligations.UnassignedEncodingsAreIllegal : Prop :=
  ∀ (s : State) (l : Lane) (k : CtxKind) (c : LaneCtx), runCtx s l = some (k, c) → queueFull (s.lane l) = false → (s.lane l).onward = true →
    (∀ f : RFmt,
      (((∀ t, Ty.ofCode f.ty.toNat = some t → t.isInt = false) ∨ (f.i = true ∧ f.rb ≠ 0)) →
        ∀ i ∈ [Instr.add l f, .sub l f, .mul l f, .div l f, .mod l f, .neg l f, .abs l f, .min l f, .max l f, .limit l f],
          Excepts i s l k c.counted 0x40) ∧
      (((∀ t, Ty.ofCode f.ty.toNat = some t → t.isReal = false) ∨ (f.i = true ∧ f.rb ≠ 0)) →
        ∀ i ∈ [Instr.fadd l f, .fsub l f, .fmul l f, .fdiv l f, .fsqrt l f, .fabs l f, .fneg l f, .fmin l f, .fmax l f, .fma l f, .flimit l f],
          Excepts i s l k c.counted 0x40) ∧
      (((∀ t, Ty.ofCode f.ty.toNat = some t → t.isInt = false ∨ t = .time) ∨ (f.i = true ∧ f.rb ≠ 0)) →
        ∀ i ∈ [Instr.shl l f, .shr l f, .sar l f, .rol l f, .ror l f, .btst l f, .bset l f, .bclr l f, .binv l f, .bext l f, .bins l f,
          .popc l f, .clz l f], Excepts i s l k c.counted 0x40) ∧
      (f.ty ≠ 0 ∨ f.i = true →
        ∀ i ∈ [Instr.sel l f, .rdcf l f, .wrcf l f, .rdqf l f, .wrqf l f, .rdtk l f, .jr l f, .fbret l f, .qout l f, .qclr l f, .qtst l f,
          .qmax l f, .msend l f, .mrecv l f, .mstat l f, .cmt l f, .vsync l f, .nop l f, .fence l f, .twait l f, .yield l f, .urd l f,
          .uwr l f], Excepts i s l k c.counted 0x40) ∧
      (fetchOk (laneProg s l) c.pc.toNat (if f.i then 8 else 4) = false → Excepts (.nop l f) s l k c.counted 0x40)) ∧
    (∀ f : MFmt, 12 ≤ f.ty.toNat ∨ 6 ≤ f.space.toNat ∨ (f.x = true ∧ f.off ≠ 0) →
      ∀ i ∈ [Instr.ld l f, .st l f, .ldq l f, .ref l f], Excepts i s l k c.counted 0x40) ∧
    (∀ f : BFmt, f.cond.toNat = 15 → Excepts (.b l f) s l k c.counted 0x40) ∧
    (∀ f : IFmt, f.ra ≠ 0 → ∀ i ∈ [Instr.li l f, .enter l f, .leave l f, .trap l f], Excepts i s l k c.counted 0x40)

/-- From R308. From the safe state a step leads to the safe state or into reset; a standby in the safe state claims RUNNING = 0, confirms
no cause for a takeover and stays standby at every boundary. -/
def Obligations.TheSafeStateEndsOnlyByAReset : Prop :=
  ∀ s : State, s.safe.safe = true →
    (∀ t, s.pwr.inReset = false → step s = .next t → t.safe.safe = true ∨ t.pwr.inReset = true) ∧
    (s.pair.role = .standby → health s < 32 ∧ confirmCause s = s ∧ ∀ n, (pairStep s n).pair.role = .standby)

/-- Every byte store (the form is the choice of the model, log entry 4) keeps its one canonical form through every step: the bulk store,
the lanes' own memories and input buffers, the retentive generations and those saved with the image slots, and the cards' mailboxes. -/
def Obligations.EveryStepKeepsTheCanonicalForm : Prop :=
  ∀ s t : State, s.memOk = true → step s = .next t → t.memOk = true
end

