-- ==== Sys2Proof/Laws/Maps.lean ====
section
/-! SUPPORT. Finite maps and byte stores: what a get after a put gives, and that every memory operation keeps the canonical form. -/

namespace Sys2Proof.Machine

/-! ### Get after put -/

@[simp] theorem mapGet?_put_same {α : Type} (k : Nat) (v : α) (m : NMap α) : mapGet? k (mapPut k v m) = some v := by
  induction m with
  | nil => simp [mapPut, mapGet?]
  | cons p m ih =>
    obtain ⟨j, w⟩ := p
    simp only [mapPut]
    split
    · simp [mapGet?]
    · split
      · simp [mapGet?]
      · simp only [mapGet?]
        rw [if_neg (by omega)]
        exact ih

theorem mapGet?_put_ne {α : Type} {j k : Nat} (h : j ≠ k) (v : α) (m : NMap α) : mapGet? j (mapPut k v m) = mapGet? j m := by
  induction m with
  | nil => simp [mapPut, mapGet?, Ne.symm h]
  | cons p m ih =>
    obtain ⟨i, w⟩ := p
    simp only [mapPut]
    split
    · simp [mapGet?, Ne.symm h]
    · split
      · rename_i h1
        subst h1
        simp [mapGet?, Ne.symm h]
      · simp only [mapGet?]
        split
        · rfl
        · exact ih

@[simp] theorem mapGetD_put_same {α : Type} (k : Nat) (v d : α) (m : NMap α) : mapGetD (mapPut k v m) k d = v := by
  simp [mapGetD]

theorem mapGetD_put_ne {α : Type} {j k : Nat} (h : j ≠ k) (v d : α) (m : NMap α) : mapGetD (mapPut k v m) j d = mapGetD m j d := by
  simp [mapGetD, mapGet?_put_ne h]

@[simp] theorem mapGet?_erase_same {α : Type} (k : Nat) (m : NMap α) : mapGet? k (mapErase k m) = none := by
  induction m with
  | nil => rfl
  | cons p m ih =>
    obtain ⟨j, w⟩ := p
    simp only [mapErase]
    split
    · exact ih
    · simp only [mapGet?]
      rw [if_neg (by assumption)]
      exact ih

theorem mapGet?_erase_ne {α : Type} {j k : Nat} (h : j ≠ k) (m : NMap α) : mapGet? j (mapErase k m) = mapGet? j m := by
  induction m with
  | nil => rfl
  | cons p m ih =>
    obtain ⟨i, w⟩ := p
    simp only [mapErase]
    split
    · rename_i h1
      subst h1
      simp only [mapGet?]
      rw [if_neg (Ne.symm h)]
      exact ih
    · simp only [mapGet?]
      split
      · rfl
      · exact ih

/-- Entries changed in place keep their keys. -/
theorem mapGet?_map {α β : Type} (f : α → β) (k : Nat) (m : NMap α) : mapGet? k (m.map fun c => (c.1, f c.2)) = (mapGet? k m).map f := by
  induction m with
  | nil => rfl
  | cons p m ih =>
    obtain ⟨j, w⟩ := p
    simp only [List.map_cons, mapGet?]
    split
    · rfl
    · exact ih

/-! ### The strictly rising order -/

/-- Every key of a map lies above a bound. -/
def keysAbove {α : Type} (b : Nat) (m : NMap α) : Prop := ∀ c ∈ m, b < c.1

theorem mapSorted_cons {α : Type} (j : Nat) (w : α) (m : NMap α) : mapSorted ((j, w) :: m) = true ↔ keysAbove j m ∧ mapSorted m = true := by
  induction m generalizing j w with
  | nil => simp [mapSorted, keysAbove]
  | cons p m ih =>
    obtain ⟨k, x⟩ := p
    rw [show mapSorted ((j, w) :: (k, x) :: m) = (decide (j < k) && mapSorted ((k, x) :: m)) from rfl]
    simp only [Bool.and_eq_true, decide_eq_true_eq]
    constructor
    · rintro ⟨h1, h2⟩
      refine ⟨?_, h2⟩
      intro c hc
      rcases List.mem_cons.1 hc with rfl | hc
      · exact h1
      · exact Nat.lt_trans h1 (((ih k x).1 h2).1 c hc)
    · rintro ⟨h1, h2⟩
      exact ⟨h1 (k, x) (List.mem_cons_self ..), h2⟩

theorem keysAbove_put {α : Type} {b k : Nat} {m : NMap α} (v : α) (h : keysAbove b m) (hk : b < k) : keysAbove b (mapPut k v m) := by
  induction m with
  | nil => intro c hc; simp [mapPut] at hc; simp [hc, hk]
  | cons p m ih =>
    obtain ⟨j, w⟩ := p
    have hm : keysAbove b m := fun c hc => h c (List.mem_cons_of_mem _ hc)
    have hj : b < j := h (j, w) (List.mem_cons_self ..)
    simp only [mapPut]
    split
    · intro c hc
      rcases List.mem_cons.1 hc with rfl | hc
      · exact hk
      · exact h c hc
    · split
      · intro c hc
        rcases List.mem_cons.1 hc with rfl | hc
        · exact hk
        · exact hm c hc
      · intro c hc
        rcases List.mem_cons.1 hc with rfl | hc
        · exact hj
        · exact ih hm c hc

theorem mapSorted_put {α : Type} (k : Nat) (v : α) {m : NMap α} (h : mapSorted m = true) : mapSorted (mapPut k v m) = true := by
  induction m with
  | nil => rfl
  | cons p m ih =>
    obtain ⟨j, w⟩ := p
    obtain ⟨ha, hm⟩ := (mapSorted_cons j w m).1 h
    simp only [mapPut]
    split
    · rename_i hkj
      refine (mapSorted_cons k v _).2 ⟨?_, h⟩
      intro c hc
      rcases List.mem_cons.1 hc with rfl | hc
      · exact hkj
      · exact Nat.lt_trans hkj (ha c hc)
    · split
      · rename_i hkj
        subst hkj
        exact (mapSorted_cons k v m).2 ⟨ha, hm⟩
      · exact (mapSorted_cons j w _).2 ⟨keysAbove_put v ha (by omega), ih hm⟩

theorem mem_erase {α : Type} {k : Nat} {m : NMap α} {c : Nat × α} (h : c ∈ mapErase k m) : c ∈ m := by
  induction m with
  | nil => exact h
  | cons p m ih =>
    obtain ⟨j, w⟩ := p
    simp only [mapErase] at h
    split at h
    · exact List.mem_cons_of_mem _ (ih h)
    · rcases List.mem_cons.1 h with rfl | h
      · exact List.mem_cons_self ..
      · exact List.mem_cons_of_mem _ (ih h)

theorem mapSorted_erase {α : Type} (k : Nat) {m : NMap α} (h : mapSorted m = true) : mapSorted (mapErase k m) = true := by
  induction m with
  | nil => rfl
  | cons p m ih =>
    obtain ⟨j, w⟩ := p
    obtain ⟨ha, hm⟩ := (mapSorted_cons j w m).1 h
    simp only [mapErase]
    split
    · exact ih hm
    · exact (mapSorted_cons j w _).2 ⟨fun c hc => ha c (mem_erase hc), ih hm⟩

theorem mapSorted_filter {α : Type} (f : Nat × α → Bool) {m : NMap α} (h : mapSorted m = true) : mapSorted (m.filter f) = true := by
  induction m with
  | nil => rfl
  | cons p m ih =>
    obtain ⟨j, w⟩ := p
    obtain ⟨ha, hm⟩ := (mapSorted_cons j w m).1 h
    rw [List.filter_cons]
    split
    · exact (mapSorted_cons j w _).2 ⟨fun c hc => ha c (List.mem_filter.1 hc).1, ih hm⟩
    · exact ih hm

theorem mem_put {α : Type} {k : Nat} {v : α} {m : NMap α} {c : Nat × α} (h : c ∈ mapPut k v m) : c = (k, v) ∨ c ∈ m := by
  induction m with
  | nil => simp [mapPut] at h; exact .inl h
  | cons p m ih =>
    obtain ⟨j, w⟩ := p
    simp only [mapPut] at h
    split at h
    · rcases List.mem_cons.1 h with rfl | h
      · exact .inl rfl
      · exact .inr h
    · split at h
      · rcases List.mem_cons.1 h with rfl | h
        · exact .inl rfl
        · exact .inr (List.mem_cons_of_mem _ h)
      · rcases List.mem_cons.1 h with rfl | h
        · exact .inr (List.mem_cons_self ..)
        · exact (ih h).imp id (List.mem_cons_of_mem _)

/-! ### Byte stores: read after write -/

@[simp] theorem Memory.readByte_write_same (m : Memory) (a : Nat) (b : Byte) : Memory.readByte (Memory.writeByte m a b) a = b := by
  unfold Memory.readByte Memory.writeByte mapGetD
  split
  · rename_i h
    simp [h]
  · simp

theorem Memory.readByte_write_ne {a c : Nat} (h : c ≠ a) (m : Memory) (b : Byte) :
    Memory.readByte (Memory.writeByte m a b) c = Memory.readByte m c := by
  unfold Memory.readByte Memory.writeByte mapGetD
  split
  · rw [mapGet?_erase_ne h]
  · rw [mapGet?_put_ne h]

/-- Bytes outside the written range stay. -/
theorem Memory.readByte_writeBytes_out {m : Memory} {a c : Nat} {bs : List Byte} (h : c < a ∨ a + bs.length ≤ c) :
    Memory.readByte (Memory.writeBytes m a bs) c = Memory.readByte m c := by
  induction bs generalizing m a with
  | nil => rfl
  | cons b bs ih =>
    simp only [List.length_cons] at h
    simp only [Memory.writeBytes]
    rw [ih (by omega), Memory.readByte_write_ne (by omega)]

/-- Byte j of the written range is byte j of the data. -/
theorem Memory.readByte_writeBytes_in {m : Memory} {a j : Nat} {bs : List Byte} (h : j < bs.length) :
    Memory.readByte (Memory.writeBytes m a bs) (a + j) = bs[j] := by
  induction bs generalizing m a j with
  | nil => simp at h
  | cons b bs ih =>
    simp only [Memory.writeBytes]
    cases j with
    | zero =>
      rw [Memory.readByte_writeBytes_out (by omega)]
      simp
    | succ j =>
      simp only [List.length_cons] at h
      rw [show a + (j + 1) = (a + 1) + j by omega, ih (by omega)]
      simp

@[simp] theorem Memory.readBytes_length (m : Memory) (a n : Nat) : (Memory.readBytes m a n).length = n := by
  induction n generalizing a with
  | zero => rfl
  | succ n ih => simp [Memory.readBytes, ih]

theorem Memory.readBytes_get {m : Memory} {a n j : Nat} (h : j < n) :
    (Memory.readBytes m a n)[j]'(by simpa using h) = Memory.readByte m (a + j) := by
  induction n generalizing a j with
  | zero => omega
  | succ n ih =>
    cases j with
    | zero => rfl
    | succ j =>
      simp only [Memory.readBytes, List.getElem_cons_succ]
      rw [ih (by omega)]
      congr 1
      omega

/-- What was written is read back. -/
theorem Memory.readBytes_writeBytes (m : Memory) (a : Nat) (bs : List Byte) :
    Memory.readBytes (Memory.writeBytes m a bs) a bs.length = bs := by
  apply List.ext_getElem
  · simp
  · intro j h1 h2
    rw [Memory.readBytes_get h2, Memory.readByte_writeBytes_in h2]

/-- A range that does not meet the written one reads as before. -/
theorem Memory.readBytes_writeBytes_out {m : Memory} {a c n : Nat} {bs : List Byte} (h : c + n ≤ a ∨ a + bs.length ≤ c) :
    Memory.readBytes (Memory.writeBytes m a bs) c n = Memory.readBytes m c n := by
  induction n generalizing c with
  | zero => rfl
  | succ n ih =>
    simp only [Memory.readBytes]
    rw [ih (by omega), Memory.readByte_writeBytes_out (by omega)]

/-! ### Byte stores: the canonical form -/

theorem Memory.wf_iff (m : Memory) : Memory.wf m = true ↔ mapSorted m = true ∧ ∀ c ∈ m, c.2 ≠ Memory.blank := by
  simp [Memory.wf, List.all_eq_true]

@[simp] theorem Memory.wf_nil : Memory.wf [] = true := rfl

theorem Memory.wf_writeByte {m : Memory} (h : Memory.wf m = true) (a : Nat) (b : Byte) : Memory.wf (Memory.writeByte m a b) = true := by
  obtain ⟨hs, hn⟩ := (Memory.wf_iff m).1 h
  unfold Memory.writeByte
  split
  · exact (Memory.wf_iff _).2 ⟨mapSorted_erase a hs, fun c hc => hn c (mem_erase hc)⟩
  · rename_i hb
    refine (Memory.wf_iff _).2 ⟨mapSorted_put a b hs, fun c hc => ?_⟩
    rcases mem_put hc with rfl | hc
    · exact hb
    · exact hn c hc

theorem Memory.wf_writeBytes {m : Memory} (h : Memory.wf m = true) (a : Nat) (bs : List Byte) :
    Memory.wf (Memory.writeBytes m a bs) = true := by
  induction bs generalizing m a with
  | nil => exact h
  | cons b bs ih => exact ih (Memory.wf_writeByte h a b) (a + 1)

theorem Memory.wf_writeNat {m : Memory} (h : Memory.wf m = true) (a len v : Nat) : Memory.wf (Memory.writeNat m a len v) = true :=
  Memory.wf_writeBytes h a _

theorem Memory.wf_clearRange {m : Memory} (h : Memory.wf m = true) (lo len : Nat) : Memory.wf (Memory.clearRange m lo len) = true := by
  obtain ⟨hs, hn⟩ := (Memory.wf_iff m).1 h
  exact (Memory.wf_iff _).2 ⟨mapSorted_filter _ hs, fun c hc => hn c (List.mem_filter.1 hc).1⟩

/-- Stores in canonical form that read the same at every address are the same data. -/
theorem Memory.eq_of_read {m n : Memory} (hm : Memory.wf m = true) (hn : Memory.wf n = true)
    (h : ∀ a, Memory.readByte m a = Memory.readByte n a) : m = n := by
  have get_above {k : Nat} {x : Memory} (hx : keysAbove k x) : mapGet? k x = none := by
    induction x with
    | nil => rfl
    | cons p x ih =>
      obtain ⟨i, w⟩ := p
      have := hx (i, w) (List.mem_cons_self ..)
      simp only [mapGet?]
      rw [if_neg (by omega)]
      exact ih fun c hc => hx c (List.mem_cons_of_mem _ hc)
  have lower {i j : Nat} {v w : Byte} {x y : Memory} (hx : Memory.wf ((i, v) :: x) = true) (hy : Memory.wf ((j, w) :: y) = true)
      (hr : ∀ a, Memory.readByte ((i, v) :: x) a = Memory.readByte ((j, w) :: y) a) : ¬ i < j := by
    intro hij
    obtain ⟨_, hxn⟩ := (Memory.wf_iff _).1 hx
    obtain ⟨hys, _⟩ := (Memory.wf_iff _).1 hy
    have hy' := ((mapSorted_cons j w y).1 hys).1
    have hi := hr i
    have above : mapGet? i ((j, w) :: y) = none := get_above (by
      intro c hc
      rcases List.mem_cons.1 hc with rfl | hc
      · exact hij
      · exact Nat.lt_trans hij (hy' c hc))
    simp only [Memory.readByte, mapGetD, above] at hi
    simp only [mapGet?, if_true, Option.getD] at hi
    exact hxn (i, v) (List.mem_cons_self ..) hi
  induction m generalizing n with
  | nil =>
    cases n with
    | nil => rfl
    | cons q n =>
      obtain ⟨j, w⟩ := q
      have := h j
      simp only [Memory.readByte, mapGetD, mapGet?, Option.getD, if_true] at this
      exact absurd this.symm (((Memory.wf_iff _).1 hn).2 (j, w) (List.mem_cons_self ..))
  | cons p m ih =>
    obtain ⟨i, v⟩ := p
    cases n with
    | nil =>
      have := h i
      simp only [Memory.readByte, mapGetD, mapGet?, Option.getD, if_true] at this
      exact absurd this (((Memory.wf_iff _).1 hm).2 (i, v) (List.mem_cons_self ..))
    | cons q n =>
      obtain ⟨j, w⟩ := q
      have h1 := lower hm hn h
      have h2 := lower hn hm fun a => (h a).symm
      obtain rfl : i = j := by omega
      have hv : v = w := by
        have := h i
        simpa [Memory.readByte, mapGetD, mapGet?] using this
      subst hv
      obtain ⟨hms, hmn⟩ := (Memory.wf_iff _).1 hm
      obtain ⟨hns, hnn⟩ := (Memory.wf_iff _).1 hn
      obtain ⟨ham, hms'⟩ := (mapSorted_cons i v m).1 hms
      obtain ⟨han, hns'⟩ := (mapSorted_cons i v n).1 hns
      have : m = n := by
        refine ih ((Memory.wf_iff _).2 ⟨hms', fun c hc => hmn c (List.mem_cons_of_mem _ hc)⟩)
          ((Memory.wf_iff _).2 ⟨hns', fun c hc => hnn c (List.mem_cons_of_mem _ hc)⟩) fun a => ?_
        by_cases ha : i = a
        · subst ha
          simp [Memory.readByte, mapGetD, get_above ham, get_above han]
        · have := h a
          simpa [Memory.readByte, mapGetD, mapGet?, ha] using this
      rw [this]

end Sys2Proof.Machine
end

