-- ==== Sys2Proof/Laws/State.lean ====
section
/-! SUPPORT. What the updates of the state leave alone, one lemma for each field and update, and what a get after a set gives. -/

namespace Sys2Proof.Machine

open Sys2Proof

/-! ### setCan -/

@[simp] theorem State.setCan_pending (s : State) (n : Fin 6) (c : CanState) : (s.setCan n c).pending = s.pending := rfl
@[simp] theorem State.setCan_freeCount (s : State) (n : Fin 6) (c : CanState) : (s.setCan n c).freeCount = s.freeCount := rfl
@[simp] theorem State.setCan_regs (s : State) (n : Fin 6) (c : CanState) : (s.setCan n c).regs = s.regs := rfl
@[simp] theorem State.setCan_regsPending (s : State) (n : Fin 6) (c : CanState) : (s.setCan n c).regsPending = s.regsPending := rfl
@[simp] theorem State.setCan_ucbs (s : State) (n : Fin 6) (c : CanState) : (s.setCan n c).ucbs = s.ucbs := rfl
@[simp] theorem State.setCan_flt (s : State) (n : Fin 6) (c : CanState) : (s.setCan n c).flt = s.flt := rfl
@[simp] theorem State.setCan_evr (s : State) (n : Fin 6) (c : CanState) : (s.setCan n c).evr = s.evr := rfl
@[simp] theorem State.setCan_tick (s : State) (n : Fin 6) (c : CanState) : (s.setCan n c).tick = s.tick := rfl
@[simp] theorem State.setCan_time (s : State) (n : Fin 6) (c : CanState) : (s.setCan n c).time = s.time := rfl
@[simp] theorem State.setCan_clk (s : State) (n : Fin 6) (c : CanState) : (s.setCan n c).clk = s.clk := rfl
@[simp] theorem State.setCan_lcs (s : State) (n : Fin 6) (c : CanState) : (s.setCan n c).lcs = s.lcs := rfl
@[simp] theorem State.setCan_upd (s : State) (n : Fin 6) (c : CanState) : (s.setCan n c).upd = s.upd := rfl
@[simp] theorem State.setCan_pwr (s : State) (n : Fin 6) (c : CanState) : (s.setCan n c).pwr = s.pwr := rfl
@[simp] theorem State.setCan_safe (s : State) (n : Fin 6) (c : CanState) : (s.setCan n c).safe = s.safe := rfl
@[simp] theorem State.setCan_net (s : State) (n : Fin 6) (c : CanState) : (s.setCan n c).net = s.net := rfl
@[simp] theorem State.setCan_hlk (s : State) (n : Fin 6) (c : CanState) : (s.setCan n c).hlk = s.hlk := rfl
@[simp] theorem State.setCan_laneA (s : State) (n : Fin 6) (c : CanState) : (s.setCan n c).laneA = s.laneA := rfl
@[simp] theorem State.setCan_laneB (s : State) (n : Fin 6) (c : CanState) : (s.setCan n c).laneB = s.laneB := rfl
@[simp] theorem State.setCan_laneC (s : State) (n : Fin 6) (c : CanState) : (s.setCan n c).laneC = s.laneC := rfl
@[simp] theorem State.setCan_voter (s : State) (n : Fin 6) (c : CanState) : (s.setCan n c).voter = s.voter := rfl
@[simp] theorem State.setCan_place (s : State) (n : Fin 6) (c : CanState) : (s.setCan n c).place = s.place := rfl
@[simp] theorem State.setCan_pair (s : State) (n : Fin 6) (c : CanState) : (s.setCan n c).pair = s.pair := rfl
@[simp] theorem State.setCan_prog (s : State) (n : Fin 6) (c : CanState) : (s.setCan n c).prog = s.prog := rfl
@[simp] theorem State.setCan_bulk (s : State) (n : Fin 6) (c : CanState) : (s.setCan n c).bulk = s.bulk := rfl

/-! ### setEth -/

@[simp] theorem State.setEth_pending (s : State) (x : Fin 4) (e : EthState) : (s.setEth x e).pending = s.pending := rfl
@[simp] theorem State.setEth_freeCount (s : State) (x : Fin 4) (e : EthState) : (s.setEth x e).freeCount = s.freeCount := rfl
@[simp] theorem State.setEth_regs (s : State) (x : Fin 4) (e : EthState) : (s.setEth x e).regs = s.regs := rfl
@[simp] theorem State.setEth_regsPending (s : State) (x : Fin 4) (e : EthState) : (s.setEth x e).regsPending = s.regsPending := rfl
@[simp] theorem State.setEth_ucbs (s : State) (x : Fin 4) (e : EthState) : (s.setEth x e).ucbs = s.ucbs := rfl
@[simp] theorem State.setEth_flt (s : State) (x : Fin 4) (e : EthState) : (s.setEth x e).flt = s.flt := rfl
@[simp] theorem State.setEth_evr (s : State) (x : Fin 4) (e : EthState) : (s.setEth x e).evr = s.evr := rfl
@[simp] theorem State.setEth_tick (s : State) (x : Fin 4) (e : EthState) : (s.setEth x e).tick = s.tick := rfl
@[simp] theorem State.setEth_time (s : State) (x : Fin 4) (e : EthState) : (s.setEth x e).time = s.time := rfl
@[simp] theorem State.setEth_clk (s : State) (x : Fin 4) (e : EthState) : (s.setEth x e).clk = s.clk := rfl
@[simp] theorem State.setEth_lcs (s : State) (x : Fin 4) (e : EthState) : (s.setEth x e).lcs = s.lcs := rfl
@[simp] theorem State.setEth_upd (s : State) (x : Fin 4) (e : EthState) : (s.setEth x e).upd = s.upd := rfl
@[simp] theorem State.setEth_pwr (s : State) (x : Fin 4) (e : EthState) : (s.setEth x e).pwr = s.pwr := rfl
@[simp] theorem State.setEth_safe (s : State) (x : Fin 4) (e : EthState) : (s.setEth x e).safe = s.safe := rfl
@[simp] theorem State.setEth_cans (s : State) (x : Fin 4) (e : EthState) : (s.setEth x e).cans = s.cans := rfl
@[simp] theorem State.setEth_hlk (s : State) (x : Fin 4) (e : EthState) : (s.setEth x e).hlk = s.hlk := rfl
@[simp] theorem State.setEth_laneA (s : State) (x : Fin 4) (e : EthState) : (s.setEth x e).laneA = s.laneA := rfl
@[simp] theorem State.setEth_laneB (s : State) (x : Fin 4) (e : EthState) : (s.setEth x e).laneB = s.laneB := rfl
@[simp] theorem State.setEth_laneC (s : State) (x : Fin 4) (e : EthState) : (s.setEth x e).laneC = s.laneC := rfl
@[simp] theorem State.setEth_voter (s : State) (x : Fin 4) (e : EthState) : (s.setEth x e).voter = s.voter := rfl
@[simp] theorem State.setEth_place (s : State) (x : Fin 4) (e : EthState) : (s.setEth x e).place = s.place := rfl
@[simp] theorem State.setEth_pair (s : State) (x : Fin 4) (e : EthState) : (s.setEth x e).pair = s.pair := rfl
@[simp] theorem State.setEth_prog (s : State) (x : Fin 4) (e : EthState) : (s.setEth x e).prog = s.prog := rfl
@[simp] theorem State.setEth_bulk (s : State) (x : Fin 4) (e : EthState) : (s.setEth x e).bulk = s.bulk := rfl

/-! ### setSer -/

@[simp] theorem State.setSer_pending (s : State) (x : Fin 4) (e : SerState) : (s.setSer x e).pending = s.pending := rfl
@[simp] theorem State.setSer_freeCount (s : State) (x : Fin 4) (e : SerState) : (s.setSer x e).freeCount = s.freeCount := rfl
@[simp] theorem State.setSer_regs (s : State) (x : Fin 4) (e : SerState) : (s.setSer x e).regs = s.regs := rfl
@[simp] theorem State.setSer_regsPending (s : State) (x : Fin 4) (e : SerState) : (s.setSer x e).regsPending = s.regsPending := rfl
@[simp] theorem State.setSer_ucbs (s : State) (x : Fin 4) (e : SerState) : (s.setSer x e).ucbs = s.ucbs := rfl
@[simp] theorem State.setSer_flt (s : State) (x : Fin 4) (e : SerState) : (s.setSer x e).flt = s.flt := rfl
@[simp] theorem State.setSer_evr (s : State) (x : Fin 4) (e : SerState) : (s.setSer x e).evr = s.evr := rfl
@[simp] theorem State.setSer_tick (s : State) (x : Fin 4) (e : SerState) : (s.setSer x e).tick = s.tick := rfl
@[simp] theorem State.setSer_time (s : State) (x : Fin 4) (e : SerState) : (s.setSer x e).time = s.time := rfl
@[simp] theorem State.setSer_clk (s : State) (x : Fin 4) (e : SerState) : (s.setSer x e).clk = s.clk := rfl
@[simp] theorem State.setSer_lcs (s : State) (x : Fin 4) (e : SerState) : (s.setSer x e).lcs = s.lcs := rfl
@[simp] theorem State.setSer_upd (s : State) (x : Fin 4) (e : SerState) : (s.setSer x e).upd = s.upd := rfl
@[simp] theorem State.setSer_pwr (s : State) (x : Fin 4) (e : SerState) : (s.setSer x e).pwr = s.pwr := rfl
@[simp] theorem State.setSer_safe (s : State) (x : Fin 4) (e : SerState) : (s.setSer x e).safe = s.safe := rfl
@[simp] theorem State.setSer_cans (s : State) (x : Fin 4) (e : SerState) : (s.setSer x e).cans = s.cans := rfl
@[simp] theorem State.setSer_hlk (s : State) (x : Fin 4) (e : SerState) : (s.setSer x e).hlk = s.hlk := rfl
@[simp] theorem State.setSer_laneA (s : State) (x : Fin 4) (e : SerState) : (s.setSer x e).laneA = s.laneA := rfl
@[simp] theorem State.setSer_laneB (s : State) (x : Fin 4) (e : SerState) : (s.setSer x e).laneB = s.laneB := rfl
@[simp] theorem State.setSer_laneC (s : State) (x : Fin 4) (e : SerState) : (s.setSer x e).laneC = s.laneC := rfl
@[simp] theorem State.setSer_voter (s : State) (x : Fin 4) (e : SerState) : (s.setSer x e).voter = s.voter := rfl
@[simp] theorem State.setSer_place (s : State) (x : Fin 4) (e : SerState) : (s.setSer x e).place = s.place := rfl
@[simp] theorem State.setSer_pair (s : State) (x : Fin 4) (e : SerState) : (s.setSer x e).pair = s.pair := rfl
@[simp] theorem State.setSer_prog (s : State) (x : Fin 4) (e : SerState) : (s.setSer x e).prog = s.prog := rfl
@[simp] theorem State.setSer_bulk (s : State) (x : Fin 4) (e : SerState) : (s.setSer x e).bulk = s.bulk := rfl

/-! ### setCard -/

@[simp] theorem State.setCard_pending (s : State) (slot : Nat) (c : CardState) : (s.setCard slot c).pending = s.pending := rfl
@[simp] theorem State.setCard_freeCount (s : State) (slot : Nat) (c : CardState) : (s.setCard slot c).freeCount = s.freeCount := rfl
@[simp] theorem State.setCard_regs (s : State) (slot : Nat) (c : CardState) : (s.setCard slot c).regs = s.regs := rfl
@[simp] theorem State.setCard_regsPending (s : State) (slot : Nat) (c : CardState) : (s.setCard slot c).regsPending = s.regsPending := rfl
@[simp] theorem State.setCard_ucbs (s : State) (slot : Nat) (c : CardState) : (s.setCard slot c).ucbs = s.ucbs := rfl
@[simp] theorem State.setCard_flt (s : State) (slot : Nat) (c : CardState) : (s.setCard slot c).flt = s.flt := rfl
@[simp] theorem State.setCard_evr (s : State) (slot : Nat) (c : CardState) : (s.setCard slot c).evr = s.evr := rfl
@[simp] theorem State.setCard_tick (s : State) (slot : Nat) (c : CardState) : (s.setCard slot c).tick = s.tick := rfl
@[simp] theorem State.setCard_time (s : State) (slot : Nat) (c : CardState) : (s.setCard slot c).time = s.time := rfl
@[simp] theorem State.setCard_clk (s : State) (slot : Nat) (c : CardState) : (s.setCard slot c).clk = s.clk := rfl
@[simp] theorem State.setCard_lcs (s : State) (slot : Nat) (c : CardState) : (s.setCard slot c).lcs = s.lcs := rfl
@[simp] theorem State.setCard_upd (s : State) (slot : Nat) (c : CardState) : (s.setCard slot c).upd = s.upd := rfl
@[simp] theorem State.setCard_pwr (s : State) (slot : Nat) (c : CardState) : (s.setCard slot c).pwr = s.pwr := rfl
@[simp] theorem State.setCard_safe (s : State) (slot : Nat) (c : CardState) : (s.setCard slot c).safe = s.safe := rfl
@[simp] theorem State.setCard_cans (s : State) (slot : Nat) (c : CardState) : (s.setCard slot c).cans = s.cans := rfl
@[simp] theorem State.setCard_net (s : State) (slot : Nat) (c : CardState) : (s.setCard slot c).net = s.net := rfl
@[simp] theorem State.setCard_laneA (s : State) (slot : Nat) (c : CardState) : (s.setCard slot c).laneA = s.laneA := rfl
@[simp] theorem State.setCard_laneB (s : State) (slot : Nat) (c : CardState) : (s.setCard slot c).laneB = s.laneB := rfl
@[simp] theorem State.setCard_laneC (s : State) (slot : Nat) (c : CardState) : (s.setCard slot c).laneC = s.laneC := rfl
@[simp] theorem State.setCard_voter (s : State) (slot : Nat) (c : CardState) : (s.setCard slot c).voter = s.voter := rfl
@[simp] theorem State.setCard_place (s : State) (slot : Nat) (c : CardState) : (s.setCard slot c).place = s.place := rfl
@[simp] theorem State.setCard_pair (s : State) (slot : Nat) (c : CardState) : (s.setCard slot c).pair = s.pair := rfl
@[simp] theorem State.setCard_prog (s : State) (slot : Nat) (c : CardState) : (s.setCard slot c).prog = s.prog := rfl
@[simp] theorem State.setCard_bulk (s : State) (slot : Nat) (c : CardState) : (s.setCard slot c).bulk = s.bulk := rfl

/-! ### setLink -/

@[simp] theorem State.setLink_pending (s : State) (n : Nat) (k : LinkState) : (s.setLink n k).pending = s.pending := rfl
@[simp] theorem State.setLink_freeCount (s : State) (n : Nat) (k : LinkState) : (s.setLink n k).freeCount = s.freeCount := rfl
@[simp] theorem State.setLink_regs (s : State) (n : Nat) (k : LinkState) : (s.setLink n k).regs = s.regs := rfl
@[simp] theorem State.setLink_regsPending (s : State) (n : Nat) (k : LinkState) : (s.setLink n k).regsPending = s.regsPending := rfl
@[simp] theorem State.setLink_ucbs (s : State) (n : Nat) (k : LinkState) : (s.setLink n k).ucbs = s.ucbs := rfl
@[simp] theorem State.setLink_flt (s : State) (n : Nat) (k : LinkState) : (s.setLink n k).flt = s.flt := rfl
@[simp] theorem State.setLink_evr (s : State) (n : Nat) (k : LinkState) : (s.setLink n k).evr = s.evr := rfl
@[simp] theorem State.setLink_tick (s : State) (n : Nat) (k : LinkState) : (s.setLink n k).tick = s.tick := rfl
@[simp] theorem State.setLink_time (s : State) (n : Nat) (k : LinkState) : (s.setLink n k).time = s.time := rfl
@[simp] theorem State.setLink_clk (s : State) (n : Nat) (k : LinkState) : (s.setLink n k).clk = s.clk := rfl
@[simp] theorem State.setLink_lcs (s : State) (n : Nat) (k : LinkState) : (s.setLink n k).lcs = s.lcs := rfl
@[simp] theorem State.setLink_upd (s : State) (n : Nat) (k : LinkState) : (s.setLink n k).upd = s.upd := rfl
@[simp] theorem State.setLink_pwr (s : State) (n : Nat) (k : LinkState) : (s.setLink n k).pwr = s.pwr := rfl
@[simp] theorem State.setLink_safe (s : State) (n : Nat) (k : LinkState) : (s.setLink n k).safe = s.safe := rfl
@[simp] theorem State.setLink_cans (s : State) (n : Nat) (k : LinkState) : (s.setLink n k).cans = s.cans := rfl
@[simp] theorem State.setLink_net (s : State) (n : Nat) (k : LinkState) : (s.setLink n k).net = s.net := rfl
@[simp] theorem State.setLink_laneA (s : State) (n : Nat) (k : LinkState) : (s.setLink n k).laneA = s.laneA := rfl
@[simp] theorem State.setLink_laneB (s : State) (n : Nat) (k : LinkState) : (s.setLink n k).laneB = s.laneB := rfl
@[simp] theorem State.setLink_laneC (s : State) (n : Nat) (k : LinkState) : (s.setLink n k).laneC = s.laneC := rfl
@[simp] theorem State.setLink_voter (s : State) (n : Nat) (k : LinkState) : (s.setLink n k).voter = s.voter := rfl
@[simp] theorem State.setLink_place (s : State) (n : Nat) (k : LinkState) : (s.setLink n k).place = s.place := rfl
@[simp] theorem State.setLink_pair (s : State) (n : Nat) (k : LinkState) : (s.setLink n k).pair = s.pair := rfl
@[simp] theorem State.setLink_prog (s : State) (n : Nat) (k : LinkState) : (s.setLink n k).prog = s.prog := rfl
@[simp] theorem State.setLink_bulk (s : State) (n : Nat) (k : LinkState) : (s.setLink n k).bulk = s.bulk := rfl

/-! ### free -/

@[simp] theorem State.free_pending (s : State) : (s.free.2).pending = s.pending := rfl
@[simp] theorem State.free_regs (s : State) : (s.free.2).regs = s.regs := rfl
@[simp] theorem State.free_regsPending (s : State) : (s.free.2).regsPending = s.regsPending := rfl
@[simp] theorem State.free_ucbs (s : State) : (s.free.2).ucbs = s.ucbs := rfl
@[simp] theorem State.free_flt (s : State) : (s.free.2).flt = s.flt := rfl
@[simp] theorem State.free_evr (s : State) : (s.free.2).evr = s.evr := rfl
@[simp] theorem State.free_tick (s : State) : (s.free.2).tick = s.tick := rfl
@[simp] theorem State.free_time (s : State) : (s.free.2).time = s.time := rfl
@[simp] theorem State.free_clk (s : State) : (s.free.2).clk = s.clk := rfl
@[simp] theorem State.free_lcs (s : State) : (s.free.2).lcs = s.lcs := rfl
@[simp] theorem State.free_upd (s : State) : (s.free.2).upd = s.upd := rfl
@[simp] theorem State.free_pwr (s : State) : (s.free.2).pwr = s.pwr := rfl
@[simp] theorem State.free_safe (s : State) : (s.free.2).safe = s.safe := rfl
@[simp] theorem State.free_cans (s : State) : (s.free.2).cans = s.cans := rfl
@[simp] theorem State.free_net (s : State) : (s.free.2).net = s.net := rfl
@[simp] theorem State.free_hlk (s : State) : (s.free.2).hlk = s.hlk := rfl
@[simp] theorem State.free_laneA (s : State) : (s.free.2).laneA = s.laneA := rfl
@[simp] theorem State.free_laneB (s : State) : (s.free.2).laneB = s.laneB := rfl
@[simp] theorem State.free_laneC (s : State) : (s.free.2).laneC = s.laneC := rfl
@[simp] theorem State.free_voter (s : State) : (s.free.2).voter = s.voter := rfl
@[simp] theorem State.free_place (s : State) : (s.free.2).place = s.place := rfl
@[simp] theorem State.free_pair (s : State) : (s.free.2).pair = s.pair := rfl
@[simp] theorem State.free_prog (s : State) : (s.free.2).prog = s.prog := rfl
@[simp] theorem State.free_bulk (s : State) : (s.free.2).bulk = s.bulk := rfl

/-! ### at_ -/

@[simp] theorem State.at__pending (s : State) (t : Nat) : (s.at_ t).pending = s.pending := rfl
@[simp] theorem State.at__freeCount (s : State) (t : Nat) : (s.at_ t).freeCount = s.freeCount := rfl
@[simp] theorem State.at__regs (s : State) (t : Nat) : (s.at_ t).regs = s.regs := rfl
@[simp] theorem State.at__regsPending (s : State) (t : Nat) : (s.at_ t).regsPending = s.regsPending := rfl
@[simp] theorem State.at__ucbs (s : State) (t : Nat) : (s.at_ t).ucbs = s.ucbs := rfl
@[simp] theorem State.at__flt (s : State) (t : Nat) : (s.at_ t).flt = s.flt := rfl
@[simp] theorem State.at__evr (s : State) (t : Nat) : (s.at_ t).evr = s.evr := rfl
@[simp] theorem State.at__tick (s : State) (t : Nat) : (s.at_ t).tick = s.tick := rfl
@[simp] theorem State.at__clk (s : State) (t : Nat) : (s.at_ t).clk = s.clk := rfl
@[simp] theorem State.at__lcs (s : State) (t : Nat) : (s.at_ t).lcs = s.lcs := rfl
@[simp] theorem State.at__upd (s : State) (t : Nat) : (s.at_ t).upd = s.upd := rfl
@[simp] theorem State.at__pwr (s : State) (t : Nat) : (s.at_ t).pwr = s.pwr := rfl
@[simp] theorem State.at__safe (s : State) (t : Nat) : (s.at_ t).safe = s.safe := rfl
@[simp] theorem State.at__cans (s : State) (t : Nat) : (s.at_ t).cans = s.cans := rfl
@[simp] theorem State.at__net (s : State) (t : Nat) : (s.at_ t).net = s.net := rfl
@[simp] theorem State.at__hlk (s : State) (t : Nat) : (s.at_ t).hlk = s.hlk := rfl
@[simp] theorem State.at__laneA (s : State) (t : Nat) : (s.at_ t).laneA = s.laneA := rfl
@[simp] theorem State.at__laneB (s : State) (t : Nat) : (s.at_ t).laneB = s.laneB := rfl
@[simp] theorem State.at__laneC (s : State) (t : Nat) : (s.at_ t).laneC = s.laneC := rfl
@[simp] theorem State.at__voter (s : State) (t : Nat) : (s.at_ t).voter = s.voter := rfl
@[simp] theorem State.at__place (s : State) (t : Nat) : (s.at_ t).place = s.place := rfl
@[simp] theorem State.at__pair (s : State) (t : Nat) : (s.at_ t).pair = s.pair := rfl
@[simp] theorem State.at__prog (s : State) (t : Nat) : (s.at_ t).prog = s.prog := rfl
@[simp] theorem State.at__bulk (s : State) (t : Nat) : (s.at_ t).bulk = s.bulk := rfl

/-! ### setUcb -/

@[simp] theorem State.setUcb_pending (s : State) (u : UnitId) (f : Ucb → Ucb) : (s.setUcb u f).pending = s.pending := rfl
@[simp] theorem State.setUcb_freeCount (s : State) (u : UnitId) (f : Ucb → Ucb) : (s.setUcb u f).freeCount = s.freeCount := rfl
@[simp] theorem State.setUcb_regs (s : State) (u : UnitId) (f : Ucb → Ucb) : (s.setUcb u f).regs = s.regs := rfl
@[simp] theorem State.setUcb_regsPending (s : State) (u : UnitId) (f : Ucb → Ucb) : (s.setUcb u f).regsPending = s.regsPending := rfl
@[simp] theorem State.setUcb_flt (s : State) (u : UnitId) (f : Ucb → Ucb) : (s.setUcb u f).flt = s.flt := rfl
@[simp] theorem State.setUcb_evr (s : State) (u : UnitId) (f : Ucb → Ucb) : (s.setUcb u f).evr = s.evr := rfl
@[simp] theorem State.setUcb_tick (s : State) (u : UnitId) (f : Ucb → Ucb) : (s.setUcb u f).tick = s.tick := rfl
@[simp] theorem State.setUcb_time (s : State) (u : UnitId) (f : Ucb → Ucb) : (s.setUcb u f).time = s.time := rfl
@[simp] theorem State.setUcb_clk (s : State) (u : UnitId) (f : Ucb → Ucb) : (s.setUcb u f).clk = s.clk := rfl
@[simp] theorem State.setUcb_lcs (s : State) (u : UnitId) (f : Ucb → Ucb) : (s.setUcb u f).lcs = s.lcs := rfl
@[simp] theorem State.setUcb_upd (s : State) (u : UnitId) (f : Ucb → Ucb) : (s.setUcb u f).upd = s.upd := rfl
@[simp] theorem State.setUcb_pwr (s : State) (u : UnitId) (f : Ucb → Ucb) : (s.setUcb u f).pwr = s.pwr := rfl
@[simp] theorem State.setUcb_safe (s : State) (u : UnitId) (f : Ucb → Ucb) : (s.setUcb u f).safe = s.safe := rfl
@[simp] theorem State.setUcb_cans (s : State) (u : UnitId) (f : Ucb → Ucb) : (s.setUcb u f).cans = s.cans := rfl
@[simp] theorem State.setUcb_net (s : State) (u : UnitId) (f : Ucb → Ucb) : (s.setUcb u f).net = s.net := rfl
@[simp] theorem State.setUcb_hlk (s : State) (u : UnitId) (f : Ucb → Ucb) : (s.setUcb u f).hlk = s.hlk := rfl
@[simp] theorem State.setUcb_laneA (s : State) (u : UnitId) (f : Ucb → Ucb) : (s.setUcb u f).laneA = s.laneA := rfl
@[simp] theorem State.setUcb_laneB (s : State) (u : UnitId) (f : Ucb → Ucb) : (s.setUcb u f).laneB = s.laneB := rfl
@[simp] theorem State.setUcb_laneC (s : State) (u : UnitId) (f : Ucb → Ucb) : (s.setUcb u f).laneC = s.laneC := rfl
@[simp] theorem State.setUcb_voter (s : State) (u : UnitId) (f : Ucb → Ucb) : (s.setUcb u f).voter = s.voter := rfl
@[simp] theorem State.setUcb_place (s : State) (u : UnitId) (f : Ucb → Ucb) : (s.setUcb u f).place = s.place := rfl
@[simp] theorem State.setUcb_pair (s : State) (u : UnitId) (f : Ucb → Ucb) : (s.setUcb u f).pair = s.pair := rfl
@[simp] theorem State.setUcb_prog (s : State) (u : UnitId) (f : Ucb → Ucb) : (s.setUcb u f).prog = s.prog := rfl
@[simp] theorem State.setUcb_bulk (s : State) (u : UnitId) (f : Ucb → Ucb) : (s.setUcb u f).bulk = s.bulk := rfl

/-! ### finish -/

@[simp] theorem State.finish_pending (s : State) (u : UnitId) (c : Status) (d : Nat) : (s.finish u c d).pending = s.pending := rfl
@[simp] theorem State.finish_freeCount (s : State) (u : UnitId) (c : Status) (d : Nat) : (s.finish u c d).freeCount = s.freeCount := rfl
@[simp] theorem State.finish_regs (s : State) (u : UnitId) (c : Status) (d : Nat) : (s.finish u c d).regs = s.regs := rfl
@[simp] theorem State.finish_regsPending (s : State) (u : UnitId) (c : Status) (d : Nat) : (s.finish u c d).regsPending = s.regsPending := rfl
@[simp] theorem State.finish_flt (s : State) (u : UnitId) (c : Status) (d : Nat) : (s.finish u c d).flt = s.flt := rfl
@[simp] theorem State.finish_evr (s : State) (u : UnitId) (c : Status) (d : Nat) : (s.finish u c d).evr = s.evr := rfl
@[simp] theorem State.finish_tick (s : State) (u : UnitId) (c : Status) (d : Nat) : (s.finish u c d).tick = s.tick := rfl
@[simp] theorem State.finish_time (s : State) (u : UnitId) (c : Status) (d : Nat) : (s.finish u c d).time = s.time := rfl
@[simp] theorem State.finish_clk (s : State) (u : UnitId) (c : Status) (d : Nat) : (s.finish u c d).clk = s.clk := rfl
@[simp] theorem State.finish_lcs (s : State) (u : UnitId) (c : Status) (d : Nat) : (s.finish u c d).lcs = s.lcs := rfl
@[simp] theorem State.finish_upd (s : State) (u : UnitId) (c : Status) (d : Nat) : (s.finish u c d).upd = s.upd := rfl
@[simp] theorem State.finish_pwr (s : State) (u : UnitId) (c : Status) (d : Nat) : (s.finish u c d).pwr = s.pwr := rfl
@[simp] theorem State.finish_safe (s : State) (u : UnitId) (c : Status) (d : Nat) : (s.finish u c d).safe = s.safe := rfl
@[simp] theorem State.finish_cans (s : State) (u : UnitId) (c : Status) (d : Nat) : (s.finish u c d).cans = s.cans := rfl
@[simp] theorem State.finish_net (s : State) (u : UnitId) (c : Status) (d : Nat) : (s.finish u c d).net = s.net := rfl
@[simp] theorem State.finish_hlk (s : State) (u : UnitId) (c : Status) (d : Nat) : (s.finish u c d).hlk = s.hlk := rfl
@[simp] theorem State.finish_laneA (s : State) (u : UnitId) (c : Status) (d : Nat) : (s.finish u c d).laneA = s.laneA := rfl
@[simp] theorem State.finish_laneB (s : State) (u : UnitId) (c : Status) (d : Nat) : (s.finish u c d).laneB = s.laneB := rfl
@[simp] theorem State.finish_laneC (s : State) (u : UnitId) (c : Status) (d : Nat) : (s.finish u c d).laneC = s.laneC := rfl
@[simp] theorem State.finish_voter (s : State) (u : UnitId) (c : Status) (d : Nat) : (s.finish u c d).voter = s.voter := rfl
@[simp] theorem State.finish_place (s : State) (u : UnitId) (c : Status) (d : Nat) : (s.finish u c d).place = s.place := rfl
@[simp] theorem State.finish_pair (s : State) (u : UnitId) (c : Status) (d : Nat) : (s.finish u c d).pair = s.pair := rfl
@[simp] theorem State.finish_prog (s : State) (u : UnitId) (c : Status) (d : Nat) : (s.finish u c d).prog = s.prog := rfl
@[simp] theorem State.finish_bulk (s : State) (u : UnitId) (c : Status) (d : Nat) : (s.finish u c d).bulk = s.bulk := rfl

/-! ### begin_ -/

@[simp] theorem State.begin__pending (s : State) (u : UnitId) (w : Writer) (c a : Nat) : (s.begin_ u w c a).pending = s.pending := rfl
@[simp] theorem State.begin__freeCount (s : State) (u : UnitId) (w : Writer) (c a : Nat) : (s.begin_ u w c a).freeCount = s.freeCount := rfl
@[simp] theorem State.begin__regs (s : State) (u : UnitId) (w : Writer) (c a : Nat) : (s.begin_ u w c a).regs = s.regs := rfl
@[simp] theorem State.begin__regsPending (s : State) (u : UnitId) (w : Writer) (c a : Nat) : (s.begin_ u w c a).regsPending = s.regsPending := rfl
@[simp] theorem State.begin__flt (s : State) (u : UnitId) (w : Writer) (c a : Nat) : (s.begin_ u w c a).flt = s.flt := rfl
@[simp] theorem State.begin__evr (s : State) (u : UnitId) (w : Writer) (c a : Nat) : (s.begin_ u w c a).evr = s.evr := rfl
@[simp] theorem State.begin__tick (s : State) (u : UnitId) (w : Writer) (c a : Nat) : (s.begin_ u w c a).tick = s.tick := rfl
@[simp] theorem State.begin__time (s : State) (u : UnitId) (w : Writer) (c a : Nat) : (s.begin_ u w c a).time = s.time := rfl
@[simp] theorem State.begin__clk (s : State) (u : UnitId) (w : Writer) (c a : Nat) : (s.begin_ u w c a).clk = s.clk := rfl
@[simp] theorem State.begin__lcs (s : State) (u : UnitId) (w : Writer) (c a : Nat) : (s.begin_ u w c a).lcs = s.lcs := rfl
@[simp] theorem State.begin__upd (s : State) (u : UnitId) (w : Writer) (c a : Nat) : (s.begin_ u w c a).upd = s.upd := rfl
@[simp] theorem State.begin__pwr (s : State) (u : UnitId) (w : Writer) (c a : Nat) : (s.begin_ u w c a).pwr = s.pwr := rfl
@[simp] theorem State.begin__safe (s : State) (u : UnitId) (w : Writer) (c a : Nat) : (s.begin_ u w c a).safe = s.safe := rfl
@[simp] theorem State.begin__cans (s : State) (u : UnitId) (w : Writer) (c a : Nat) : (s.begin_ u w c a).cans = s.cans := rfl
@[simp] theorem State.begin__net (s : State) (u : UnitId) (w : Writer) (c a : Nat) : (s.begin_ u w c a).net = s.net := rfl
@[simp] theorem State.begin__hlk (s : State) (u : UnitId) (w : Writer) (c a : Nat) : (s.begin_ u w c a).hlk = s.hlk := rfl
@[simp] theorem State.begin__laneA (s : State) (u : UnitId) (w : Writer) (c a : Nat) : (s.begin_ u w c a).laneA = s.laneA := rfl
@[simp] theorem State.begin__laneB (s : State) (u : UnitId) (w : Writer) (c a : Nat) : (s.begin_ u w c a).laneB = s.laneB := rfl
@[simp] theorem State.begin__laneC (s : State) (u : UnitId) (w : Writer) (c a : Nat) : (s.begin_ u w c a).laneC = s.laneC := rfl
@[simp] theorem State.begin__voter (s : State) (u : UnitId) (w : Writer) (c a : Nat) : (s.begin_ u w c a).voter = s.voter := rfl
@[simp] theorem State.begin__place (s : State) (u : UnitId) (w : Writer) (c a : Nat) : (s.begin_ u w c a).place = s.place := rfl
@[simp] theorem State.begin__pair (s : State) (u : UnitId) (w : Writer) (c a : Nat) : (s.begin_ u w c a).pair = s.pair := rfl
@[simp] theorem State.begin__prog (s : State) (u : UnitId) (w : Writer) (c a : Nat) : (s.begin_ u w c a).prog = s.prog := rfl
@[simp] theorem State.begin__bulk (s : State) (u : UnitId) (w : Writer) (c a : Nat) : (s.begin_ u w c a).bulk = s.bulk := rfl

/-! ### complete -/

@[simp] theorem State.complete_pending (s : State) (u : UnitId) (k : Nat) (c : Status) (d : Nat) : (s.complete u k c d).pending = s.pending := rfl
@[simp] theorem State.complete_freeCount (s : State) (u : UnitId) (k : Nat) (c : Status) (d : Nat) : (s.complete u k c d).freeCount = s.freeCount := rfl
@[simp] theorem State.complete_regs (s : State) (u : UnitId) (k : Nat) (c : Status) (d : Nat) : (s.complete u k c d).regs = s.regs := rfl
@[simp] theorem State.complete_regsPending (s : State) (u : UnitId) (k : Nat) (c : Status) (d : Nat) : (s.complete u k c d).regsPending = s.regsPending := rfl
@[simp] theorem State.complete_flt (s : State) (u : UnitId) (k : Nat) (c : Status) (d : Nat) : (s.complete u k c d).flt = s.flt := rfl
@[simp] theorem State.complete_evr (s : State) (u : UnitId) (k : Nat) (c : Status) (d : Nat) : (s.complete u k c d).evr = s.evr := rfl
@[simp] theorem State.complete_tick (s : State) (u : UnitId) (k : Nat) (c : Status) (d : Nat) : (s.complete u k c d).tick = s.tick := rfl
@[simp] theorem State.complete_time (s : State) (u : UnitId) (k : Nat) (c : Status) (d : Nat) : (s.complete u k c d).time = s.time := rfl
@[simp] theorem State.complete_clk (s : State) (u : UnitId) (k : Nat) (c : Status) (d : Nat) : (s.complete u k c d).clk = s.clk := rfl
@[simp] theorem State.complete_lcs (s : State) (u : UnitId) (k : Nat) (c : Status) (d : Nat) : (s.complete u k c d).lcs = s.lcs := rfl
@[simp] theorem State.complete_upd (s : State) (u : UnitId) (k : Nat) (c : Status) (d : Nat) : (s.complete u k c d).upd = s.upd := rfl
@[simp] theorem State.complete_pwr (s : State) (u : UnitId) (k : Nat) (c : Status) (d : Nat) : (s.complete u k c d).pwr = s.pwr := rfl
@[simp] theorem State.complete_safe (s : State) (u : UnitId) (k : Nat) (c : Status) (d : Nat) : (s.complete u k c d).safe = s.safe := rfl
@[simp] theorem State.complete_cans (s : State) (u : UnitId) (k : Nat) (c : Status) (d : Nat) : (s.complete u k c d).cans = s.cans := rfl
@[simp] theorem State.complete_net (s : State) (u : UnitId) (k : Nat) (c : Status) (d : Nat) : (s.complete u k c d).net = s.net := rfl
@[simp] theorem State.complete_hlk (s : State) (u : UnitId) (k : Nat) (c : Status) (d : Nat) : (s.complete u k c d).hlk = s.hlk := rfl
@[simp] theorem State.complete_laneA (s : State) (u : UnitId) (k : Nat) (c : Status) (d : Nat) : (s.complete u k c d).laneA = s.laneA := rfl
@[simp] theorem State.complete_laneB (s : State) (u : UnitId) (k : Nat) (c : Status) (d : Nat) : (s.complete u k c d).laneB = s.laneB := rfl
@[simp] theorem State.complete_laneC (s : State) (u : UnitId) (k : Nat) (c : Status) (d : Nat) : (s.complete u k c d).laneC = s.laneC := rfl
@[simp] theorem State.complete_voter (s : State) (u : UnitId) (k : Nat) (c : Status) (d : Nat) : (s.complete u k c d).voter = s.voter := rfl
@[simp] theorem State.complete_place (s : State) (u : UnitId) (k : Nat) (c : Status) (d : Nat) : (s.complete u k c d).place = s.place := rfl
@[simp] theorem State.complete_pair (s : State) (u : UnitId) (k : Nat) (c : Status) (d : Nat) : (s.complete u k c d).pair = s.pair := rfl
@[simp] theorem State.complete_prog (s : State) (u : UnitId) (k : Nat) (c : Status) (d : Nat) : (s.complete u k c d).prog = s.prog := rfl
@[simp] theorem State.complete_bulk (s : State) (u : UnitId) (k : Nat) (c : Status) (d : Nat) : (s.complete u k c d).bulk = s.bulk := rfl

/-! ### setReg -/

@[simp] theorem State.setReg_pending (s : State) (u : UnitId) (off obj : Nat) (v : W32) : (s.setReg u off obj v).pending = s.pending := rfl
@[simp] theorem State.setReg_freeCount (s : State) (u : UnitId) (off obj : Nat) (v : W32) : (s.setReg u off obj v).freeCount = s.freeCount := rfl
@[simp] theorem State.setReg_regsPending (s : State) (u : UnitId) (off obj : Nat) (v : W32) : (s.setReg u off obj v).regsPending = s.regsPending := rfl
@[simp] theorem State.setReg_ucbs (s : State) (u : UnitId) (off obj : Nat) (v : W32) : (s.setReg u off obj v).ucbs = s.ucbs := rfl
@[simp] theorem State.setReg_flt (s : State) (u : UnitId) (off obj : Nat) (v : W32) : (s.setReg u off obj v).flt = s.flt := rfl
@[simp] theorem State.setReg_evr (s : State) (u : UnitId) (off obj : Nat) (v : W32) : (s.setReg u off obj v).evr = s.evr := rfl
@[simp] theorem State.setReg_tick (s : State) (u : UnitId) (off obj : Nat) (v : W32) : (s.setReg u off obj v).tick = s.tick := rfl
@[simp] theorem State.setReg_time (s : State) (u : UnitId) (off obj : Nat) (v : W32) : (s.setReg u off obj v).time = s.time := rfl
@[simp] theorem State.setReg_clk (s : State) (u : UnitId) (off obj : Nat) (v : W32) : (s.setReg u off obj v).clk = s.clk := rfl
@[simp] theorem State.setReg_lcs (s : State) (u : UnitId) (off obj : Nat) (v : W32) : (s.setReg u off obj v).lcs = s.lcs := rfl
@[simp] theorem State.setReg_upd (s : State) (u : UnitId) (off obj : Nat) (v : W32) : (s.setReg u off obj v).upd = s.upd := rfl
@[simp] theorem State.setReg_pwr (s : State) (u : UnitId) (off obj : Nat) (v : W32) : (s.setReg u off obj v).pwr = s.pwr := rfl
@[simp] theorem State.setReg_safe (s : State) (u : UnitId) (off obj : Nat) (v : W32) : (s.setReg u off obj v).safe = s.safe := rfl
@[simp] theorem State.setReg_cans (s : State) (u : UnitId) (off obj : Nat) (v : W32) : (s.setReg u off obj v).cans = s.cans := rfl
@[simp] theorem State.setReg_net (s : State) (u : UnitId) (off obj : Nat) (v : W32) : (s.setReg u off obj v).net = s.net := rfl
@[simp] theorem State.setReg_hlk (s : State) (u : UnitId) (off obj : Nat) (v : W32) : (s.setReg u off obj v).hlk = s.hlk := rfl
@[simp] theorem State.setReg_laneA (s : State) (u : UnitId) (off obj : Nat) (v : W32) : (s.setReg u off obj v).laneA = s.laneA := rfl
@[simp] theorem State.setReg_laneB (s : State) (u : UnitId) (off obj : Nat) (v : W32) : (s.setReg u off obj v).laneB = s.laneB := rfl
@[simp] theorem State.setReg_laneC (s : State) (u : UnitId) (off obj : Nat) (v : W32) : (s.setReg u off obj v).laneC = s.laneC := rfl
@[simp] theorem State.setReg_voter (s : State) (u : UnitId) (off obj : Nat) (v : W32) : (s.setReg u off obj v).voter = s.voter := rfl
@[simp] theorem State.setReg_place (s : State) (u : UnitId) (off obj : Nat) (v : W32) : (s.setReg u off obj v).place = s.place := rfl
@[simp] theorem State.setReg_pair (s : State) (u : UnitId) (off obj : Nat) (v : W32) : (s.setReg u off obj v).pair = s.pair := rfl
@[simp] theorem State.setReg_prog (s : State) (u : UnitId) (off obj : Nat) (v : W32) : (s.setReg u off obj v).prog = s.prog := rfl
@[simp] theorem State.setReg_bulk (s : State) (u : UnitId) (off obj : Nat) (v : W32) : (s.setReg u off obj v).bulk = s.bulk := rfl

/-! ### setRegPending -/

@[simp] theorem State.setRegPending_pending (s : State) (u : UnitId) (off obj : Nat) (v : W32) : (s.setRegPending u off obj v).pending = s.pending := rfl
@[simp] theorem State.setRegPending_freeCount (s : State) (u : UnitId) (off obj : Nat) (v : W32) : (s.setRegPending u off obj v).freeCount = s.freeCount := rfl
@[simp] theorem State.setRegPending_regs (s : State) (u : UnitId) (off obj : Nat) (v : W32) : (s.setRegPending u off obj v).regs = s.regs := rfl
@[simp] theorem State.setRegPending_ucbs (s : State) (u : UnitId) (off obj : Nat) (v : W32) : (s.setRegPending u off obj v).ucbs = s.ucbs := rfl
@[simp] theorem State.setRegPending_flt (s : State) (u : UnitId) (off obj : Nat) (v : W32) : (s.setRegPending u off obj v).flt = s.flt := rfl
@[simp] theorem State.setRegPending_evr (s : State) (u : UnitId) (off obj : Nat) (v : W32) : (s.setRegPending u off obj v).evr = s.evr := rfl
@[simp] theorem State.setRegPending_tick (s : State) (u : UnitId) (off obj : Nat) (v : W32) : (s.setRegPending u off obj v).tick = s.tick := rfl
@[simp] theorem State.setRegPending_time (s : State) (u : UnitId) (off obj : Nat) (v : W32) : (s.setRegPending u off obj v).time = s.time := rfl
@[simp] theorem State.setRegPending_clk (s : State) (u : UnitId) (off obj : Nat) (v : W32) : (s.setRegPending u off obj v).clk = s.clk := rfl
@[simp] theorem State.setRegPending_lcs (s : State) (u : UnitId) (off obj : Nat) (v : W32) : (s.setRegPending u off obj v).lcs = s.lcs := rfl
@[simp] theorem State.setRegPending_upd (s : State) (u : UnitId) (off obj : Nat) (v : W32) : (s.setRegPending u off obj v).upd = s.upd := rfl
@[simp] theorem State.setRegPending_pwr (s : State) (u : UnitId) (off obj : Nat) (v : W32) : (s.setRegPending u off obj v).pwr = s.pwr := rfl
@[simp] theorem State.setRegPending_safe (s : State) (u : UnitId) (off obj : Nat) (v : W32) : (s.setRegPending u off obj v).safe = s.safe := rfl
@[simp] theorem State.setRegPending_cans (s : State) (u : UnitId) (off obj : Nat) (v : W32) : (s.setRegPending u off obj v).cans = s.cans := rfl
@[simp] theorem State.setRegPending_net (s : State) (u : UnitId) (off obj : Nat) (v : W32) : (s.setRegPending u off obj v).net = s.net := rfl
@[simp] theorem State.setRegPending_hlk (s : State) (u : UnitId) (off obj : Nat) (v : W32) : (s.setRegPending u off obj v).hlk = s.hlk := rfl
@[simp] theorem State.setRegPending_laneA (s : State) (u : UnitId) (off obj : Nat) (v : W32) : (s.setRegPending u off obj v).laneA = s.laneA := rfl
@[simp] theorem State.setRegPending_laneB (s : State) (u : UnitId) (off obj : Nat) (v : W32) : (s.setRegPending u off obj v).laneB = s.laneB := rfl
@[simp] theorem State.setRegPending_laneC (s : State) (u : UnitId) (off obj : Nat) (v : W32) : (s.setRegPending u off obj v).laneC = s.laneC := rfl
@[simp] theorem State.setRegPending_voter (s : State) (u : UnitId) (off obj : Nat) (v : W32) : (s.setRegPending u off obj v).voter = s.voter := rfl
@[simp] theorem State.setRegPending_place (s : State) (u : UnitId) (off obj : Nat) (v : W32) : (s.setRegPending u off obj v).place = s.place := rfl
@[simp] theorem State.setRegPending_pair (s : State) (u : UnitId) (off obj : Nat) (v : W32) : (s.setRegPending u off obj v).pair = s.pair := rfl
@[simp] theorem State.setRegPending_prog (s : State) (u : UnitId) (off obj : Nat) (v : W32) : (s.setRegPending u off obj v).prog = s.prog := rfl
@[simp] theorem State.setRegPending_bulk (s : State) (u : UnitId) (off obj : Nat) (v : W32) : (s.setRegPending u off obj v).bulk = s.bulk := rfl

/-! ### dropSettings -/

@[simp] theorem State.dropSettings_pending (s : State) (u : UnitId) : (s.dropSettings u).pending = s.pending := rfl
@[simp] theorem State.dropSettings_freeCount (s : State) (u : UnitId) : (s.dropSettings u).freeCount = s.freeCount := rfl
@[simp] theorem State.dropSettings_ucbs (s : State) (u : UnitId) : (s.dropSettings u).ucbs = s.ucbs := rfl
@[simp] theorem State.dropSettings_flt (s : State) (u : UnitId) : (s.dropSettings u).flt = s.flt := rfl
@[simp] theorem State.dropSettings_evr (s : State) (u : UnitId) : (s.dropSettings u).evr = s.evr := rfl
@[simp] theorem State.dropSettings_tick (s : State) (u : UnitId) : (s.dropSettings u).tick = s.tick := rfl
@[simp] theorem State.dropSettings_time (s : State) (u : UnitId) : (s.dropSettings u).time = s.time := rfl
@[simp] theorem State.dropSettings_clk (s : State) (u : UnitId) : (s.dropSettings u).clk = s.clk := rfl
@[simp] theorem State.dropSettings_lcs (s : State) (u : UnitId) : (s.dropSettings u).lcs = s.lcs := rfl
@[simp] theorem State.dropSettings_upd (s : State) (u : UnitId) : (s.dropSettings u).upd = s.upd := rfl
@[simp] theorem State.dropSettings_pwr (s : State) (u : UnitId) : (s.dropSettings u).pwr = s.pwr := rfl
@[simp] theorem State.dropSettings_safe (s : State) (u : UnitId) : (s.dropSettings u).safe = s.safe := rfl
@[simp] theorem State.dropSettings_cans (s : State) (u : UnitId) : (s.dropSettings u).cans = s.cans := rfl
@[simp] theorem State.dropSettings_net (s : State) (u : UnitId) : (s.dropSettings u).net = s.net := rfl
@[simp] theorem State.dropSettings_hlk (s : State) (u : UnitId) : (s.dropSettings u).hlk = s.hlk := rfl
@[simp] theorem State.dropSettings_laneA (s : State) (u : UnitId) : (s.dropSettings u).laneA = s.laneA := rfl
@[simp] theorem State.dropSettings_laneB (s : State) (u : UnitId) : (s.dropSettings u).laneB = s.laneB := rfl
@[simp] theorem State.dropSettings_laneC (s : State) (u : UnitId) : (s.dropSettings u).laneC = s.laneC := rfl
@[simp] theorem State.dropSettings_voter (s : State) (u : UnitId) : (s.dropSettings u).voter = s.voter := rfl
@[simp] theorem State.dropSettings_place (s : State) (u : UnitId) : (s.dropSettings u).place = s.place := rfl
@[simp] theorem State.dropSettings_pair (s : State) (u : UnitId) : (s.dropSettings u).pair = s.pair := rfl
@[simp] theorem State.dropSettings_prog (s : State) (u : UnitId) : (s.dropSettings u).prog = s.prog := rfl
@[simp] theorem State.dropSettings_bulk (s : State) (u : UnitId) : (s.dropSettings u).bulk = s.bulk := rfl

/-! ### setDout -/

@[simp] theorem State.setDout_pending (s : State) (m : Nat) (d : DoState) : (s.setDout m d).pending = s.pending := rfl
@[simp] theorem State.setDout_freeCount (s : State) (m : Nat) (d : DoState) : (s.setDout m d).freeCount = s.freeCount := rfl
@[simp] theorem State.setDout_regs (s : State) (m : Nat) (d : DoState) : (s.setDout m d).regs = s.regs := rfl
@[simp] theorem State.setDout_regsPending (s : State) (m : Nat) (d : DoState) : (s.setDout m d).regsPending = s.regsPending := rfl
@[simp] theorem State.setDout_ucbs (s : State) (m : Nat) (d : DoState) : (s.setDout m d).ucbs = s.ucbs := rfl
@[simp] theorem State.setDout_flt (s : State) (m : Nat) (d : DoState) : (s.setDout m d).flt = s.flt := rfl
@[simp] theorem State.setDout_evr (s : State) (m : Nat) (d : DoState) : (s.setDout m d).evr = s.evr := rfl
@[simp] theorem State.setDout_tick (s : State) (m : Nat) (d : DoState) : (s.setDout m d).tick = s.tick := rfl
@[simp] theorem State.setDout_time (s : State) (m : Nat) (d : DoState) : (s.setDout m d).time = s.time := rfl
@[simp] theorem State.setDout_clk (s : State) (m : Nat) (d : DoState) : (s.setDout m d).clk = s.clk := rfl
@[simp] theorem State.setDout_lcs (s : State) (m : Nat) (d : DoState) : (s.setDout m d).lcs = s.lcs := rfl
@[simp] theorem State.setDout_upd (s : State) (m : Nat) (d : DoState) : (s.setDout m d).upd = s.upd := rfl
@[simp] theorem State.setDout_pwr (s : State) (m : Nat) (d : DoState) : (s.setDout m d).pwr = s.pwr := rfl
@[simp] theorem State.setDout_cans (s : State) (m : Nat) (d : DoState) : (s.setDout m d).cans = s.cans := rfl
@[simp] theorem State.setDout_net (s : State) (m : Nat) (d : DoState) : (s.setDout m d).net = s.net := rfl
@[simp] theorem State.setDout_hlk (s : State) (m : Nat) (d : DoState) : (s.setDout m d).hlk = s.hlk := rfl
@[simp] theorem State.setDout_laneA (s : State) (m : Nat) (d : DoState) : (s.setDout m d).laneA = s.laneA := rfl
@[simp] theorem State.setDout_laneB (s : State) (m : Nat) (d : DoState) : (s.setDout m d).laneB = s.laneB := rfl
@[simp] theorem State.setDout_laneC (s : State) (m : Nat) (d : DoState) : (s.setDout m d).laneC = s.laneC := rfl
@[simp] theorem State.setDout_voter (s : State) (m : Nat) (d : DoState) : (s.setDout m d).voter = s.voter := rfl
@[simp] theorem State.setDout_place (s : State) (m : Nat) (d : DoState) : (s.setDout m d).place = s.place := rfl
@[simp] theorem State.setDout_pair (s : State) (m : Nat) (d : DoState) : (s.setDout m d).pair = s.pair := rfl
@[simp] theorem State.setDout_prog (s : State) (m : Nat) (d : DoState) : (s.setDout m d).prog = s.prog := rfl
@[simp] theorem State.setDout_bulk (s : State) (m : Nat) (d : DoState) : (s.setDout m d).bulk = s.bulk := rfl

/-! ### setLane -/

@[simp] theorem State.setLane_pending (s : State) (l : Lane) (x : LaneSt) : (s.setLane l x).pending = s.pending := match l with | .a => rfl | .b => rfl | .c => rfl
@[simp] theorem State.setLane_freeCount (s : State) (l : Lane) (x : LaneSt) : (s.setLane l x).freeCount = s.freeCount := match l with | .a => rfl | .b => rfl | .c => rfl
@[simp] theorem State.setLane_regs (s : State) (l : Lane) (x : LaneSt) : (s.setLane l x).regs = s.regs := match l with | .a => rfl | .b => rfl | .c => rfl
@[simp] theorem State.setLane_regsPending (s : State) (l : Lane) (x : LaneSt) : (s.setLane l x).regsPending = s.regsPending := match l with | .a => rfl | .b => rfl | .c => rfl
@[simp] theorem State.setLane_ucbs (s : State) (l : Lane) (x : LaneSt) : (s.setLane l x).ucbs = s.ucbs := match l with | .a => rfl | .b => rfl | .c => rfl
@[simp] theorem State.setLane_flt (s : State) (l : Lane) (x : LaneSt) : (s.setLane l x).flt = s.flt := match l with | .a => rfl | .b => rfl | .c => rfl
@[simp] theorem State.setLane_evr (s : State) (l : Lane) (x : LaneSt) : (s.setLane l x).evr = s.evr := match l with | .a => rfl | .b => rfl | .c => rfl
@[simp] theorem State.setLane_tick (s : State) (l : Lane) (x : LaneSt) : (s.setLane l x).tick = s.tick := match l with | .a => rfl | .b => rfl | .c => rfl
@[simp] theorem State.setLane_time (s : State) (l : Lane) (x : LaneSt) : (s.setLane l x).time = s.time := match l with | .a => rfl | .b => rfl | .c => rfl
@[simp] theorem State.setLane_clk (s : State) (l : Lane) (x : LaneSt) : (s.setLane l x).clk = s.clk := match l with | .a => rfl | .b => rfl | .c => rfl
@[simp] theorem State.setLane_lcs (s : State) (l : Lane) (x : LaneSt) : (s.setLane l x).lcs = s.lcs := match l with | .a => rfl | .b => rfl | .c => rfl
@[simp] theorem State.setLane_upd (s : State) (l : Lane) (x : LaneSt) : (s.setLane l x).upd = s.upd := match l with | .a => rfl | .b => rfl | .c => rfl
@[simp] theorem State.setLane_pwr (s : State) (l : Lane) (x : LaneSt) : (s.setLane l x).pwr = s.pwr := match l with | .a => rfl | .b => rfl | .c => rfl
@[simp] theorem State.setLane_safe (s : State) (l : Lane) (x : LaneSt) : (s.setLane l x).safe = s.safe := match l with | .a => rfl | .b => rfl | .c => rfl
@[simp] theorem State.setLane_cans (s : State) (l : Lane) (x : LaneSt) : (s.setLane l x).cans = s.cans := match l with | .a => rfl | .b => rfl | .c => rfl
@[simp] theorem State.setLane_net (s : State) (l : Lane) (x : LaneSt) : (s.setLane l x).net = s.net := match l with | .a => rfl | .b => rfl | .c => rfl
@[simp] theorem State.setLane_hlk (s : State) (l : Lane) (x : LaneSt) : (s.setLane l x).hlk = s.hlk := match l with | .a => rfl | .b => rfl | .c => rfl
@[simp] theorem State.setLane_voter (s : State) (l : Lane) (x : LaneSt) : (s.setLane l x).voter = s.voter := match l with | .a => rfl | .b => rfl | .c => rfl
@[simp] theorem State.setLane_place (s : State) (l : Lane) (x : LaneSt) : (s.setLane l x).place = s.place := match l with | .a => rfl | .b => rfl | .c => rfl
@[simp] theorem State.setLane_pair (s : State) (l : Lane) (x : LaneSt) : (s.setLane l x).pair = s.pair := match l with | .a => rfl | .b => rfl | .c => rfl
@[simp] theorem State.setLane_prog (s : State) (l : Lane) (x : LaneSt) : (s.setLane l x).prog = s.prog := match l with | .a => rfl | .b => rfl | .c => rfl
@[simp] theorem State.setLane_bulk (s : State) (l : Lane) (x : LaneSt) : (s.setLane l x).bulk = s.bulk := match l with | .a => rfl | .b => rfl | .c => rfl

/-! ### setCtx -/

@[simp] theorem State.setCtx_pending (s : State) (l : Lane) (k : CtxKind) (c : LaneCtx) : (s.setCtx l k c).pending = s.pending := match l with | .a => rfl | .b => rfl | .c => rfl
@[simp] theorem State.setCtx_freeCount (s : State) (l : Lane) (k : CtxKind) (c : LaneCtx) : (s.setCtx l k c).freeCount = s.freeCount := match l with | .a => rfl | .b => rfl | .c => rfl
@[simp] theorem State.setCtx_regs (s : State) (l : Lane) (k : CtxKind) (c : LaneCtx) : (s.setCtx l k c).regs = s.regs := match l with | .a => rfl | .b => rfl | .c => rfl
@[simp] theorem State.setCtx_regsPending (s : State) (l : Lane) (k : CtxKind) (c : LaneCtx) : (s.setCtx l k c).regsPending = s.regsPending := match l with | .a => rfl | .b => rfl | .c => rfl
@[simp] theorem State.setCtx_ucbs (s : State) (l : Lane) (k : CtxKind) (c : LaneCtx) : (s.setCtx l k c).ucbs = s.ucbs := match l with | .a => rfl | .b => rfl | .c => rfl
@[simp] theorem State.setCtx_flt (s : State) (l : Lane) (k : CtxKind) (c : LaneCtx) : (s.setCtx l k c).flt = s.flt := match l with | .a => rfl | .b => rfl | .c => rfl
@[simp] theorem State.setCtx_evr (s : State) (l : Lane) (k : CtxKind) (c : LaneCtx) : (s.setCtx l k c).evr = s.evr := match l with | .a => rfl | .b => rfl | .c => rfl
@[simp] theorem State.setCtx_tick (s : State) (l : Lane) (k : CtxKind) (c : LaneCtx) : (s.setCtx l k c).tick = s.tick := match l with | .a => rfl | .b => rfl | .c => rfl
@[simp] theorem State.setCtx_time (s : State) (l : Lane) (k : CtxKind) (c : LaneCtx) : (s.setCtx l k c).time = s.time := match l with | .a => rfl | .b => rfl | .c => rfl
@[simp] theorem State.setCtx_clk (s : State) (l : Lane) (k : CtxKind) (c : LaneCtx) : (s.setCtx l k c).clk = s.clk := match l with | .a => rfl | .b => rfl | .c => rfl
@[simp] theorem State.setCtx_lcs (s : State) (l : Lane) (k : CtxKind) (c : LaneCtx) : (s.setCtx l k c).lcs = s.lcs := match l with | .a => rfl | .b => rfl | .c => rfl
@[simp] theorem State.setCtx_upd (s : State) (l : Lane) (k : CtxKind) (c : LaneCtx) : (s.setCtx l k c).upd = s.upd := match l with | .a => rfl | .b => rfl | .c => rfl
@[simp] theorem State.setCtx_pwr (s : State) (l : Lane) (k : CtxKind) (c : LaneCtx) : (s.setCtx l k c).pwr = s.pwr := match l with | .a => rfl | .b => rfl | .c => rfl
@[simp] theorem State.setCtx_safe (s : State) (l : Lane) (k : CtxKind) (c : LaneCtx) : (s.setCtx l k c).safe = s.safe := match l with | .a => rfl | .b => rfl | .c => rfl
@[simp] theorem State.setCtx_cans (s : State) (l : Lane) (k : CtxKind) (c : LaneCtx) : (s.setCtx l k c).cans = s.cans := match l with | .a => rfl | .b => rfl | .c => rfl
@[simp] theorem State.setCtx_net (s : State) (l : Lane) (k : CtxKind) (c : LaneCtx) : (s.setCtx l k c).net = s.net := match l with | .a => rfl | .b => rfl | .c => rfl
@[simp] theorem State.setCtx_hlk (s : State) (l : Lane) (k : CtxKind) (c : LaneCtx) : (s.setCtx l k c).hlk = s.hlk := match l with | .a => rfl | .b => rfl | .c => rfl
@[simp] theorem State.setCtx_voter (s : State) (l : Lane) (k : CtxKind) (c : LaneCtx) : (s.setCtx l k c).voter = s.voter := match l with | .a => rfl | .b => rfl | .c => rfl
@[simp] theorem State.setCtx_place (s : State) (l : Lane) (k : CtxKind) (c : LaneCtx) : (s.setCtx l k c).place = s.place := match l with | .a => rfl | .b => rfl | .c => rfl
@[simp] theorem State.setCtx_pair (s : State) (l : Lane) (k : CtxKind) (c : LaneCtx) : (s.setCtx l k c).pair = s.pair := match l with | .a => rfl | .b => rfl | .c => rfl
@[simp] theorem State.setCtx_prog (s : State) (l : Lane) (k : CtxKind) (c : LaneCtx) : (s.setCtx l k c).prog = s.prog := match l with | .a => rfl | .b => rfl | .c => rfl
@[simp] theorem State.setCtx_bulk (s : State) (l : Lane) (k : CtxKind) (c : LaneCtx) : (s.setCtx l k c).bulk = s.bulk := match l with | .a => rfl | .b => rfl | .c => rfl

/-! ### Lanes and contexts -/

@[simp] theorem State.lane_setLane (s : State) (l : Lane) (x : LaneSt) : (s.setLane l x).lane l = x :=
  match l with | .a => rfl | .b => rfl | .c => rfl

theorem State.lane_setLane_ne (s : State) {l m : Lane} (h : m ≠ l) (x : LaneSt) : (s.setLane l x).lane m = s.lane m := by
  cases l <;> cases m <;> first | rfl | exact absurd rfl h

@[simp] theorem State.setLane_setLane (s : State) (l : Lane) (x y : LaneSt) : (s.setLane l x).setLane l y = s.setLane l y :=
  match l with | .a => rfl | .b => rfl | .c => rfl

@[simp] theorem State.setLane_lane (s : State) (l : Lane) : s.setLane l (s.lane l) = s :=
  match l with | .a => rfl | .b => rfl | .c => rfl

@[simp] theorem LaneSt.ctx_setCtx (x : LaneSt) (k : CtxKind) (c : LaneCtx) : (x.setCtx k c).ctx k = c :=
  match k with | .safety => rfl | .timed => rfl | .skip => rfl | .free => rfl

theorem LaneSt.ctx_setCtx_ne (x : LaneSt) {k j : CtxKind} (h : j ≠ k) (c : LaneCtx) : (x.setCtx k c).ctx j = x.ctx j := by
  cases k <;> cases j <;> first | rfl | exact absurd rfl h

@[simp] theorem LaneSt.setCtx_setCtx (x : LaneSt) (k : CtxKind) (c d : LaneCtx) : (x.setCtx k c).setCtx k d = x.setCtx k d :=
  match k with | .safety => rfl | .timed => rfl | .skip => rfl | .free => rfl

@[simp] theorem LaneSt.setCtx_role (x : LaneSt) (k : CtxKind) (c : LaneCtx) : (x.setCtx k c).role = x.role :=
  match k with | .safety => rfl | .timed => rfl | .skip => rfl | .free => rfl
@[simp] theorem LaneSt.setCtx_bist (x : LaneSt) (k : CtxKind) (c : LaneCtx) : (x.setCtx k c).bist = x.bist :=
  match k with | .safety => rfl | .timed => rfl | .skip => rfl | .free => rfl
@[simp] theorem LaneSt.setCtx_current (x : LaneSt) (k : CtxKind) (c : LaneCtx) : (x.setCtx k c).current = x.current :=
  match k with | .safety => rfl | .timed => rfl | .skip => rfl | .free => rfl
@[simp] theorem LaneSt.setCtx_mem (x : LaneSt) (k : CtxKind) (c : LaneCtx) : (x.setCtx k c).mem = x.mem :=
  match k with | .safety => rfl | .timed => rfl | .skip => rfl | .free => rfl
@[simp] theorem LaneSt.setCtx_tracked (x : LaneSt) (k : CtxKind) (c : LaneCtx) : (x.setCtx k c).tracked = x.tracked :=
  match k with | .safety => rfl | .timed => rfl | .skip => rfl | .free => rfl
@[simp] theorem LaneSt.setCtx_in0 (x : LaneSt) (k : CtxKind) (c : LaneCtx) : (x.setCtx k c).in0 = x.in0 :=
  match k with | .safety => rfl | .timed => rfl | .skip => rfl | .free => rfl
@[simp] theorem LaneSt.setCtx_in1 (x : LaneSt) (k : CtxKind) (c : LaneCtx) : (x.setCtx k c).in1 = x.in1 :=
  match k with | .safety => rfl | .timed => rfl | .skip => rfl | .free => rfl
@[simp] theorem LaneSt.setCtx_in2 (x : LaneSt) (k : CtxKind) (c : LaneCtx) : (x.setCtx k c).in2 = x.in2 :=
  match k with | .safety => rfl | .timed => rfl | .skip => rfl | .free => rfl
@[simp] theorem LaneSt.setCtx_queue (x : LaneSt) (k : CtxKind) (c : LaneCtx) : (x.setCtx k c).queue = x.queue :=
  match k with | .safety => rfl | .timed => rfl | .skip => rfl | .free => rfl
@[simp] theorem LaneSt.setCtx_spill (x : LaneSt) (k : CtxKind) (c : LaneCtx) : (x.setCtx k c).spill = x.spill :=
  match k with | .safety => rfl | .timed => rfl | .skip => rfl | .free => rfl
@[simp] theorem LaneSt.setCtx_excl (x : LaneSt) (k : CtxKind) (c : LaneCtx) : (x.setCtx k c).excl = x.excl :=
  match k with | .safety => rfl | .timed => rfl | .skip => rfl | .free => rfl
@[simp] theorem LaneSt.setCtx_latent (x : LaneSt) (k : CtxKind) (c : LaneCtx) : (x.setCtx k c).latent = x.latent :=
  match k with | .safety => rfl | .timed => rfl | .skip => rfl | .free => rfl
@[simp] theorem LaneSt.setCtx_dis (x : LaneSt) (k : CtxKind) (c : LaneCtx) : (x.setCtx k c).dis = x.dis :=
  match k with | .safety => rfl | .timed => rfl | .skip => rfl | .free => rfl
@[simp] theorem LaneSt.setCtx_corrected (x : LaneSt) (k : CtxKind) (c : LaneCtx) : (x.setCtx k c).corrected = x.corrected :=
  match k with | .safety => rfl | .timed => rfl | .skip => rfl | .free => rfl
@[simp] theorem LaneSt.setCtx_uncorrected (x : LaneSt) (k : CtxKind) (c : LaneCtx) : (x.setCtx k c).uncorrected = x.uncorrected :=
  match k with | .safety => rfl | .timed => rfl | .skip => rfl | .free => rfl

@[simp] theorem State.ctx_setCtx (s : State) (l : Lane) (k : CtxKind) (c : LaneCtx) : ((s.setCtx l k c).lane l).ctx k = c := by
  simp [State.setCtx]

theorem State.lane_setCtx_ne (s : State) {l m : Lane} (h : m ≠ l) (k : CtxKind) (c : LaneCtx) : (s.setCtx l k c).lane m = s.lane m :=
  State.lane_setLane_ne s h _

@[simp] theorem State.lane_setCtx (s : State) (l : Lane) (k : CtxKind) (c : LaneCtx) :
    (s.setCtx l k c).lane l = (s.lane l).setCtx k c := by
  simp [State.setCtx]

/-! ### Entries of the tables -/

@[simp] theorem State.can_setCan (s : State) (n : Fin 6) (c : CanState) : (s.setCan n c).can n = c := mapGetD_put_same ..

theorem State.can_setCan_ne (s : State) {n m : Fin 6} (h : m ≠ n) (c : CanState) : (s.setCan n c).can m = s.can m :=
  mapGetD_put_ne (fun e => h (Fin.ext e)) ..

@[simp] theorem State.eth_setEth (s : State) (x : Fin 4) (e : EthState) : (s.setEth x e).eth x = e := mapGetD_put_same ..

theorem State.eth_setEth_ne (s : State) {x y : Fin 4} (h : y ≠ x) (e : EthState) : (s.setEth x e).eth y = s.eth y :=
  mapGetD_put_ne (fun e => h (Fin.ext e)) ..

@[simp] theorem State.ser_setSer (s : State) (x : Fin 4) (e : SerState) : (s.setSer x e).ser x = e := mapGetD_put_same ..

theorem State.ser_setSer_ne (s : State) {x y : Fin 4} (h : y ≠ x) (e : SerState) : (s.setSer x e).ser y = s.ser y :=
  mapGetD_put_ne (fun e => h (Fin.ext e)) ..

@[simp] theorem State.card_setCard (s : State) (n : Nat) (c : CardState) : (s.setCard n c).card n = c := mapGetD_put_same ..

theorem State.card_setCard_ne (s : State) {n m : Nat} (h : m ≠ n) (c : CardState) : (s.setCard n c).card m = s.card m :=
  mapGetD_put_ne h ..

@[simp] theorem State.link_setLink (s : State) (n : Nat) (k : LinkState) : (s.setLink n k).link n = k := mapGetD_put_same ..

theorem State.link_setLink_ne (s : State) {n m : Nat} (h : m ≠ n) (k : LinkState) : (s.setLink n k).link m = s.link m :=
  mapGetD_put_ne h ..

@[simp] theorem State.dout_setDout (s : State) (m : Nat) (d : DoState) : (s.setDout m d).dout m = d := mapGetD_put_same ..

theorem State.dout_setDout_ne (s : State) {m n : Nat} (h : n ≠ m) (d : DoState) : (s.setDout m d).dout n = s.dout n :=
  mapGetD_put_ne h ..

/-! ### Settings -/

@[simp] theorem State.reg_setReg (s : State) (u : UnitId) (off obj : Nat) (v : W32) : (s.setReg u off obj v).reg u off obj = v :=
  mapGetD_put_same ..

@[simp] theorem State.regNext_setRegPending (s : State) (u : UnitId) (off obj : Nat) (v : W32) :
    (s.setRegPending u off obj v).regNext u off obj = v := by
  simp [State.regNext, State.setRegPending]

/-! ### Register files -/

@[simp] theorem LaneCtx.rd_zero (c : LaneCtx) : c.rd 0 = 0 := rfl

@[simp] theorem LaneCtx.wr_zero (c : LaneCtx) (v : W64) : c.wr 0 v = c := rfl

theorem LaneCtx.rd_wr (c : LaneCtx) {i : Nat} (h : i ≠ 0) (hi : i < 32) (v : W64) : (c.wr i v).rd i = v := by
  simp [LaneCtx.rd, LaneCtx.wr, h, hi]

theorem LaneCtx.rd_wr_ne (c : LaneCtx) {i j : Nat} (h : j ≠ i) (v : W64) : (c.wr i v).rd j = c.rd j := by
  simp only [LaneCtx.rd, LaneCtx.wr]
  split
  · rfl
  · split
    · rfl
    · rw [Vector.getElem?_setIfInBounds_ne (Ne.symm h)]

@[simp] theorem LaneCtx.wr_busy (c : LaneCtx) (i : Nat) (v : W64) : (c.wr i v).busy = c.busy := by unfold LaneCtx.wr; split <;> rfl
@[simp] theorem LaneCtx.wr_pc (c : LaneCtx) (i : Nat) (v : W64) : (c.wr i v).pc = c.pc := by unfold LaneCtx.wr; split <;> rfl
@[simp] theorem LaneCtx.wr_ib (c : LaneCtx) (i : Nat) (v : W64) : (c.wr i v).ib = c.ib := by unfold LaneCtx.wr; split <;> rfl
@[simp] theorem LaneCtx.wr_sp (c : LaneCtx) (i : Nat) (v : W64) : (c.wr i v).sp = c.sp := by unfold LaneCtx.wr; split <;> rfl
@[simp] theorem LaneCtx.wr_tk (c : LaneCtx) (i : Nat) (v : W64) : (c.wr i v).tk = c.tk := by unfold LaneCtx.wr; split <;> rfl
@[simp] theorem LaneCtx.wr_cf (c : LaneCtx) (i : Nat) (v : W64) : (c.wr i v).cf = c.cf := by unfold LaneCtx.wr; split <;> rfl
@[simp] theorem LaneCtx.wr_qf (c : LaneCtx) (i : Nat) (v : W64) : (c.wr i v).qf = c.qf := by unfold LaneCtx.wr; split <;> rfl
@[simp] theorem LaneCtx.wr_depth (c : LaneCtx) (i : Nat) (v : W64) : (c.wr i v).depth = c.depth := by unfold LaneCtx.wr; split <;> rfl
@[simp] theorem LaneCtx.wr_task (c : LaneCtx) (i : Nat) (v : W64) : (c.wr i v).task = c.task := by unfold LaneCtx.wr; split <;> rfl
@[simp] theorem LaneCtx.wr_inst (c : LaneCtx) (i : Nat) (v : W64) : (c.wr i v).inst = c.inst := by unfold LaneCtx.wr; split <;> rfl
@[simp] theorem LaneCtx.wr_todo (c : LaneCtx) (i : Nat) (v : W64) : (c.wr i v).todo = c.todo := by unfold LaneCtx.wr; split <;> rfl
@[simp] theorem LaneCtx.wr_opened (c : LaneCtx) (i : Nat) (v : W64) : (c.wr i v).opened = c.opened := by unfold LaneCtx.wr; split <;> rfl
@[simp] theorem LaneCtx.wr_buf (c : LaneCtx) (i : Nat) (v : W64) : (c.wr i v).buf = c.buf := by unfold LaneCtx.wr; split <;> rfl
@[simp] theorem LaneCtx.wr_time (c : LaneCtx) (i : Nat) (v : W64) : (c.wr i v).time = c.time := by unfold LaneCtx.wr; split <;> rfl
@[simp] theorem LaneCtx.wr_out (c : LaneCtx) (i : Nat) (v : W64) : (c.wr i v).out = c.out := by unfold LaneCtx.wr; split <;> rfl
@[simp] theorem LaneCtx.wr_outTags (c : LaneCtx) (i : Nat) (v : W64) : (c.wr i v).outTags = c.outTags := by unfold LaneCtx.wr; split <;> rfl
@[simp] theorem LaneCtx.wr_sends (c : LaneCtx) (i : Nat) (v : W64) : (c.wr i v).sends = c.sends := by unfold LaneCtx.wr; split <;> rfl
@[simp] theorem LaneCtx.wr_msgs (c : LaneCtx) (i : Nat) (v : W64) : (c.wr i v).msgs = c.msgs := by unfold LaneCtx.wr; split <;> rfl
@[simp] theorem LaneCtx.wr_uwrErr (c : LaneCtx) (i : Nat) (v : W64) : (c.wr i v).uwrErr = c.uwrErr := by unfold LaneCtx.wr; split <;> rfl
@[simp] theorem LaneCtx.wr_wait (c : LaneCtx) (i : Nat) (v : W64) : (c.wr i v).wait = c.wait := by unfold LaneCtx.wr; split <;> rfl
@[simp] theorem LaneCtx.wr_loads (c : LaneCtx) (i : Nat) (v : W64) : (c.wr i v).loads = c.loads := by unfold LaneCtx.wr; split <;> rfl
@[simp] theorem LaneCtx.wr_yielded (c : LaneCtx) (i : Nat) (v : W64) : (c.wr i v).yielded = c.yielded := by unfold LaneCtx.wr; split <;> rfl
@[simp] theorem LaneCtx.wr_began (c : LaneCtx) (i : Nat) (v : W64) : (c.wr i v).began = c.began := by unfold LaneCtx.wr; split <;> rfl
@[simp] theorem LaneCtx.wr_share (c : LaneCtx) (i : Nat) (v : W64) : (c.wr i v).share = c.share := by unfold LaneCtx.wr; split <;> rfl
@[simp] theorem LaneCtx.wr_ending (c : LaneCtx) (i : Nat) (v : W64) : (c.wr i v).ending = c.ending := by unfold LaneCtx.wr; split <;> rfl
@[simp] theorem LaneCtx.past_busy (c : LaneCtx) (n : Nat) : (c.past n).busy = c.busy := rfl
@[simp] theorem LaneCtx.past_gs (c : LaneCtx) (n : Nat) : (c.past n).gs = c.gs := rfl
@[simp] theorem LaneCtx.past_ib (c : LaneCtx) (n : Nat) : (c.past n).ib = c.ib := rfl
@[simp] theorem LaneCtx.past_sp (c : LaneCtx) (n : Nat) : (c.past n).sp = c.sp := rfl
@[simp] theorem LaneCtx.past_tk (c : LaneCtx) (n : Nat) : (c.past n).tk = c.tk := rfl
@[simp] theorem LaneCtx.past_cf (c : LaneCtx) (n : Nat) : (c.past n).cf = c.cf := rfl
@[simp] theorem LaneCtx.past_qf (c : LaneCtx) (n : Nat) : (c.past n).qf = c.qf := rfl
@[simp] theorem LaneCtx.past_depth (c : LaneCtx) (n : Nat) : (c.past n).depth = c.depth := rfl
@[simp] theorem LaneCtx.past_task (c : LaneCtx) (n : Nat) : (c.past n).task = c.task := rfl
@[simp] theorem LaneCtx.past_inst (c : LaneCtx) (n : Nat) : (c.past n).inst = c.inst := rfl
@[simp] theorem LaneCtx.past_todo (c : LaneCtx) (n : Nat) : (c.past n).todo = c.todo := rfl
@[simp] theorem LaneCtx.past_opened (c : LaneCtx) (n : Nat) : (c.past n).opened = c.opened := rfl
@[simp] theorem LaneCtx.past_buf (c : LaneCtx) (n : Nat) : (c.past n).buf = c.buf := rfl
@[simp] theorem LaneCtx.past_time (c : LaneCtx) (n : Nat) : (c.past n).time = c.time := rfl
@[simp] theorem LaneCtx.past_out (c : LaneCtx) (n : Nat) : (c.past n).out = c.out := rfl
@[simp] theorem LaneCtx.past_outTags (c : LaneCtx) (n : Nat) : (c.past n).outTags = c.outTags := rfl
@[simp] theorem LaneCtx.past_sends (c : LaneCtx) (n : Nat) : (c.past n).sends = c.sends := rfl
@[simp] theorem LaneCtx.past_msgs (c : LaneCtx) (n : Nat) : (c.past n).msgs = c.msgs := rfl
@[simp] theorem LaneCtx.past_uwrErr (c : LaneCtx) (n : Nat) : (c.past n).uwrErr = c.uwrErr := rfl
@[simp] theorem LaneCtx.past_wait (c : LaneCtx) (n : Nat) : (c.past n).wait = c.wait := rfl
@[simp] theorem LaneCtx.past_loads (c : LaneCtx) (n : Nat) : (c.past n).loads = c.loads := rfl
@[simp] theorem LaneCtx.past_yielded (c : LaneCtx) (n : Nat) : (c.past n).yielded = c.yielded := rfl
@[simp] theorem LaneCtx.past_began (c : LaneCtx) (n : Nat) : (c.past n).began = c.began := rfl
@[simp] theorem LaneCtx.past_share (c : LaneCtx) (n : Nat) : (c.past n).share = c.share := rfl
@[simp] theorem LaneCtx.past_ending (c : LaneCtx) (n : Nat) : (c.past n).ending = c.ending := rfl

@[simp] theorem LaneCtx.settle_busy (c : LaneCtx) (rs : List Nat) : (c.settle rs).busy = c.busy := by
  have h (ds : List BulkLoad) (c : LaneCtx) : (ds.foldl (fun c d => c.wr d.rd d.value) c).busy = c.busy := by
    induction ds generalizing c with
    | nil => rfl
    | cons d ds ih => rw [List.foldl_cons, ih, LaneCtx.wr_busy]
  exact h _ _

@[simp] theorem LaneCtx.settle_pc (c : LaneCtx) (rs : List Nat) : (c.settle rs).pc = c.pc := by
  have h (ds : List BulkLoad) (c : LaneCtx) : (ds.foldl (fun c d => c.wr d.rd d.value) c).pc = c.pc := by
    induction ds generalizing c with
    | nil => rfl
    | cons d ds ih => rw [List.foldl_cons, ih, LaneCtx.wr_pc]
  exact h _ _

@[simp] theorem LaneCtx.settle_ib (c : LaneCtx) (rs : List Nat) : (c.settle rs).ib = c.ib := by
  have h (ds : List BulkLoad) (c : LaneCtx) : (ds.foldl (fun c d => c.wr d.rd d.value) c).ib = c.ib := by
    induction ds generalizing c with
    | nil => rfl
    | cons d ds ih => rw [List.foldl_cons, ih, LaneCtx.wr_ib]
  exact h _ _

@[simp] theorem LaneCtx.settle_sp (c : LaneCtx) (rs : List Nat) : (c.settle rs).sp = c.sp := by
  have h (ds : List BulkLoad) (c : LaneCtx) : (ds.foldl (fun c d => c.wr d.rd d.value) c).sp = c.sp := by
    induction ds generalizing c with
    | nil => rfl
    | cons d ds ih => rw [List.foldl_cons, ih, LaneCtx.wr_sp]
  exact h _ _

@[simp] theorem LaneCtx.settle_tk (c : LaneCtx) (rs : List Nat) : (c.settle rs).tk = c.tk := by
  have h (ds : List BulkLoad) (c : LaneCtx) : (ds.foldl (fun c d => c.wr d.rd d.value) c).tk = c.tk := by
    induction ds generalizing c with
    | nil => rfl
    | cons d ds ih => rw [List.foldl_cons, ih, LaneCtx.wr_tk]
  exact h _ _

@[simp] theorem LaneCtx.settle_cf (c : LaneCtx) (rs : List Nat) : (c.settle rs).cf = c.cf := by
  have h (ds : List BulkLoad) (c : LaneCtx) : (ds.foldl (fun c d => c.wr d.rd d.value) c).cf = c.cf := by
    induction ds generalizing c with
    | nil => rfl
    | cons d ds ih => rw [List.foldl_cons, ih, LaneCtx.wr_cf]
  exact h _ _

@[simp] theorem LaneCtx.settle_qf (c : LaneCtx) (rs : List Nat) : (c.settle rs).qf = c.qf := by
  have h (ds : List BulkLoad) (c : LaneCtx) : (ds.foldl (fun c d => c.wr d.rd d.value) c).qf = c.qf := by
    induction ds generalizing c with
    | nil => rfl
    | cons d ds ih => rw [List.foldl_cons, ih, LaneCtx.wr_qf]
  exact h _ _

@[simp] theorem LaneCtx.settle_depth (c : LaneCtx) (rs : List Nat) : (c.settle rs).depth = c.depth := by
  have h (ds : List BulkLoad) (c : LaneCtx) : (ds.foldl (fun c d => c.wr d.rd d.value) c).depth = c.depth := by
    induction ds generalizing c with
    | nil => rfl
    | cons d ds ih => rw [List.foldl_cons, ih, LaneCtx.wr_depth]
  exact h _ _

@[simp] theorem LaneCtx.settle_task (c : LaneCtx) (rs : List Nat) : (c.settle rs).task = c.task := by
  have h (ds : List BulkLoad) (c : LaneCtx) : (ds.foldl (fun c d => c.wr d.rd d.value) c).task = c.task := by
    induction ds generalizing c with
    | nil => rfl
    | cons d ds ih => rw [List.foldl_cons, ih, LaneCtx.wr_task]
  exact h _ _

@[simp] theorem LaneCtx.settle_inst (c : LaneCtx) (rs : List Nat) : (c.settle rs).inst = c.inst := by
  have h (ds : List BulkLoad) (c : LaneCtx) : (ds.foldl (fun c d => c.wr d.rd d.value) c).inst = c.inst := by
    induction ds generalizing c with
    | nil => rfl
    | cons d ds ih => rw [List.foldl_cons, ih, LaneCtx.wr_inst]
  exact h _ _

@[simp] theorem LaneCtx.settle_todo (c : LaneCtx) (rs : List Nat) : (c.settle rs).todo = c.todo := by
  have h (ds : List BulkLoad) (c : LaneCtx) : (ds.foldl (fun c d => c.wr d.rd d.value) c).todo = c.todo := by
    induction ds generalizing c with
    | nil => rfl
    | cons d ds ih => rw [List.foldl_cons, ih, LaneCtx.wr_todo]
  exact h _ _

@[simp] theorem LaneCtx.settle_opened (c : LaneCtx) (rs : List Nat) : (c.settle rs).opened = c.opened := by
  have h (ds : List BulkLoad) (c : LaneCtx) : (ds.foldl (fun c d => c.wr d.rd d.value) c).opened = c.opened := by
    induction ds generalizing c with
    | nil => rfl
    | cons d ds ih => rw [List.foldl_cons, ih, LaneCtx.wr_opened]
  exact h _ _

@[simp] theorem LaneCtx.settle_buf (c : LaneCtx) (rs : List Nat) : (c.settle rs).buf = c.buf := by
  have h (ds : List BulkLoad) (c : LaneCtx) : (ds.foldl (fun c d => c.wr d.rd d.value) c).buf = c.buf := by
    induction ds generalizing c with
    | nil => rfl
    | cons d ds ih => rw [List.foldl_cons, ih, LaneCtx.wr_buf]
  exact h _ _

@[simp] theorem LaneCtx.settle_time (c : LaneCtx) (rs : List Nat) : (c.settle rs).time = c.time := by
  have h (ds : List BulkLoad) (c : LaneCtx) : (ds.foldl (fun c d => c.wr d.rd d.value) c).time = c.time := by
    induction ds generalizing c with
    | nil => rfl
    | cons d ds ih => rw [List.foldl_cons, ih, LaneCtx.wr_time]
  exact h _ _

@[simp] theorem LaneCtx.settle_out (c : LaneCtx) (rs : List Nat) : (c.settle rs).out = c.out := by
  have h (ds : List BulkLoad) (c : LaneCtx) : (ds.foldl (fun c d => c.wr d.rd d.value) c).out = c.out := by
    induction ds generalizing c with
    | nil => rfl
    | cons d ds ih => rw [List.foldl_cons, ih, LaneCtx.wr_out]
  exact h _ _

@[simp] theorem LaneCtx.settle_outTags (c : LaneCtx) (rs : List Nat) : (c.settle rs).outTags = c.outTags := by
  have h (ds : List BulkLoad) (c : LaneCtx) : (ds.foldl (fun c d => c.wr d.rd d.value) c).outTags = c.outTags := by
    induction ds generalizing c with
    | nil => rfl
    | cons d ds ih => rw [List.foldl_cons, ih, LaneCtx.wr_outTags]
  exact h _ _

@[simp] theorem LaneCtx.settle_sends (c : LaneCtx) (rs : List Nat) : (c.settle rs).sends = c.sends := by
  have h (ds : List BulkLoad) (c : LaneCtx) : (ds.foldl (fun c d => c.wr d.rd d.value) c).sends = c.sends := by
    induction ds generalizing c with
    | nil => rfl
    | cons d ds ih => rw [List.foldl_cons, ih, LaneCtx.wr_sends]
  exact h _ _

@[simp] theorem LaneCtx.settle_msgs (c : LaneCtx) (rs : List Nat) : (c.settle rs).msgs = c.msgs := by
  have h (ds : List BulkLoad) (c : LaneCtx) : (ds.foldl (fun c d => c.wr d.rd d.value) c).msgs = c.msgs := by
    induction ds generalizing c with
    | nil => rfl
    | cons d ds ih => rw [List.foldl_cons, ih, LaneCtx.wr_msgs]
  exact h _ _

@[simp] theorem LaneCtx.settle_uwrErr (c : LaneCtx) (rs : List Nat) : (c.settle rs).uwrErr = c.uwrErr := by
  have h (ds : List BulkLoad) (c : LaneCtx) : (ds.foldl (fun c d => c.wr d.rd d.value) c).uwrErr = c.uwrErr := by
    induction ds generalizing c with
    | nil => rfl
    | cons d ds ih => rw [List.foldl_cons, ih, LaneCtx.wr_uwrErr]
  exact h _ _

@[simp] theorem LaneCtx.settle_wait (c : LaneCtx) (rs : List Nat) : (c.settle rs).wait = c.wait := by
  have h (ds : List BulkLoad) (c : LaneCtx) : (ds.foldl (fun c d => c.wr d.rd d.value) c).wait = c.wait := by
    induction ds generalizing c with
    | nil => rfl
    | cons d ds ih => rw [List.foldl_cons, ih, LaneCtx.wr_wait]
  exact h _ _

@[simp] theorem LaneCtx.settle_yielded (c : LaneCtx) (rs : List Nat) : (c.settle rs).yielded = c.yielded := by
  have h (ds : List BulkLoad) (c : LaneCtx) : (ds.foldl (fun c d => c.wr d.rd d.value) c).yielded = c.yielded := by
    induction ds generalizing c with
    | nil => rfl
    | cons d ds ih => rw [List.foldl_cons, ih, LaneCtx.wr_yielded]
  exact h _ _

@[simp] theorem LaneCtx.settle_began (c : LaneCtx) (rs : List Nat) : (c.settle rs).began = c.began := by
  have h (ds : List BulkLoad) (c : LaneCtx) : (ds.foldl (fun c d => c.wr d.rd d.value) c).began = c.began := by
    induction ds generalizing c with
    | nil => rfl
    | cons d ds ih => rw [List.foldl_cons, ih, LaneCtx.wr_began]
  exact h _ _

@[simp] theorem LaneCtx.settle_share (c : LaneCtx) (rs : List Nat) : (c.settle rs).share = c.share := by
  have h (ds : List BulkLoad) (c : LaneCtx) : (ds.foldl (fun c d => c.wr d.rd d.value) c).share = c.share := by
    induction ds generalizing c with
    | nil => rfl
    | cons d ds ih => rw [List.foldl_cons, ih, LaneCtx.wr_share]
  exact h _ _

@[simp] theorem LaneCtx.settle_ending (c : LaneCtx) (rs : List Nat) : (c.settle rs).ending = c.ending := by
  have h (ds : List BulkLoad) (c : LaneCtx) : (ds.foldl (fun c d => c.wr d.rd d.value) c).ending = c.ending := by
    induction ds generalizing c with
    | nil => rfl
    | cons d ds ih => rw [List.foldl_cons, ih, LaneCtx.wr_ending]
  exact h _ _

end Sys2Proof.Machine
end

