-- ==== Sys2Proof/Laws/Units.lean ====
section
/-! SUPPORT. A handle names one unit, so that a control block written for one unit is no other's. -/

namespace Sys2Proof.Machine

open Sys2Proof

theorem unitOfHandle_can : ∀ n : Fin 6, unitOfHandle (handleOf (.can n)) = some (.can n) := by decide
theorem unitOfHandle_lane : ∀ l : Lane, unitOfHandle (handleOf (.lane l)) = some (.lane l)
  | .a | .b | .c => rfl
theorem unitOfHandle_eth : ∀ x : Fin 4, unitOfHandle (handleOf (.eth x)) = some (.eth x) := by decide
theorem unitOfHandle_ser : ∀ x : Fin 4, unitOfHandle (handleOf (.ser x)) = some (.ser x) := by decide
theorem unitOfHandle_link : ∀ n : Fin 4, unitOfHandle (handleOf (.link n)) = some (.link n) := by decide

theorem fin?_val {n : Nat} (k : Fin n) : fin? n k.val = some k := by simp [fin?]

theorem unitOfHandle_card (slot : Fin 32) (sub : Fin 17) : unitOfHandle (handleOf (.card slot sub)) = some (.card slot sub) := by
  obtain ⟨a, ha⟩ := slot
  obtain ⟨b, hb⟩ := sub
  have h1 : (0x1000 + a * 0x80 + b - 0x1000) / 0x80 = a := by omega
  have h2 : (0x1000 + a * 0x80 + b - 0x1000) % 0x80 = b := by omega
  have h3 : fin? 32 a = some ⟨a, ha⟩ := by simp [fin?, ha]
  have h4 : fin? 17 b = some ⟨b, hb⟩ := by simp [fin?, hb]
  simp only [handleOf]
  unfold unitOfHandle
  split <;> first | (exfalso; omega) | skip
  simp only [h1, h2, h3, h4]
  have g (p q : Nat) (hp : p ≤ 0x1000 + a * 0x80 + b) (hq : q ≤ 0x1000 + a * 0x80 + b) :
      (decide (p ≤ 0x1000 + a * 0x80 + b) && decide (0x1000 + a * 0x80 + b < q)) = false := by simp; omega
  rw [g _ _ (by omega) (by omega), g _ _ (by omega) (by omega), g _ _ (by omega) (by omega), g _ _ (by omega) (by omega)]
  have h5 : (decide (0x1000 ≤ 0x1000 + a * 0x80 + b) && decide (0x1000 + a * 0x80 + b < 0x2000)) = true := by simp; omega
  rw [h5]
  rfl

theorem unitOfHandle_composite (k : Fin 32767) : unitOfHandle (handleOf (.composite k)) = some (.composite k) := by
  obtain ⟨a, ha⟩ := k
  have h3 : fin? 32767 (0x8000 + a - 0x8000) = some ⟨a, ha⟩ := by simp [fin?, ha]
  simp only [handleOf]
  unfold unitOfHandle
  split <;> first | (exfalso; omega) | skip
  have g (p q : Nat) (hq : q ≤ 0x8000 + a) : (decide (p ≤ 0x8000 + a) && decide (0x8000 + a < q)) = false := by simp; omega
  rw [g 0x10 0x16 (by omega), g 0x400 0x404 (by omega), g 0x404 0x408 (by omega), g 0x440 0x444 (by omega), g 0x1000 0x2000 (by omega)]
  simp only [Bool.false_eq_true, if_false, h3]
  rw [if_pos (by omega)]
  rfl

/-- The handle of a unit names that unit (R48). -/
theorem unitOfHandle_handleOf : ∀ u : UnitId, unitOfHandle (handleOf u) = some u
  | .can n => unitOfHandle_can n
  | .lane l => unitOfHandle_lane l
  | .eth x => unitOfHandle_eth x
  | .ser x => unitOfHandle_ser x
  | .link n => unitOfHandle_link n
  | .card slot sub => unitOfHandle_card slot sub
  | .composite k => unitOfHandle_composite k
  | .sys | .tick | .place | .voter | .pair | .flt | .safe | .net | .time | .hlk | .clk | .evr | .lcs | .pwr | .svc | .pairUnit
  | .partner => rfl

theorem handleOf_inj {u v : UnitId} (h : handleOf u = handleOf v) : u = v := by
  have := congrArg unitOfHandle h
  rw [unitOfHandle_handleOf, unitOfHandle_handleOf] at this
  exact Option.some.inj this

/-! ### Control blocks -/

@[simp] theorem State.ucb_setUcb (s : State) (u : UnitId) (f : Ucb → Ucb) : (s.setUcb u f).ucb u = f (s.ucb u) := mapGetD_put_same ..

theorem State.ucb_setUcb_ne (s : State) {u v : UnitId} (h : v ≠ u) (f : Ucb → Ucb) : (s.setUcb u f).ucb v = s.ucb v :=
  mapGetD_put_ne (fun e => h (handleOf_inj e)) ..

/-- The control block of a unit after the update of another, decided by the units. -/
theorem State.ucb_setUcb_if (s : State) (u v : UnitId) (f : Ucb → Ucb) :
    (s.setUcb u f).ucb v = if v = u then f (s.ucb u) else s.ucb v := by
  split
  · rename_i h; rw [h, State.ucb_setUcb]
  · rename_i h; exact State.ucb_setUcb_ne s h f

end Sys2Proof.Machine
end

