-- ==== Sys2Proof/Laws/Frame.lean ====
section
/-! SUPPORT. What an operation leaves alone, as one relation: every part of the state but the named ones is the same. -/

namespace Sys2Proof.Machine

open Sys2Proof

/-- A part of the state. -/
inductive Part
  | pending | freeCount | regs | regsPending | ucbs | flt | evr | tick | time | clk | lcs | upd | pwr
  | safe | cans | net | hlk | laneA | laneB | laneC | voter | place | pair | prog | bulk
deriving DecidableEq, Repr

/-- A part is the same in two states. -/
def Part.same : Part → State → State → Prop
  | .pending, s, t => t.pending = s.pending
  | .freeCount, s, t => t.freeCount = s.freeCount
  | .regs, s, t => t.regs = s.regs
  | .regsPending, s, t => t.regsPending = s.regsPending
  | .ucbs, s, t => t.ucbs = s.ucbs
  | .flt, s, t => t.flt = s.flt
  | .evr, s, t => t.evr = s.evr
  | .tick, s, t => t.tick = s.tick
  | .time, s, t => t.time = s.time
  | .clk, s, t => t.clk = s.clk
  | .lcs, s, t => t.lcs = s.lcs
  | .upd, s, t => t.upd = s.upd
  | .pwr, s, t => t.pwr = s.pwr
  | .safe, s, t => t.safe = s.safe
  | .cans, s, t => t.cans = s.cans
  | .net, s, t => t.net = s.net
  | .hlk, s, t => t.hlk = s.hlk
  | .laneA, s, t => t.laneA = s.laneA
  | .laneB, s, t => t.laneB = s.laneB
  | .laneC, s, t => t.laneC = s.laneC
  | .voter, s, t => t.voter = s.voter
  | .place, s, t => t.place = s.place
  | .pair, s, t => t.pair = s.pair
  | .prog, s, t => t.prog = s.prog
  | .bulk, s, t => t.bulk = s.bulk

/-- Every part but the listed ones is the same. -/
structure SameBut (ps : List Part) (s t : State) : Prop where
  /-- A part that is not listed is the same. -/
  same : ∀ p, p ∉ ps → Part.same p s t

theorem Part.same_refl (p : Part) (s : State) : Part.same p s s := by cases p <;> rfl

theorem Part.same_trans {p : Part} {s t r : State} (h : Part.same p s t) (g : Part.same p t r) : Part.same p s r := by
  cases p <;> exact Eq.trans g h

theorem SameBut.refl (ps : List Part) (s : State) : SameBut ps s s := ⟨fun p _ => Part.same_refl p s⟩

theorem SameBut.trans {ps : List Part} {s t r : State} (h : SameBut ps s t) (g : SameBut ps t r) : SameBut ps s r :=
  ⟨fun p hp => Part.same_trans (h.same p hp) (g.same p hp)⟩

theorem SameBut.mono {ps qs : List Part} {s t : State} (h : SameBut ps s t) (hq : ∀ p ∈ ps, p ∈ qs) : SameBut qs s t :=
  ⟨fun p hp => h.same p fun hm => hp (hq p hm)⟩

theorem SameBut.foldl {α : Type} {ps : List Part} {f : State → α → State} (h : ∀ s a, SameBut ps s (f s a)) (l : List α) (s : State) :
    SameBut ps s (l.foldl f s) := by
  induction l generalizing s with
  | nil => exact SameBut.refl ps s
  | cons a l ih => exact (h s a).trans (ih (f s a))

theorem SameBut.ite {ps : List Part} {c : Prop} [Decidable c] {s t r : State} (h : SameBut ps s t) (g : SameBut ps s r) :
    SameBut ps s (if c then t else r) := by
  split
  · exact h
  · exact g

end Sys2Proof.Machine
end

