-- ==== Sys2Proof/Laws/Issue.lean ====
section
/-! SUPPORT. What the issue of a lane's instruction does, said once: the body on the settled context, an exception event, or nothing. -/

namespace Sys2Proof.Machine

open Sys2Proof

/-- A legal instruction that the lane executes runs its body. -/
theorem issue_runs {s : State} {l : Lane} {regs : List Nat} {len : Nat} {k : CtxKind} {c : LaneCtx}
    (h : Executes s l regs len k c) (body : CtxKind → LaneCtx → State) : issue s l len regs true body = body k c := by
  obtain ⟨c0, hr, rfl, hf, ho⟩ := h
  simp [issue, hr, hf, ho]

/-- An encoding that is not assigned raises ILLEGAL_OP (R127). -/
theorem issue_illegal {s : State} {l : Lane} {regs : List Nat} {len : Nat} {k : CtxKind} {c : LaneCtx}
    (h : Executes s l regs len k c) (body : CtxKind → LaneCtx → State) :
    issue s l len regs false body = except s l k c xIllegal := by
  obtain ⟨c0, hr, rfl, _, ho⟩ := h
  simp [issue, hr, ho]

/-- Where the leading lane has stopped at the instruction that follows, the lane stops there too (R134). -/
theorem issue_arrives {s : State} {l : Lane} {regs : List Nat} {len : Nat} {k : CtxKind} {c0 : LaneCtx}
    (hr : runCtx s l = some (k, c0)) (hf : fetchOk (laneProg s l) (c0.settle regs).pc.toNat len = true)
    (ho : (s.lane l).onward = false) (body : CtxKind → LaneCtx → State) :
    issue s l len regs true body = arrived (body k (c0.settle regs).counted) (guardInstant s) l := by
  have hf' : fetchOk (laneProg s l) (c0.settle regs).counted.pc.toNat len = true := hf
  unfold issue
  rw [hr]
  simp only [hf', ho, Bool.not_true, Bool.or_self, Bool.false_eq_true, if_false]

/-- A lane that runs nothing leaves the state as it is. -/
theorem issue_idle {s : State} {l : Lane} (h : runCtx s l = none) (len : Nat) (regs : List Nat) (legal : Bool)
    (body : CtxKind → LaneCtx → State) : issue s l len regs legal body = s := by
  simp [issue, h]

/-- A computing instruction with a result. -/
theorem compute_result {s : State} {l : Lane} {len rd : Nat} {regs : List Nat} {k : CtxKind} {c : LaneCtx} {v : W64} {cf : Byte}
    {f : Program → LaneCtx → OpRes} (h : Executes s l (rd :: regs) len k c) (hf : f (laneProg s l) c = .res v cf) :
    compute s l len rd regs true f = s.setCtx l k (({ c with cf := cf }.wr rd v).past len) := by
  simp [compute, issue_runs h, hf]

/-- A computing instruction that raises an exception. -/
theorem compute_exception {s : State} {l : Lane} {len rd : Nat} {regs : List Nat} {k : CtxKind} {c : LaneCtx} {kind : Nat}
    {f : Program → LaneCtx → OpRes} (h : Executes s l (rd :: regs) len k c) (hf : f (laneProg s l) c = .exc kind) :
    compute s l len rd regs true f = except s l k c kind := by
  simp [compute, issue_runs h, hf]

/-- A computing instruction of format R with a result. -/
theorem computeR_result {s : State} {l : Lane} {f : RFmt} {k : CtxKind} {c : LaneCtx} {v : W64} {cf : Byte} {legal : Bool}
    {g : Program → LaneCtx → OpRes} (h : ExecutesR s l f k c) (hl : legal = true) (hg : g (laneProg s l) c = .res v cf) :
    computeR s l f legal g = .next (s.setCtx l k (({ c with cf := cf }.wr f.rd.toNat v).past (if f.i then 8 else 4))) := by
  subst hl
  exact congrArg Host.Outcome.next (compute_result (len := RFmt.len f) (regs := RFmt.regs f) h hg)

/-- A computing instruction of format R that raises an exception. -/
theorem computeR_exception {s : State} {l : Lane} {f : RFmt} {k : CtxKind} {c : LaneCtx} {kind : Nat} {legal : Bool}
    {g : Program → LaneCtx → OpRes} (h : ExecutesR s l f k c) (hl : legal = true) (hg : g (laneProg s l) c = .exc kind) :
    computeR s l f legal g = .next (except s l k c kind) := by
  subst hl
  exact congrArg Host.Outcome.next (compute_exception (len := RFmt.len f) (regs := RFmt.regs f) h hg)

end Sys2Proof.Machine
end

