-- ==== Sys2Proof/Laws/Ops.lean ====
section
/-! SUPPORT. The shared operations, each said once: what it leaves alone (`…_same`), and what it does to the part that it is for. -/

namespace Sys2Proof.Machine

open Sys2Proof

/-! ### Updates -/

theorem setUcb_same (s : State) (u : UnitId) (f : Ucb → Ucb) : SameBut [.ucbs] s (s.setUcb u f) := by
  refine ⟨fun p hp => ?_⟩; cases p <;> first | rfl | exact absurd (by decide) hp

theorem finish_same (s : State) (u : UnitId) (c : Status) (d : Nat) : SameBut [.ucbs] s (s.finish u c d) := setUcb_same ..

theorem begin_same (s : State) (u : UnitId) (w : Writer) (c a : Nat) : SameBut [.ucbs] s (s.begin_ u w c a) := setUcb_same ..

theorem complete_same (s : State) (u : UnitId) (k : Nat) (c : Status) (d : Nat) : SameBut [.ucbs] s (s.complete u k c d) := setUcb_same ..

theorem free_same (s : State) : SameBut [.freeCount] s s.free.2 := by
  refine ⟨fun p hp => ?_⟩; cases p <;> first | rfl | exact absurd (by decide) hp

theorem setLane_same (s : State) (l : Lane) (x : LaneSt) : SameBut [.laneA, .laneB, .laneC] s (s.setLane l x) := by
  cases l <;> (refine ⟨fun p hp => ?_⟩; cases p <;> first | rfl | exact absurd (by decide) hp)

theorem setDout_same (s : State) (m : Nat) (d : DoState) : SameBut [.safe] s (s.setDout m d) := by
  refine ⟨fun p hp => ?_⟩; cases p <;> first | rfl | exact absurd (by decide) hp

theorem lose_same (s : State) (r : Resource) : SameBut [.place] s (s.lose r) := by
  refine ⟨fun p hp => ?_⟩; cases p <;> first | rfl | exact absurd (by decide) hp

theorem healthy_same (s : State) (r : Resource) : SameBut [.place] s (s.healthy r) := by
  unfold State.healthy
  exact SameBut.ite (by refine ⟨fun p hp => ?_⟩; cases p <;> first | rfl | exact absurd (by decide) hp) (SameBut.refl _ s)

/-! ### Fault messages -/

theorem raiseAs_same (s : State) (u : UnitId) (k c v a : Nat) (e : Option ExcInfo) (i : Bool) :
    SameBut [.ucbs] s (raiseAs s u k c v a e i) := by
  unfold raiseAs
  exact SameBut.ite (SameBut.refl _ s) (setUcb_same ..)

theorem raise_same (s : State) (u : UnitId) (k a : Nat) : SameBut [.ucbs] s (raise s u k a) := raiseAs_same ..

theorem raiseOpen_same (s : State) (u : UnitId) (k : Nat) : SameBut [.ucbs, .freeCount] s (raiseOpen s u k) :=
  ((free_same s).mono (by decide)).trans ((raise_same s.free.2 u k s.free.1).mono (by decide))

/-- A unit that no window masks holds the message that it raises, or has it waiting behind the one that it holds. -/
theorem raise_reports (s : State) (u : UnitId) (k a : Nat) : Reports s (raise s u k a) u k a := by
  intro hm
  simp only [raise, raiseAs, hm, Bool.false_eq_true, if_false, State.ucb_setUcb, Ucb.send]
  split
  · rename_i h; cases hh : (s.ucb u).held <;> simp_all
  · rename_i h; cases hh : (s.ucb u).held <;> simp_all

/-- Raising at one unit leaves every other control block alone. -/
theorem ucb_raise_ne (s : State) {u v : UnitId} (h : v ≠ u) (k a : Nat) : (raise s u k a).ucb v = s.ucb v := by
  simp only [raise, raiseAs]
  split
  · rfl
  · exact State.ucb_setUcb_ne s h _

/-- Raising moves a message into the control block and nothing else of it. -/
theorem ucb_raise_state (s : State) (u v : UnitId) (k a : Nat) : ((raise s u k a).ucb v).state = (s.ucb v).state := by
  simp only [raise, raiseAs]
  split
  · rfl
  · rw [State.ucb_setUcb_if]
    split
    · rename_i h; subst h
      simp only [Ucb.send]
      split <;> rfl
    · rfl

/-! ### Commands -/

/-- A command that passes and runs on (R32). -/
theorem begin_busy (s : State) (u : UnitId) (w : Writer) (c a : Nat) : Busy s (s.begin_ u w c a) u w c a := by
  simp [Busy, State.begin_]

/-- The end of the command that runs (R32, R42). -/
theorem finish_ended {s : State} {u : UnitId} {r : Running} (h : (s.ucb u).running = some r) (c : Status) (d : Nat) :
    Ended s (s.finish u c d) u r.code c d := by
  simp [Ended, State.finish, h, ResultWindow.deliver]

/-- A command that completes within the write (R32). -/
theorem complete_ended {s : State} {u : UnitId} (hb : (s.ucb u).busy = false) (hr : (s.ucb u).running = none) (k : Nat) (c : Status)
    (d : Nat) : Ended s (s.complete u k c d) u k c d := by
  simp [Ended, State.complete, hb, hr, ResultWindow.deliver, ResultWindow.start]

/-! ### Groups -/

theorem noteGroup_same (s : State) (u : UnitId) : SameBut [.ucbs] s (noteGroup s u) := by
  unfold noteGroup
  exact SameBut.ite (SameBut.refl _ s) (setUcb_same ..)

/-- NET's TEST ends with a result, and nothing else (R44). -/
theorem netTestEnd_same (s : State) : SameBut [.ucbs] s (netTestEnd s) := by
  unfold netTestEnd
  split
  · exact SameBut.ite (finish_same ..) (SameBut.refl _ s)
  · exact SameBut.refl _ s

/-- NET's TEST ends in NET's own control block. -/
theorem ucb_netTestEnd (s : State) {u : UnitId} (h : u ≠ .net) : (netTestEnd s).ucb u = s.ucb u := by
  unfold netTestEnd
  split
  · split
    · exact State.ucb_setUcb_ne s h _
    · rfl
  · rfl

theorem noteGroups_same (s : State) : SameBut [.ucbs] s (noteGroups s) :=
  (netTestEnd_same s).trans (SameBut.foldl noteGroup_same _ _)

theorem unitTo_same (s : State) (u : UnitId) (t : UState) : SameBut [.ucbs] s (s.unitTo u t) :=
  (setUcb_same ..).trans (noteGroups_same _)

/-- The units whose state follows their members'. -/
def followsMembers : UnitId → Bool
  | .sys | .net | .pairUnit | .card _ _ => true
  | _ => false

/-- Only the groups' control blocks follow. -/
theorem ucb_noteGroups (s : State) {u : UnitId} (h : followsMembers u = false) : (noteGroups s).ucb u = s.ucb u := by
  have step (t : State) (v : UnitId) (hv : u ≠ v) : (noteGroup t v).ucb u = t.ucb u := by
    unfold noteGroup
    split
    · rfl
    · exact State.ucb_setUcb_ne t hv _
  have all (l : List UnitId) (hl : ∀ v ∈ l, u ≠ v) (t : State) : (l.foldl noteGroup t).ucb u = t.ucb u := by
    induction l generalizing t with
    | nil => rfl
    | cons v l ih =>
      rw [List.foldl_cons, ih (fun w hw => hl w (List.mem_cons_of_mem _ hw)), step t v (hl v (List.mem_cons_self ..))]
  refine (all _ (fun v hv e => ?_) _).trans (ucb_netTestEnd s fun e => by simp [e, followsMembers] at h)
  subst e
  rcases List.mem_append.1 hv with hv | hv
  · obtain ⟨t, _, rfl⟩ := List.mem_map.1 hv
    simp [followsMembers] at h
  · simp only [List.mem_cons, List.not_mem_nil, or_false] at hv
    rcases hv with rfl | rfl | rfl <;> simp [followsMembers] at h

/-! ### Event records -/

theorem enqueue_same (s : State) (c o : Nat) (d : List Byte) : SameBut [.evr] s (enqueue s c o d) := by
  refine ⟨fun p hp => ?_⟩; cases p <;> first | rfl | exact absurd (by decide) hp

theorem suppress_same (s : State) (c : Nat) : SameBut [.evr] s (suppress s c) := by
  refine ⟨fun p hp => ?_⟩; cases p <;> first | rfl | exact absurd (by decide) hp

theorem mergeRecord_same (s : State) (r : EvrRecord) : SameBut [.evr] s (mergeRecord s r) := by
  refine ⟨fun p hp => ?_⟩; cases p <;> first | rfl | exact absurd (by decide) hp

theorem setEvr_same (s : State) (e : EvrState) : SameBut [.evr] s { s with evr := e } := by
  refine ⟨fun p hp => ?_⟩; cases p <;> first | rfl | exact absurd (by decide) hp

theorem offerPrivileged_same (s : State) (c o : Nat) (d : List Byte) : SameBut [.ucbs, .evr] s (offerPrivileged s c o d) := by
  have full : SameBut [.ucbs, .evr] s
      (let s := suppress s c; raise { s with evr := { s.evr with dropPriv := satUp 0xFFFF s.evr.dropPriv } } .evr 1 evrDropAddr) :=
    (((suppress_same s c).mono (by decide)).trans ((setEvr_same _ _).mono (by decide))).trans ((raise_same ..).mono (by decide))
  unfold offerPrivileged
  split
  · exact SameBut.ite ((mergeRecord_same ..).mono (by decide)) (SameBut.ite ((enqueue_same ..).mono (by decide)) full)
  · exact SameBut.ite ((enqueue_same ..).mono (by decide)) full

theorem offerLimited_same (s : State) (c o : Nat) (d : List Byte) : SameBut [.evr] s (offerLimited s c o d) := by
  unfold offerLimited
  exact SameBut.ite ((suppress_same s c).trans (setEvr_same _ _))
    (SameBut.ite (suppress_same s c) ((setEvr_same s _).trans (enqueue_same ..)))

theorem offer_same (s : State) (c : Nat) (u : UnitId) (d : List Byte) : SameBut [.ucbs, .evr] s (offer s c u d) := by
  unfold offer
  exact SameBut.ite (offerPrivileged_same ..) ((offerLimited_same ..).mono (by decide))

/-- A record whose offer fails for want of room is reported by EVR; no other control block changes. -/
theorem ucb_offer (s : State) {v : UnitId} (h : v ≠ .evr) (c : Nat) (u : UnitId) (d : List Byte) : (offer s c u d).ucb v = s.ucb v := by
  have lim : (offerLimited s c (handleOf u) d).ucb v = s.ucb v := by
    have := (offerLimited_same s c (handleOf u) d).same .ucbs (by decide)
    simp only [Part.same] at this
    simp only [State.ucb, this]
  have full : (let s := suppress s c; raise { s with evr := { s.evr with dropPriv := satUp 0xFFFF s.evr.dropPriv } } .evr 1
      evrDropAddr).ucb v = s.ucb v := ucb_raise_ne _ h _ _
  unfold offer
  split
  · unfold offerPrivileged
    split
    · split
      · rfl
      · split
        · rfl
        · exact full
    · split
      · rfl
      · exact full
  · exact lim

/-! ### Maintenance tokens -/

theorem takeTokens_same (s : State) (a : Activity) (u : UnitId) : SameBut [.ucbs] s (takeTokens s a u) :=
  SameBut.foldl (fun _ _ => setUcb_same ..) _ _

theorem releaseTokens_same (s : State) (a : Activity) : SameBut [.ucbs] s (releaseTokens s a) :=
  SameBut.foldl (fun _ _ => setUcb_same ..) _ _

theorem leaveMaint_same (s : State) (u : UnitId) : SameBut [.ucbs] s (leaveMaint s u) := (setUcb_same ..).trans (noteGroups_same _)

/-- Every unit of the footprint holds the token, and a control block differs in its token alone (R52). -/
theorem ucb_takeTokens (s : State) (a : Activity) (h v : UnitId) :
    (takeTokens s a h).ucb v = if v ∈ footprint a then { s.ucb v with token := some (a, handleOf h) } else s.ucb v := by
  have all (l : List UnitId) (t : State) :
      (l.foldl (fun s u => s.setUcb u fun b => { b with token := some (a, handleOf h) }) t).ucb v
        = if v ∈ l then { t.ucb v with token := some (a, handleOf h) } else t.ucb v := by
    induction l generalizing t with
    | nil => simp
    | cons u l ih =>
      rw [List.foldl_cons, ih]
      by_cases hv : v = u
      · subst hv; simp
      · simp [State.ucb_setUcb_ne t hv, hv]
  exact all _ s

/-- The tokens of the activity are free again, and a control block differs in its token alone (R52). -/
theorem ucb_releaseTokens_token (s : State) (a : Activity) (v : UnitId) :
    (releaseTokens s a).ucb v = { s.ucb v with token := ((releaseTokens s a).ucb v).token } := by
  have one (t : State) (u : UnitId) : (t.setUcb u fun b => match b.token with
      | some (a', _) => if a' = a then { b with token := none } else b
      | none => b).ucb v = { t.ucb v with token := ((t.setUcb u fun b => match b.token with
      | some (a', _) => if a' = a then { b with token := none } else b
      | none => b).ucb v).token } := by
    rw [State.ucb_setUcb_if]
    split
    · rename_i h; subst h
      split
      · split <;> rfl
      · rfl
    · rfl
  have all (l : List UnitId) (t : State) : (l.foldl (fun s u => s.setUcb u fun b => match b.token with
      | some (a', _) => if a' = a then { b with token := none } else b
      | none => b) t).ucb v = { t.ucb v with token := ((l.foldl (fun s u => s.setUcb u fun b => match b.token with
      | some (a', _) => if a' = a then { b with token := none } else b
      | none => b) t).ucb v).token } := by
    induction l generalizing t with
    | nil => rfl
    | cons u l ih =>
      rw [List.foldl_cons, ih, one t u]
  exact all _ s

theorem dropRejoin_same (s : State) : SameBut [.laneA, .laneB, .laneC, .voter] s (dropRejoin s) := by
  unfold dropRejoin
  split
  · exact SameBut.refl _ s
  · rename_i r _
    dsimp only
    cases r.lane <;> (refine ⟨fun p hp => ?_⟩; cases p <;> first | rfl | exact absurd (by decide) hp)

/-- The activity's command fails, where one runs. -/
def failRunning (s : State) (a : Activity) : State :=
  match (s.ucb (runner a)).running with
  | some r => if activityCommand a r.code then s.finish (runner a) .faulted 0 else s
  | none => s

/-- What is left of the activity once its tokens are free. -/
def dropActivity (s : State) (a : Activity) : State :=
  match a with
  | .brakeTest => { s with safe := { s.safe with btest := none } }
  | .offPulseRetime => { s with safe := { s.safe with pwNext := none } }
  | .splitJoin => laneUnits.foldl leaveMaint (dropRejoin { s with voter := { s.voter with change := none } })
  | .foxglove => (.voter :: laneUnits).foldl leaveMaint { s with voter := { s.voter with foxRun := false, foxDue := false } }
  | .partnerResync => { s with pair := { s.pair with syncing := false } }
  | .clockChange => { s with clk := { s.clk with change := none, swres := s.clk.swres.deliver (swresValue .faulted s.clk.refInUse) } }
  | .firmwareApply => { s with upd := { s.upd with applying := false } }

theorem endActivity_eq (s : State) (a : Activity) :
    endActivity s a = if !holds s a then s else dropActivity (releaseTokens (failRunning s a) a) a := rfl

theorem failRunning_same (s : State) (a : Activity) : SameBut [.ucbs] s (failRunning s a) := by
  unfold failRunning
  split
  · exact SameBut.ite (finish_same ..) (SameBut.refl _ s)
  · exact SameBut.refl _ s

theorem dropActivity_same (s : State) (a : Activity) :
    SameBut [.ucbs, .safe, .voter, .laneA, .laneB, .laneC, .pair, .clk, .upd] s (dropActivity s a) := by
  unfold dropActivity
  cases a
  case foxglove =>
    refine SameBut.trans ?_ (SameBut.foldl (fun _ _ => (leaveMaint_same ..).mono (by decide)) _ _)
    refine ⟨fun p hp => ?_⟩; cases p <;> first | rfl | exact absurd (by decide) hp
  case splitJoin =>
    refine SameBut.trans ?_ (SameBut.foldl (fun _ _ => (leaveMaint_same ..).mono (by decide)) _ _)
    refine SameBut.trans ?_ ((dropRejoin_same _).mono (by decide))
    refine ⟨fun p hp => ?_⟩; cases p <;> first | rfl | exact absurd (by decide) hp
  all_goals refine ⟨fun p hp => ?_⟩; cases p <;> first | rfl | exact absurd (by decide) hp

/-- What the end of an activity touches (R54). -/
theorem endActivity_same (s : State) (a : Activity) :
    SameBut [.ucbs, .safe, .voter, .laneA, .laneB, .laneC, .pair, .clk, .upd] s (endActivity s a) := by
  rw [endActivity_eq]
  exact SameBut.ite (SameBut.refl _ s) ((((failRunning_same s a).mono (by decide)).trans
    ((releaseTokens_same _ a).mono (by decide))).trans (dropActivity_same _ a))

/-- The end of a brake test or of a re-timing touches SAFE/FIO alone. -/
theorem endFieldActivity_same (s : State) {a : Activity} (h : a = .brakeTest ∨ a = .offPulseRetime) :
    SameBut [.ucbs, .safe] s (endActivity s a) := by
  rw [endActivity_eq]
  refine SameBut.ite (SameBut.refl _ s) ((((failRunning_same s a).mono (by decide)).trans
    ((releaseTokens_same _ a).mono (by decide))).trans ?_)
  rcases h with rfl | rfl <;> (refine ⟨fun p hp => ?_⟩; cases p <;> first | rfl | exact absurd (by decide) hp)

theorem dropActivity_safe (s : State) (a : Activity) :
    (dropActivity s a).safe.safe = s.safe.safe ∧ (dropActivity s a).safe.bk0 = s.safe.bk0 ∧
      (dropActivity s a).safe.bk1 = s.safe.bk1 ∧ (dropActivity s a).safe.cause = s.safe.cause := by
  have keep (us : List UnitId) (t : State) : (us.foldl leaveMaint t).safe = t.safe :=
    (SameBut.foldl (ps := [.ucbs]) leaveMaint_same us t).same .safe (by decide)
  have drop (t : State) : (dropRejoin t).safe = t.safe := (dropRejoin_same t).same .safe (by decide)
  cases a <;> simp only [dropActivity, keep, drop] <;> simp

/-- The end of an activity leaves the safe state and the brakes as they are. -/
theorem endActivity_safe (s : State) (a : Activity) :
    (endActivity s a).safe.safe = s.safe.safe ∧ (endActivity s a).safe.bk0 = s.safe.bk0 ∧ (endActivity s a).safe.bk1 = s.safe.bk1 ∧
      (endActivity s a).safe.cause = s.safe.cause := by
  have fin : (releaseTokens (failRunning s a) a).safe = s.safe :=
    ((failRunning_same s a).trans (releaseTokens_same _ a)).same .safe (by decide)
  rw [endActivity_eq]
  split
  · exact ⟨rfl, rfl, rfl, rfl⟩
  · rw [← fin]; exact dropActivity_safe _ a

/-! ### The safe state -/

theorem driveSafe_same (s : State) : SameBut [.safe] s (driveSafe s) :=
  SameBut.trans (by refine ⟨fun p hp => ?_⟩; cases p <;> first | rfl | exact absurd (by decide) hp) (SameBut.foldl (fun _ _ => setDout_same ..) _ _)

theorem commitSafe_same (s : State) (ps : List Nat) : SameBut [.prog] s (commitSafe s ps) := by
  refine ⟨fun p hp => ?_⟩; cases p <;> first | rfl | exact absurd (by decide) hp

theorem discardEmissions_same (s : State) : SameBut [.voter] s (discardEmissions s) := by
  refine ⟨fun p hp => ?_⟩; cases p <;> first | rfl | exact absurd (by decide) hp

theorem clearRunning_same (s : State) : SameBut [.pair, .hlk] s (clearRunning s) := by
  refine ⟨fun p hp => ?_⟩; cases p <;> first | rfl | exact absurd (by decide) hp

/-- The brakes are commanded to apply and are off, and the safe state itself is as it was (R306). -/
theorem driveSafe_brakes (s : State) : (driveSafe s).braked = true ∧ (driveSafe s).safe.safe = s.safe.safe ∧
    (driveSafe s).safe.cause = s.safe.cause := by
  have keep (ms : List (Fin 8)) (t : State) :
      let r := ms.foldl (fun s (m : Fin 8) =>
        let d := s.dout m
        let v := doSafe s m && !d.latched && !s.safe.openA && (s.ucb .safe).state = .run
        s.setDout m.val { d with cmd := doSafe s m, drv := v, rb := v }) t
      r.safe.bk0 = t.safe.bk0 ∧ r.safe.bk1 = t.safe.bk1 ∧ r.safe.safe = t.safe.safe ∧ r.safe.cause = t.safe.cause := by
    induction ms generalizing t with
    | nil => exact ⟨rfl, rfl, rfl, rfl⟩
    | cons m ms ih => exact ih _
  obtain ⟨h0, h1, h2, h3⟩ := keep (List.finRange 8) { brakesOff s with safe := { (brakesOff s).safe with
    bk0 := { (brakesOff s).safe.bk0 with cmd := false }, bk1 := { (brakesOff s).safe.bk1 with cmd := false } } }
  refine ⟨?_, h2, h3⟩
  simp only [State.braked, driveSafe]
  rw [h0, h1]
  rfl

/-- The parts that entry to the safe state touches (R306). -/
def safeParts : List Part := [.ucbs, .evr, .safe, .prog, .voter, .pwr, .upd, .pair, .hlk]

/-- The first entry records its cause. -/
def markSafe (s : State) (cause : SafeCause) : State :=
  if !s.safe.safe then { s with safe := { s.safe with safe := true, cause := cause } } else s

/-- The supplies that the safe state opens (R306). -/
def openSupplies (s : State) : State :=
  let zero := (List.finRange 8).all fun m => !doSafe s m
  { s with safe := { s.safe with openB := true, heldB := true, openA := s.safe.openA || zero, heldA := s.safe.heldA || zero } }

/-- The state in the course of R306, before the first entry is recorded. -/
def enterSafeBody (s : State) (cause : SafeCause) : State :=
  endActivity (endActivity (clearRunning (discardEmissions (openSupplies (commitSafe (driveSafe (markSafe s cause)) [0, 1, 2, 3])))) .brakeTest)
    .offPulseRetime

theorem markSafe_same (s : State) (cause : SafeCause) : SameBut [.safe] s (markSafe s cause) :=
  SameBut.ite ⟨fun p hp => by cases p <;> first | rfl | exact absurd (by decide) hp⟩ (SameBut.refl _ s)

theorem openSupplies_same (s : State) : SameBut [.safe] s (openSupplies s) :=
  ⟨fun p hp => by cases p <;> first | rfl | exact absurd (by decide) hp⟩

theorem enterSafeBody_same (s : State) (cause : SafeCause) : SameBut safeParts s (enterSafeBody s cause) :=
  ((markSafe_same s cause).mono (by decide)).trans <| ((driveSafe_same _).mono (by decide)).trans <|
    ((commitSafe_same _ _).mono (by decide)).trans <| ((openSupplies_same _).mono (by decide)).trans <|
    ((discardEmissions_same _).mono (by decide)).trans <| ((clearRunning_same _).mono (by decide)).trans <|
    ((endFieldActivity_same _ (.inl rfl)).mono (by decide)).trans <|
    (endFieldActivity_same _ (.inr rfl)).mono (by decide)

/-- The first entry's notes for the interval and for the trial, before its record. -/
def noteSafe (t : State) : State :=
  { t with
    pwr := { t.pwr with safeSince := some (t.pwr.safeSince.getD (t.tb3, t.regField .pwr 0x11C 15 0)) },
    upd := { t.upd with safeOnTrial := t.upd.safeOnTrial || t.upd.trial } }

theorem noteSafe_same (s : State) : SameBut [.pwr, .upd] s (noteSafe s) :=
  ⟨fun p hp => by cases p <;> first | rfl | exact absurd (by decide) hp⟩

theorem enterSafe_eq (s : State) (cause : SafeCause) : enterSafe s cause =
    if !s.safe.safe then
      offer (noteSafe (enterSafeBody s cause)) 2 .safe
        (bytesLE 4 cause.word.toNat ++ tickBytes (noteSafe (enterSafeBody s cause)))
    else enterSafeBody s cause := by
  unfold enterSafe enterSafeBody markSafe openSupplies noteSafe
  rfl

theorem enterSafe_same (s : State) (cause : SafeCause) : SameBut safeParts s (enterSafe s cause) := by
  rw [enterSafe_eq]
  exact SameBut.ite ((enterSafeBody_same s cause).trans (((noteSafe_same _).mono (by decide)).trans ((offer_same ..).mono (by decide))))
    (enterSafeBody_same s cause)

theorem enterSafeBody_safe (s : State) (cause : SafeCause) : (enterSafeBody s cause).safe.safe = true ∧
    (enterSafeBody s cause).braked = true ∧
    (enterSafeBody s cause).safe.cause = if s.safe.safe then s.safe.cause else cause := by
  have hm : (markSafe s cause).safe.safe = true ∧ (markSafe s cause).safe.cause = if s.safe.safe then s.safe.cause else cause := by
    unfold markSafe
    cases h : s.safe.safe <;> simp [h]
  obtain ⟨db, ds, dc⟩ := driveSafe_brakes (markSafe s cause)
  have h1 : (commitSafe (driveSafe (markSafe s cause)) [0, 1, 2, 3]).safe = (driveSafe (markSafe s cause)).safe :=
    (commitSafe_same _ _).same .safe (by decide)
  have h2 (t : State) : (discardEmissions t).safe = t.safe := (discardEmissions_same t).same .safe (by decide)
  have h3 (t : State) : (clearRunning t).safe = t.safe := (clearRunning_same t).same .safe (by decide)
  unfold enterSafeBody
  simp only [State.braked, (endActivity_safe _ _).1, (endActivity_safe _ _).2.1, (endActivity_safe _ _).2.2.1,
    (endActivity_safe _ _).2.2.2, h3, h2]
  simp only [openSupplies, h1]
  exact ⟨ds.trans hm.1, db, dc.trans hm.2⟩

/-- Entry to the safe state: the module is safe, its brakes are applied, and the first cause is the one recorded (R305, R306). -/
theorem enterSafe_safe (s : State) (cause : SafeCause) : (enterSafe s cause).safe.safe = true ∧ (enterSafe s cause).braked = true ∧
    (enterSafe s cause).safe.cause = if s.safe.safe then s.safe.cause else cause := by
  have keep (t : State) (c : Nat) (u : UnitId) (d : List Byte) : (offer t c u d).safe = t.safe :=
    (offer_same t c u d).same .safe (by decide)
  rw [enterSafe_eq]
  split
  · simp only [State.braked, keep]
    exact enterSafeBody_safe s cause
  · exact enterSafeBody_safe s cause

theorem raiseSafe_same (s : State) (u : UnitId) (k a : Nat) : SameBut safeParts s (raiseSafe s u k a) :=
  ((raise_same ..).mono (by decide)).trans (enterSafe_same _ _)

theorem raiseSafe_safe (s : State) (u : UnitId) (k a : Nat) : (raiseSafe s u k a).safe.safe = true ∧ (raiseSafe s u k a).braked = true :=
  ⟨(enterSafe_safe _ _).1, (enterSafe_safe _ _).2.1⟩

theorem raiseSafeOpen_same (s : State) (u : UnitId) (k : Nat) : SameBut (.freeCount :: safeParts) s (raiseSafeOpen s u k) :=
  ((raiseOpen_same ..).mono (by decide)).trans ((enterSafe_same _ _).mono (by decide))

theorem raiseSafeOpen_safe (s : State) (u : UnitId) (k : Nat) :
    (raiseSafeOpen s u k).safe.safe = true ∧ (raiseSafeOpen s u k).braked = true :=
  ⟨(enterSafe_safe _ _).1, (enterSafe_safe _ _).2.1⟩

/-! ### Lane faults -/

theorem voterStop_same (s : State) (k a : Nat) : SameBut safeParts s (voterStop s k a) :=
  SameBut.trans (by refine ⟨fun p hp => ?_⟩; cases p <;> first | rfl | exact absurd (by decide) hp) (raiseSafe_same _ .voter k a)

/-- A stop of the voter brings the safe state (R221). -/
theorem voterStop_safe (s : State) (k a : Nat) : (voterStop s k a).safe.safe = true ∧ (voterStop s k a).braked = true :=
  raiseSafe_safe _ .voter k a

theorem noteQueues_same (s : State) : SameBut [.voter] s (noteQueues s) := by
  refine ⟨fun p hp => ?_⟩; cases p <;> first | rfl | exact absurd (by decide) hp

theorem fenceLane_same (s : State) (l : Lane) : SameBut (.laneA :: .laneB :: .laneC :: safeParts) s (fenceLane s l) := by
  unfold fenceLane
  refine SameBut.ite (SameBut.refl _ s) (SameBut.ite ((voterStop_same ..).mono (by decide)) ?_)
  refine SameBut.trans ((noteQueues_same s).mono (by decide)) (SameBut.trans ((setLane_same _ l (stopLane (s.lane l))).mono (by decide)) ?_)
  refine ⟨fun p hp => ?_⟩; cases p <;> first | rfl | exact absurd (by decide) hp

theorem fenceOrSafe_same (s : State) (l : Lane) (c : SafeCause) :
    SameBut (.laneA :: .laneB :: .laneC :: safeParts) s (fenceOrSafe s l c) := by
  unfold fenceOrSafe
  refine SameBut.ite (SameBut.ite ?_ (SameBut.refl _ s)) (fenceLane_same s l)
  refine SameBut.trans ?_ ((enterSafe_same _ _).mono (by decide))
  refine ⟨fun p hp => ?_⟩; cases p <;> first | rfl | exact absurd (by decide) hp

theorem laneFault_same (s : State) (l : Lane) (k a : Nat) : SameBut (.laneA :: .laneB :: .laneC :: safeParts) s (laneFault s l k a) :=
  ((raise_same ..).mono (by decide)).trans (fenceOrSafe_same _ _ _)

/-! ### Lane memories and effect queues -/

/-- Bytes stored into a lane's own memory change no others (R100). -/
theorem store_mem (x : LaneSt) (a : Nat) (bs : List Byte) : (x.store a bs).mem = Memory.writeBytes x.mem a bs := rfl

/-- A record that finds room stands last in the queue (R133). -/
theorem present_queue {x : LaneSt} (h : queueFull x = false) (r : EffectRec) : x.present r = { x with queue := x.queue ++ [r] } := by
  simp [LaneSt.present, h]

/-- An exception that finds room in the queue: its event, and the context waits (R120, R121). -/
theorem except_excepts {s : State} {l : Lane} {k : CtxKind} {c : LaneCtx} {i : Instr} {kind space addr : Nat}
    (hq : queueFull (s.lane l) = false) (h : exec i s = .next (except s l k c kind space addr)) : Excepts i s l k c kind := by
  let r : EffectRec :=
    { kind := 4, size := 3, last := false, safety := partSafe (laneProg s l) c, tag := .good, addr := c.pc.toNat,
      at_ := s.tb3, beats := [kind], ctx := k, info := some { pc := c.pc.toNat, inst := c.ib.toNat, lanes := 0, space, addr } }
  refine ⟨r, rfl, rfl, rfl, rfl, ?_⟩
  rw [h]
  simp only [except, hq, Bool.false_eq_true, if_false, State.present, present_queue hq, State.setCtx, State.lane_setLane, State.setLane_setLane]
  cases k <;> rfl

end Sys2Proof.Machine
end

