-- ==== Sys2Proof/WellFormed.lean ====
section
/-! DEFINITION. Which commands can reach the module: the ranges that the rules give their operands, and the classes of commands. -/

namespace Sys2Proof

/-- The payload lengths of a CAN or CAN FD data field (R348). -/
def canLengths : List Nat := [0, 1, 2, 3, 4, 5, 6, 7, 8, 12, 16, 20, 24, 32, 48, 64]

/-- A frame as ISO 11898-1 admits it: identifier, format and payload length (R348, R350). -/
def CanFrame.wf (f : CanFrame) : Bool :=
  f.ident < (if f.ext then 2 ^ 29 else 2 ^ 11) && decide (f.data.length ∈ canLengths) && (f.fd || f.data.length ≤ 8) &&
    (f.fd || !f.brs) && (!f.remote || (!f.fd && f.data.isEmpty))

/-- The receive error counter moves by 1 or by 8. -/
def CanErr.wf : CanErr → Bool
  | .receive _ _ k => k = 1 || k = 8
  | .arbitration | .send .. | .exception => true

/-- A telegram's header fields and its dataset of at most 1,432 bytes (R382). -/
def Telegram.wf (t : Telegram) : Bool :=
  t.data.length ≤ 1432 && t.seq < 2 ^ 32 && t.comId < 2 ^ 32 && t.src < 2 ^ 32 && t.etb < 2 ^ 32 && t.optrn < 2 ^ 32

/-- A serial response: an address byte and a payload (R390). -/
def SerialReply.wf (r : SerialReply) : Bool := r.address < 256 && r.data.length ≤ 256

/-- The fields of a status packet (Table HLK-2). -/
def CardStatus.wf : CardStatus → Bool
  | .state _ => true
  | .check code => code < 256
  | .done code data => code < 256 && data < 2 ^ 16
  | .fault kind cls level _ => kind < 256 && cls < 16 && level ≤ 4

/-- The units whose record windows complete by themselves (R41). -/
def UnitId.fetches : UnitId → Bool
  | .place | .flt | .can _ | .net | .time | .hlk => true
  | .sys | .tick | .voter | .pair | .safe | .clk | .evr | .lcs | .pwr | .lane _ | .eth _ | .ser _ | .svc | .link _ | .card _ _
  | .pairUnit | .partner | .composite _ => false

/-- The class of a command: a lane's instruction, a command or register access by a writer (R35), or an event. -/
inductive CmdClass | instruction | written | event
deriving DecidableEq, Repr

def Instr.cmdClass : Instr → CmdClass
  | .li .. | .addi .. | .mov .. | .movhi .. | .sel .. | .rdcf .. | .wrcf .. | .rdqf .. | .wrqf .. | .rdtk .. | .ld .. | .st ..
  | .ldq .. | .ref .. | .add .. | .sub .. | .mul .. | .div .. | .mod .. | .neg .. | .abs .. | .min .. | .max .. | .limit ..
  | .mulh .. | .fadd .. | .fsub .. | .fmul .. | .fdiv .. | .fsqrt .. | .fabs .. | .fneg .. | .fmin .. | .fmax .. | .fma ..
  | .flimit .. | .cvt .. | .trunc .. | .and .. | .or .. | .xor .. | .andn .. | .not .. | .shl .. | .shr .. | .sar .. | .rol ..
  | .ror .. | .btst .. | .bset .. | .bclr .. | .binv .. | .bext .. | .bins .. | .popc .. | .clz .. | .cmp .. | .b .. | .jr ..
  | .fbcall .. | .fbret .. | .enter .. | .leave .. | .ton .. | .tof .. | .tp .. | .ctu .. | .ctd .. | .ctud .. | .rtrig ..
  | .ftrig .. | .qout .. | .qclr .. | .qtst .. | .qmax .. | .msend .. | .mrecv .. | .mstat .. | .cmt .. | .vsync .. | .nop ..
  | .fence .. | .twait .. | .yield .. | .urd .. | .uwr .. | .trap .. => .instruction
  | .enable .. | .start .. | .quiesce .. | .gateOff .. | .test .. | .clear .. | .reset .. | .nopCommand ..
  | .resultWindowRead .. | .registerWrite .. | .placeRdSelWrite .. | .cannFiltSelWrite .. | .netDirSelWrite ..
  | .hlkIdmSelWrite .. | .timeSnapSelWrite .. | .fltHistSelWrite .. | .cannTxCancel .. | .c71MirrorWrite .. | .restart ..
  | .rebalance .. | .placeReturn .. | .profileStart .. | .profileStop .. | .adopt .. | .exclude .. | .join .. | .split ..
  | .merge .. | .foxglove .. | .switchover .. | .resync .. | .detach .. | .ack .. | .inject .. | .brakeTest ..
  | .pulseRetime .. | .recover .. | .timeSet .. | .rescan .. | .lock .. | .closeService .. | .apply .. | .activate ..
  | .confirm .. | .abort .. | .acceptChange .. | .restartHandover .. | .moduleReset .. => .written
  | .resetRelease .. | .oscWaitExpiry .. | .pllLock | .recorderScan | .foxgloveTestEnd .. | .idmReadComplete ..
  | .placementMapComplete .. | .startStepTimeout | .boundary .. | .unitResetRestart .. | .reactionWindowClose ..
  | .guardStart .. | .boundaryMissed .. | .safetyWindowStart .. | .windowOver .. | .loadDataReturn .. | .fenceCompletion ..
  | .twaitCompletion .. | .urdCompletion .. | .voteDecision .. | .late .. | .scrub .. | .rejoin .. | .rejoinCopyComplete ..
  | .rejoinFail | .latentResync .. | .quiescenceEnd .. | .commandComplete .. | .selfTestEnd .. | .fetchComplete ..
  | .migrateTimeout | .profileComplete .. | .combinedLoss | .resourceReturn .. | .beacon .. | .beaconsAbsent
  | .partnerResync .. | .beaconWaitTimeout | .syncTimeout | .stateCopy .. | .copyMissing | .revertDue | .brakeWord ..
  | .brakeWordTimeout | .stationLost .. | .faultMessage .. | .injectMissed | .degradeExpired | .offPulse
  | .offPulseEvaluation .. | .extFeedPersist .. | .readbackCheck .. | .pulseStarved .. | .brakeFeedbackCheck ..
  | .brakeNorel .. | .brakeTestStep .. | .btestDue | .edge .. | .diBreak .. | .diOvervolt .. | .rangeSettled ..
  | .supplyLow .. | .supplyHigh .. | .doOverload .. | .doOvertemp .. | .doOpen .. | .doFeed .. | .canFrameReceived ..
  | .queueDrain .. | .transmitChoice .. | .frameTransmitted .. | .frameError .. | .recoveryComplete .. | .referenceMessage ..
  | .tmLost .. | .tmMaster .. | .ethLinkChange .. | .sync .. | .telegramReceived .. | .inauguration .. | .poll ..
  | .serialResponse .. | .respTimeout .. | .measurement | .tim0Edge .. | .srcLost .. | .holdExpired .. | .pulseInstant ..
  | .captureEdge .. | .cardReadCompletion .. | .readTimeout | .cardRequest .. | .lockedSequence .. | .lockTimeout
  | .statusPacket .. | .hlkLinkDown .. | .cardAbsent .. | .cardPresence .. | .clkFail .. | .referenceQualified
  | .clockSourceChange | .refUnqual | .slewComplete | .recordWrite | .tokenRefill .. | .challenge .. | .challengeResponse ..
  | .lockoutExpiry | .unlockToken .. | .diagnosticsRead .. | .debugIntrusive | .returnRequest .. | .erasureComplete ..
  | .package .. | .trialExpired | .pfWarn | .powerReturn | .shutdown | .resetEntry .. | .externalReset .. | .presenceOpen
  | .brownout | .watchdog | .safeRestart | .strapChanged .. | .tempHigh .. | .tempCrit .. | .sweetpeaLinkChange ..
  | .copyAcknowledged .. | .hollyhockLinkUp .. | .svcSession .. | .breakCleared .. | .fieldSupplyRecovered ..
  | .junctionCooled .. | .openLoadCleared .. | .busIntegration .. | .pathDelayMeasurement .. | .bestMasterClock .. => .event

/-- The lane that executes an instruction. -/
def Instr.lane? : Instr → Option Lane
  | .li l _ | .addi l _ | .mov l _ | .movhi l _ | .sel l _ | .rdcf l _ | .wrcf l _ | .rdqf l _ | .wrqf l _ | .rdtk l _
  | .ld l _ | .st l _ | .ldq l _ | .ref l _ | .add l _ | .sub l _ | .mul l _ | .div l _ | .mod l _ | .neg l _ | .abs l _
  | .min l _ | .max l _ | .limit l _ | .mulh l _ | .fadd l _ | .fsub l _ | .fmul l _ | .fdiv l _ | .fsqrt l _ | .fabs l _
  | .fneg l _ | .fmin l _ | .fmax l _ | .fma l _ | .flimit l _ | .cvt l _ | .trunc l _ | .and l _ | .or l _ | .xor l _
  | .andn l _ | .not l _ | .shl l _ | .shr l _ | .sar l _ | .rol l _ | .ror l _ | .btst l _ | .bset l _ | .bclr l _
  | .binv l _ | .bext l _ | .bins l _ | .popc l _ | .clz l _ | .cmp l _ _ | .b l _ | .jr l _ | .fbcall l _ | .fbret l _
  | .enter l _ | .leave l _ | .ton l _ | .tof l _ | .tp l _ | .ctu l _ | .ctd l _ | .ctud l _ | .rtrig l _ | .ftrig l _
  | .qout l _ | .qclr l _ | .qtst l _ | .qmax l _ | .msend l _ | .mrecv l _ | .mstat l _ | .cmt l _ | .vsync l _ | .nop l _
  | .fence l _ | .twait l _ | .yield l _ | .urd l _ | .uwr l _ | .trap l _ => some l
  | .enable .. | .start .. | .quiesce .. | .gateOff .. | .test .. | .clear .. | .reset .. | .nopCommand ..
  | .resultWindowRead .. | .registerWrite .. | .placeRdSelWrite .. | .cannFiltSelWrite .. | .netDirSelWrite ..
  | .hlkIdmSelWrite .. | .timeSnapSelWrite .. | .fltHistSelWrite .. | .cannTxCancel .. | .c71MirrorWrite .. | .restart ..
  | .rebalance .. | .placeReturn .. | .profileStart .. | .profileStop .. | .adopt .. | .exclude .. | .join .. | .split ..
  | .merge .. | .foxglove .. | .switchover .. | .resync .. | .detach .. | .ack .. | .inject .. | .brakeTest ..
  | .pulseRetime .. | .recover .. | .timeSet .. | .rescan .. | .lock .. | .closeService .. | .apply .. | .activate ..
  | .confirm .. | .abort .. | .acceptChange .. | .restartHandover .. | .moduleReset .. | .resetRelease .. | .oscWaitExpiry ..
  | .pllLock | .recorderScan | .foxgloveTestEnd .. | .idmReadComplete .. | .placementMapComplete .. | .startStepTimeout
  | .boundary .. | .unitResetRestart .. | .reactionWindowClose .. | .guardStart .. | .boundaryMissed ..
  | .safetyWindowStart .. | .windowOver .. | .loadDataReturn .. | .fenceCompletion .. | .twaitCompletion ..
  | .urdCompletion .. | .voteDecision .. | .late .. | .scrub .. | .rejoin .. | .rejoinCopyComplete .. | .rejoinFail
  | .latentResync .. | .quiescenceEnd .. | .commandComplete .. | .selfTestEnd .. | .fetchComplete .. | .migrateTimeout
  | .profileComplete .. | .combinedLoss | .resourceReturn .. | .beacon .. | .beaconsAbsent | .partnerResync ..
  | .beaconWaitTimeout | .syncTimeout | .stateCopy .. | .copyMissing | .revertDue | .brakeWord .. | .brakeWordTimeout
  | .stationLost .. | .faultMessage .. | .injectMissed | .degradeExpired | .offPulse | .offPulseEvaluation ..
  | .extFeedPersist .. | .readbackCheck .. | .pulseStarved .. | .brakeFeedbackCheck .. | .brakeNorel .. | .brakeTestStep ..
  | .btestDue | .edge .. | .diBreak .. | .diOvervolt .. | .rangeSettled .. | .supplyLow .. | .supplyHigh .. | .doOverload ..
  | .doOvertemp .. | .doOpen .. | .doFeed .. | .canFrameReceived .. | .queueDrain .. | .transmitChoice ..
  | .frameTransmitted .. | .frameError .. | .recoveryComplete .. | .referenceMessage .. | .tmLost .. | .tmMaster ..
  | .ethLinkChange .. | .sync .. | .telegramReceived .. | .inauguration .. | .poll .. | .serialResponse .. | .respTimeout ..
  | .measurement | .tim0Edge .. | .srcLost .. | .holdExpired .. | .pulseInstant .. | .captureEdge .. | .cardReadCompletion ..
  | .readTimeout | .cardRequest .. | .lockedSequence .. | .lockTimeout | .statusPacket .. | .hlkLinkDown .. | .cardAbsent ..
  | .cardPresence .. | .clkFail .. | .referenceQualified | .clockSourceChange | .refUnqual | .slewComplete | .recordWrite
  | .tokenRefill .. | .challenge .. | .challengeResponse .. | .lockoutExpiry | .unlockToken .. | .diagnosticsRead ..
  | .debugIntrusive | .returnRequest .. | .erasureComplete .. | .package .. | .trialExpired | .pfWarn | .powerReturn
  | .shutdown | .resetEntry .. | .externalReset .. | .presenceOpen | .brownout | .watchdog | .safeRestart | .strapChanged ..
  | .tempHigh .. | .tempCrit .. | .sweetpeaLinkChange .. | .copyAcknowledged .. | .hollyhockLinkUp .. | .svcSession ..
  | .breakCleared .. | .fieldSupplyRecovered .. | .junctionCooled .. | .openLoadCleared .. | .busIntegration ..
  | .pathDelayMeasurement .. | .bestMasterClock .. => none

/-- The writer of a command or access (R35). -/
def Instr.writer? : Instr → Option Writer
  | .enable w _ _ | .start w _ _ | .quiesce w _ _ | .gateOff w _ _ | .test w _ _ | .clear w _ _ | .reset w _ _
  | .nopCommand w _ _ | .resultWindowRead w _ | .registerWrite w _ _ _ | .placeRdSelWrite w _ | .cannFiltSelWrite w _ _
  | .netDirSelWrite w _ | .hlkIdmSelWrite w _ | .timeSnapSelWrite w _ | .fltHistSelWrite w _ | .cannTxCancel w _ _
  | .c71MirrorWrite w _ _ | .restart w _ | .rebalance w _ | .placeReturn w _ | .profileStart w _ | .profileStop w _
  | .adopt w _ | .exclude w _ | .join w _ | .split w _ | .merge w _ | .foxglove w _ | .switchover w _ | .resync w _
  | .detach w _ | .ack w _ | .inject w _ | .brakeTest w _ | .pulseRetime w _ | .recover w _ _ | .timeSet w _ | .rescan w _
  | .lock w _ | .closeService w _ | .apply w _ | .activate w _ | .confirm w _ | .abort w _ | .acceptChange w _
  | .restartHandover w _ | .moduleReset w _ => some w
  | .li .. | .addi .. | .mov .. | .movhi .. | .sel .. | .rdcf .. | .wrcf .. | .rdqf .. | .wrqf .. | .rdtk .. | .ld .. | .st ..
  | .ldq .. | .ref .. | .add .. | .sub .. | .mul .. | .div .. | .mod .. | .neg .. | .abs .. | .min .. | .max .. | .limit ..
  | .mulh .. | .fadd .. | .fsub .. | .fmul .. | .fdiv .. | .fsqrt .. | .fabs .. | .fneg .. | .fmin .. | .fmax .. | .fma ..
  | .flimit .. | .cvt .. | .trunc .. | .and .. | .or .. | .xor .. | .andn .. | .not .. | .shl .. | .shr .. | .sar .. | .rol ..
  | .ror .. | .btst .. | .bset .. | .bclr .. | .binv .. | .bext .. | .bins .. | .popc .. | .clz .. | .cmp .. | .b .. | .jr ..
  | .fbcall .. | .fbret .. | .enter .. | .leave .. | .ton .. | .tof .. | .tp .. | .ctu .. | .ctd .. | .ctud .. | .rtrig ..
  | .ftrig .. | .qout .. | .qclr .. | .qtst .. | .qmax .. | .msend .. | .mrecv .. | .mstat .. | .cmt .. | .vsync .. | .nop ..
  | .fence .. | .twait .. | .yield .. | .urd .. | .uwr .. | .trap .. | .resetRelease .. | .oscWaitExpiry .. | .pllLock
  | .recorderScan | .foxgloveTestEnd .. | .idmReadComplete .. | .placementMapComplete .. | .startStepTimeout | .boundary ..
  | .unitResetRestart .. | .reactionWindowClose .. | .guardStart .. | .boundaryMissed .. | .safetyWindowStart ..
  | .windowOver .. | .loadDataReturn .. | .fenceCompletion .. | .twaitCompletion .. | .urdCompletion .. | .voteDecision ..
  | .late .. | .scrub .. | .rejoin .. | .rejoinCopyComplete .. | .rejoinFail | .latentResync .. | .quiescenceEnd ..
  | .commandComplete .. | .selfTestEnd .. | .fetchComplete .. | .migrateTimeout | .profileComplete .. | .combinedLoss
  | .resourceReturn .. | .beacon .. | .beaconsAbsent | .partnerResync .. | .beaconWaitTimeout | .syncTimeout | .stateCopy ..
  | .copyMissing | .revertDue | .brakeWord .. | .brakeWordTimeout | .stationLost .. | .faultMessage .. | .injectMissed
  | .degradeExpired | .offPulse | .offPulseEvaluation .. | .extFeedPersist .. | .readbackCheck .. | .pulseStarved ..
  | .brakeFeedbackCheck .. | .brakeNorel .. | .brakeTestStep .. | .btestDue | .edge .. | .diBreak .. | .diOvervolt ..
  | .rangeSettled .. | .supplyLow .. | .supplyHigh .. | .doOverload .. | .doOvertemp .. | .doOpen .. | .doFeed ..
  | .canFrameReceived .. | .queueDrain .. | .transmitChoice .. | .frameTransmitted .. | .frameError .. | .recoveryComplete ..
  | .referenceMessage .. | .tmLost .. | .tmMaster .. | .ethLinkChange .. | .sync .. | .telegramReceived .. | .inauguration ..
  | .poll .. | .serialResponse .. | .respTimeout .. | .measurement | .tim0Edge .. | .srcLost .. | .holdExpired ..
  | .pulseInstant .. | .captureEdge .. | .cardReadCompletion .. | .readTimeout | .cardRequest .. | .lockedSequence ..
  | .lockTimeout | .statusPacket .. | .hlkLinkDown .. | .cardAbsent .. | .cardPresence .. | .clkFail .. | .referenceQualified
  | .clockSourceChange | .refUnqual | .slewComplete | .recordWrite | .tokenRefill .. | .challenge .. | .challengeResponse ..
  | .lockoutExpiry | .unlockToken .. | .diagnosticsRead .. | .debugIntrusive | .returnRequest .. | .erasureComplete ..
  | .package .. | .trialExpired | .pfWarn | .powerReturn | .shutdown | .resetEntry .. | .externalReset .. | .presenceOpen
  | .brownout | .watchdog | .safeRestart | .strapChanged .. | .tempHigh .. | .tempCrit .. | .sweetpeaLinkChange ..
  | .copyAcknowledged .. | .hollyhockLinkUp .. | .svcSession .. | .breakCleared .. | .fieldSupplyRecovered ..
  | .junctionCooled .. | .openLoadCleared .. | .busIntegration .. | .pathDelayMeasurement .. | .bestMasterClock .. => none

/-- A command that can reach the module: every operand lies in the range that its rule gives it. -/
def Instr.wf : Instr → Bool
  | .foxgloveTestEnd seen _ => seen.all fun k => 1 ≤ k.1 && k.1 ≤ 399
  | .idmReadComplete _ record => record.length = 256
  | .cmp _ fn _ => fn.toNat < 8
  | .registerWrite _ _ _ size => size = 1 || size = 2 || size = 4 || size = 8
  | .c71MirrorWrite _ off _ => off.toNat % 4 = 0 && 0x800 ≤ off.toNat && off.toNat ≤ 0x818
  | .fetchComplete u _ => u.fetches
  | .beacon _ m _ => m.boundary < 2 ^ 64 && m.state ≤ 6
  | .canFrameReceived _ f _ => f.wf
  | .referenceMessage _ f _ => f.wf
  | .frameError _ e => e.wf
  | .telegramReceived _ t => t.wf
  | .serialResponse _ r => r.wf
  | .cardReadCompletion d => d.block.length = 0 || d.block.length = 8
  | .statusPacket _ _ p => p.wf
  | .srcLost _ src => src ≤ 8
  | .challenge _ nonce => nonce < 2 ^ 256
  | .package p => p.len < 2 ^ 32 && p.secver < 2 ^ 16 && p.version < 2 ^ 32
  | .tempHigh temp => -(2 ^ 15) ≤ temp && temp < 2 ^ 15
  | .tempCrit temp => -(2 ^ 15) ≤ temp && temp < 2 ^ 15
  | .resetRelease .. | .oscWaitExpiry .. | .pllLock | .recorderScan | .placementMapComplete .. | .startStepTimeout
  | .boundary .. | .unitResetRestart .. | .reactionWindowClose .. | .guardStart .. | .boundaryMissed ..
  | .safetyWindowStart .. | .windowOver .. | .li .. | .addi .. | .mov .. | .movhi .. | .sel .. | .rdcf .. | .wrcf ..
  | .rdqf .. | .wrqf .. | .rdtk .. | .ld .. | .loadDataReturn .. | .st .. | .ldq .. | .ref .. | .add .. | .sub .. | .mul ..
  | .div .. | .mod .. | .neg .. | .abs .. | .min .. | .max .. | .limit .. | .mulh .. | .fadd .. | .fsub .. | .fmul ..
  | .fdiv .. | .fsqrt .. | .fabs .. | .fneg .. | .fmin .. | .fmax .. | .fma .. | .flimit .. | .cvt .. | .trunc .. | .and ..
  | .or .. | .xor .. | .andn .. | .not .. | .shl .. | .shr .. | .sar .. | .rol .. | .ror .. | .btst .. | .bset .. | .bclr ..
  | .binv .. | .bext .. | .bins .. | .popc .. | .clz .. | .b .. | .jr .. | .fbcall .. | .fbret .. | .enter .. | .leave ..
  | .ton .. | .tof .. | .tp .. | .ctu .. | .ctd .. | .ctud .. | .rtrig .. | .ftrig .. | .qout .. | .qclr .. | .qtst ..
  | .qmax .. | .msend .. | .mrecv .. | .mstat .. | .cmt .. | .vsync .. | .nop .. | .fence .. | .fenceCompletion .. | .twait ..
  | .twaitCompletion .. | .yield .. | .urd .. | .urdCompletion .. | .uwr .. | .trap .. | .voteDecision .. | .late ..
  | .scrub .. | .rejoin .. | .rejoinCopyComplete .. | .rejoinFail | .latentResync .. | .enable .. | .start .. | .quiesce ..
  | .gateOff .. | .test .. | .clear .. | .reset .. | .nopCommand .. | .quiescenceEnd .. | .commandComplete ..
  | .selfTestEnd .. | .resultWindowRead .. | .placeRdSelWrite .. | .cannFiltSelWrite .. | .netDirSelWrite ..
  | .hlkIdmSelWrite .. | .timeSnapSelWrite .. | .fltHistSelWrite .. | .cannTxCancel .. | .restart .. | .rebalance ..
  | .migrateTimeout | .placeReturn .. | .profileStart .. | .profileComplete .. | .profileStop .. | .adopt .. | .combinedLoss
  | .resourceReturn .. | .exclude .. | .join .. | .split .. | .merge .. | .foxglove .. | .beaconsAbsent | .partnerResync ..
  | .beaconWaitTimeout | .syncTimeout | .stateCopy .. | .copyMissing | .revertDue | .switchover .. | .resync .. | .detach ..
  | .brakeWord .. | .brakeWordTimeout | .stationLost .. | .faultMessage .. | .ack .. | .inject .. | .injectMissed
  | .degradeExpired | .offPulse | .offPulseEvaluation .. | .extFeedPersist .. | .readbackCheck .. | .pulseStarved ..
  | .brakeFeedbackCheck .. | .brakeNorel .. | .brakeTest .. | .brakeTestStep .. | .pulseRetime .. | .btestDue | .edge ..
  | .diBreak .. | .diOvervolt .. | .rangeSettled .. | .supplyLow .. | .supplyHigh .. | .doOverload .. | .doOvertemp ..
  | .doOpen .. | .doFeed .. | .queueDrain .. | .transmitChoice .. | .frameTransmitted .. | .recover .. | .recoveryComplete ..
  | .tmLost .. | .tmMaster .. | .ethLinkChange .. | .sync .. | .inauguration .. | .poll .. | .respTimeout .. | .measurement
  | .tim0Edge .. | .holdExpired .. | .timeSet .. | .pulseInstant .. | .captureEdge .. | .readTimeout | .cardRequest ..
  | .lockedSequence .. | .lockTimeout | .hlkLinkDown .. | .cardAbsent .. | .cardPresence .. | .rescan .. | .clkFail ..
  | .referenceQualified | .clockSourceChange | .refUnqual | .slewComplete | .recordWrite | .tokenRefill ..
  | .challengeResponse .. | .lockoutExpiry | .unlockToken .. | .diagnosticsRead .. | .debugIntrusive | .returnRequest ..
  | .erasureComplete .. | .lock .. | .closeService .. | .apply .. | .activate .. | .confirm .. | .abort .. | .acceptChange ..
  | .restartHandover .. | .trialExpired | .pfWarn | .powerReturn | .shutdown | .resetEntry .. | .externalReset ..
  | .presenceOpen | .brownout | .watchdog | .safeRestart | .moduleReset .. | .strapChanged .. | .sweetpeaLinkChange ..
  | .copyAcknowledged .. | .hollyhockLinkUp .. | .svcSession .. | .breakCleared .. | .fieldSupplyRecovered ..
  | .junctionCooled .. | .openLoadCleared .. | .busIntegration .. | .pathDelayMeasurement .. | .bestMasterClock .. => true

end Sys2Proof
end

