-- ==== Sys2Proof/Laws/PerInstr.lean ====
section
/-! SUPPORT. The family Classed, by constructor: a command names a lane exactly when it is an instruction, and a writer exactly when a
writer sends it. -/

namespace Sys2Proof.Laws.Classed

open Sys2Proof

def Statement (i : Instr) : Prop :=
  (i.lane?).isSome = decide (i.cmdClass = .instruction) ∧ (i.writer?).isSome = decide (i.cmdClass = .written)

theorem resetRelease (s1 : BitVec 13) (s2 : BitVec 13) (s3 : BitVec 13) (t1 : BitVec 13) (t2 : BitVec 13) (t3 : BitVec 13) (cards : W32) : Statement (.resetRelease s1 s2 s3 t1 t2 t3 cards) := ⟨rfl, rfl⟩
theorem oscWaitExpiry (osc : Osc) : Statement (.oscWaitExpiry osc) := ⟨rfl, rfl⟩
theorem pllLock : Statement (.pllLock) := ⟨rfl, rfl⟩
theorem recorderScan : Statement (.recorderScan) := ⟨rfl, rfl⟩
theorem foxgloveTestEnd (seen : List (Nat × List FoxFlag)) (bist : Bool × Bool × Bool) :
    Statement (.foxgloveTestEnd seen bist) := ⟨rfl, rfl⟩
theorem idmReadComplete (slot : Fin 33) (record : List Byte) : Statement (.idmReadComplete slot record) := ⟨rfl, rfl⟩
theorem placementMapComplete (mismatch : Bool) (us : Nat) : Statement (.placementMapComplete mismatch us) := ⟨rfl, rfl⟩
theorem startStepTimeout : Statement (.startStepTimeout) := ⟨rfl, rfl⟩
theorem boundary (at_ : Nat) (lag : Nat) (bph : Nat) : Statement (.boundary at_ lag bph) := ⟨rfl, rfl⟩
theorem unitResetRestart (u : UnitId) : Statement (.unitResetRestart u) := ⟨rfl, rfl⟩
theorem reactionWindowClose (u : UnitId) : Statement (.reactionWindowClose u) := ⟨rfl, rfl⟩
theorem guardStart (at_ : Nat) : Statement (.guardStart at_) := ⟨rfl, rfl⟩
theorem boundaryMissed (at_ : Nat) : Statement (.boundaryMissed at_) := ⟨rfl, rfl⟩
theorem safetyWindowStart (inst : W16) : Statement (.safetyWindowStart inst) := ⟨rfl, rfl⟩
theorem windowOver (inst : W16) : Statement (.windowOver inst) := ⟨rfl, rfl⟩
theorem li (l : Lane) (f : IFmt) : Statement (.li l f) := ⟨rfl, rfl⟩
theorem addi (l : Lane) (f : IFmt) : Statement (.addi l f) := ⟨rfl, rfl⟩
theorem mov (l : Lane) (f : RFmt) : Statement (.mov l f) := ⟨rfl, rfl⟩
theorem movhi (l : Lane) (f : RFmt) : Statement (.movhi l f) := ⟨rfl, rfl⟩
theorem sel (l : Lane) (f : RFmt) : Statement (.sel l f) := ⟨rfl, rfl⟩
theorem rdcf (l : Lane) (f : RFmt) : Statement (.rdcf l f) := ⟨rfl, rfl⟩
theorem wrcf (l : Lane) (f : RFmt) : Statement (.wrcf l f) := ⟨rfl, rfl⟩
theorem rdqf (l : Lane) (f : RFmt) : Statement (.rdqf l f) := ⟨rfl, rfl⟩
theorem wrqf (l : Lane) (f : RFmt) : Statement (.wrqf l f) := ⟨rfl, rfl⟩
theorem rdtk (l : Lane) (f : RFmt) : Statement (.rdtk l f) := ⟨rfl, rfl⟩
theorem ld (l : Lane) (f : MFmt) : Statement (.ld l f) := ⟨rfl, rfl⟩
theorem loadDataReturn (l : Lane) : Statement (.loadDataReturn l) := ⟨rfl, rfl⟩
theorem st (l : Lane) (f : MFmt) : Statement (.st l f) := ⟨rfl, rfl⟩
theorem ldq (l : Lane) (f : MFmt) : Statement (.ldq l f) := ⟨rfl, rfl⟩
theorem ref (l : Lane) (f : MFmt) : Statement (.ref l f) := ⟨rfl, rfl⟩
theorem add (l : Lane) (f : RFmt) : Statement (.add l f) := ⟨rfl, rfl⟩
theorem sub (l : Lane) (f : RFmt) : Statement (.sub l f) := ⟨rfl, rfl⟩
theorem mul (l : Lane) (f : RFmt) : Statement (.mul l f) := ⟨rfl, rfl⟩
theorem div (l : Lane) (f : RFmt) : Statement (.div l f) := ⟨rfl, rfl⟩
theorem mod (l : Lane) (f : RFmt) : Statement (.mod l f) := ⟨rfl, rfl⟩
theorem neg (l : Lane) (f : RFmt) : Statement (.neg l f) := ⟨rfl, rfl⟩
theorem abs (l : Lane) (f : RFmt) : Statement (.abs l f) := ⟨rfl, rfl⟩
theorem min (l : Lane) (f : RFmt) : Statement (.min l f) := ⟨rfl, rfl⟩
theorem max (l : Lane) (f : RFmt) : Statement (.max l f) := ⟨rfl, rfl⟩
theorem limit (l : Lane) (f : RFmt) : Statement (.limit l f) := ⟨rfl, rfl⟩
theorem mulh (l : Lane) (f : RFmt) : Statement (.mulh l f) := ⟨rfl, rfl⟩
theorem fadd (l : Lane) (f : RFmt) : Statement (.fadd l f) := ⟨rfl, rfl⟩
theorem fsub (l : Lane) (f : RFmt) : Statement (.fsub l f) := ⟨rfl, rfl⟩
theorem fmul (l : Lane) (f : RFmt) : Statement (.fmul l f) := ⟨rfl, rfl⟩
theorem fdiv (l : Lane) (f : RFmt) : Statement (.fdiv l f) := ⟨rfl, rfl⟩
theorem fsqrt (l : Lane) (f : RFmt) : Statement (.fsqrt l f) := ⟨rfl, rfl⟩
theorem fabs (l : Lane) (f : RFmt) : Statement (.fabs l f) := ⟨rfl, rfl⟩
theorem fneg (l : Lane) (f : RFmt) : Statement (.fneg l f) := ⟨rfl, rfl⟩
theorem fmin (l : Lane) (f : RFmt) : Statement (.fmin l f) := ⟨rfl, rfl⟩
theorem fmax (l : Lane) (f : RFmt) : Statement (.fmax l f) := ⟨rfl, rfl⟩
theorem fma (l : Lane) (f : RFmt) : Statement (.fma l f) := ⟨rfl, rfl⟩
theorem flimit (l : Lane) (f : RFmt) : Statement (.flimit l f) := ⟨rfl, rfl⟩
theorem cvt (l : Lane) (f : RFmt) : Statement (.cvt l f) := ⟨rfl, rfl⟩
theorem trunc (l : Lane) (f : RFmt) : Statement (.trunc l f) := ⟨rfl, rfl⟩
theorem and (l : Lane) (f : RFmt) : Statement (.and l f) := ⟨rfl, rfl⟩
theorem or (l : Lane) (f : RFmt) : Statement (.or l f) := ⟨rfl, rfl⟩
theorem xor (l : Lane) (f : RFmt) : Statement (.xor l f) := ⟨rfl, rfl⟩
theorem andn (l : Lane) (f : RFmt) : Statement (.andn l f) := ⟨rfl, rfl⟩
theorem not (l : Lane) (f : RFmt) : Statement (.not l f) := ⟨rfl, rfl⟩
theorem shl (l : Lane) (f : RFmt) : Statement (.shl l f) := ⟨rfl, rfl⟩
theorem shr (l : Lane) (f : RFmt) : Statement (.shr l f) := ⟨rfl, rfl⟩
theorem sar (l : Lane) (f : RFmt) : Statement (.sar l f) := ⟨rfl, rfl⟩
theorem rol (l : Lane) (f : RFmt) : Statement (.rol l f) := ⟨rfl, rfl⟩
theorem ror (l : Lane) (f : RFmt) : Statement (.ror l f) := ⟨rfl, rfl⟩
theorem btst (l : Lane) (f : RFmt) : Statement (.btst l f) := ⟨rfl, rfl⟩
theorem bset (l : Lane) (f : RFmt) : Statement (.bset l f) := ⟨rfl, rfl⟩
theorem bclr (l : Lane) (f : RFmt) : Statement (.bclr l f) := ⟨rfl, rfl⟩
theorem binv (l : Lane) (f : RFmt) : Statement (.binv l f) := ⟨rfl, rfl⟩
theorem bext (l : Lane) (f : RFmt) : Statement (.bext l f) := ⟨rfl, rfl⟩
theorem bins (l : Lane) (f : RFmt) : Statement (.bins l f) := ⟨rfl, rfl⟩
theorem popc (l : Lane) (f : RFmt) : Statement (.popc l f) := ⟨rfl, rfl⟩
theorem clz (l : Lane) (f : RFmt) : Statement (.clz l f) := ⟨rfl, rfl⟩
theorem cmp (l : Lane) (fn : BitVec 6) (f : RFmt) : Statement (.cmp l fn f) := ⟨rfl, rfl⟩
theorem b (l : Lane) (f : BFmt) : Statement (.b l f) := ⟨rfl, rfl⟩
theorem jr (l : Lane) (f : RFmt) : Statement (.jr l f) := ⟨rfl, rfl⟩
theorem fbcall (l : Lane) (f : FFmt) : Statement (.fbcall l f) := ⟨rfl, rfl⟩
theorem fbret (l : Lane) (f : RFmt) : Statement (.fbret l f) := ⟨rfl, rfl⟩
theorem enter (l : Lane) (f : IFmt) : Statement (.enter l f) := ⟨rfl, rfl⟩
theorem leave (l : Lane) (f : IFmt) : Statement (.leave l f) := ⟨rfl, rfl⟩
theorem ton (l : Lane) (f : CFmt) : Statement (.ton l f) := ⟨rfl, rfl⟩
theorem tof (l : Lane) (f : CFmt) : Statement (.tof l f) := ⟨rfl, rfl⟩
theorem tp (l : Lane) (f : CFmt) : Statement (.tp l f) := ⟨rfl, rfl⟩
theorem ctu (l : Lane) (f : CFmt) : Statement (.ctu l f) := ⟨rfl, rfl⟩
theorem ctd (l : Lane) (f : CFmt) : Statement (.ctd l f) := ⟨rfl, rfl⟩
theorem ctud (l : Lane) (f : CFmt) : Statement (.ctud l f) := ⟨rfl, rfl⟩
theorem rtrig (l : Lane) (f : CFmt) : Statement (.rtrig l f) := ⟨rfl, rfl⟩
theorem ftrig (l : Lane) (f : CFmt) : Statement (.ftrig l f) := ⟨rfl, rfl⟩
theorem qout (l : Lane) (f : RFmt) : Statement (.qout l f) := ⟨rfl, rfl⟩
theorem qclr (l : Lane) (f : RFmt) : Statement (.qclr l f) := ⟨rfl, rfl⟩
theorem qtst (l : Lane) (f : RFmt) : Statement (.qtst l f) := ⟨rfl, rfl⟩
theorem qmax (l : Lane) (f : RFmt) : Statement (.qmax l f) := ⟨rfl, rfl⟩
theorem msend (l : Lane) (f : RFmt) : Statement (.msend l f) := ⟨rfl, rfl⟩
theorem mrecv (l : Lane) (f : RFmt) : Statement (.mrecv l f) := ⟨rfl, rfl⟩
theorem mstat (l : Lane) (f : RFmt) : Statement (.mstat l f) := ⟨rfl, rfl⟩
theorem cmt (l : Lane) (f : RFmt) : Statement (.cmt l f) := ⟨rfl, rfl⟩
theorem vsync (l : Lane) (f : RFmt) : Statement (.vsync l f) := ⟨rfl, rfl⟩
theorem nop (l : Lane) (f : RFmt) : Statement (.nop l f) := ⟨rfl, rfl⟩
theorem fence (l : Lane) (f : RFmt) : Statement (.fence l f) := ⟨rfl, rfl⟩
theorem fenceCompletion (l : Lane) : Statement (.fenceCompletion l) := ⟨rfl, rfl⟩
theorem twait (l : Lane) (f : RFmt) : Statement (.twait l f) := ⟨rfl, rfl⟩
theorem twaitCompletion (l : Lane) (at_ : Nat) : Statement (.twaitCompletion l at_) := ⟨rfl, rfl⟩
theorem yield (l : Lane) (f : RFmt) : Statement (.yield l f) := ⟨rfl, rfl⟩
theorem urd (l : Lane) (f : RFmt) : Statement (.urd l f) := ⟨rfl, rfl⟩
theorem urdCompletion (l : Lane) : Statement (.urdCompletion l) := ⟨rfl, rfl⟩
theorem uwr (l : Lane) (f : RFmt) : Statement (.uwr l f) := ⟨rfl, rfl⟩
theorem trap (l : Lane) (f : IFmt) : Statement (.trap l f) := ⟨rfl, rfl⟩
theorem voteDecision (outOfSlot : Option Lane) (badComparator : Option Comparator) : Statement (.voteDecision outOfSlot badComparator) := ⟨rfl, rfl⟩
theorem late (l : Lane) : Statement (.late l) := ⟨rfl, rfl⟩
theorem scrub (e : EccFinding) : Statement (.scrub e) := ⟨rfl, rfl⟩
theorem rejoin (l : Lane) : Statement (.rejoin l) := ⟨rfl, rfl⟩
theorem rejoinCopyComplete (differs : Bool) : Statement (.rejoinCopyComplete differs) := ⟨rfl, rfl⟩
theorem rejoinFail : Statement (.rejoinFail) := ⟨rfl, rfl⟩
theorem latentResync (l : Lane) : Statement (.latentResync l) := ⟨rfl, rfl⟩
theorem enable (w : Writer) (u : UnitId) (arg : BitVec 24) : Statement (.enable w u arg) := ⟨rfl, rfl⟩
theorem start (w : Writer) (u : UnitId) (arg : BitVec 24) : Statement (.start w u arg) := ⟨rfl, rfl⟩
theorem quiesce (w : Writer) (u : UnitId) (arg : BitVec 24) : Statement (.quiesce w u arg) := ⟨rfl, rfl⟩
theorem gateOff (w : Writer) (u : UnitId) (arg : BitVec 24) : Statement (.gateOff w u arg) := ⟨rfl, rfl⟩
theorem test (w : Writer) (u : UnitId) (arg : BitVec 24) : Statement (.test w u arg) := ⟨rfl, rfl⟩
theorem clear (w : Writer) (u : UnitId) (arg : BitVec 24) : Statement (.clear w u arg) := ⟨rfl, rfl⟩
theorem reset (w : Writer) (u : UnitId) (arg : BitVec 24) : Statement (.reset w u arg) := ⟨rfl, rfl⟩
theorem nopCommand (w : Writer) (u : UnitId) (arg : BitVec 24) : Statement (.nopCommand w u arg) := ⟨rfl, rfl⟩
theorem quiescenceEnd (u : UnitId) (stuck : List UnitId) : Statement (.quiescenceEnd u stuck) := ⟨rfl, rfl⟩
theorem commandComplete (u : UnitId) (code : Status) (data : W16) : Statement (.commandComplete u code data) := ⟨rfl, rfl⟩
theorem selfTestEnd (u : UnitId) (passed : Bool) : Statement (.selfTestEnd u passed) := ⟨rfl, rfl⟩
theorem resultWindowRead (w : Writer) (addr : W32) : Statement (.resultWindowRead w addr) := ⟨rfl, rfl⟩
theorem registerWrite (w : Writer) (addr : W32) (value : W32) (size : Nat) : Statement (.registerWrite w addr value size) := ⟨rfl, rfl⟩
theorem placeRdSelWrite (w : Writer) (value : W32) : Statement (.placeRdSelWrite w value) := ⟨rfl, rfl⟩
theorem cannFiltSelWrite (w : Writer) (n : Fin 6) (value : W32) : Statement (.cannFiltSelWrite w n value) := ⟨rfl, rfl⟩
theorem netDirSelWrite (w : Writer) (value : W32) : Statement (.netDirSelWrite w value) := ⟨rfl, rfl⟩
theorem hlkIdmSelWrite (w : Writer) (value : W32) : Statement (.hlkIdmSelWrite w value) := ⟨rfl, rfl⟩
theorem timeSnapSelWrite (w : Writer) (value : W32) : Statement (.timeSnapSelWrite w value) := ⟨rfl, rfl⟩
theorem fltHistSelWrite (w : Writer) (value : W32) : Statement (.fltHistSelWrite w value) := ⟨rfl, rfl⟩
theorem fetchComplete (u : UnitId) (bank : Lane) : Statement (.fetchComplete u bank) := ⟨rfl, rfl⟩
theorem cannTxCancel (w : Writer) (n : Fin 6) (value : W32) : Statement (.cannTxCancel w n value) := ⟨rfl, rfl⟩
theorem c71MirrorWrite (w : Writer) (off : BitVec 12) (value : W32) : Statement (.c71MirrorWrite w off value) := ⟨rfl, rfl⟩
theorem restart (w : Writer) (arg : BitVec 24) : Statement (.restart w arg) := ⟨rfl, rfl⟩
theorem rebalance (w : Writer) (arg : BitVec 24) : Statement (.rebalance w arg) := ⟨rfl, rfl⟩
theorem migrateTimeout : Statement (.migrateTimeout) := ⟨rfl, rfl⟩
theorem placeReturn (w : Writer) (arg : BitVec 24) : Statement (.placeReturn w arg) := ⟨rfl, rfl⟩
theorem profileStart (w : Writer) (arg : BitVec 24) : Statement (.profileStart w arg) := ⟨rfl, rfl⟩
theorem profileComplete (p : ProfileSet) : Statement (.profileComplete p) := ⟨rfl, rfl⟩
theorem profileStop (w : Writer) (arg : BitVec 24) : Statement (.profileStop w arg) := ⟨rfl, rfl⟩
theorem adopt (w : Writer) (arg : BitVec 24) : Statement (.adopt w arg) := ⟨rfl, rfl⟩
theorem combinedLoss : Statement .combinedLoss := ⟨rfl, rfl⟩
theorem resourceReturn (r : Resource) : Statement (.resourceReturn r) := ⟨rfl, rfl⟩
theorem exclude (w : Writer) (arg : BitVec 24) : Statement (.exclude w arg) := ⟨rfl, rfl⟩
theorem join (w : Writer) (arg : BitVec 24) : Statement (.join w arg) := ⟨rfl, rfl⟩
theorem split (w : Writer) (arg : BitVec 24) : Statement (.split w arg) := ⟨rfl, rfl⟩
theorem merge (w : Writer) (arg : BitVec 24) : Statement (.merge w arg) := ⟨rfl, rfl⟩
theorem foxglove (w : Writer) (arg : BitVec 24) : Statement (.foxglove w arg) := ⟨rfl, rfl⟩
theorem beacon (link : Fin 2) (b : Beacon) (at_ : Nat) : Statement (.beacon link b at_) := ⟨rfl, rfl⟩
theorem beaconsAbsent : Statement (.beaconsAbsent) := ⟨rfl, rfl⟩
theorem partnerResync (peer : PeerIdentity) : Statement (.partnerResync peer) := ⟨rfl, rfl⟩
theorem beaconWaitTimeout : Statement (.beaconWaitTimeout) := ⟨rfl, rfl⟩
theorem syncTimeout : Statement (.syncTimeout) := ⟨rfl, rfl⟩
theorem stateCopy (c : StateCopy) (trailerOk : Bool) : Statement (.stateCopy c trailerOk) := ⟨rfl, rfl⟩
theorem copyMissing : Statement (.copyMissing) := ⟨rfl, rfl⟩
theorem revertDue : Statement (.revertDue) := ⟨rfl, rfl⟩
theorem switchover (w : Writer) (arg : BitVec 24) : Statement (.switchover w arg) := ⟨rfl, rfl⟩
theorem resync (w : Writer) (arg : BitVec 24) : Statement (.resync w arg) := ⟨rfl, rfl⟩
theorem detach (w : Writer) (arg : BitVec 24) : Statement (.detach w arg) := ⟨rfl, rfl⟩
theorem brakeWord (bk0 : Bool) (bk1 : Bool) : Statement (.brakeWord bk0 bk1) := ⟨rfl, rfl⟩
theorem brakeWordTimeout : Statement (.brakeWordTimeout) := ⟨rfl, rfl⟩
theorem stationLost (idx : BitVec 12) : Statement (.stationLost idx) := ⟨rfl, rfl⟩
theorem faultMessage (source : UnitId) (at_ : Nat) : Statement (.faultMessage source at_) := ⟨rfl, rfl⟩
theorem ack (w : Writer) (arg : BitVec 24) : Statement (.ack w arg) := ⟨rfl, rfl⟩
theorem inject (w : Writer) (arg : BitVec 24) : Statement (.inject w arg) := ⟨rfl, rfl⟩
theorem injectMissed : Statement (.injectMissed) := ⟨rfl, rfl⟩
theorem degradeExpired : Statement (.degradeExpired) := ⟨rfl, rfl⟩
theorem offPulse : Statement (.offPulse) := ⟨rfl, rfl⟩
theorem offPulseEvaluation (own : Bool) (low : List OutCh) : Statement (.offPulseEvaluation own low) := ⟨rfl, rfl⟩
theorem extFeedPersist (ch : OutCh) : Statement (.extFeedPersist ch) := ⟨rfl, rfl⟩
theorem readbackCheck (ch : OutCh) (high : Bool) : Statement (.readbackCheck ch high) := ⟨rfl, rfl⟩
theorem pulseStarved (ch : OutCh) : Statement (.pulseStarved ch) := ⟨rfl, rfl⟩
theorem brakeFeedbackCheck (x : Fin 2) (level : Bool) (at_ : Nat) : Statement (.brakeFeedbackCheck x level at_) := ⟨rfl, rfl⟩
theorem brakeNorel (x : Fin 2) : Statement (.brakeNorel x) := ⟨rfl, rfl⟩
theorem brakeTest (w : Writer) (arg : BitVec 24) : Statement (.brakeTest w arg) := ⟨rfl, rfl⟩
theorem brakeTestStep (obs : BrakeObs) : Statement (.brakeTestStep obs) := ⟨rfl, rfl⟩
theorem pulseRetime (w : Writer) (arg : BitVec 24) : Statement (.pulseRetime w arg) := ⟨rfl, rfl⟩
theorem btestDue : Statement (.btestDue) := ⟨rfl, rfl⟩
theorem edge (ch : Fin 18) (level : Bool) (began : Nat) : Statement (.edge ch level began) := ⟨rfl, rfl⟩
theorem diBreak (ch : Fin 18) : Statement (.diBreak ch) := ⟨rfl, rfl⟩
theorem diOvervolt (ch : Fin 18) (active : Bool) : Statement (.diOvervolt ch active) := ⟨rfl, rfl⟩
theorem rangeSettled (ch : Fin 18) : Statement (.rangeSettled ch) := ⟨rfl, rfl⟩
theorem supplyLow (brakes : Bool) : Statement (.supplyLow brakes) := ⟨rfl, rfl⟩
theorem supplyHigh (brakes : Bool) : Statement (.supplyHigh brakes) := ⟨rfl, rfl⟩
theorem doOverload (m : Fin 8) : Statement (.doOverload m) := ⟨rfl, rfl⟩
theorem doOvertemp (m : Fin 8) : Statement (.doOvertemp m) := ⟨rfl, rfl⟩
theorem doOpen (m : Fin 8) : Statement (.doOpen m) := ⟨rfl, rfl⟩
theorem doFeed (m : Fin 8) : Statement (.doFeed m) := ⟨rfl, rfl⟩
theorem canFrameReceived (n : Fin 6) (f : CanFrame) (at_ : Nat) : Statement (.canFrameReceived n f at_) := ⟨rfl, rfl⟩
theorem queueDrain (n : Fin 6) : Statement (.queueDrain n) := ⟨rfl, rfl⟩
theorem transmitChoice (n : Fin 6) (at_ : Nat) : Statement (.transmitChoice n at_) := ⟨rfl, rfl⟩
theorem frameTransmitted (n : Fin 6) (at_ : Nat) : Statement (.frameTransmitted n at_) := ⟨rfl, rfl⟩
theorem frameError (n : Fin 6) (e : CanErr) : Statement (.frameError n e) := ⟨rfl, rfl⟩
theorem recover (w : Writer) (n : Fin 6) (arg : BitVec 24) : Statement (.recover w n arg) := ⟨rfl, rfl⟩
theorem recoveryComplete (n : Fin 6) : Statement (.recoveryComplete n) := ⟨rfl, rfl⟩
theorem referenceMessage (n : Fin 6) (f : CanFrame) (at_ : Nat) : Statement (.referenceMessage n f at_) := ⟨rfl, rfl⟩
theorem tmLost (n : Fin 6) : Statement (.tmLost n) := ⟨rfl, rfl⟩
theorem tmMaster (n : Fin 6) : Statement (.tmMaster n) := ⟨rfl, rfl⟩
theorem ethLinkChange (x : Fin 4) (up : Bool) (speed : BitVec 2) : Statement (.ethLinkChange x up speed) := ⟨rfl, rfl⟩
theorem sync (x : Fin 4) (offset : Int) (domain : BitVec 8) (at_ : Nat) : Statement (.sync x offset domain at_) := ⟨rfl, rfl⟩
theorem telegramReceived (x : Fin 4) (t : Telegram) : Statement (.telegramReceived x t) := ⟨rfl, rfl⟩
theorem inauguration (i : Inauguration) : Statement (.inauguration i) := ⟨rfl, rfl⟩
theorem poll (x : Fin 4) : Statement (.poll x) := ⟨rfl, rfl⟩
theorem serialResponse (x : Fin 4) (r : SerialReply) : Statement (.serialResponse x r) := ⟨rfl, rfl⟩
theorem respTimeout (x : Fin 4) : Statement (.respTimeout x) := ⟨rfl, rfl⟩
theorem measurement : Statement (.measurement) := ⟨rfl, rfl⟩
theorem tim0Edge (at_ : Nat) : Statement (.tim0Edge at_) := ⟨rfl, rfl⟩
theorem srcLost (tb : Fin 3) (src : Nat) : Statement (.srcLost tb src) := ⟨rfl, rfl⟩
theorem holdExpired (tb : Fin 3) : Statement (.holdExpired tb) := ⟨rfl, rfl⟩
theorem timeSet (w : Writer) (arg : BitVec 24) : Statement (.timeSet w arg) := ⟨rfl, rfl⟩
theorem pulseInstant (k : Fin 2) (at_ : Nat) : Statement (.pulseInstant k at_) := ⟨rfl, rfl⟩
theorem captureEdge (k : Fin 4) (src : Fin 3) (rising : Bool) (at_ : Nat) : Statement (.captureEdge k src rising at_) := ⟨rfl, rfl⟩
theorem cardReadCompletion (d : CardData) : Statement (.cardReadCompletion d) := ⟨rfl, rfl⟩
theorem readTimeout : Statement (.readTimeout) := ⟨rfl, rfl⟩
theorem cardRequest (slot : Fin 32) (link : Fin 4) (r : CardReq) : Statement (.cardRequest slot link r) := ⟨rfl, rfl⟩
theorem lockedSequence (slot : Fin 32) : Statement (.lockedSequence slot) := ⟨rfl, rfl⟩
theorem lockTimeout : Statement (.lockTimeout) := ⟨rfl, rfl⟩
theorem statusPacket (slot : Fin 32) (sub : Fin 17) (p : CardStatus) : Statement (.statusPacket slot sub p) := ⟨rfl, rfl⟩
theorem hlkLinkDown (n : Fin 4) : Statement (.hlkLinkDown n) := ⟨rfl, rfl⟩
theorem cardAbsent (slot : Fin 32) : Statement (.cardAbsent slot) := ⟨rfl, rfl⟩
theorem cardPresence (slot : Fin 32) : Statement (.cardPresence slot) := ⟨rfl, rfl⟩
theorem rescan (w : Writer) (arg : BitVec 24) : Statement (.rescan w arg) := ⟨rfl, rfl⟩
theorem clkFail (f : ClkFinding) : Statement (.clkFail f) := ⟨rfl, rfl⟩
theorem referenceQualified : Statement (.referenceQualified) := ⟨rfl, rfl⟩
theorem clockSourceChange : Statement (.clockSourceChange) := ⟨rfl, rfl⟩
theorem refUnqual : Statement (.refUnqual) := ⟨rfl, rfl⟩
theorem slewComplete : Statement (.slewComplete) := ⟨rfl, rfl⟩
theorem recordWrite : Statement (.recordWrite) := ⟨rfl, rfl⟩
theorem tokenRefill (code : W16) : Statement (.tokenRefill code) := ⟨rfl, rfl⟩
theorem challenge (purpose : Bool) (nonce : Nat) : Statement (.challenge purpose nonce) := ⟨rfl, rfl⟩
theorem challengeResponse (d : SignedDoc) (at_ : Nat) : Statement (.challengeResponse d at_) := ⟨rfl, rfl⟩
theorem lockoutExpiry : Statement (.lockoutExpiry) := ⟨rfl, rfl⟩
theorem unlockToken (d : SignedDoc) : Statement (.unlockToken d) := ⟨rfl, rfl⟩
theorem diagnosticsRead (r : DiagRead) : Statement (.diagnosticsRead r) := ⟨rfl, rfl⟩
theorem debugIntrusive : Statement (.debugIntrusive) := ⟨rfl, rfl⟩
theorem returnRequest (consent : Option SignedDoc) (vendor : SignedDoc) (at_ : Nat) : Statement (.returnRequest consent vendor at_) := ⟨rfl, rfl⟩
theorem erasureComplete (ok : Bool) : Statement (.erasureComplete ok) := ⟨rfl, rfl⟩
theorem lock (w : Writer) (arg : BitVec 24) : Statement (.lock w arg) := ⟨rfl, rfl⟩
theorem closeService (w : Writer) (arg : BitVec 24) : Statement (.closeService w arg) := ⟨rfl, rfl⟩
theorem package (p : Package) : Statement (.package p) := ⟨rfl, rfl⟩
theorem apply (w : Writer) (arg : BitVec 24) : Statement (.apply w arg) := ⟨rfl, rfl⟩
theorem activate (w : Writer) (arg : BitVec 24) : Statement (.activate w arg) := ⟨rfl, rfl⟩
theorem confirm (w : Writer) (arg : BitVec 24) : Statement (.confirm w arg) := ⟨rfl, rfl⟩
theorem abort (w : Writer) (arg : BitVec 24) : Statement (.abort w arg) := ⟨rfl, rfl⟩
theorem acceptChange (w : Writer) (arg : BitVec 24) : Statement (.acceptChange w arg) := ⟨rfl, rfl⟩
theorem restartHandover (w : Writer) (arg : BitVec 24) : Statement (.restartHandover w arg) := ⟨rfl, rfl⟩
theorem trialExpired : Statement (.trialExpired) := ⟨rfl, rfl⟩
theorem pfWarn : Statement (.pfWarn) := ⟨rfl, rfl⟩
theorem powerReturn : Statement (.powerReturn) := ⟨rfl, rfl⟩
theorem shutdown : Statement (.shutdown) := ⟨rfl, rfl⟩
theorem resetEntry (cause : ResetCause) : Statement (.resetEntry cause) := ⟨rfl, rfl⟩
theorem externalReset (us : Nat) : Statement (.externalReset us) := ⟨rfl, rfl⟩
theorem presenceOpen : Statement (.presenceOpen) := ⟨rfl, rfl⟩
theorem brownout : Statement (.brownout) := ⟨rfl, rfl⟩
theorem watchdog : Statement (.watchdog) := ⟨rfl, rfl⟩
theorem safeRestart : Statement (.safeRestart) := ⟨rfl, rfl⟩
theorem moduleReset (w : Writer) (arg : BitVec 24) : Statement (.moduleReset w arg) := ⟨rfl, rfl⟩
theorem strapChanged (straps : BitVec 13) : Statement (.strapChanged straps) := ⟨rfl, rfl⟩
theorem tempHigh (temp : Int) : Statement (.tempHigh temp) := ⟨rfl, rfl⟩
theorem tempCrit (temp : Int) : Statement (.tempCrit temp) := ⟨rfl, rfl⟩
theorem sweetpeaLinkChange (k : Fin 2) (up : Bool) : Statement (.sweetpeaLinkChange k up) := ⟨rfl, rfl⟩
theorem copyAcknowledged (ack : CopyAck) : Statement (.copyAcknowledged ack) := ⟨rfl, rfl⟩
theorem hollyhockLinkUp (n : Fin 4) : Statement (.hollyhockLinkUp n) := ⟨rfl, rfl⟩
theorem svcSession (opened : Bool) (peer : W32) : Statement (.svcSession opened peer) := ⟨rfl, rfl⟩
theorem breakCleared (ch : Fin 18) : Statement (.breakCleared ch) := ⟨rfl, rfl⟩
theorem fieldSupplyRecovered (brakes : Bool) : Statement (.fieldSupplyRecovered brakes) := ⟨rfl, rfl⟩
theorem junctionCooled (m : Fin 8) : Statement (.junctionCooled m) := ⟨rfl, rfl⟩
theorem openLoadCleared (m : Fin 8) : Statement (.openLoadCleared m) := ⟨rfl, rfl⟩
theorem busIntegration (n : Fin 6) : Statement (.busIntegration n) := ⟨rfl, rfl⟩
theorem pathDelayMeasurement (x : Fin 4) (ns : W32) : Statement (.pathDelayMeasurement x ns) := ⟨rfl, rfl⟩
theorem bestMasterClock (x : Fin 4) (master : Bool) : Statement (.bestMasterClock x master) := ⟨rfl, rfl⟩

end Sys2Proof.Laws.Classed
end

