-- ==== Sys2Proof/Tests/Slice0.lean ====
section
/-! SUPPORT. Tests on small states: ill-formed commands that the checks refuse, and for every statement a concrete state and operands that
meet its hypotheses, with what the rule gives there. -/

set_option Elab.async false

namespace Sys2Proof.Tests

open Sys2Proof Sys2Proof.Machine

/-! ### A small program and the states around it -/

def tType (i : Nat) (trap : Bool) : TypeDecl :=
  { index := i, entry := 0x1000 + 0x100 * i, size := 256, layout := 7, trap, composite := false, cells := [], vars := [] }

def tInst (i ty : Nat) (safety : Bool) (unitIndex : Option Nat := none) : InstDecl :=
  { index := i, ty, safety, safeRead := false, top := true, unitIndex, autoRun := true, parent := 0, init := [], cycles := 10,
    calls := [], accesses := 0 }

def tMsg (i : Nat) (tx : Bool) : MsgDecl :=
  { index := i, tx, safety := false, safeRead := false, len := 8, sendMax := 2, rxDepth := 2, ext := false, fd := false, brs := false,
    ident := 0x120 + i, filter := (0, 0x120, 0x120), format := 0, candidates := [.port (.can 0)], address := 5, answer := some 1,
    station := none, subst := [] }

/-- Instance 0 of a SAT type, 1 of a TRAP type, 2 a safety instance, 3 a composite unit; TX object 0 and RX object 1. -/
def tProg : Program :=
  { types := [tType 0 false, tType 1 true]
    insts := [tInst 0 0 false, tInst 1 1 false, tInst 2 0 true, tInst 3 0 false (some 4)]
    tasks := [{ index := 0, cls := .t0, safety := false, skip := false, insts := [0], dirty := 0, stack := 256 }]
    items := [{ space := .global, off := 0, size := 64, init := [], online := true, safety := false, safeRead := false,
                retentive := false, accesses := 0 }]
    inputs := [{ off := 0, ty := .int64, init := 0, bind := .none, station := none, subst := 0 }]
    outputs := [{ off := 0, ty := .int32, safety := false, safeValue := 0, init := 0, bind := .none }]
    msgs := [tMsg 0 true, tMsg 1 false]
    codeLo := 0x1000
    codeHi := 0x2000 }

def tImage : ProgramImage :=
  { digest := 1, hwType := 0, serial := 0, version := 1, secver := 0, peerMin := 0, peerMax := 9, signedBy := none, key := none,
    fkey := none, main := tProg, split := none }

/-- Instance 0 lies in the lane store, instance 1 in the bulk store. -/
def tMap : PMap :=
  { index := 0, laneSet := 0, loss := 0, lossCard := 0, period := 20, total := 0, items := [], phases := [], routes := [], digest := [],
    inDigest := [],
    insts := [{ index := 0, task := 0, tier := .lane, safety := false, noTask := false, first := 0, at_ := [], win := 0, off := 0x100 },
      { index := 1, task := 0, tier := .bulk, safety := false, noTask := false, first := 0, at_ := [], win := 0, off := 0 }] }

/-- A context that runs instance 0 at the start of the code, with registers set. -/
def tCtx (rs : List (Nat × W64)) : LaneCtx :=
  rs.foldl (fun c e => c.wr e.1 e.2) { busy := true, pc := 0x1000, ib := 0, sp := 256, task := 0, share := 1 }

/-- Step 9, a running program, the tick open, and lane A's timed context as given. -/
def atCtx (c : LaneCtx) : State :=
  { pwr := { inReset := false, step := 9 }
    tick := { running := true, begun := true, phase := 1 }
    prog := { image := some tImage }
    place := { map := some tMap, set := [tMap] }
    laneA := { current := some .timed, timed := c }
    pair := { role := .active } }

/-- The property that holds of the next state, if a command gives one. -/
def ok (i : Instr) (s : State) (p : State → Bool) : Bool := match exec i s with | .next t => p t | _ => false

theorem atCtx_executes (c : LaneCtx) (regs : List Nat) (len : Nat) (hb : c.busy = true) (hw : c.wait = .none) (hy : c.yielded = false)
    (he : c.ending = false) (hl : c.loads = []) (hf : fetchOk tProg c.pc.toNat len = true) :
    Executes (atCtx c) .a regs len .timed c.counted := by
  cases c
  simp only at hb hw hy he hl
  subst hb hw hy he hl
  exact ⟨_, rfl, rfl, hf, rfl⟩

/-! ### Commands that cannot reach the module -/

def tFrame : CanFrame := { ext := false, fd := false, brs := false, esi := false, remote := false, ident := 0x120, data := [1, 2, 3, 4, 5, 6, 7, 8] }
def tTelegram : Telegram := { slot := 0, comId := 1, src := 2, seq := 3, etb := 0, optrn := 0, fcsOk := true, data := [] }
def tBeacon : Beacon := { claim := 0x8000, boundary := 0, state := 0, marker := false, revertDue := false, handover := 0 }
def tPackage : Package :=
  { delta := false, keyBlock := none, hwType := 0, serial := 0, version := 1, secver := 0, fmtMin := 0, fmtMax := 9, peerMin := 0,
    peerMax := 9, base := 0, target := 2, len := 100, signedBy := some 0, headerOk := true,
    payload := .firmware { digest := 2, hwType := 0, serial := 0, version := 1, secver := 0, fmtMin := 0, fmtMax := 9, peerMin := 0,
                           peerMax := 9, algRev := 0, naneost := true } }

/-- Frames: an identifier past 11 bits, a length without a code, a classic frame of 12 bytes or with a rate switch, a remote FD frame. -/
theorem test_wf_refuses_frames :
    tFrame.wf = true ∧ { tFrame with ident := 0x800 }.wf = false ∧ { tFrame with fd := true, data := List.replicate 9 0 }.wf = false ∧
      { tFrame with data := List.replicate 12 0 }.wf = false ∧ { tFrame with brs := true }.wf = false ∧
      { tFrame with fd := true, remote := true, data := [] }.wf = false ∧
      (Instr.canFrameReceived 0 { tFrame with ident := 0x800 } 0).wf = false ∧
      (Instr.referenceMessage 0 { tFrame with brs := true } 0).wf = false ∧ (Instr.frameError 0 (.receive 1 false 2)).wf = false := by decide

set_option maxRecDepth 20000 in
theorem test_wf_refuses_messages :
    (Instr.telegramReceived 0 { tTelegram with data := List.replicate 1433 0 }).wf = false ∧
      (Instr.telegramReceived 0 { tTelegram with seq := 2 ^ 32 }).wf = false ∧ (Instr.telegramReceived 0 tTelegram).wf = true ∧
      (Instr.serialResponse 0 { address := 256, data := [], ok := true }).wf = false ∧
      (Instr.serialResponse 0 { address := 1, data := List.replicate 257 0, ok := true }).wf = false ∧
      (Instr.statusPacket 0 0 (.fault 1 16 0 0)).wf = false ∧ (Instr.statusPacket 0 0 (.fault 1 1 5 0)).wf = false ∧
      (Instr.statusPacket 0 0 (.done 1 65536)).wf = false ∧ (Instr.statusPacket 0 0 (.check 256)).wf = false ∧
      (Instr.cardReadCompletion { word := 0, block := [0], side := 0, error := false }).wf = false ∧
      (Instr.beacon 0 { tBeacon with state := 7 } 0).wf = false ∧ (Instr.beacon 0 { tBeacon with boundary := 2 ^ 64 } 0).wf = false := by decide

theorem test_wf_refuses_operands :
    (Instr.foxgloveTestEnd [(0, [])] (true, true, true)).wf = false ∧ (Instr.foxgloveTestEnd [(400, [])] (true, true, true)).wf = false ∧
      (Instr.idmReadComplete 0 []).wf = false ∧ (Instr.cmp .a 8 {}).wf = false ∧ (Instr.registerWrite .safety 0 0 3).wf = false ∧
      (Instr.c71MirrorWrite .safety 0x802 0).wf = false ∧ (Instr.c71MirrorWrite .safety 0x81C 0).wf = false ∧
      (Instr.fetchComplete .voter .a).wf = false ∧ (Instr.srcLost 0 9).wf = false ∧ (Instr.challenge false (2 ^ 256)).wf = false ∧
      (Instr.package { tPackage with len := 2 ^ 32 }).wf = false ∧ (Instr.package { tPackage with secver := 2 ^ 16 }).wf = false ∧
      (Instr.tempHigh (2 ^ 15)).wf = false ∧ (Instr.tempCrit (-(2 ^ 15) - 1)).wf = false := by decide

/-! ### Lane instructions: the operands that each statement asks for -/

def cR : LaneCtx := tCtx [(1, 0x7F), (2, 1), (3, 5)]

theorem cR_executes (regs : List Nat) (len : Nat) (h : fetchOk tProg 0x1000 len = true) : Executes (atCtx cR) .a regs len .timed cR.counted :=
  atCtx_executes cR regs len rfl rfl rfl rfl rfl h

theorem witness_MovesPutTheirOperandIntoRd :
    Executes (atCtx cR) .a [3] 4 .timed cR.counted ∧ ExecutesR (atCtx cR) .a { rd := 3, ra := 1 } .timed cR.counted ∧
      ExecutesR (atCtx cR) .a { rd := 3, ra := 0, i := true, ext := 0x80000000 } .timed cR.counted ∧
      ok (.li .a { rd := 3, imm := 0x8000 }) (atCtx cR) (fun t => t.laneA.timed.rd 3 = 0xFFFFFFFFFFFF8000) = true ∧
      ok (.mov .a { rd := 3, ra := 1 }) (atCtx cR) (fun t => t.laneA.timed.rd 3 = 0x7F && t.laneA.timed.pc = 0x1004) = true ∧
      ok (.mov .a { rd := 3, i := true, ext := 0x80000000 }) (atCtx cR) (fun t => t.laneA.timed.rd 3 = 0xFFFFFFFF80000000) = true ∧
      ok (.movhi .a { rd := 3, ra := 1, i := true, ext := 2 }) (atCtx cR) (fun t => t.laneA.timed.rd 3 = 0x20000007F) = true ∧
      ok (.sel .a { rd := 3, ra := 1, rb := 2 }) (atCtx cR) (fun t => t.laneA.timed.rd 3 = 1) = true ∧
      ok (.wrcf .a { ra := 1 }) (atCtx cR) (fun t => t.laneA.timed.cf = 0x7F) = true ∧
      ok (.wrqf .a { ra := 1 }) (atCtx cR) (fun t => t.laneA.timed.qf = 0x3F) = true :=
  ⟨cR_executes _ _ (by decide), cR_executes _ _ (by decide), cR_executes _ _ (by decide),
    by decide, by decide, by decide, by decide, by decide, by decide, by decide⟩

def cTrap : LaneCtx := { tCtx [(1, 0x7F), (2, 1), (4, 0x80)] with ib := 1 }

theorem cTrap_executes (regs : List Nat) (len : Nat) (h : fetchOk tProg 0x1000 len = true) :
    Executes (atCtx cTrap) .a regs len .timed cTrap.counted := atCtx_executes cTrap regs len rfl rfl rfl rfl rfl h

def fInt : RFmt := { rd := 3, ra := 1, rb := 2, ty := 1 }
def fZero : RFmt := { rd := 3, ra := 1, rb := 0, ty := 1 }

theorem witness_IntegerInstructionsFollowTheirTable :
    ExecutesR (atCtx cR) .a fInt .timed cR.counted ∧ ExecutesR (atCtx cTrap) .a fInt .timed cTrap.counted ∧ ExecutesR (atCtx cR) .a fZero .timed cR.counted ∧
      ExecutesR (atCtx cTrap) .a fZero .timed cTrap.counted ∧ Executes (atCtx cR) .a [3, 1] 4 .timed cR.counted ∧
      Ty.ofCode fInt.ty.toNat = some .int8 ∧ trapMode (laneProg (atCtx cR) .a) cR = false ∧
      trapMode (laneProg (atCtx cTrap) .a) cTrap = true ∧ queueFull ((atCtx cTrap).lane .a) = false ∧
      intOf .int8 (cR.rd 1) + intOf .int8 (cR.rd 2) = 128 ∧ intOf .int8 (cTrap.rd 1) - intOf .int8 (cTrap.rd 2) = 126 ∧
      intOf .int8 (cR.rd 2) ≠ 0 ∧ intOf .int8 (cR.rd 0) = 0 ∧ (intOf .int8 (cTrap.rd 4)).natAbs = 128 ∧
      ok (.add .a fInt) (atCtx cR) (fun t => t.laneA.timed.rd 3 = 0x7F && t.laneA.timed.cf = 0x28) = true ∧
      ok (.add .a fInt) (atCtx cTrap) (fun t => t.laneA.timed.wait = .exception && (t.laneA.queue.map (·.beats)) = [[0x45]]) = true ∧
      ok (.addi .a { rd := 3, ra := 1, imm := 0xFFFF }) (atCtx cR) (fun t => t.laneA.timed.rd 3 = 0x7E) = true ∧
      ok (.div .a fZero) (atCtx cR) (fun t => t.laneA.timed.rd 3 = 0x7F && t.laneA.timed.cf.getLsbD 5) = true ∧
      ok (.mod .a fZero) (atCtx cTrap) (fun t => t.laneA.timed.wait = .exception && (t.laneA.queue.map (·.beats)) = [[0x46]]) = true ∧
      ok (.mulh .a { fInt with ty := 4 }) (atCtx cR) (fun t => t.laneA.timed.rd 3 = 0) = true :=
  ⟨cR_executes _ _ (by decide), cTrap_executes _ _ (by decide), cR_executes _ _ (by decide), cTrap_executes _ _ (by decide),
    cR_executes _ _ (by decide), by decide, by decide, by decide, by decide, by decide, by decide, by decide, by decide, by decide,
    by decide, by decide, by decide, by decide, by decide, by decide⟩

/-- The largest finite REAL32 twice, and 1.5 ÷ 0, in a TRAP type; the operands of the completion clauses are finite. -/
def cTrapReal : LaneCtx := { tCtx [(1, 0x3FC00000), (2, 0x7F7FFFFF), (4, 0x43160000)] with ib := 1 }

theorem test_real_exceptions_in_trap_mode :
    trapMode (laneProg (atCtx cTrapReal) .a) cTrapReal = true ∧
      ok (.fadd .a { rd := 3, ra := 2, rb := 2, ty := 9 }) (atCtx cTrapReal) (fun t => (t.laneA.queue.map (·.beats)) = [[0x48]]) = true ∧
      ok (.fdiv .a { rd := 3, ra := 1, rb := 0, ty := 9 }) (atCtx cTrapReal) (fun t => (t.laneA.queue.map (·.beats)) = [[0x46]]) = true ∧
      ok (.cvt .a { rd := 3, ra := 4, rb := 1, ty := 9 }) (atCtx cTrapReal) (fun t => (t.laneA.queue.map (·.beats)) = [[0x45]]) = true := by decide

/-- 1.5, the largest finite REAL32, a quiet NaN and -1. -/
def cReal : LaneCtx := tCtx [(1, 0x3FC00000), (2, 0x7F7FFFFF), (3, 0x3F800000), (4, 0x7FC00000), (5, 0xBF800000)]

theorem cReal_executes (regs : List Nat) (len : Nat) (h : fetchOk tProg 0x1000 len = true) :
    Executes (atCtx cReal) .a regs len .timed cReal.counted := atCtx_executes cReal regs len rfl rfl rfl rfl rfl h

def fReal : RFmt := { rd := 3, ra := 1, rb := 3, ty := 9 }

theorem witness_RealResultsAreRoundedOnceOrInvalid :
    ExecutesR (atCtx cReal) .a fReal .timed cReal.counted ∧ ExecutesR (atCtx cReal) .a { fReal with ra := 2, rb := 2 } .timed cReal.counted ∧
      ExecutesR (atCtx cReal) .a { fReal with ra := 5, rb := 0 } .timed cReal.counted ∧ Ty.ofCode fReal.ty.toNat = some .real32 ∧
      trapMode (laneProg (atCtx cReal) .a) cReal = false ∧ queueFull ((atCtx cReal).lane .a) = false ∧
      addReal (fmtOf .real32) (realOf .real32 (cReal.rd 1)) (realOf .real32 (cReal.rd 3)) = .val 0x40200000 ∧
      addReal (fmtOf .real32) (realOf .real32 (cReal.rd 2)) (realOf .real32 (cReal.rd 2)) = .ovf false ∧
      sqrtReal (fmtOf .real32) (realOf .real32 (cReal.rd 5)) = .invalid ∧
      ok (.fadd .a fReal) (atCtx cReal) (fun t => t.laneA.timed.rd 3 = 0x40200000) = true ∧
      ok (.fadd .a { fReal with ra := 2, rb := 2 }) (atCtx cReal) (fun t => t.laneA.timed.rd 3 = 0x7F7FFFFF && t.laneA.timed.cf = 0x28) = true ∧
      ok (.fsqrt .a { fReal with ra := 5, rb := 0 }) (atCtx cReal) (fun t => (t.laneA.queue.map (·.beats)) = [[0x47]]) = true :=
  ⟨cReal_executes _ _ (by decide), cReal_executes _ _ (by decide), cReal_executes _ _ (by decide), by decide, by decide, by decide,
    by decide, by decide, by decide, by decide, by decide, by decide⟩

def cConv : LaneCtx := tCtx [(1, 0x40200000), (2, 0x7FFFFFFFFFFFFFFF), (4, 0x43160000)]

theorem cConv_executes (regs : List Nat) (len : Nat) (h : fetchOk tProg 0x1000 len = true) :
    Executes (atCtx cConv) .a regs len .timed cConv.counted := atCtx_executes cConv regs len rfl rfl rfl rfl rfl h

/-- 2.5 to INT64 by CVT and TRUNC, 150 to INT8, the largest INT64 to INT32 and to REAL64. -/
theorem witness_ConversionsRoundAndClamp :
    ExecutesR (atCtx cConv) .a { rd := 3, ra := 1, rb := 4, ty := 9 } .timed cConv.counted ∧
      ExecutesR (atCtx cConv) .a { rd := 3, ra := 2, rb := 3, ty := 4 } .timed cConv.counted ∧
      ExecutesR (atCtx cConv) .a { rd := 3, ra := 2, rb := 10, ty := 4 } .timed cConv.counted ∧
      realOf .real32 (cConv.rd 1) = .fin false 10485760 (-22) ∧ realToInt false false 10485760 (-22) = 2 ∧
      trapMode (laneProg (atCtx cConv) .a) cConv = false ∧
      intToReal (fmtOf .real64) (convSource .int64 (cConv.rd 2)) = .val 0x43E0000000000000 ∧
      ok (.cvt .a { rd := 3, ra := 1, rb := 4, ty := 9 }) (atCtx cConv) (fun t => t.laneA.timed.rd 3 = 2) = true ∧
      ok (.trunc .a { rd := 3, ra := 1, rb := 4, ty := 9 }) (atCtx cConv) (fun t => t.laneA.timed.rd 3 = 2) = true ∧
      ok (.cvt .a { rd := 3, ra := 4, rb := 1, ty := 9 }) (atCtx cConv) (fun t => t.laneA.timed.rd 3 = 127) = true ∧
      ok (.cvt .a { rd := 3, ra := 4, rb := 0, ty := 9 }) (atCtx cConv) (fun t => t.laneA.timed.rd 3 = 1 && t.laneA.timed.cf = 0) = true ∧
      ok (.cvt .a { rd := 3, ra := 2, rb := 3, ty := 4 }) (atCtx cConv) (fun t => t.laneA.timed.rd 3 = 0x7FFFFFFF) = true ∧
      ok (.cvt .a { rd := 3, ra := 2, rb := 10, ty := 4 }) (atCtx cConv) (fun t => t.laneA.timed.rd 3 = 0x43E0000000000000) = true :=
  ⟨cConv_executes _ _ (by decide), cConv_executes _ _ (by decide), cConv_executes _ _ (by decide), by decide, by decide, by decide, by decide,
    by decide, by decide, by decide, by decide, by decide, by decide⟩

def cBit : LaneCtx := tCtx [(1, 0xFFFFFFFFFFFFFF81), (2, 8), (3, 1), (4, 0x0304)]

theorem cBit_executes (regs : List Nat) (len : Nat) (h : fetchOk tProg 0x1000 len = true) :
    Executes (atCtx cBit) .a regs len .timed cBit.counted := atCtx_executes cBit regs len rfl rfl rfl rfl rfl h

def fBit : RFmt := { rd := 3, ra := 1, rb := 2, ty := 1 }

/-- INT8 with b at the width, BOOL with an extension word, a field at bit 4 of length 3. -/
theorem witness_LogicShiftAndBitInstructionsWorkBitByBit :
    ExecutesR (atCtx cBit) .a fBit .timed cBit.counted ∧ ExecutesR (atCtx cBit) .a { rd := 3, ra := 3, i := true, ext := 1 } .timed cBit.counted ∧
      ExecutesR (atCtx cBit) .a { fBit with rb := 0 } .timed cBit.counted ∧ Ty.ofCode fBit.ty.toNat = some .int8 ∧
      ok (.not .a { fBit with rb := 0 }) (atCtx cBit) (fun t => t.laneA.timed.rd 3 = 0x7E) = true ∧
      ok (.and .a { rd := 3, ra := 3, i := true, ext := 1 }) (atCtx cBit) (fun t => t.laneA.timed.rd 3 = 1) = true ∧
      ok (.shl .a fBit) (atCtx cBit) (fun t => t.laneA.timed.rd 3 = 0 && t.laneA.timed.cf.getLsbD 0) = true ∧
      ok (.sar .a fBit) (atCtx cBit) (fun t => t.laneA.timed.rd 3 = 0xFFFFFFFFFFFFFFFF) = true ∧
      ok (.rol .a fBit) (atCtx cBit) (fun t => t.laneA.timed.rd 3 = 0xFFFFFFFFFFFFFF81) = true ∧
      ok (.btst .a fBit) (atCtx cBit) (fun t => t.laneA.timed.rd 3 = 0) = true ∧
      ok (.bset .a fBit) (atCtx cBit) (fun t => t.laneA.timed.rd 3 = 0xFFFFFFFFFFFFFF81) = true ∧
      ok (.bext .a { fBit with rb := 4 }) (atCtx cBit) (fun t => t.laneA.timed.rd 3 = 0) = true ∧
      ok (.bins .a { fBit with ra := 2, rb := 4 }) (atCtx cBit) (fun t => t.laneA.timed.rd 3 = 1) = true ∧
      ok (.popc .a { fBit with rb := 0 }) (atCtx cBit) (fun t => t.laneA.timed.rd 3 = 2) = true ∧
      ok (.clz .a { fBit with ra := 0, rb := 0 }) (atCtx cBit) (fun t => t.laneA.timed.rd 3 = 8) = true :=
  ⟨cBit_executes _ _ (by decide), cBit_executes _ _ (by decide), cBit_executes _ _ (by decide), by decide, by decide, by decide, by decide,
    by decide, by decide, by decide, by decide, by decide, by decide, by decide, by decide⟩

theorem witness_CmpWritesTheRelation :
    ExecutesR (atCtx cBit) .a fBit .timed cBit.counted ∧ ExecutesR (atCtx cReal) .a { fReal with rb := 4 } .timed cReal.counted ∧
      ExecutesR (atCtx cBit) .a { rd := 3, ra := 3, i := true, ext := 1 } .timed cBit.counted ∧
      cmpReal (realOf .real32 (cReal.rd 1)) (realOf .real32 (cReal.rd 4)) = none ∧
      ok (.cmp .a 2 fBit) (atCtx cBit) (fun t => t.laneA.timed.rd 3 = 1 && t.laneA.timed.cf.getLsbD 6) = true ∧
      ok (.cmp .a 0 { rd := 3, ra := 3, i := true, ext := 1 }) (atCtx cBit) (fun t => t.laneA.timed.rd 3 = 1 && t.laneA.timed.cf.getLsbD 0) = true ∧
      ok (.cmp .a 1 { fReal with rb := 4 }) (atCtx cReal) (fun t => t.laneA.timed.rd 3 = 1 && t.laneA.timed.cf = 0x50) = true :=
  ⟨cBit_executes _ _ (by decide), cReal_executes _ _ (by decide), cBit_executes _ _ (by decide), by decide, by decide, by decide, by decide⟩

def cMem : LaneCtx := tCtx [(1, 0x11), (3, 0xFFFFFFFFFFFFFFFE)]

/-- The machine of `atCtx` with one byte of instance 0 and one byte of the input image set. -/
def atMem (c : LaneCtx) : State :=
  let s := atCtx c
  { s with laneA := { s.laneA with mem := [(0x1000118, 0x2A)], in0 := { bytes := [(0, 7)], tags := [(0, .stale)] } } }

theorem cMem_executes (c : LaneCtx) (h : c = { cMem with ib := c.ib, qf := c.qf, gs := c.gs }) (regs : List Nat) (len : Nat)
    (hf : fetchOk tProg 0x1000 len = true) : Executes (atMem c) .a regs len .timed c.counted := by
  rw [h]; exact ⟨_, rfl, rfl, hf, rfl⟩

/-- An INT64 at offset 24 of the instance, in the lane store and in the bulk store, and the value at offset 0 of the input image. -/
theorem witness_LoadsDeliverTheRegisterForm :
    Executes (atMem cMem) .a [3, 0] 4 .timed cMem.counted ∧ Executes (atMem { cMem with ib := 1 }) .a [3, 0] 4 .timed { cMem with ib := 1 }.counted ∧
      MFmt.legal { rd := 3, ty := 4, off := 3 } = true ∧ MFmt.legal { rd := 3, ty := 4, space := 1 } = true ∧
      MFmt.legalQ { rd := 3, ty := 4, space := 1 } = true ∧
      accessExc (laneProg (atMem cMem) .a) cMem (formAddress cMem { rd := 3, ty := 4, off := 3 } 8) 8 8 false = none ∧
      placeOf (atMem cMem) 0 (formAddress cMem { rd := 3, ty := 4, off := 3 } 8) = .own 0x1000118 ∧
      placeOf (atMem cMem) 0 (formAddress { cMem with ib := 1 } { rd := 3, ty := 4, off := 3 } 8) = .bulk 0x100000018 ∧
      ok (.ld .a { rd := 3, ty := 4, off := 3 }) (atMem cMem) (fun t => t.laneA.timed.rd 3 = 0x2A) = true ∧
      ok (.ld .a { rd := 3, ty := 4, off := 3 }) (atMem { cMem with ib := 1 }) (fun t => t.laneA.timed.loads = [{ rd := 3, value := 0 }]) = true ∧
      ok (.ld .a { rd := 3, ty := 4, space := 1 }) (atMem cMem) (fun t => t.laneA.timed.rd 3 = 7 && t.laneA.timed.qf = 0x05) = true ∧
      ok (.ldq .a { rd := 3, ty := 4, space := 1 }) (atMem cMem) (fun t => t.laneA.timed.rd 3 = 1) = true ∧
      ok (.ref .a { rd := 3, ty := 4, off := 3 }) (atMem { cMem with ib := 1 }) (fun t => t.laneA.timed.rd 3 = 0x100000018) = true ∧
      ok (.loadDataReturn .a) (atCtx { cMem with loads := [{ rd := 3, value := 9 }] })
        (fun t => t.laneA.timed.rd 3 = 9 && t.laneA.timed.loads = []) = true :=
  ⟨cMem_executes _ rfl _ _ (by decide), cMem_executes _ rfl _ _ (by decide), by decide, by decide, by decide, by decide, by decide, by decide,
    by decide, by decide, by decide, by decide, by decide, by decide⟩

/-- The last aligned INT16 of instance 0, the first value of the output image, and the bulk store. -/
theorem witness_StoreChangesOnlyTheAddressedBytes :
    Executes (atMem cMem) .a [3, 0] 8 .timed cMem.counted ∧ Executes (atMem cMem) .a [3, 0] 4 .timed cMem.counted ∧
      Executes (atMem { cMem with ib := 1 }) .a [3, 0] 4 .timed { cMem with ib := 1 }.counted ∧
      MFmt.legal { rd := 3, ty := 2, x := true, ext := 254 } = true ∧
      accessExc (laneProg (atMem cMem) .a) cMem (formAddress cMem { rd := 3, ty := 2, x := true, ext := 254 } 2) 2 2 true = none ∧
      accessExc (laneProg (atMem cMem) .a) cMem (formAddress cMem { rd := 3, ty := 3, space := 2 } 4) 4 4 true = none ∧
      accessExc (laneProg (atMem cMem) .a) { cMem with ib := 1 } (formAddress { cMem with ib := 1 } { rd := 3, ty := 4, off := 3 } 8) 8 8 true
        = none ∧
      queueFull ((atMem cMem).lane .a) = false ∧
      ok (.st .a { rd := 3, ty := 2, x := true, ext := 254 }) (atMem cMem)
        (fun t => t.laneA.mem = [(0x1000118, 0x2A), (0x10001FE, 0xFE), (0x10001FF, 0xFF)]) = true ∧
      ok (.st .a { rd := 3, ty := 3, space := 2 }) (atMem cMem) (fun t => mapGet? 0 t.laneA.timed.out = some 0xFE) = true ∧
      ok (.st .a { rd := 3, ty := 4, off := 3 }) (atMem { cMem with ib := 1 })
        (fun t => t.laneA.queue.map (fun r => (r.kind, r.addr)) = [(0, 0x100000018)] && t.bulk = []) = true :=
  ⟨cMem_executes _ rfl _ _ (by decide), cMem_executes _ rfl _ _ (by decide), cMem_executes _ rfl _ _ (by decide), by decide, by decide,
    by decide, by decide, by decide, by decide, by decide, by decide⟩

theorem witness_BranchesFollowTheirConditions :
    Executes (atCtx cR) .a [] 4 .timed cR.counted ∧ Executes (atCtx cR) .a [2, 0] 4 .timed cR.counted ∧ (cR.rd 2).toNat % 2 ^ 32 % 4 ≠ 0 ∧
      (cR.rd 0).toNat % 2 ^ 32 % 4 = 0 ∧ queueFull ((atCtx cR).lane .a) = false ∧
      ok (.b .a { cond := 0, disp := 0x3FFFFF }) (atCtx cR) (fun t => t.laneA.timed.pc = 0xFFC) = true ∧
      ok (.b .a { cond := 1, disp := 4 }) (atCtx cR) (fun t => t.laneA.timed.pc = 0x1004) = true ∧
      ok (.b .a { cond := 14, disp := 4 }) (atCtx cR) (fun t => t.laneA.timed.pc = 0x1010) = true ∧
      ok (.jr .a { ra := 0 }) (atCtx cR) (fun t => t.laneA.timed.pc = 0) = true ∧
      ok (.jr .a { ra := 2 }) (atCtx cR) (fun t => t.laneA.queue.map (·.beats) = [[0x40]]) = true :=
  ⟨cR_executes _ _ (by decide), cR_executes _ _ (by decide), by decide, by decide, by decide, by decide, by decide, by decide, by decide,
    by decide⟩

/-- A cell at offset 24 with the seed bit clear; IN is g1, PT is g2. -/
def cCell : LaneCtx := tCtx [(1, 1), (2, 10)]
def fCell : CFmt := { rd := 3, ra := 1, rb := 2, cell := 3 }

def atCell (c : LaneCtx) (mem : List (Nat × Byte)) : State :=
  let s := atCtx c
  { s with laneA := { s.laneA with mem } }

theorem cCell_executes (c : LaneCtx) (h : c = { cCell with time := c.time, gs := c.gs }) (mem : List (Nat × Byte)) (regs : List Nat)
    (len : Nat) (hf : fetchOk tProg 0x1000 len = true) : Executes (atCell c mem) .a regs len .timed c.counted := by
  rw [h]; exact ⟨_, rfl, rfl, hf, rfl⟩

/-- Generation 1, so that the interval counts; CTRL says that IN was 1, or that a pulse runs. -/
def cellMem (ctrl : Byte) : List (Nat × Byte) := [(0x1000130, ctrl), (0x1000134, 1)]

theorem witness_TimersMeasureTickConsistentTime :
    Executes (atCell { cCell with time := 10 } (cellMem 1)) .a [3, 1, 2] 4 .timed { cCell with time := 10 }.counted ∧
      cellExc (laneProg (atCell { cCell with time := 10 } (cellMem 1)) .a) { cCell with time := 10 } (cellOff fCell) 32 = none ∧
      placeOf (atCell { cCell with time := 10 } (cellMem 1)) 0 { stack := false, space := 0, inst := 0, off := cellOff fCell } = .own 0x1000118 ∧
      (timerOf (Memory.readBytes (cellMem 1) 0x1000118 32)).inPrev = true ∧ (timerOf (Memory.readBytes (cellMem 4) 0x1000118 32)).run = true ∧
      (timerOf (Memory.readBytes (cellMem 0) 0x1000118 32)).run = false ∧
      ok (.ton .a fCell) (atCell { cCell with time := 10 } (cellMem 1)) (fun t => t.laneA.timed.rd 3 = 1 && Memory.readNat t.laneA.mem 0x1000118 8 = 10) = true ∧
      ok (.ton .a fCell) (atCell { cCell with time := 9 } (cellMem 1)) (fun t => t.laneA.timed.rd 3 = 0) = true ∧
      ok (.tof .a fCell) (atCell { cCell with time := 10 } (cellMem 1)) (fun t => t.laneA.timed.rd 3 = 1 && Memory.readNat t.laneA.mem 0x1000118 8 = 0) = true ∧
      ok (.tof .a { fCell with ra := 0 }) (atCell { cCell with time := 10 } (cellMem 4)) (fun t => t.laneA.timed.rd 3 = 0) = true ∧
      ok (.tp .a fCell) (atCell { cCell with time := 10 } (cellMem 0)) (fun t => t.laneA.timed.rd 3 = 1) = true ∧
      ok (.tp .a fCell) (atCell { cCell with time := 10 } (cellMem 4)) (fun t => t.laneA.timed.rd 3 = 0) = true ∧
      ok (.tp .a fCell) (atCell { cCell with time := 10 } (cellMem 1)) (fun t => t.laneA.timed.rd 3 = 0) = true :=
  ⟨cCell_executes _ rfl _ _ _ (by decide), by decide, by decide, by decide, by decide, by decide, by decide, by decide, by decide, by decide,
    by decide, by decide, by decide⟩

/-- CV at its upper limit, opposite edges, and the reset input; an edge cell that has not seen CLK. -/
theorem witness_CountersAndEdgesFollowTheirInputs :
    Executes (atCell cCell []) .a [3, 1, 2] 4 .timed cCell.counted ∧ cellExc (laneProg (atCell cCell []) .a) cCell (cellOff fCell) 16 = none ∧
      cellExc (laneProg (atCell cCell []) .a) cCell (cellOff fCell) 8 = none ∧
      placeOf (atCell cCell []) 0 { stack := false, space := 0, inst := 0, off := cellOff fCell } = .own 0x1000118 ∧
      ok (.ctu .a fCell) (atCell cCell []) (fun t => Memory.readNat t.laneA.mem 0x1000118 8 = 1 && t.laneA.timed.rd 3 = 0) = true ∧
      ok (.ctu .a fCell) (atCell cCell [(0x1000118, 0xFF), (0x1000119, 0x7F), (0x1000121, 2)])
        (fun t => Memory.readNat t.laneA.mem 0x1000118 8 = 0x7FFF && t.laneA.timed.rd 3 = 1) = true ∧
      ok (.ctud .a fCell) (atCell (tCtx [(1, 3), (2, 0)]) []) (fun t => t.laneA.timed.rd 3 = 3) = true ∧
      ok (.ctd .a fCell) (atCell (tCtx [(1, 2), (2, 0)]) []) (fun t => Memory.readNat t.laneA.mem 0x1000118 8 = 2 ^ 64 - 1) = true ∧
      ok (.rtrig .a { fCell with rb := 0 }) (atCell cCell []) (fun t => t.laneA.timed.rd 3 = 1) = true ∧
      ok (.ftrig .a { fCell with rb := 0 }) (atCell (tCtx []) [(0x1000118, 1)]) (fun t => t.laneA.timed.rd 3 = 1) = true :=
  ⟨cCell_executes _ rfl _ _ _ (by decide), by decide, by decide, by decide, by decide, by decide, by decide, by decide, by decide, by decide⟩

def cCall : LaneCtx := { tCtx [] with cf := 0x41, qf := 3 }

/-- A call of instance 1 from a stack with one frame left, a skipped composite, a return, and ENTER to the end of the share and past it. -/
theorem witness_CallsReturnsAndStackMovesKeepTheShare :
    Executes (atCtx cCall) .a [0] 8 .timed cCall.counted ∧ Executes (atCtx { cCall with sp := 16 }) .a [0] 8 .timed { cCall with sp := 16 }.counted ∧
      Executes (atCtx { cCall with sp := 16 }) .a [] 4 .timed { cCall with sp := 16 }.counted ∧
      progInst (laneProg (atCtx cCall) .a) 1 = some (tInst 1 1 false) ∧ sigOf tProg (tInst 1 1 false) = 0x100007 ∧
      callPartition tProg cCall (tInst 1 1 false) = false ∧ compositeState (atCtx cCall) (tInst 1 1 false) = none ∧
      compositeState (atCtx cCall) (tInst 3 0 false (some 4)) = some .off ∧ shareOf tProg 1 = (0, 256) ∧
      (progInst tProg (Memory.readNat (atCtx cCall).laneA.mem (stackBase + 16 + 4) 2)).isSome = true ∧
      ok (.fbcall .a { idx := 1, ext := 0x100007 }) (atCtx { cCall with sp := 16 })
        (fun t => t.laneA.timed.pc = 0x1100 && t.laneA.timed.sp = 0 && t.laneA.timed.ib = 1 && Memory.readNat t.laneA.mem stackBase 4 = 0x1008) = true ∧
      ok (.fbcall .a { idx := 3, ext := 7 }) (atCtx cCall) (fun t => t.laneA.timed.pc = 0x1008 && t.laneA.timed.cf = 1) = true ∧
      ok (.fbret .a {}) (atCtx { cCall with sp := 16 }) (fun t => t.laneA.timed.sp = 32 && t.laneA.timed.cf = 0x40) = true ∧
      ok (.enter .a { imm := 16 }) (atCtx cCall) (fun t => t.laneA.timed.sp = 0) = true ∧
      ok (.enter .a { imm := 17 }) (atCtx cCall) (fun t => t.laneA.queue.map (·.beats) = [[0x4A]]) = true ∧
      ok (.leave .a { imm := 1 }) (atCtx cCall) (fun t => t.laneA.queue.map (·.beats) = [[0x4A]]) = true :=
  ⟨atCtx_executes _ _ _ rfl rfl rfl rfl rfl (by decide), atCtx_executes _ _ _ rfl rfl rfl rfl rfl (by decide),
    atCtx_executes _ _ _ rfl rfl rfl rfl rfl (by decide), by decide, by decide, by decide, by decide, by decide, by decide, by decide,
    by decide, by decide, by decide, by decide, by decide, by decide⟩

def cQual : LaneCtx := { tCtx [(1, 3), (2, 1)] with qf := 0x0C, uwrErr := true }

theorem cQual_executes (regs : List Nat) (len : Nat) (h : fetchOk tProg 0x1000 len = true) :
    Executes (atCtx cQual) .a regs len .timed cQual.counted := atCtx_executes cQual regs len rfl rfl rfl rfl rfl h

theorem witness_QualityAndSystemInstructionsGoOn :
    Executes (atCtx cQual) .a [1, 0] 4 .timed cQual.counted ∧ ExecutesR (atCtx cQual) .a { rd := 3, ra := 1 } .timed cQual.counted ∧
      Executes (atCtx cQual) .a [] 4 .timed cQual.counted ∧ (atCtx cQual).tick.time + (cQual.rd 0).toNat ≤ (atCtx cQual).time.now ∧
      ((atCtx cQual).lane .a).queue = [] ∧ ((atCtx cQual).lane .a).spill = [] ∧ (atCtx cQual).hlk.posted = [] ∧ (atCtx cQual).hlk.queue = [] ∧
      ok (.qout .a { ra := 1 }) (atCtx cQual) (fun t => t.laneA.timed.qf = 0x3C) = true ∧
      ok (.qtst .a { rd := 3, ra := 2 }) (atCtx cQual) (fun t => t.laneA.timed.rd 3 = 0) = true ∧
      ok (.qmax .a { rd := 3, ra := 1, rb := 2 }) (atCtx cQual) (fun t => t.laneA.timed.rd 3 = 3) = true ∧
      ok (.qclr .a {}) (atCtx cQual) (fun t => t.laneA.timed.qf = 0) = true ∧
      ok (.twait .a {}) (atCtx cQual) (fun t => t.laneA.timed.cf = 0x40) = true ∧
      ok (.fence .a {}) (atCtx cQual) (fun t => t.laneA.timed.cf = 0 && !t.laneA.timed.uwrErr) = true ∧
      ok (.yield .a {}) (atCtx cQual) (fun t => t.laneA.timed.pc = 0x1004) = true :=
  ⟨cQual_executes _ _ (by decide), cQual_executes _ _ (by decide), cQual_executes _ _ (by decide), by decide, by decide, by decide, by decide,
    by decide, by decide, by decide, by decide, by decide, by decide, by decide⟩

/-- The payload stands at offset 24 of instance 0; g1 names TX object 0, g4 RX object 1 and its first message, g5 its second. -/
def cMsg : LaneCtx := tCtx [(1, 0), (2, 24), (4, 1), (5, 0x10001)]

def atMsg (c : LaneCtx) : State :=
  let s := atCtx c
  { s with laneA := { s.laneA with mem := [(0x1000118, 0x2A)],
                                   in0 := { areas := [(1, { msgs := [([1, 2, 3, 4, 5, 6, 7, 8], .stale)] })] } } }

theorem cMsg_executes (c : LaneCtx) (h : c = { cMsg with sends := c.sends }) (regs : List Nat) (len : Nat)
    (hf : fetchOk tProg 0x1000 len = true) : Executes (atMsg c) .a regs len .timed c.counted := by
  rw [h]; exact ⟨_, rfl, rfl, hf, rfl⟩

theorem witness_MessageInstructionsUseTheirObject :
    Executes (atMsg cMsg) .a [3, 1, 2] 4 .timed cMsg.counted ∧
      Executes (atMsg { cMsg with sends := [(0, 2)] }) .a [3, 1, 2] 4 .timed { cMsg with sends := [(0, 2)] }.counted ∧
      objectOf (laneProg (atMsg cMsg) .a) (cMsg.rd 1) = some (tMsg 0 true) ∧ objectOf tProg (cMsg.rd 4) = some (tMsg 1 false) ∧
      accessExc tProg cMsg (refAccess (cMsg.rd 2) 0) 8 (payloadAlign 8) false = none ∧
      recvExc tProg cMsg (refAccess (cMsg.rd 2) 0) 8 (payloadAlign 8) = none ∧ partSafe tProg cMsg = false ∧
      placeOf (atMsg cMsg) 0 (refAccess (cMsg.rd 2) 0) = .own 0x1000118 ∧
      ok (.msend .a { rd := 3, ra := 1, rb := 2 }) (atMsg cMsg)
        (fun t => t.laneA.timed.rd 3 = 1 && t.laneA.timed.msgs.map (·.data) = [[0x2A, 0, 0, 0, 0, 0, 0, 0]]) = true ∧
      ok (.msend .a { rd := 3, ra := 1, rb := 2 }) (atMsg { cMsg with sends := [(0, 2)] })
        (fun t => t.laneA.timed.rd 3 = 2 && t.laneA.timed.msgs = [] && t.laneA.timed.cf = 0) = true ∧
      ok (.mrecv .a { rd := 3, ra := 4, rb := 2 }) (atMsg cMsg)
        (fun t => t.laneA.timed.rd 3 = 8 && Memory.readByte t.laneA.mem 0x100011F = 8 && t.laneA.timed.qf = 0x05) = true ∧
      ok (.mrecv .a { rd := 3, ra := 5, rb := 2 }) (atMsg cMsg) (fun t => t.laneA.timed.rd 3 = 0 && t.laneA.timed.cf = 0) = true ∧
      ok (.mstat .a { rd := 3, ra := 4 }) (atMsg cMsg) (fun t => t.laneA.timed.rd 3 = 1) = true :=
  ⟨cMsg_executes _ rfl _ _ (by decide), cMsg_executes _ rfl _ _ (by decide), by decide, by decide, by decide, by decide, by decide, by decide,
    by decide, by decide, by decide, by decide, by decide⟩

/-- g1 is the first address of the control space, g2 the last below it. -/
def cEff : LaneCtx := { tCtx [(1, 0xF0000000), (2, 0xEFFFFFFC)] with out := [(0, 5), (1, 0), (2, 0), (3, 0)], outTags := [(0, .good)] }

theorem cEff_executes (regs : List Nat) (len : Nat) (h : fetchOk tProg 0x1000 len = true) :
    Executes (atCtx cEff) .a regs len .timed cEff.counted := atCtx_executes cEff regs len rfl rfl rfl rfl rfl h

theorem witness_EffectsEnterTheQueue :
    queueFull ((atCtx cEff).lane .a) = false ∧ Executes (atCtx cEff) .a [1, 0] 4 .timed cEff.counted ∧ Executes (atCtx cEff) .a [2, 0] 4 .timed cEff.counted ∧
      Executes (atCtx cEff) .a [] 4 .timed cEff.counted ∧ ((atCtx cEff).lane .a).queue.length + (emission (atCtx cEff) .a .timed cEff).length = 1 ∧
      ok (.uwr .a { ra := 1 }) (atCtx cEff) (fun t => t.laneA.queue.map (fun r => (r.kind, r.addr)) = [(3, 0xF0000000)]) = true ∧
      ok (.uwr .a { ra := 2 }) (atCtx cEff) (fun t => t.laneA.queue.map (·.beats) = [[0x42]]) = true ∧
      ok (.vsync .a { ra := 1 }) (atCtx cEff) (fun t => t.laneA.queue.map (fun r => (r.kind, r.addr)) = [(5, 0x1000)]) = true ∧
      ok (.trap .a {}) (atCtx cEff) (fun t => t.laneA.queue.map (·.beats) = [[0x4D]]) = true ∧
      ok (.cmt .a {}) (atCtx cEff) (fun t => t.laneA.queue.map (fun r => (r.kind, r.addr, r.last, r.beats)) = [(1, 0, true, [5])]) = true :=
  ⟨by decide, cEff_executes _ _ (by decide), cEff_executes _ _ (by decide), cEff_executes _ _ (by decide), by decide, by decide, by decide,
    by decide, by decide, by decide⟩

def cWait (w : Wait) : LaneCtx := { tCtx [(1, 0xF0000000)] with wait := w }

def atReplay : State :=
  let s := atCtx cEff
  { s with voter := { s.voter with replay := [{ ctx := .timed, addr := 0xF0000000, value := 6, ok := true, left := [.a] }] } }

/-- g1 names UCB_STATE of the voter. -/
def cUcb : LaneCtx := tCtx [(1, 0xF0030004)]

/-- The first lane of a set that reads a control block leaves the value to the others. -/
theorem witness_first_lane_reads :
    Executes (atCtx cUcb) .a [3, 1] 4 .timed cUcb.counted ∧ plainUnit .voter = true ∧ (0xF0030004 : Nat) = baseOf .voter + 4 ∧
      (atCtx cUcb).voter.replay = [] ∧ (atCtx cUcb).hlk.queue = [] ∧ (atCtx cUcb).hlk.heldRead = none ∧
      ok (.urd .a { rd := 3, ra := 1 }) (atCtx cUcb) (fun t =>
        t.laneA.timed.wait = .urd 3 0xF0030004 (some ((ucbRead (atCtx cUcb) .voter 4).toNat, true))) = true :=
  ⟨atCtx_executes _ _ _ rfl rfl rfl rfl rfl (by decide), by decide, by decide, by decide, by decide, by decide, by decide⟩

theorem witness_WaitsEndWithTheirOutcome :
    waitingCtx (atCtx (cWait .fence)) .a = some (.timed, cWait .fence) ∧ waitingCtx (atCtx (cWait (.twait 5))) .a = some (.timed, cWait (.twait 5)) ∧
      5 < guardInstant (atCtx (cWait (.twait 5))) ∧
      waitingCtx (atCtx (cWait (.urd 3 0xF0000000 (some (6, true))))) .a = some (.timed, cWait (.urd 3 0xF0000000 (some (6, true)))) ∧
      Executes (atCtx cEff) .a [3, 2] 4 .timed cEff.counted ∧ Executes atReplay .a [3, 1] 4 .timed cEff.counted ∧ (atReplay.lane .a).role = .voting ∧
      ok (.fenceCompletion .a) (atCtx (cWait .fence)) (fun t => t.laneA.timed.cf = 0x40 && t.laneA.timed.pc = 0x1004) = true ∧
      ok (.twaitCompletion .a 5) (atCtx (cWait (.twait 5))) (fun t => t.laneA.timed.cf = 0x40 && t.laneA.timed.pc = 0x1004) = true ∧
      ok (.twaitCompletion .a 4) (atCtx (cWait (.twait 5))) (fun t => t.laneA.timed.wait = .twait 5) = true ∧
      ok (.urdCompletion .a) (atCtx (cWait (.urd 3 0xF0000000 (some (6, true))))) (fun t => t.laneA.timed.rd 3 = 6) = true ∧
      ok (.urd .a { rd := 3, ra := 2 }) (atCtx cEff) (fun t => t.laneA.queue.map (·.beats) = [[0x42]]) = true ∧
      ok (.urd .a { rd := 3, ra := 1 }) atReplay (fun t => t.laneA.timed.wait = .urd 3 0xF0000000 (some (6, true))) = true :=
  ⟨by decide, by decide, by decide, by decide, cEff_executes _ _ (by decide), ⟨cEff, rfl, rfl, by decide, rfl⟩, by decide, by decide, by decide, by decide,
    by decide, by decide, by decide⟩

/-- A REAL type under ADD, a reserved condition, and a program counter at the end of the code. -/
theorem witness_UnassignedEncodingsAreIllegal :
    runCtx (atCtx cR) .a = some (.timed, cR) ∧ queueFull ((atCtx cR).lane .a) = false ∧
      runCtx (atCtx { cR with pc := 0x2000 }) .a = some (.timed, { cR with pc := 0x2000 }) ∧ fetchOk tProg 0x2000 4 = false ∧
      (∀ i ∈ [Instr.add .a { ty := 9 }, .add .a { ty := 1, i := true, rb := 1 }, .fadd .a { ty := 8 }, .shl .a { ty := 11 }, .sel .a { ty := 1 },
          .nop .a { i := true }, .ld .a { ty := 12 }, .ref .a { space := 6 }, .st .a { x := true, off := 1 }, .b .a { cond := 15 },
          .trap .a { ra := 1 }], ok i (atCtx cR) (fun t => t.laneA.queue.map (·.beats) = [[0x40]]) = true) ∧
      ok (.nop .a {}) (atCtx { cR with pc := 0x2000 }) (fun t => t.laneA.queue.map (fun r => (r.beats, r.addr)) = [([0x40], 0x2000)]) = true :=
  ⟨by decide, by decide, by decide, by decide, by decide, by decide⟩

/-! ### Units, commands and registers -/

/-- Step 9 with no context under way. -/
def tMod : State := { atCtx {} with laneA := {} }

/-- A unit's control block put in place. -/
def withUcb (s : State) (u : UnitId) (b : Ucb) : State := s.setUcb u fun _ => b

def uOff : UnitId := .can 0
def inState (x : UState) : State := withUcb tMod uOff { state := x, gateOpen := decide (x ≠ .off) }

theorem witness_AStepRunsTheFrontCommand : tMod.pending = [] ∧
    step { tMod with pending := [.btestDue] } = exec .btestDue { tMod with pending := [] } := ⟨by decide, rfl⟩

theorem witness_CommonCommandsMoveTheUnit :
    plainUnit uOff = true ∧ ((inState .off).ucb uOff).running = none ∧ ((inState .off).ucb uOff).busy = false ∧
      Legal (inState .off) .safety uOff 1 0 ∧ Legal (inState .quiesced) .safety uOff 2 0 ∧ Legal (inState .quiesced) .safety uOff 3 0 ∧
      Legal (inState .quiesced) .safety uOff 4 0 ∧ Legal (inState .quiesced) .safety uOff 5 1 ∧ Legal (inState .run) .safety uOff 3 0 ∧
      Legal (inState .fault) .safety uOff 6 0 ∧ Legal (inState .fault) .safety uOff 7 0 ∧
      ok (.enable .safety uOff 0) (inState .off) (fun t => (t.ucb uOff).state = .quiesced && (t.ucb uOff).gateOpen && (t.ucb uOff).result.valid) = true ∧
      ok (.start .safety uOff 0) (inState .quiesced) (fun t => (t.ucb uOff).state = .run && (t.ucb uOff).prev = .quiesced) = true ∧
      ok (.gateOff .safety uOff 0) (inState .quiesced) (fun t => (t.ucb uOff).state = .off && !(t.ucb uOff).gateOpen) = true ∧
      ok (.test .safety uOff 1) (inState .quiesced) (fun t => (t.ucb uOff).state = .test && (t.ucb uOff).busy) = true ∧
      ok (.quiesce .safety uOff 0) (inState .run) (fun t => (t.ucb uOff).state = .run && (t.ucb uOff).draining) = true ∧
      ok (.clear .safety uOff 0) (inState .fault) (fun t => (t.ucb uOff).state = .off) = true ∧
      ok (.reset .safety uOff 0) { inState .fault with regs := [(baseOf uOff + 0x104, 5)] }
        (fun t => (t.ucb uOff).state = .off && decide (t.reg uOff 0x104 = resetValue tMod uOff 0x104)) = true ∧
      ok (.nopCommand .svc uOff 7) (withUcb tMod uOff { code := .busy, cmd := 9 }) (fun t => (t.ucb uOff).code = .ok && (t.ucb uOff).cmd = 0) = true := by
  unfold Legal; decide

/-- One refusal of every kind, each with the checks before it passed. -/
theorem witness_RefusedCommandsHaveNoEffect :
    entitled tMod .svc uOff 1 0 = false ∧ entitled tMod .safety uOff 1 0 = true ∧
      ok (.enable .svc uOff 0) tMod (fun t => (t.ucb uOff).code = .denied && (t.ucb uOff).state = .off) = true ∧
      ok (.enable .safety uOff 0) (withUcb tMod uOff { token := some (.splitJoin, 3) }) (fun t => (t.ucb uOff).code = .busyMaint) = true ∧
      ok (.enable .safety uOff 0) (withUcb tMod uOff { busy := true }) (fun t => (t.ucb uOff).code = .busy) = true ∧
      ok (.enable .safety uOff 1) tMod (fun t => (t.ucb uOff).code = .badArg && (t.ucb uOff).state = .off) = true ∧
      ok (.test .safety uOff 2) (inState .quiesced) (fun t => (t.ucb uOff).code = .badArg) = true ∧
      ok (.start .safety uOff 0) tMod (fun t => (t.ucb uOff).code = .illegalState && (t.ucb uOff).refused = 1) = true ∧
      ok (.clear .safety uOff 0) (inState .run) (fun t => (t.ucb uOff).code = .illegalState && (t.ucb uOff).state = .run) = true := by decide

def tRunning (code : Nat) : Running := { code, arg := 0, writer := .safety }

def draining : State := withUcb tMod uOff { state := .run, gateOpen := true, draining := true, busy := true, running := some (tRunning 3) }
def testing : State := withUcb tMod uOff { state := .test, gateOpen := true, busy := true, running := some (tRunning 5) }

/-- Slot 0 holds a card that link 0 reaches. -/
def tCard : State :=
  let s := withUcb tMod .hlk { state := .run, gateOpen := true }
  { s with hlk := { s.hlk with cards := [(0, { inUnit := true, present := true, valid := true, record := List.replicate 256 0 })],
                               links := [(0, { up := true }), (1, { up := true })], backplane := List.replicate 256 0 } }

theorem witness_CommandsEndWithTheirOutcome :
    (draining.ucb uOff).running = some (tRunning 3) ∧ (testing.ucb uOff).running = some (tRunning 5) ∧ plainUnit uOff = true ∧
      cardReachable tCard 0 = true ∧ ((withUcb tCard (.card 0 0) { running := some (tRunning 1) }).ucb (.card 0 0)).running = some (tRunning 1) ∧
      ok (.quiescenceEnd uOff []) draining (fun t => (t.ucb uOff).state = .quiesced && !(t.ucb uOff).busy) = true ∧
      ok (.quiescenceEnd uOff [uOff]) draining (fun t => (t.ucb uOff).state = .run && !(t.ucb uOff).busy) = true ∧
      ok (.selfTestEnd uOff true) testing (fun t => (t.ucb uOff).state = .quiesced) = true ∧
      ok (.selfTestEnd uOff false) testing (fun t => (t.ucb uOff).state = .fault && (t.ucb uOff).faultClass.isSome) = true ∧
      ok (.commandComplete (.card 0 0) .ok 5) (withUcb tCard (.card 0 0) { busy := true, running := some (tRunning 1) })
        (fun t => !(t.ucb (.card 0 0)).busy && (t.ucb (.card 0 0)).result.value = resultValue .ok 1 5) = true := by decide

/-- Every unit of the first tables in RUN with its window open. -/
def tOpen : State :=
  [UnitId.tick, .place, .voter, .pair, .flt, .safe, .can 0, .net, .time, .hlk, .clk, .evr, .lcs, .pwr, .eth 0, .ser 0].foldl
    (fun s u => withUcb s u { state := .run, gateOpen := true })
    { tMod with clk := { canSilent := false, linkStop := false, sysFrc := false, coreFrc := false, armed := true, oscReady := 0x1F } }

theorem witness_RegisterWritesReachTheirSetting :
    regAt tOpen .safe 0x134 = some (rwsReg 0x134 0xFF 0x18) ∧ regAt tOpen .time 0x124 = some (rwReg 0x124 0xFFFF 0) ∧
      mayCommand tOpen .safety .safe = true ∧ unitOpen tOpen .safe = true ∧ (tOpen.ucb .safe).draining = false ∧
      settingOk tOpen .safe 0x134 (objOf tOpen .safe 0 0x134) (0xFFFFFF01 &&& 0xFF) = true ∧
      mayCommand tOpen .svc .safe = false ∧ unitOpen tMod .safe = false ∧
      ok (.registerWrite .safety (BitVec.ofNat 32 (baseOf .safe + 0x134)) 0xFFFFFF01 4) tOpen
        (fun t => t.reg .safe 0x134 = 0x18 && t.regNext .safe 0x134 = 1) = true ∧
      ok (.registerWrite .safety (BitVec.ofNat 32 (baseOf .time + 0x124)) 0xFFFFFFFF 4) tOpen
        (fun t => t.reg .time 0x124 = 0xFFFF && t.regsPending = []) = true ∧
      ok (.registerWrite .svc (BitVec.ofNat 32 (baseOf .time + 0x124)) 1 4) tOpen (fun t => t.reg .time 0x124 = 0) = true ∧
      ok (.registerWrite .safety (BitVec.ofNat 32 (baseOf .time + 0x124)) 1 2) tOpen (fun t => t.reg .time 0x124 = 0) = true ∧
      ok (.registerWrite .safety (BitVec.ofNat 32 (baseOf .safe + 0x134)) 1 4) tMod (fun t => t.regsPending = []) = true := by decide

def fetching (s : State) : State :=
  let f : NMap Fetch := [(0, { busy := true })]
  { s with place := { s.place with fetch := f }, hlk := { s.hlk with fetch := f }, net := { s.net with fetch := f },
           cans := [(0, { fetch := f })] }

theorem witness_SelectionsStartTheirFetch :
    mayCommand tOpen .safety .place = true ∧ unitOpen tOpen .place = true ∧ (tOpen.ucb .place).draining = false ∧ rdSelOk 0xFF000000 = true ∧
      unitOpen tOpen (.can 0) = true ∧ unitOpen tOpen .net = true ∧ settingOk tOpen .net 0x10C 0 (0 &&& 0x3FFF) = true ∧
      unitOpen tOpen .hlk = true ∧ settingOk tOpen .hlk 0x120 0 (0x203F &&& 0x3F3F) = true ∧ unitOpen tOpen .time = true ∧
      settingOk tOpen .time 0x100 0 (4 &&& 0x7) = true ∧ unitOpen tOpen .flt = true ∧ unitOpen tOpen .voter = true ∧
      (fetchOf (fetching tOpen).place.fetch 0).busy = true ∧ (fetchOf (fetching tOpen).hlk.fetch 0).busy = true ∧
      (fetchOf (fetching tOpen).net.fetch 0).busy = true ∧ (fetchOf ((fetching tOpen).can 0).fetch 0).busy = true ∧
      ok (.placeRdSelWrite .safety 0xFF000000) tOpen (fun t => t.reg .place 0x118 = 0xFF000000 && (fetchOf t.place.fetch 0).busy) = true ∧
      ok (.cannFiltSelWrite .safety 0 0xFFFFFFFF) tOpen (fun t => t.reg (.can 0) 0x13C = 0x3FF && (fetchOf (t.can 0).fetch 0).busy) = true ∧
      ok (.netDirSelWrite .safety 0) tOpen (fun t => (fetchOf t.net.fetch 0).busy) = true ∧
      ok (.hlkIdmSelWrite .safety 0x203F) tOpen (fun t => (fetchOf t.hlk.fetch 0).busy) = true ∧
      ok (.timeSnapSelWrite .safety 4) tOpen (fun t => t.reg .time 0x100 = 4) = true ∧
      ok (.fltHistSelWrite .safety 15) tOpen (fun t => t.reg .flt 0x180 = 15) = true ∧
      ok (.fetchComplete .hlk .a) (fetching tOpen) (fun t => !(fetchOf t.hlk.fetch 0).busy && (fetchOf t.hlk.fetch 0).result.valid) = true ∧
      ok (.fetchComplete .net .a) (fetching tOpen) (fun t => !(fetchOf t.net.fetch 0).busy && (fetchOf t.net.fetch 0).result.fresh) = true ∧
      ok (.resultWindowRead .safety 0xF0030130) { tOpen with voter := { tOpen.voter with fox := { valid := true, fresh := true } } }
        (fun t => !t.voter.fox.fresh && t.voter.fox.valid) = true ∧
      ok (.resultWindowRead .safety (BitVec.ofNat 32 (baseOf .clk + 0x18)))
        (withUcb tOpen .clk { result := { valid := true, fresh := true }, gateOpen := true }) (fun t => !(t.ucb .clk).result.fresh) = true := by decide

def tCell (object ident : Nat) : FrameCell :=
  { ext := false, fd := false, brs := false, esi := false, object, ident, stamp := 0, csn := 0, data := [1, 2, 3, 4, 5, 6, 7, 8] }

def tFilter (dest : Nat) : FilterEntry :=
  { kind := 2, ext := false, format := 0, dest, buffer := 0, object := 1, a := 0x121, b := 0x121, hits := 0 }

/-- CAN0 in RUN with a receive filter and frames to send. -/
def tCan (c : CanState) : State := { tOpen with cans := [(0, c)] }

def cIdle : CanState := { act := 1, rec_ := 1, tec := 1, filter := [tFilter 0] }

theorem witness_IndirectAccessesReachTheirRegister :
    mayCommand tOpen .safety .clk = true ∧ unitOpen tOpen .clk = true ∧ (tOpen.ucb .clk).draining = false ∧
      clkSettingOk tOpen 0x104 (tOpen.regNext .clk 0x104 &&& 0xFFFFFFF0) = true ∧ (0x2000 : W32).toNat = 0x1FFF + 1 ∧
      ok (.c71MirrorWrite .safety 0x804 1) { tOpen with regsPending := [(regKey (baseOf .clk + 0x104) 0, 0x640102)] }
        (fun t => t.regNext .clk 0x104 = 0x640100) = true ∧
      ok (.c71MirrorWrite .safety 0x808 0xFFFFFFFF) tOpen (fun t => t.reg .clk 0x808 = 0x8000FFFF) = true ∧
      ok (.diagnosticsRead (.register (BitVec.ofNat 32 (baseOf .time + 0x124)))) tOpen (fun t => t.lcs.answer = some 0) = true ∧
      ok (.diagnosticsRead (.register (BitVec.ofNat 32 (baseOf .time + 0x124)))) { tOpen with regs := [(regKey (baseOf .lcs + 0x114) 0, 2)] }
        (fun t => t.lcs.answer = none) = true ∧
      ok (.cannTxCancel .safety 0 1) (tCan { cIdle with txQueue := [tCell 1 0x120, tCell 0 0x121, tCell 1 0x120] })
        (fun t => (t.can 0).txQueue = [tCell 0 0x121] && (t.can 0).cres.value = cresValue 1 2 1) = true ∧
      ok (.cannTxCancel .safety 0 0x1FFF) (tCan cIdle) (fun t => (t.can 0).cres.value = cresValue 0 0 0x1FFF) = true := by decide

def tHeard : CanFrame := { tFrame with ident := 0x121 }

theorem witness_CanFramesGoWhereTheFilterSays :
    canRun (tCan cIdle) 0 = true ∧ canMode (tCan cIdle) 0 = 0 ∧ canBusOff cIdle = false ∧
      cIdle.filter.find? (fun e => e.admits tHeard) = some (tFilter 0) ∧ cIdle.filter.find? (fun e => e.admits tFrame) = none ∧
      msgDecl (tCan cIdle) 1 = some (tMsg 1 false) ∧
      ok (.canFrameReceived 0 tHeard 7) (tCan cIdle)
        (fun t => (t.can 0).rec_ = 0 && (mapGetD (t.can 0).rxBufs 1 []).map (·.stamp) = [7] && t.time.now = 7) = true ∧
      ok (.canFrameReceived 0 tHeard 7) (tCan { cIdle with rxBufs := [(1, [tCell 1 0, tCell 1 1])] })
        (fun t => (mapGetD (t.can 0).rxBufs 1 []).map (·.ident) = [1, 0x121]) = true ∧
      ok (.canFrameReceived 0 tHeard 7) (tCan { cIdle with filter := [tFilter 1] }) (fun t => (t.can 0).queueS.map (·.ident) = [0x121]) = true ∧
      ok (.canFrameReceived 0 tHeard 7) (tCan { cIdle with filter := [tFilter 2] }) (fun t => (t.can 0).queueN.map (·.ident) = [0x121]) = true ∧
      ok (.canFrameReceived 0 { tHeard with data := [1] } 7) (tCan cIdle) (fun t => (t.can 0).badLen = 1) = true ∧
      ok (.canFrameReceived 0 { tHeard with data := [], remote := true } 7) (tCan cIdle) (fun t => (t.can 0).remote = 1) = true ∧
      ok (.canFrameReceived 0 tFrame 7) (tCan cIdle) (fun t => (t.can 0).noMatch = 1) = true ∧
      ok (.queueDrain 0) (tCan { cIdle with queueS := [tCell 1 2], queueN := [tCell 1 3] })
        (fun t => (t.can 0).queueS = [] && (t.can 0).queueN = [tCell 1 3] && mapGetD (t.can 0).rxBufs 1 [] = [tCell 1 2]) = true := by decide

def cSend : CanState := { cIdle with act := 3, sending := some { place := 32, cell := tCell 1 0x120 } }

theorem witness_CanFramesAreSentByPriority :
    txChoice { cIdle with txBufs := [(0, [tCell 0 0x200])], txQueue := [tCell 1 0x120] } = some (32, tCell 1 0x120) ∧
      bitAt ((tCan cSend).reg (.can 0) 0x10C) 31 = false ∧ canRun (tCan cSend) 0 = true ∧
      ok (.transmitChoice 0 5) (tCan { cIdle with txBufs := [(0, [tCell 0 0x200])], txQueue := [tCell 1 0x120] })
        (fun t => (t.can 0).act = 3 && (t.can 0).sending.map (·.place) = some 32) = true ∧
      ok (.frameTransmitted 0 5) (tCan cSend) (fun t => (t.can 0).txOk = 1 && (t.can 0).tec = 0 && (t.can 0).act = 1) = true ∧
      ok (.frameError 0 .arbitration) (tCan cSend) (fun t => (t.can 0).tec = 1 && (t.can 0).txQueue = [tCell 1 0x120] && (t.can 0).act = 2) = true ∧
      ok (.frameError 0 (.send 3 false)) (tCan { cSend with tec := 247 }) (fun t => (t.can 0).tec = 255 && (t.can 0).lec = 3) = true ∧
      ok (.frameError 0 (.send 3 false)) (tCan { cSend with tec := 248 })
        (fun t => canBusOff (t.can 0) && decide (Resource.port (.can 0) ∈ t.place.lost) && (t.ucb (.can 0)).held.isSome) = true ∧
      ok (.recoveryComplete 0) (tCan { cIdle with state := 3, tec := 255 }) (fun t => (t.can 0).state = 0 && (t.can 0).tec = 0) = true ∧
      ok (.busIntegration 0) (tCan { cIdle with act := 0 }) (fun t => (t.can 0).act = 1) = true := by decide

/-- CAN0 takes time as a slave, or with role 2 as a potential master of rank 3; the reference identifier is 0x120. -/
def tTime (role : Nat) (c : CanState) : State :=
  { tCan c with regs := [(regKey (baseOf (.can 0) + 0x150) 0, BitVec.ofNat 32 (role + 0x30)), (regKey (baseOf (.can 0) + 0x154) 0, 0x120)] }

def tRef (first : Byte) : CanFrame := { tFrame with ident := 0x122, data := [first, 100, 0, 0, 0, 0, 0, 0] }

theorem witness_CanTimeFollowsItsMaster :
    tmRole (tTime 1 cIdle) 0 = 1 ∧ tmRole (tTime 2 cIdle) 0 = 2 ∧ isReference (tTime 1 cIdle) 0 (tRef 5) = true ∧ tmRank (tTime 2 cIdle) 0 = 3 ∧
      ok (.referenceMessage 0 (tRef 5) 9) (tTime 1 cIdle) (fun t => (t.can 0).tmState = 2 && (t.can 0).tmMaster = 2 && (t.can 0).tmCycle = 5 &&
        t.time.handed = []) = true ∧
      ok (.referenceMessage 0 (tRef 0x46) 9) (tTime 1 { cIdle with tmLast := some { cycle := 5, tb2 := 40, at_ := 2 }, tmMaster := 2 })
        (fun t => (t.can 0).tmOfs = 60 && t.time.handed = [{ tb := 2, src := 0, offset := 60, disc := false, at_ := 9 }]) = true ∧
      ok (.tmLost 0) (tTime 1 cIdle) (fun t => (t.can 0).tmState = 1 && (t.ucb (.can 0)).held.map (·.kind) = some 5) = true ∧
      ok (.tmMaster 0) (tTime 2 cIdle) (fun t => (t.can 0).tmState = 3 && (t.can 0).tmMaster = 3) = true := by decide

/-! ### Safety functions and field I/O -/

/-- SAFE/FIO in RUN with both switches closed and what is given. -/
def tSafe (x : SafeState) : State := { tOpen with safe := { x with openA := false, openB := false } }

def onBk : Brake := { cmd := true, drv := true }
def onDo : DoState := { cmd := true, drv := true }

/-- DO0 is bound to a safety value, so that it is scheduled. -/
def tSafeDo (x : SafeState) : State :=
  { tSafe x with prog := { image := some { tImage with main := { tProg with
      outputs := [{ off := 0, ty := .bool, safety := true, safeValue := 0, init := 0, bind := .dout 0 }] } } } }

theorem witness_OffPulsesTestEveryScheduledOutput :
    slotOrder.getD 5 (.bk 0) = .bk 1 ∧ scheduled (tSafe { slot := 5, bk1 := onBk }) (.bk 1) = true ∧
      energised (tSafe { slot := 5, bk1 := onBk }) (.bk 1) = true ∧ safeRun (tSafe {}) = true ∧ energised (tSafe { slot := 5 }) (.bk 1) = false ∧
      slotOrder.getD 1 (.bk 0) = .dout 0 ∧ scheduled (tSafe { slot := 1 }) (.dout 0) = false ∧ scheduled (tSafeDo {}) (.dout 0) = true ∧
      Legal (tSafe {}) .safety .safe 0x81 6 ∧ (tSafe {}).safe.openB = false ∧ ({ tSafe {} with safe := {} } : State).safe.openB = true ∧
      ok .offPulse (tSafe { slot := 5, bk1 := onBk }) (fun t => t.safe.slot = 6 && t.safe.pulse = some (.bk 1) && !t.safe.bk1.drv && t.safe.bk1.cmd) = true ∧
      ok .offPulse (tSafe { slot := 1, douts := [(0, onDo)] }) (fun t => t.safe.slot = 2 && (t.dout 0).drv && t.safe.pulse = none) = true ∧
      ok .offPulse (withUcb (tSafe { slot := 10, pwNext := some 7 }) .safe { state := .run, gateOpen := true, busy := true, running := some (tRunning 0x81) })
        (fun t => t.safe.pw = 7 && t.safe.pwNext = none && !(t.ucb .safe).busy) = true ∧
      ok (.offPulseEvaluation false []) (tSafe { pulse := some (.bk 1), bk1 := { cmd := true } }) (fun t => t.safe.bk1.drv && t.safe.pulse = none) = true ∧
      ok (.offPulseEvaluation true []) (tSafe { pulse := some (.bk 1), bk1 := { cmd := true }, bk0 := onBk })
        (fun t => t.safe.openB && t.safe.heldB && !t.safe.bk0.drv && (t.ucb .safe).held.map (·.kind) = some 1) = true ∧
      ok (.offPulseEvaluation false [.bk 0]) (tSafe { pulse := some (.bk 1), bk1 := { cmd := true }, bk0 := onBk })
        (fun t => t.safe.heldB && (t.ucb .safe).held.map (fun m => (m.kind, m.address)) = some (3, 0x100)) = true ∧
      ok (.extFeedPersist (.bk 0)) { tSafe {} with safe := {} } (fun t => t.safe.safe && (t.ucb .safe).held.map (·.kind) = some 2) = true ∧
      ok (.readbackCheck (.bk 0) true) (tSafe {}) (fun t => (t.ucb .safe).held.map (·.kind) = some 1) = true ∧
      ok (.readbackCheck (.bk 0) false) (tSafe { bk0 := onBk }) (fun t => (t.ucb .safe).held.map (·.kind) = some 4) = true ∧
      ok (.pulseStarved (.bk 1)) (tSafe { skipRuns := [(1, 8)] }) (fun t => (t.ucb .safe).held.map (·.kind) = some 6) = true ∧
      ok (.pulseStarved (.bk 1)) (tSafe { skipRuns := [(1, 7)] }) (fun t => (t.ucb .safe).held = none) = true ∧
      ok (.pulseRetime .safety 6) (tSafe {}) (fun t => t.safe.pwNext = some 6 && (t.ucb .safe).token.isSome) = true := by
  unfold Legal; decide

def standby (s : State) : State := { s with pair := { s.pair with role := .standby } }

def watched (release : Bool) (bf : Bool := false) : State := tSafe { bk0 := { cmd := release, bf, watch := some { release, from_ := 0 } } }

theorem witness_BrakeFeedbackIsJudged :
    bfReleased (watched true) 0 true = true ∧ ownCommits (watched true) = true ∧ ownCommits (standby (watched true)) = false ∧
      series (watched true) = false ∧ synced (watched true) = false ∧
      ok (.brakeFeedbackCheck 0 true 10000000) (watched true) (fun t => t.safe.bk0.bf && t.safe.bk0.watch = none && (t.ucb .safe).held = none) = true ∧
      ok (.brakeFeedbackCheck 0 true 9999999) (watched true) (fun t => (t.ucb .safe).held.map (·.kind) = some 9) = true ∧
      ok (.brakeFeedbackCheck 0 true 10000000) (watched false) (fun t => t.safe.safe && (t.ucb .safe).held.map (·.kind) = some 8) = true ∧
      ok (.brakeFeedbackCheck 0 false 10000000) (watched true true) (fun t => !t.safe.safe && (t.ucb .safe).held.map (·.kind) = some 9) = true ∧
      safeRun (watched true) = true ∧ brakeLimit (watched true) true = 500000000 ∧ brakeLimit (watched true) false = 300000000 ∧
      ok (.brakeFeedbackCheck 0 true 500000000) (watched true) (fun t => (t.ucb .safe).held = none) = true ∧
      ok (.brakeFeedbackCheck 0 true 500000001) (watched true) (fun t => (t.ucb .safe).held.map (·.kind) = some 7) = true ∧
      ok (.brakeFeedbackCheck 0 false 300000001) (watched false true) (fun t => t.safe.safe && (t.ucb .safe).held.map (·.kind) = some 8) = true ∧
      ok (.brakeFeedbackCheck 0 true 0) (standby (watched false)) (fun t => t.safe.bk0.bf && !t.safe.safe) = true ∧
      ok (.brakeNorel 0) (watched true) (fun t => (t.ucb .safe).held.map (·.kind) = some 7 && t.safe.bk0.watch = none) = true ∧
      ok (.brakeNorel 0) { watched true with regs := [(regKey (baseOf .safe + 0x114) 0, 4)] } (fun t => (t.ucb .safe).held = none) = true ∧
      ok (.brakeNorel 0) (watched false) (fun t => t.safe.safe) = true ∧
      ok (.brakeWord true false) (standby (tSafe {})) (fun t => t.safe.bk0.drv && !t.safe.bk1.drv) = true ∧
      ok .brakeWordTimeout (standby (tSafe { bk0 := onBk })) (fun t => t.safe.bk0.drv && t.safe.wordsMissed = 1) = true ∧
      ok .brakeWordTimeout (standby (tSafe { bk0 := onBk, wordsMissed := 1 }))
        (fun t => !t.safe.bk0.drv && t.safe.stbyApply && (t.ucb .safe).held.map (·.kind) = some 12) = true := by decide

def phase (k : Nat) (startUp : Bool := false) : State :=
  let s := tSafe { btest := some { elec := false, startUp, phase := k } }
  if startUp then { s with pwr := { s.pwr with step := 8 } }
  else withUcb s .safe { state := .run, gateOpen := true, busy := true, running := some (tRunning 0x80) }

def obs (passed : Bool) (ms : Nat := 10) (otherMoved : Bool := false) : BrakeObs := { passed, ms, otherMoved }

theorem witness_BrakeTestRunsInPhases :
    Legal (tSafe {}) .safety .safe 0x80 0 ∧ phasePasses (phase 0) 0 (obs true) = true ∧ phasePasses (phase 5) 5 (obs true 10) = true ∧
      phasePasses (phase 5) 5 (obs true 9) = false ∧ phasePasses (phase 5) 5 (obs true 501) = false ∧
      ok (.brakeTest .safety 0) (tSafe {}) (fun t => t.safe.btest.isSome && (t.ucb .safe).busy && (t.ucb .pair).token = some (.brakeTest, 6)) = true ∧
      ok (.brakeTestStep (obs true)) (phase 0) (fun t => t.safe.openB && t.safe.btest.map (·.phase) = some 1) = true ∧
      ok (.brakeTestStep (obs true)) (phase 4) (fun t => t.safe.bk0.drv && t.safe.btest.map (·.phase) = some 5) = true ∧
      ok (.brakeTestStep (obs true)) (phase 8) (fun t => t.safe.btest = none && t.safe.btestWin.value = btestValue true 0 false && !(t.ucb .safe).busy) = true ∧
      ok (.brakeTestStep (obs true)) (phase 8 true) (fun t => t.pwr.step = 9) = true ∧
      ok (.brakeTestStep (obs false)) (phase 5) (fun t => t.safe.btestWin.value = btestValue false 2 false && (t.ucb .safe).held.map (·.kind) = some 10) = true ∧
      ok (.brakeTestStep (obs false)) (phase 5 true) (fun t => t.pwr.failed = 8 && t.pwr.reason = 1) = true ∧
      (tSafe {}).regField .safe 0x134 7 0 * 60 < btestAge (tSafe {}) ∧
      ok .btestDue (tSafe {}) (fun t => t.safe.due && (t.ucb .safe).held.map (·.kind) = some 11) = true := by
  unfold Legal; decide

def tDi (d : DiState) : State := { tSafe { di := [(17, d), (3, d)] } with regs := [(regKey (baseOf .safe + 0x200 + 0x10 * 3) 0, 0x001E0002)] }

theorem witness_InputsFollowTheirFilteredLevel :
    diBad (tDi {}) 17 = false ∧ diBad (tDi { brk := true }) 17 = true ∧ breakEn (tDi {}) 3 = true ∧ diRange (tDi {}) 3 ≠ 2 ∧
      ok (.edge 17 true 1999) (tDi { edges := 255 }) (fun t => (t.di 17).accepted && (t.di 17).stamp = 1000 && (t.di 17).edges = 0) = true ∧
      ok (.edge 17 true 1999) (tDi { brk := true }) (fun t => !(t.di 17).accepted && (t.di 17).raw && (t.di 17).edges = 0) = true ∧
      ok (.diBreak 3) (tDi {}) (fun t => (t.di 3).brk && (t.ucb .safe).held.map (·.kind) = some 0x10) = true ∧
      ok (.diOvervolt 3 true) (tDi {}) (fun t => (t.di 3).overvolt && (t.ucb .safe).held.map (·.kind) = some 0x11) = true ∧
      ok (.breakCleared 3) (tDi { brk := true, raw := true }) (fun t => !(t.di 3).brk && (t.di 3).accepted && (t.di 3).edges = 0) = true ∧
      ok (.breakCleared 3) (tDi { brk := true, raw := true, overvolt := true }) (fun t => !(t.di 3).accepted) = true ∧
      ok (.rangeSettled 3) (tDi { settling := true, raw := true }) (fun t => (t.di 3).accepted) = true := by decide

def tDout (d : DoState) (en : W32 := 1) : State := { tSafe { douts := [(7, d)] } with regs := [(regKey (baseOf .safe + 0x470) 0, en)] }

theorem witness_OutputsAndSuppliesReportTheirFaults :
    ((tDout onDo).dout 7).drv = true ∧ bitAt ((tDout {}).reg .safe (0x400 + 0x10 * 7)) 0 = true ∧ scheduled (tDout {}) (.dout 7) = false ∧
      (tDout {}).safe.pulse = none ∧
      ok (.doOverload 7) (tDout onDo) (fun t => (t.dout 7).latched && !(t.dout 7).drv && (t.ucb .safe).held.map (·.kind) = some 0x12) = true ∧
      ok (.doOvertemp 7) (tDout onDo) (fun t => (t.dout 7).hot && !(t.dout 7).drv && (t.ucb .safe).held.map (·.kind) = some 0x13) = true ∧
      ok (.doOpen 7) (tDout {}) (fun t => (t.dout 7).isOpen && (t.ucb .safe).held.map (·.kind) = some 0x14) = true ∧
      ok (.doFeed 7) (tDout {}) (fun t => (t.dout 7).feed && (t.dout 7).rb && (t.ucb .safe).held.map (·.kind) = some 0x15) = true ∧
      ok (.junctionCooled 7) (tDout { hot := true }) (fun t => !(t.dout 7).hot) = true ∧
      ok (.openLoadCleared 7) (tDout { isOpen := true }) (fun t => !(t.dout 7).isOpen) = true ∧
      ok (.supplyLow true) (tSafe {}) (fun t => t.safe.lpbLow && !t.safe.lpaLow && (t.ucb .safe).held.map (·.kind) = some 0x16) = true ∧
      ok (.supplyHigh false) (tSafe {}) (fun t => t.safe.lpaHigh && (t.ucb .safe).held.map (·.kind) = some 0x17) = true ∧
      ok (.fieldSupplyRecovered true) (tSafe { lpbLow := true, lpbHigh := true }) (fun t => !t.safe.lpbLow && !t.safe.lpbHigh) = true := by decide

/-! ### Network, serial ports, time and clocks -/

def withRegs (s : State) (rs : List (UnitId × Nat × W32)) : State := rs.foldl (fun s e => s.setReg e.1 e.2.1 0 e.2.2) s

/-- ETH0 in the ETB role with PTP and best master clock, domain 1; its link is up or down. TB0 takes it as a source. -/
def tEth (e : EthState) : State :=
  let s := withRegs tOpen [(.eth 0, 0x100, 0x11), (.eth 0, 0x104, 0x01008002), (.time, 0x200, 0x112580C8)]
  { s with net := { s.net with eth := [(0, e)] }, pwr := { s.pwr with inReset := false } }

theorem witness_EthernetLinksCarryTime :
    ethRole (tEth {}) 0 = 1 ∧ (tEth {}).clk.linkStop = false ∧ ((tEth {}).ucb (.eth 0)).state ≠ .off ∧
      ethSilent (tEth { link := true }) 0 = false ∧ ptpOn (tEth { link := true }) 0 = true ∧
      (tEth {}).regField (.eth 0) 0x104 31 24 = 1 ∧ bitAt ((tEth {}).reg (.eth 0) 0x104) 1 = true ∧ eligible (tEth {}) 0 0 = true ∧
      ok (.ethLinkChange 0 true 2) (tEth {}) (fun t => (t.eth 0).link && (t.eth 0).speed = 2) = true ∧
      ok (.ethLinkChange 0 false 0) (tEth { link := true, txq := [1] })
        (fun t => !(t.eth 0).link && (t.eth 0).txq = [] && decide (Resource.port (.eth 0) ∈ t.place.lost) && (t.ucb (.eth 0)).held.map (·.kind) = some 1) = true ∧
      ok (.sync 0 100 1 7) (tEth { link := true, path := 20, measured := some 20 })
        (fun t => t.time.handed.map (fun h => (h.tb, h.src, h.at_)) = [(0, 0, 7)]) = true ∧
      ok (.pathDelayMeasurement 0 33) (tEth { link := true }) (fun t => (t.eth 0).path = 33) = true ∧
      ok (.bestMasterClock 0 true) (tEth { link := true }) (fun t => (t.eth 0).ptp = 4 && t.time.tb0.state = .master) = true ∧
      ok (.svcSession true 0x0A000001) (tEth {}) (fun t => t.net.svcSessions = 1) = true := by decide

def tTel : TelegramDecl := { index := 0x2000, publish := false, comId := 77, len := 4, ip := 9, cycle := 5, ofs := 0, station := none, stale := 3 }

/-- The telegram is routed to slot 6 of ETH0. -/
def tTrdp (slots : NMap TelegramSeen) : State :=
  let s := tEth { link := true }
  { s with prog := { image := some { tImage with main := { tProg with telegrams := [tTel] } } }
           place := { s.place with map := some { tMap with
             routes := [{ index := 0x2000, port := some (.eth 0), slot := none, buffer := 6, cand := some 0 }] } }
           net := { s.net with slots, etbTopo := 5 }
           tick := { s.tick with n := 100 } }

def goodTel : Telegram := { slot := 6, comId := 77, src := 9, seq := 8, etb := 5, optrn := 0, fcsOk := true, data := [1, 2, 3, 4] }
def seenTel (seq tick : Nat) : NMap TelegramSeen := [(0x2000, { seq, tick, data := [], at_ := 0 })]

theorem witness_TelegramsAreTestedBeforeTheirSlot :
    (telegramsOn (tTrdp []) 0).find? (fun d => !d.2.2.1.publish && decide (d.2.2.2 = goodTel.slot)) = some (0x2000, 0, tTel, 6) ∧
      ethSilent (tTrdp []) 0 = false ∧ ethRole (tTrdp []) 0 = 1 ∧ (tTrdp []).net.inaugDue = none ∧
      ok (.telegramReceived 0 goodTel) (tTrdp (seenTel 7 99)) (fun t => (t.eth 0).accepted = 1 && (mapGet? 0x2000 t.net.slots).map (·.data) = some [1, 2, 3, 4]) = true ∧
      ok (.telegramReceived 0 goodTel) (tTrdp (seenTel 8 86)) (fun t => (t.eth 0).rejected = 1 && (t.eth 0).accepted = 0) = true ∧
      ok (.telegramReceived 0 goodTel) (tTrdp (seenTel 8 85)) (fun t => (t.eth 0).accepted = 1) = true ∧
      ok (.telegramReceived 0 { goodTel with etb := 4 }) (tTrdp []) (fun t => (t.eth 0).rejected = 1) = true ∧
      ok (.telegramReceived 0 { goodTel with slot := 5 }) (tTrdp []) (fun t => (t.eth 0).rejected = 1) = true ∧
      ok (.inauguration { etb := 6, optrn := 0, nodes := [] }) (tTrdp []) (fun t => t.net.inaugDue.isSome) = true := by decide

def tSer (p : SerState) : State :=
  let s := tOpen
  { s with net := { s.net with ser := [(0, p)] } }

def tPolls : SerState := { active := true, polls := [{ object := 0, retries := 1 }, { object := 0, retries := 0 }] }

theorem witness_SerialPollsRunInTurn :
    serRun (tSer tPolls) 0 = true ∧ programHeld (tSer tPolls) = false ∧ (msgDecl (tSer tPolls) 0).map (·.address) = some 5 ∧
      answerOf (tSer tPolls) 0 = some 1 ∧ ((tSer tPolls).ucb (.ser 0)).draining = false ∧
      ok (.poll 0) (tSer tPolls) (fun t => (t.ser 0).running) = true ∧
      ok (.serialResponse 0 { address := 5, data := [1], ok := true }) (tSer { tPolls with running := true })
        (fun t => mapGetD (t.ser 0).rx 1 [] = [(0, [1])] && (t.ser 0).okCount = 1 && (t.ser 0).polls.length = 1) = true ∧
      ok (.respTimeout 0) (tSer { tPolls with running := true }) (fun t => (t.ser 0).polls.map (·.retries) = [0, 0] && (t.ser 0).timeouts = 1) = true ∧
      ok (.respTimeout 0) (tSer { tPolls with running := true, polls := [{ object := 0, retries := 0 }, { object := 0, retries := 2 }] })
        (fun t => (t.ser 0).polls.map (·.retries) = [2]) = true ∧
      ok (.serialResponse 0 { address := 5, data := [], ok := false }) (tSer { tPolls with running := true })
        (fun t => (t.ser 0).errors = 1 && (t.ser 0).polls.map (·.retries) = [0, 0]) = true := by decide

/-- One measurement of TB0 from ETH0 is handed over. -/
def tMeas (b : TimeBase) (offset : Int := 1000) (disc : Bool := false) (src : Nat := 0) : State :=
  let s := tEth { link := true }
  { s with time := { s.time with tb0 := b, handed := [{ tb := 0, src, offset, disc, at_ := 500 }] } }

theorem witness_TimeBasesFollowTheirSource :
    eligible (tMeas {}) 0 0 = true ∧ eligible (tMeas {}) 0 1 = false ∧ tbMastered (tMeas {}) 0 = false ∧
      holdOver (tMeas { state := .holdover } |> fun s => { s with time := { s.time with now := 600000000001 } }) 0 600000000001 = true ∧
      ok .measurement (tMeas {} 1000 false 1) (fun t => t.time.handed = [] && t.time.tb0.state = .none) = true ∧
      ok .measurement (tMeas { state := .tracking, source := some 0, current := [0] } 1000 true)
        (fun t => t.time.tb0.state = .tracking && (t.ucb .time).held.map (·.kind) = some 3) = true ∧
      ok .measurement (tMeas {}) (fun t => t.time.tb0.state = .acquiring && t.time.tb0.epoch = 0) = true ∧
      ok .measurement (tMeas { state := .acquiring, source := some 0, current := [0], lastAt := [(0, 0)] })
        (fun t => t.time.tb0.state = .tracking && t.time.tb0.epoch = 1 && t.time.tb0.ns 500 = 1500) = true ∧
      ok .measurement (tMeas { state := .tracking, source := some 0, current := [0], stepped := true, lastAt := [(0, 0)] })
        (fun t => t.time.tb0.epoch = 0 && decide (t.time.tb0.r ≤ slew (tMeas {}) 0)) = true ∧
      ok (.tim0Edge 999999999) (tMeas {}) (fun t => (t.time.handed.getLast?.map (·.offset)) = some 1) = true ∧
      ok (.tim0Edge 3) (tMeas {}) (fun t => (t.time.handed.getLast?.map (·.offset)) = some (-3)) = true ∧
      ok (.srcLost 0 0) (tMeas { state := .locked, source := some 0, current := [0] })
        (fun t => t.time.tb0.state = .holdover && (t.ucb .time).held.map (·.kind) = some 1) = true ∧
      ok (.holdExpired 0) (tMeas { state := .holdover } |> fun s => { s with time := { s.time with now := 600000000001 } })
        (fun t => t.time.tb0.holdSaid && (t.ucb .time).held.map (·.kind) = some 4) = true := by decide

/-- Capture channel 3 on source 2, rising edges, base TB4. -/
def tCap (stamps : List Stamp) : State :=
  let s := withRegs tOpen [(.time, 0x430, 0x80000214)]
  { s with time := { s.time with caps := [(3, { stamps })], pg1 := { next := some 1000000 } } }

theorem witness_SetsPulsesAndCaptures :
    Legal tOpen .safety .time 0x80 4 ∧ pgTb (tCap []) 1 ≠ 3 ∧ 1000000 ≤ ((tCap []).tb (pgTb (tCap []) 1)).ns 1000000 ∧
      bitAt ((tCap []).reg .time 0x430) 31 = true ∧ field ((tCap []).reg .time 0x430) 9 8 = 2 ∧ bitAt ((tCap []).reg .time 0x430) 4 = true ∧
      field ((tCap []).reg .time 0x430) 2 0 = 4 ∧
      ok (.timeSet .safety 4) (withRegs tOpen [(.time, 0x120, 5), (.time, 0x128, 6)])
        (fun t => t.time.tb4.setReq = some (.value 5 6) && (t.ucb .time).busy && t.time.tb4.val = 0) = true ∧
      ok (.pulseInstant 1 1000000) (tCap []) (fun t => t.time.pg1.pulses = 1 && t.time.pg1.next = none && t.time.pg1.highUntil = 101000000) = true ∧
      ok (.captureEdge 3 2 true 1000000007) (tCap []) (fun t => (t.cap 3).stamps.map (fun x => (x.sec, x.ns)) = [(1, 7)] && (t.cap 3).events = 1) = true ∧
      ok (.captureEdge 3 2 true 5) (tCap (List.replicate 8 { sec := 0, ns := 0, epoch := 0, bad := false }))
        (fun t => (t.cap 3).stamps.map (·.ns) = [0, 0, 0, 0, 0, 0, 0, 5] && (t.ucb .time).held.map (·.kind) = some 6) = true := by
  unfold Legal; decide

def tClk (x : ClkState) : State := { tOpen with clk := { x with armed := true, oscReady := 0x1F } }
def tRunClk : ClkState := { canSilent := false, linkStop := false, sysFrc := false, coreFrc := false }

theorem witness_ClocksFailOverAndChange :
    monitorArmed (tClk tRunClk) .frc = true ∧ monitorArmed (tClk tRunClk) .xo32k = true ∧ monitorArmed (tClk tRunClk) .corePll = true ∧
      clkPreferred (withRegs (tClk tRunClk) [(.clk, 0x104, 0x640101)]) = 1 ∧ clkAutoReturn (withRegs (tClk tRunClk) [(.clk, 0x104, 0x640101)]) = true ∧
      tokensFree (tClk tRunClk) .clockChange = true ∧
      ok (.clkFail (.marked .frc)) (tClk tRunClk) (fun t => t.clk.failed = 1 && !t.safe.safe && (t.ucb .clk).held.map (·.kind) = some 2) = true ∧
      ok (.clkFail (.marked .xo32k)) (tClk tRunClk) (fun t => t.clk.failed = 8 && (t.ucb .clk).held.map (·.kind) = some 3) = true ∧
      ok (.clkFail (.marked .tcxo)) (tClk tRunClk) (fun t => t.safe.safe && t.clk.coreFrc && t.clk.sysFrc && t.clk.refInUse = 8) = true ∧
      ok (.clkFail (.marked .corePll)) (tClk { tRunClk with failed := 1 }) (fun t => t.pwr.inReset) = true ∧
      monitorArmed (tClk tRunClk) .frc = true ∧ monitorArmed (tClk tRunClk) .tcxo = true ∧ monitorArmed (tClk tRunClk) .src = true ∧
      ok (.clkFail (.compared true true false)) (tClk tRunClk) (fun t => t.clk.failed = 1) = true ∧
      ok (.clkFail (.compared true false true)) (tClk tRunClk) (fun t => t.clk.failed = 4 && t.clk.refInUse = 8) = true ∧
      ok (.clkFail (.compared true false true)) (tClk { tRunClk with failed := 1 }) (fun t => t.pwr.inReset) = true ∧
      ok (.clkFail (.compared false true true)) (tClk tRunClk) (fun t => t.clk.failed = 2) = true ∧
      ok (.clkFail (.compared true false false)) (tClk tRunClk) (fun t => t = tClk tRunClk) = true ∧
      ok .referenceQualified (withRegs (tClk { tRunClk with change := some { target := 1, slewing := false, back := false } }) [(.clk, 0x104, 0x640101)])
        (fun t => t.clk.change.map (·.slewing) = some true && t.clk.refInUse = 1) = true ∧
      ok .referenceQualified (withRegs (tClk { tRunClk with fallenBack := true }) [(.clk, 0x104, 0x640101)])
        (fun t => t.clk.due.map (·.back) = some true) = true ∧
      ok .clockSourceChange (tClk { tRunClk with due := some { target := 1, slewing := false, back := false } })
        (fun t => t.clk.due = none && t.clk.change.map (·.target) = some 1 && (t.ucb .tick).token = some (.clockChange, 0x50)) = true ∧
      ok .refUnqual (tClk { tRunClk with change := some { target := 1, slewing := false, back := false } })
        (fun t => t.clk.refInUse = 0 && t.clk.swres.value = 0x8000000 && (t.ucb .clk).held.map (·.kind) = some 5) = true ∧
      ok .slewComplete (tClk { tRunClk with change := some { target := 1, slewing := true, back := false } })
        (fun t => t.clk.refInUse = 1 && t.clk.swres.value = 1) = true := by decide

def tRec (seq : Nat) : EvrRecord :=
  { seq, code := 0x20, source := 7, tb3 := 0, tb4Sec := 0, tb4Ns := 0, tb4Epoch := 0, csn := 0, repeats := 0, lost := 0, data := [] }

def tEvr (x : EvrState) : State := { tOpen with evr := { x with scanned := true } }

theorem witness_RecorderWritesInOrder :
    ((tEvr {}).ucb .evr).state = .run ∧ privileged 0x20 = false ∧ (bucketOf (tEvr { buckets := [(0x20, ⟨0, 3⟩)] }) 0x20).tokens = 0 ∧
      (bucketOf (tEvr {}) 0x20).tokens ≠ 0 ∧
      ok .recordWrite (tEvr { queue := [tRec 65535], rewrites := [(1, 2)], next := 65536 })
        (fun t => t.evr.queue = [] && (mapGet? 65535 t.evr.store).isSome && t.evr.rewrites = [(1, 2)]) = true ∧
      ok .recordWrite (tEvr { rewrites := [(1, 2)] }) (fun t => t.evr.rewrites = []) = true ∧
      ok (.tokenRefill 0x20) (tEvr { buckets := [(0x20, ⟨0, 3⟩)] }) (fun t => bucketOf t 0x20 = ⟨1, 3⟩) = true ∧
      (bucketOf (offer (tEvr { buckets := [(0x20, ⟨0, 0xFFFF⟩)] }) 0x20 .sys []) 0x20).suppressed = 0xFFFF ∧
      (offer (tEvr { next := 9 }) 0x20 .sys [1]).evr.queue.map (fun r => (r.seq, r.code)) = [(9, 0x20)] := by decide

/-! ### Service access, updates, supplies and resets -/

/-- A document for this module, whose serial number is the one it names. -/
def tDoc (by_ : Option Nat) (nonce purpose : Nat) : SignedDoc := { signedBy := by_, hwType := 0x9300, serial := serialNo, nonce, purpose }

def tLcs (x : LcsState) : State := { tOpen with lcs := x }

def tField : LcsState :=
  { stored := .field, ikey := some 3, fkey := some 4, challenge := some { nonce := 9, issued := 0, purpose := .service } }

theorem witness_ServiceAccessNeedsItsProof :
    (tLcs tField).pwr.inReset = false ∧ lifeCycle (tLcs tField) = .field ∧ lockoutRuns (tLcs tField) = false ∧
      responseRefused (tLcs tField) = false ∧ responseOk (tLcs tField) (tDoc (some 4) 9 1) = true ∧
      responseOk (tLcs tField) (tDoc (some 4) 8 1) = false ∧ docOk (tDoc (some 3) 0 0) (tLcs tField).lcs.ikey = true ∧
      docOk (tDoc (some 4) 0 0) (tLcs tField).lcs.ikey = false ∧ intrusiveOpen (tLcs { stored := .integration }) = true ∧
      ok (.challenge false 5) (tLcs tField) (fun t => t.lcs.challenge.map (·.nonce) = some 5) = true ∧
      ok .lockoutExpiry (tLcs { tField with lockoutEnd := 7, fails := 3 }) (fun t => t.lcs.lockoutEnd = 0 && t.lcs.fails = 3) = true ∧
      ok .debugIntrusive (tLcs { stored := .integration }) (fun t => t.safe.safe && t.lcs.intrusive && t.lcs.sessions = 1) = true := by
  refine ⟨by decide, by decide, by decide, by decide, ?_, ?_, ?_, ?_, by decide, by decide, by decide, by decide⟩ <;>
    simp [responseOk, docOk, tDoc, tLcs, tField, tOpen, withUcb, State.setUcb, tMod, atCtx, State.tb3, Config.hwType]

def tHeld : State :=
  let s := tLcs { tField with challenge := some { nonce := 9, issued := 0, purpose := .returning } }
  { s with pwr := { s.pwr with hold := true, step := 5 }, bulk := [(4, 1)] }

theorem witness_ReturnErasesTheModule :
    tHeld.pwr.inReset = false ∧ lifeCycle tHeld ≠ .manufacture ∧ lifeCycle tHeld ≠ .returned ∧ tHeld.lcs.pending = false ∧
      (tHeld.ucb .lcs).token = none ∧ tHeld.pwr.hold = true ∧ vendorOk tHeld (tDoc (some 0) 9 0) = true ∧
      consentOk tHeld (some (tDoc (some 3) 0 5)) = true ∧ consentOk tHeld none = false ∧
      ok (.erasureComplete true) { tHeld with lcs := { tHeld.lcs with erasing := true } } (fun t => t.pwr.inReset && t.lcs.stored = .returned) = true ∧
      ok (.erasureComplete false) { tHeld with lcs := { tHeld.lcs with erasing := true } } (fun t => t.pwr.failed = 5 && t.lcs.stored = .field) = true := by
  refine ⟨by decide, by decide, by decide, by decide, by decide, by decide, ?_, ?_, by decide, by decide, by decide⟩ <;>
    simp [vendorOk, consentOk, docOk, tDoc, tHeld, tLcs, tField, tOpen, withUcb, State.setUcb, tMod, atCtx, State.tb3, Config.hwType,
      purposeReturn, LifeCycle.code]

def tFw : FwImage :=
  { digest := 2, hwType := 0x9300, serial := 0, version := 1, secver := 0, fmtMin := 0, fmtMax := 9, peerMin := 0, peerMax := 9, algRev := 0,
    naneost := true }

def tPkg : Package := { tPackage with hwType := 0x9300, payload := .firmware tFw }

/-- The module runs an image of slot A in FIELD; a package is delivered. -/
def tUpd (x : UpdState) : State :=
  let s := tLcs tField
  { s with upd := { x with a := { valid := true, fw := some tFw, pgm := some tImage } } }

def applying (p : Package) : State :=
  withUcb (tUpd { pkg := some p, applying := true, prepBegun := true, b := { fw := some tFw } }) .lcs
    { state := .run, gateOpen := true, busy := true, running := some (tRunning 0x90) }

theorem witness_UpdatesNeverTouchTheActiveSlot :
    (tUpd {}).pwr.inReset = false ∧ lifeCycle (tUpd {}) ≠ .returned ∧ packageReason (tUpd {}) tPkg = 0 ∧ runsNoProgram (tUpd {}) = false ∧
      packageReason (tUpd {}) { tPkg with headerOk := false } = 0x0C ∧ packageReason (tUpd {}) { tPkg with len := 0x2000001 } = 0x0A ∧
      packageReason (tUpd {}) { tPkg with signedBy := some 3 } = 0x01 ∧ applyReason (applying tPkg) tPkg = 0 ∧
      applyReason (applying { tPkg with target := 3 }) { tPkg with target := 3 } = 5 ∧
      ok (.package tPkg) (tUpd {}) (fun t => t.upd.pkg = some tPkg) = true ∧
      ok (.package { tPkg with headerOk := false }) (tUpd {})
        (fun t => t.upd.pkg = none && t.upd.reason = 0x0C && (t.ucb .lcs).held.map (fun m => (m.kind, m.address)) = some (0x20, 0x0C)) = true ∧
      ok (.commandComplete .lcs .ok 0) (applying tPkg) (fun t => t.upd.prepared && t.upd.b.valid && t.upd.a.valid && !(t.ucb .lcs).busy) = true ∧
      ok (.commandComplete .lcs .ok 0) (applying { tPkg with target := 3 }) (fun t => !t.upd.prepared && t.upd.reason = 5 && t.upd.a.valid) = true ∧
      ok .trialExpired (tUpd { trial := true, trialLeft := 1 }) (fun t => t.safe.safe && t.upd.fallbackAt = some 10000000) = true := by decide

theorem witness_SupplyStrapsAndTemperature :
    tOpen.pwr.pf = false ∧ (BitVec.setWidth 32 (3 : BitVec 13)) ≠ tOpen.pwr.strap ∧ tOpen.pwr.strapChanged = false ∧
      ok .pfWarn tOpen (fun t => t.pwr.pf && t.pwr.pfCount = 1 && (t.ucb .pwr).held.map (·.kind) = some 1) = true ∧
      ok .powerReturn { tOpen with pwr := { tOpen.pwr with pf := true } } (fun t => !t.pwr.pf) = true ∧
      ok (.strapChanged 3) tOpen (fun t => t.pwr.strapChanged && t.pwr.strapNow = 3 && (t.ucb .pwr).held.map (·.kind) = some 2) = true ∧
      ok (.tempHigh 951) tOpen (fun t => t.pwr.temp = 951 && (t.ucb .pwr).held.map (·.kind) = some 3) = true ∧
      ok (.tempCrit 1051) tOpen (fun t => t.safe.safe && t.pwr.tempMax = 1051) = true := by decide

def tSince (now : Nat) : State :=
  { tOpen with pwr := { tOpen.pwr with safeSince := some (5, 1) }, time := { tOpen.time with now } }

theorem witness_EveryResetCauseResets :
    tOpen.pwr.inReset = false ∧ tOpen.upd.trial = false ∧ tOpen.pwr.step = 9 ∧ pwrAuto (tSince 0) < 3 ∧ (tSince 0).lcs.sessions = 0 ∧
      ok (.resetEntry .debug) tOpen (fun t => t.pwr.inReset && t.pwr.cause = 8 && t.ucbs = [] && t.prog.image = none) = true ∧
      ok (.externalReset 10) tOpen (fun t => t.pwr.inReset && t.pwr.cause = 6) = true ∧ ok (.externalReset 1) tOpen (fun t => !t.pwr.inReset) = true ∧
      ok .presenceOpen tOpen (fun t => t.pwr.cause = 7) = true ∧ ok .brownout tOpen (fun t => t.pwr.cause = 3) = true ∧
      ok .watchdog tOpen (fun t => t.pwr.cause = 5) = true ∧
      ok .watchdog { tOpen with pwr := { tOpen.pwr with step := 8 } } (fun t => !t.pwr.inReset) = true ∧
      ok .shutdown tOpen (fun t => t.pwr.cause = 2) = true ∧
      ok .safeRestart (tSince 1000000005) (fun t => t.pwr.cause = 0xA && t.pwr.autoEnds.length = 1) = true ∧
      ok .safeRestart (tSince 1000000004) (fun t => !t.pwr.inReset) = true := by decide

/-! ### Cards and the start -/

/-- Lane A's timed context waits for a word of the card in slot 0, at `addr`. -/
def tWaits (addr : Nat) (record : List Byte := []) : State :=
  let s := tCard
  { s with laneA := { current := some .timed, timed := cWait (.urd 3 addr none) }
           hlk := { s.hlk with heldRead := some { addr, write := none, by_ := .program .a .timed },
                               cards := if record = [] then s.hlk.cards else [(0, { inUnit := true, present := true, record })] } }

/-- A record whose sub-unit 0 has a MEMORY region at offset 0. -/
def memRecord : List Byte := List.replicate 0x28 0 ++ [2] ++ List.replicate 215 0

def regAddr : Nat := baseOf (.card 0 0) + 0x400

def cardWord (error : Bool := false) : CardData := { word := 77, block := List.replicate 8 0, side := 0, error }

def lockedCard : State :=
  { tCard with hlk := { tCard.hlk with links := [(0, { up := true, locked := true })], lockedSlot := some 0 } }

theorem witness_BridgeCarriesOneReadAtATime :
    cardRegion regAddr = some (0, 0, 1) ∧ isMemory (tWaits regAddr) 0 0 1 = false ∧ isMemory (tWaits (baseOf (.card 0 0) + 0x100) memRecord) 0 0 0 = true ∧
      cardRegion (baseOf (.card 0 0) + 0x100) = some (0, 0, 0) ∧ hlkUp tCard 0 = true ∧ (tCard.card 0).present = true ∧ outstanding tCard.hlk = 0 ∧
      (tCard.link 0).locked = false ∧ (lockedCard.link 0).locked = true ∧ cardReachable tCard 0 = true ∧ heldOn tCard 0 = false ∧
      cardEnds tCard 0 = [0, 0] ∧
      ok (.cardReadCompletion (cardWord)) (tWaits regAddr) (fun t => t.laneA.timed.wait = .urd 3 regAddr (some (77, true)) && t.hlk.heldRead = none) = true ∧
      ok (.cardReadCompletion (cardWord)) (tWaits (baseOf (.card 0 0) + 0x100) memRecord) (fun t => t.hlk.prefetch.map (·.slot) = [0]) = true ∧
      ok (.cardReadCompletion (cardWord true)) (tWaits regAddr)
        (fun t => t.laneA.timed.wait = .urd 3 regAddr (some (0, false)) && (t.ucb .voter).held.map (·.kind) = some 0xF4) = true ∧
      ok .readTimeout (tWaits regAddr) (fun t => t.hlk.readTo = 1 && (t.ucb .hlk).held.map (·.kind) = some 6) = true ∧
      ok (.cardRequest 0 0 (.image [5])) tCard (fun t => (t.card 0).image = [5]) = true ∧
      ok (.cardRequest 0 0 (.mailboxWrite 65535 [7])) tCard (fun t => Memory.readByte (t.card 0).mailbox 65535 = 7) = true ∧
      ok (.cardRequest 0 0 (.image [5])) lockedCard (fun t => t.hlk.retry = 1 && (t.card 0).image = []) = true ∧
      ok (.lockedSequence 0) tCard (fun t => t.hlk.lockedSlot = some 0 && (t.link 0).locked && !(t.link 1).locked) = true ∧
      ok .lockTimeout lockedCard (fun t => t.hlk.lockedSlot = none && !(t.link 0).locked && t.hlk.lockTo = 1) = true := by decide

/-- 252 zero bytes and their CRC-32. -/
def goodRecord : List Byte := List.replicate 252 0 ++ bytesLE 4 0xa66359f1

def rescanning : State := { tOpen with hlk := { rescan := some { slots := [7], ok := 0 } } }

theorem test_record_crc : recordOk goodRecord = true ∧ recByte goodRecord 1 = 0 := by decide +kernel

set_option maxRecDepth 20000 in
theorem witness_CardsComeAndGo :
    inTree tCard (.card 0 0) = true ∧ cardReachable tCard 0 = true ∧ cardMembers tCard 0 = [] ∧ hlkUp tCard 0 = true ∧
      (tOpen.card 7).present = false ∧ ((withUcb tOpen (.link 0) { state := .run }).ucb (.link 0)).state = .run ∧ Legal tOpen .safety .hlk 0x80 7 ∧
      (rescanning.card 7).inUnit = false ∧ rescanning.pwr.step = 9 ∧ recordOk [] = false ∧
      ok (.statusPacket 0 0 (.state .run)) tCard (fun t => (t.ucb (.card 0 0)).state = .run) = true ∧
      ok (.statusPacket 0 0 (.done 0 5)) (withUcb tCard (.card 0 0) { busy := true, running := some (tRunning 2) }) (fun t => !(t.ucb (.card 0 0)).busy) = true ∧
      ok (.statusPacket 0 0 (.fault 9 12 1 4)) tCard (fun t => (t.ucb (.card 0 0)).held.map (fun m => (m.kind, m.cls, m.level)) = some (9, 12, 1)) = true ∧
      ok (.hlkLinkDown 0) tCard (fun t => !hlkUp t 0 && decide (Resource.port (.hlk 0) ∈ t.place.lost)) = true ∧
      ok (.hollyhockLinkUp 0) (withUcb tOpen (.link 0) { state := .run }) (fun t => hlkUp t 0) = true ∧
      ok (.cardAbsent 0) tCard (fun t => !(t.card 0).present && (t.card 0).lost && decide (Resource.card 0 ∈ t.place.lost) && (t.ucb .hlk).held.map (·.kind) = some 2) = true ∧
      ok (.cardPresence 7) tOpen (fun t => (t.card 7).line && t.hlk.rescan.map (·.slots) = some [7]) = true ∧
      ok (.rescan .safety 7) tOpen (fun t => (t.ucb .hlk).busy && t.hlk.rescan.map (·.slots) = some [7]) = true ∧
      ok (.idmReadComplete 7 []) rescanning (fun t => !(t.card 7).inUnit && (t.ucb .hlk).held.map (·.kind) = some 3) = true := by
  unfold Legal; decide

theorem test_new_card_joins : ok (.idmReadComplete 7 goodRecord) rescanning (fun t => (t.card 7).inUnit && (t.card 7).valid && t.hlk.rescan = none) = true := by
  decide +kernel

def tStart (k : Nat) : State :=
  { State.reset with pwr := { State.reset.pwr with inReset := false, step := k }, prog := { image := some tImage } }

def tPeer : PeerIdentity :=
  { hwType := 0x9300, slot := 1, fwVersion := 1, peerMin := 0, peerMax := 9, fmtMin := 0, fmtMax := 9, image := 1, set := 0, running := true,
    claim := 0x8000 }

set_option maxRecDepth 20000 in
theorem witness_StartStepsFollowEachOther :
    State.reset.pwr.inReset = true ∧ startAt (tStart 2) 2 = true ∧ startAt (tStart 3) 3 = true ∧ startAt (tStart 7) 7 = true ∧
      backplaneOk (tStart 4) [] = false ∧ (tStart 7).pair.peerUp = false ∧
      resyncReady { tStart 7 with pair := { state := .handshake } } = true ∧
      ok (.resetRelease 0x100 0x100 0x100 0 0 0 5) State.reset
        (fun t => t.pwr.step = 2 && !t.pwr.inReset && t.pwr.strap = 0x100 && (t.ucb .evr).state = .run && (t.ucb .tick).state = .quiesced && (t.card 2).line) = true ∧
      ok (.resetRelease 0x100 0 0x100 0 0x100 0 5) State.reset (fun t => t.pwr.inReset) = true ∧
      ok (.oscWaitExpiry .tcxo) (tStart 2) (fun t => t.clk.oscReady = 4) = true ∧
      ok .pllLock { tStart 2 with clk := { oscReady := 4 } } (fun t => t.clk.armed && !t.clk.linkStop && (t.ucb .time).state = .run) = true ∧
      ok .recorderScan { tStart 2 with clk := { oscReady := 4, armed := true } } (fun t => t.pwr.step = 3 && t.evr.scanned && (t.ucb (.lane .b)).state = .maint) = true ∧
      foxFailed [(1, foxExpected 1), (2, [])] = some 2 ∧
      ok (.foxgloveTestEnd [(1, foxExpected 1), (2, [])] (true, true, true)) { tStart 3 with voter := { foxRun := true } } (fun t => t.pwr.failed = 3 && t.voter.halted) = true ∧
      ok (.idmReadComplete 32 []) { tStart 4 with hlk := { rescan := some { slots := [1], ok := 0 } } } (fun t => t.pwr.failed = 4) = true ∧
      ok (.placementMapComplete true 5) { tStart 6 with place := { computing := true } } (fun t => t.pwr.failed = 6) = true ∧
      ok .beaconWaitTimeout (tStart 7) (fun t => t.pwr.step = 8 && t.safe.btest.map (·.startUp) = some true) = true ∧
      ok (.partnerResync tPeer) { tStart 7 with pair := { state := .handshake } } (fun t => t.pwr.step = 8 && t.pair.sync.valid) = true ∧
      ok .startStepTimeout (tStart 8) (fun t => t.pwr.failed = 8 && t.pwr.reason = 2 && t.safe.openA && !t.safe.bk0.drv) = true := by decide

/-- Every injection flags what Table VOTE-7 expects; a lane may still fail its own test. -/
def allSeen : List (Nat × List FoxFlag) := (List.range 399).map fun k => (k + 1, foxExpected (k + 1))

theorem test_foxglove_passes : foxFailed allSeen = none := by decide +kernel

theorem witness_foxglove :
    ok (.foxgloveTestEnd allSeen (true, true, true)) { tStart 3 with voter := { foxRun := true } }
        (fun t => t.pwr.step = 4 && t.voter.fox.value = 2 ^ 28 + 399 && t.laneC.bist) = true ∧
      ok (.foxgloveTestEnd allSeen (true, false, true)) { tStart 3 with voter := { foxRun := true } }
        (fun t => t.pwr.failed = 3 && !t.laneB.bist) = true := by decide +kernel

/-- A program of one instance and no data: the map set of step 6 is found. -/
theorem test_start_finds_a_map_set :
    ok (.placementMapComplete false 5) { tStart 6 with prog := { image := some { tImage with main := {} } }, place := { computing := true } }
      (fun t => t.pwr.step = 7 && !t.place.computing) = true := by decide +kernel

/-- A backplane record that names this processor slot in its place for processor 1. -/
theorem test_backplane_record : ok (.idmReadComplete 32 goodRecord) { tStart 4 with hlk := { rescan := some { slots := [1], ok := 0 } } }
    (fun t => t.hlk.bpOk && t.pwr.failed = 0 && t.pwr.step = 4) = true := by decide +kernel

/-! ### The pair, the voter and the lanes -/

/-- An active module whose standby is synced. -/
def tPair (x : PairPart) : State := { tOpen with pair := { x with link0 := true, link1 := true, peerUp := true } }

def activeSynced : State := tPair { role := .active, state := .synced }
def standbySynced : State := tPair { role := .standby, state := .synced }

def weak (c : W16) : Beacon := { tBeacon with claim := c, state := 5 }

theorem witness_PairFollowsTheBeacons :
    splUp activeSynced 0 = true ∧ splUp tOpen 0 = false ∧ activeSynced.pair.finalSent = false ∧ running standbySynced = true ∧
      leavesSync standbySynced.pair.peerState 5 = none ∧ activeSynced.pair.peerUp = true ∧ activeSynced.clk.linkStop = false ∧ splUp tOpen 1 = false ∧ Resource.partner ∉ activeSynced.place.lost ∧
      ok (.beacon 0 tBeacon 5) tOpen (fun t => t = tOpen) = true ∧
      ok (.beacon 0 tBeacon 5) (tPair { role := .active }) (fun t => t.pair.state = .handshake && t.pair.resyncDue && t.pair.peer = 0x8000) = true ∧
      ok (.beacon 0 { tBeacon with state := 4 } 5) activeSynced
        (fun t => t.pair.state = .handshake && decide (Resource.partner ∈ t.place.lost) && (t.ucb .pair).held.map (·.kind) = some 8) = true ∧
      ok (.beacon 0 { tBeacon with state := 5 } 5) activeSynced (fun t => t.pair.state = .synced) = true ∧
      ok (.beacon 1 (weak 0x7F00) 5) standbySynced (fun t => t.pair.takeover) = true ∧
      ok (.beacon 1 (weak 0x9F00) 5) standbySynced (fun t => t.pair.takeover) = true ∧
      ok (.beacon 1 (weak 0xA000) 5) standbySynced (fun t => !t.pair.takeover) = true ∧
      ok .beaconsAbsent standbySynced (fun t => t.pair.takeover && !t.pair.peerUp && !t.pair.link0) = true ∧
      ok .beaconsAbsent activeSynced (fun t => t.pair.state = .alone && !t.pair.link1 && decide (Resource.partner ∈ t.place.lost)) = true ∧
      ok (.sweetpeaLinkChange 1 true) tOpen (fun t => t.pair.link1 && !t.pair.link0) = true ∧
      ok (.sweetpeaLinkChange 0 false) activeSynced
        (fun t => !t.pair.link0 && t.pair.link1 && decide (Resource.port (.spl 0) ∈ t.place.lost) && (t.ucb .pair).held.map (·.kind) = some 7) = true ∧
      ok .syncTimeout (tPair { role := .active, state := .syncing })
        (fun t => t.pair.resyncDue && (t.ucb .pair).held.map (·.kind) = some 9) = true := by decide

/-- The preferred module of a pair after 30 s. -/
def tRevert : State :=
  let s := tPair { role := .standby, state := .synced, peer := 0x8000, revertSec := 30 }
  { withRegs s [(.pair, 0x104, 30)] with pwr := { s.pwr with strap := 0x20 } }

def tCopy : StateCopy :=
  { tick := 7, mark := 40, tAct := 100, gen := 3, map := 0, loss := 0, lossCard := 0, claim := 0xA000, coalesced := false, final := false,
    handover := 12, changes := [], output := [], lanePages := [(0x1000000, 5)], bulkPages := [(9, 4)], pages := 2, retentive := [],
    settings := [], units := [], composites := [], tb4Sec := 0, tb4Ns := 0, epochs := [], testAge := none, profile := none, us := 10 }

def tStation : StationDecl :=
  { index := 300, kind := .serial 1 [0], staleTicks := 0, subst := false, silence := 0 }

/-- A program that declares station 300 on a serial channel. -/
def tStations : State :=
  { activeSynced with prog := { image := some { tImage with main := { tProg with stations := [tStation] } } } }

theorem witness_StandbyTakesTheCopy :
    standbySynced.pair.role = .standby ∧ tCopy.changes = [] ∧ tCopy.units = [] ∧ tCopy.composites = [] ∧ tCopy.full = false ∧ running standbySynced = true ∧
      (tPair { role := .standby, state := .syncing }).pair.state = .syncing ∧ tCopy.claim.toNat / 2 ^ 14 ≥ 2 ∧
      tCopy.claim.toNat / 2 ^ 8 % 64 ≥ 32 ∧
      stationOf (mainProg tStations) 300 = some tStation ∧ (stationUnit tStations 0 tStation).isSome = true ∧
      (tStations.station 300).present = true ∧ tStations.voter.mode ≠ .split ∧ revertHolds tRevert = true ∧
      revertHold tRevert ≤ tRevert.pair.revertSec ∧ ok .revertDue tRevert (fun t => t.pair.revertDue) = true ∧
      ok (.stateCopy tCopy true) standbySynced
        (fun t => Memory.readByte t.bulk 9 = 4 && Memory.readByte t.laneC.mem 0x1000000 = 5 && t.voter.csn = 40 && t.voter.gen = 3 && t.pair.applied = 7) = true ∧
      ok (.stateCopy tCopy true) (tPair { role := .standby, state := .syncing }) (fun t => t.pair.handover = 12 && !t.pair.copied && t.voter.mark = 0) = true ∧
      ok (.stateCopy { tCopy with full := true, loss := 0x80000000 } true) (tPair { role := .standby, state := .syncing })
        (fun t => t.pair.copied && t.place.copyLost = lossesOf 0x80000000 0) = true ∧
      ok .copyMissing standbySynced
        (fun t => t.pair.missing = 1 && !t.pair.takeover && (t.ucb .pair).held.map (·.kind) = some 2) = true ∧
      ok (.stateCopy tCopy false) (tPair { role := .standby, state := .synced, missing := 1 })
        (fun t => t.pair.missing = 2 && t.pair.takeover) = true ∧
      ok (.copyAcknowledged { tick := 7 }) (tPair { role := .active, state := .synced, sent := some { tick := 7, kib := 4, started := 0 } })
        (fun t => t.pair.sent = none && t.pair.applied = 7) = true ∧
      ok (.stationLost 300) tStations (fun t => !(t.station 300).present && (t.ucb .pair).held.map (·.kind) = some 0xA) = true := by decide

def rec0 (v : Nat) : EffectRec := { kind := 0, size := 0, last := false, safety := false, tag := .good, addr := 5, beats := [v], ctx := .timed }

def tVote (a b c : List EffectRec) : State :=
  { tOpen with laneA := { queue := a }, laneB := { queue := b }, laneC := { queue := c } }

theorem witness_TheVoterPassesWhatTheLanesAgreeOn :
    (tVote [] [] []).voter.halted = false ∧ (tVote [] [] []).voter.mode = .triple ∧ (∀ l ∈ Lane.all, ((tVote [] [] []).lane l).role = .voting) ∧
      (tVote [] [] []).voter.fenced = [] ∧ (tVote [] [] []).voter.latentDue = [] ∧ (∀ l ∈ Lane.all, ((tVote [] [] []).lane l).spill = []) ∧
      (∀ l ∈ Lane.all, ∀ k ∈ [CtxKind.safety, .timed, .skip, .free], (((tVote [] [] []).lane l).ctx k).wait ≠ .emit) ∧
      sameRecord (rec0 1) (rec0 1) = true ∧ sameRecord (rec0 1) (rec0 2) = false ∧ sameRecord (rec0 2) (rec0 3) = false ∧
      sameRecord (rec0 3) (rec0 1) = false ∧
      ok (.voteDecision none none) (tVote [rec0 1] [rec0 1] [rec0 1])
        (fun t => Memory.readByte t.bulk (bulkKey 0 5) = 1 && t.voter.csn = 1 && t.laneA.queue = [] && t.laneC.queue = []) = true ∧
      ok (.voteDecision none none) (tVote [rec0 1] [rec0 2] [rec0 1])
        (fun t => Memory.readByte t.bulk (bulkKey 0 5) = 1 && t.laneB.role = .fenced && t.laneB.dis = 1 && t.laneB.queue = [] && t.voter.fenced = [.b]
          && (t.ucb (.lane .b)).held.map (·.kind) = some 1) = true ∧
      ok (.late .a) (tVote [] [rec0 1] [rec0 1])
        (fun t => Memory.readByte t.bulk (bulkKey 0 5) = 1 && t.laneA.role = .fenced && (t.ucb (.lane .a)).held.map (·.kind) = some 2) = true ∧
      ok (.voteDecision none none) (tVote [rec0 1] [rec0 2] [rec0 3])
        (fun t => t.safe.safe && t.braked && t.voter.halted && t.voter.csn = 0 && t.laneA.queue = [rec0 1]) = true := by decide

def tRejoin (r : Rejoin) (n : Nat := 5) : State :=
  withUcb { tOpen with voter := { mode := .pair, out := some r.lane, rejoin := some r }, tick := { tOpen.tick with n } } (.lane r.lane)
    { state := .quiesced, gateOpen := true }

def due (resync : Bool) : Rejoin := { lane := .b, resync, commanded := false, pages := [1, 2] }

theorem witness_LanesLeaveAndReturn :
    (tRejoin (due false)).voter.mode = .pair ∧ ((tRejoin (due false)).ucb (.lane .b)).state = .quiesced ∧
      tokensFree (tRejoin (due false)) .splitJoin = true ∧ (tRejoin (due false)).voter.change = none ∧ (tRejoin (due true)).voter.out = some .b ∧
      (due false).copying = false ∧ (due false).recopy = false ∧ (due false).ready = false ∧ tOpen.voter.mode = .triple ∧
      (tOpen.lane .c).role = .voting ∧
      ok (.scrub { lane := some .c, near := false, corrected := true, address := 64 }) tOpen
        (fun t => t.laneC.corrected = 1 && t.laneC.role = .voting && (t.ucb (.lane .c)).held.map (·.kind) = some 0xA) = true ∧
      ok (.scrub { lane := none, near := false, corrected := true, address := 64 }) tOpen (fun t => (t.ucb .voter).held.map (·.kind) = some 0xA) = true ∧
      ok (.scrub { lane := some .c, near := true, corrected := false, address := 64 }) tOpen
        (fun t => t.laneC.uncorrected = 1 && t.laneC.role = .fenced && (t.ucb (.lane .c)).held.map (·.kind) = some 0xB) = true ∧
      ok (.scrub { lane := none, near := false, corrected := false, address := 64 }) tOpen (fun t => t.safe.safe && t.braked) = true ∧
      ok (.rejoin .b) (tRejoin (due false))
        (fun t => t.laneB.role = .rejoining && (t.ucb (.lane .b)).state = .maint && t.voter.rejoin.map (fun r => (r.copying, r.kibLeft)) = some (true, 16640)
          && (t.ucb .pair).token = some (.splitJoin, 3)) = true ∧
      ok (.latentResync .b) (tRejoin (due true)) (fun t => t.laneB.role = .resync && t.voter.rejoin.map (·.kibLeft) = some 8) = true ∧
      ok (.rejoinCopyComplete false) (tRejoin { due false with copying := true })
        (fun t => t.voter.rejoin.map (fun r => (r.copying, r.recopy)) = some (false, true)) = true ∧
      ok (.rejoinCopyComplete true) (tRejoin { due false with copying := true })
        (fun t => t.laneB.role = .excluded && (t.ucb (.lane .b)).state = .fault && t.voter.rejoin = none) = true ∧
      ok .rejoinFail (tRejoin { due false with since := some 1 } 257) (fun t => (t.ucb (.lane .b)).state = .fault) = true ∧
      ok .rejoinFail (tRejoin { due false with since := some 1 } 256) (fun t => (t.ucb (.lane .b)).state = .quiesced && t.voter.rejoin.isSome) = true := by
  decide

/-! ### Ticks, faults, mode commands, placement and updates -/

/-- A tick under way in which lane B has safety instance 2 still to run. -/
def tWindow (busy : Bool := false) : State :=
  let x : LaneCtx := { busy, inst := 2, todo := if busy then [] else [(0, 2)] }
  { tMod with laneB := { safety := x } }

def tGuarded : State := { tMod with tick := { tMod.tick with phase := 3, n := 41 } }

set_option maxRecDepth 20000 in
theorem witness_TicksRunThroughTheirPhases :
    boundariesRun tGuarded = true ∧ guardDue tGuarded = false ∧ tGuarded.tick.begun = true ∧ tGuarded.tick.rephaseDue = false ∧
      tGuarded.pair.role ≠ .standby ∧ dueReset (tGuarded.at_ 900) = none ∧
      dueReset ({ tGuarded with pwr := { tGuarded.pwr with resetDue := some .command } } : State) = some .command ∧
      guardDue tMod = true ∧ programRuns (tWindow) = true ∧ guardDue (tWindow) = true ∧ Lane.b ∈ runSet (tWindow) ∧
      ((tWindow).lane .b).safety.busy = false ∧ ((tWindow).lane .b).safety.todo = [(0, (2 : W16).toNat)] ∧
      ((tWindow).lane .b).current ≠ some .safety ∧ ((tWindow).lane .b).stops = [] ∧
      leadCount (tWindow) .b ≤ ((tWindow).lane .b).total ∧ tGuarded.tick.guardOpen = false ∧ (∀ l ∈ Lane.all, (tMod.lane l).stops = [] ∧ leadCount tMod l ≤ (tMod.lane l).total) ∧
      ok (.boundary 900 0 0) tGuarded (fun t => t.tick.n = 42 && t.tick.time = 1000000 && t.tick.begun && t.tick.phase = 1 && t.laneA.timed.busy && t.laneA.timed.inst = 0) = true ∧
      ok (.boundary 900 0 0) { tGuarded with pwr := { tGuarded.pwr with resetDue := some .command } } (fun t => t.pwr.inReset) = true ∧
      ok (.guardStart 900) tMod (fun t => t.tick.phase = 3 && t.laneA.current = none && !t.tick.guardOpen) = true ∧
      ok (.guardStart 900) tGuarded (fun t => t = tGuarded) = true ∧
      ok (.safetyWindowStart 2) (tWindow) (fun t => t.laneB.current = some .safety && t.laneB.safety.busy && t.laneB.safety.inst = 2) = true ∧
      ok (.safetyWindowStart 3) (tWindow) (fun t => t.laneB.current = none) = true ∧
      ok (.windowOver 2) (tWindow true)
        (fun t => t.place.overLast = 2 && t.place.overCount = 1 && (t.ucb .place).held.map (·.kind) = some 4) = true ∧
      ok (.windowOver 2) (tWindow) (fun t => t.place.overLast = 2) = true ∧
      ok (.windowOver 3) (tWindow true) (fun t => t = tWindow true) = true := by decide

theorem witness_missed_and_late_boundaries :
    tOpen.pwr.step = 9 ∧ tOpen.pwr.failed = 0 ∧
      ok (.boundaryMissed 900) tOpen (fun t => t.safe.safe && t.braked && t.tick.stopCause = 3 && t.tick.stopTask = 0 && (t.ucb .tick).held.map (·.kind) = some 5) = true ∧
      ((noteLate { tOpen with tick := { tOpen.tick with align := .aligned } } 1001 0).ucb .tick).held.map (·.kind) = some 4 ∧
      ((noteLate { tOpen with tick := { tOpen.tick with align := .aligned } } 1000 0).ucb .tick).held = none := by decide

def msg (level : Nat) : FaultMsg := { source := handleOf (.can 0), kind := 3, cls := 5, level, address := 9 }
def tFault (level : Nat) : State := withUcb tOpen (.can 0) { state := .run, gateOpen := true, held := some (msg level) }

def tReact (restart : Bool) : State :=
  let w : ReactWindow := { subject := uOff, primary := 3, openedAt := 0, endsAt := 10, restart, prevRun := true, image := [], closing := false, cls := 5 }
  { withUcb tOpen uOff { state := .off, prev := .run, forced := true } with
    flt := { windows := [w] }, time := { tOpen.time with now := 10 } }

def tInject : State :=
  { withUcb tOpen .flt { state := .run, gateOpen := true, busy := true, running := some (tRunning 0x81) } with
    flt := { inject := some { checker := 0x10, arg := 0x100000 } } }

def tAcks : State := { tOpen with flt := { unack := [(5, 0), (6, 1)] } }

theorem witness_FaultsAreClassifiedAndAnswered :
    ((tFault 0).ucb (.can 0)).held = some (msg 0) ∧ firstSender (tFault 0) (.can 0) = .can 0 ∧ firstSender (tFault 4) (.can 0) = .can 0 ∧ (tFault 0).flt.windows = [] ∧ (countRule ((tFault 0).at_ 7) (handleOf (.can 0))).1 = 0 ∧
      mapGet? 5 (tFault 0).flt.unack = none ∧ ((tFault 0).ucb (.can 0)).waiting = [] ∧ (tOpen.ucb .flt).running = none ∧
      (tOpen.ucb .flt).busy = false ∧ Legal tAcks .safety .flt 0x80 5 ∧ Legal tAcks .safety .flt 0x80 31 ∧
      Legal tOpen .safety .flt 0x81 0x100000 ∧
      checkerOf 0x10 = some (.ecc (.lane .a)) ∧ masked tOpen (.lane .a) = false ∧ (tOpen.ucb (.lane .a)).held = none ∧
      tInject.flt.inject.isSome = true ∧ (tInject.ucb .flt).running = some (tRunning 0x81) ∧
      degradeLimit { tOpen with safe := { degradeFrom := some 0, degradeTime := 28800 } } ≤ 28800 ∧
      plainUnit uOff = true ∧ (tReact true).tb3 = 10 ∧ ((tReact true).ucb uOff).token = none ∧ ((tReact true).ucb uOff).busy = false ∧
      ok (.faultMessage (.can 0) 7) (tFault 0)
        (fun t => t.flt.seq = 1 && (t.ucb (.can 0)).held = none && t.flt.history.map (fun e => (e.msg, e.reaction)) = [(msg 0, .log)]
          && mapGet? 5 t.flt.unack = some 0) = true ∧
      ok (.faultMessage (.can 0) 7) (tFault 4) (fun t => t.safe.safe && t.braked && t.flt.seq = 1) = true ∧
      ok (.ack .safety 5) tAcks (fun t => t.flt.unack = [(6, 1)] && (t.ucb .flt).result.valid) = true ∧
      ok (.ack .safety 31) tAcks (fun t => t.flt.unack = []) = true ∧
      ok (.inject .safety 0x100000) tOpen
        (fun t => t.flt.inject.isSome && t.laneA.corrected = 1 && (t.ucb .flt).busy
          && (t.ucb (.lane .a)).held.map (fun m => (m.kind, m.injected)) = some (0xA, true)) = true ∧
      ok .injectMissed tInject (fun t => t.flt.inject = none && t.safe.safe && !(t.ucb .flt).busy) = true ∧
      ok .degradeExpired { tOpen with safe := { degradeFrom := some 0, degradeTime := 28800 } }
        (fun t => t.safe.safe && t.safe.cause = ⟨6, 0xD, 2, 3⟩) = true ∧
      ok (.unitResetRestart uOff) (tReact true) (fun t => (t.ucb uOff).state = .run && t.flt.windows.map (·.closing) = [true]) = true ∧
      ok (.reactionWindowClose uOff) (tReact false) (fun t => t.flt.windows = []) = true := by
  unfold Legal; decide

/-- Lane B is out by an EXCLUDE command and rests. -/
def tPlanned : State :=
  withUcb { tOpen with voter := { mode := .pair, out := some .b, planned := true } } (.lane .b) { state := .quiesced, gateOpen := true }

def tSplitable : State := { tOpen with prog := { image := some { tImage with split := some (tProg, tProg, tProg) } } }
def tSplit : State := { tOpen with voter := { mode := .split } }
def tLinked : State := tPair { role := .active, state := .linked, sync := { valid := true, value := 5 * 2 ^ 20 } }
def tOffBus : State := tCan { act := 2, state := 2 }

theorem witness_ModeCommandsTakeEffectAtABoundary :
    Legal tOpen .safety .tick 0x80 0 ∧ Legal tOpen .safety .tick 0x80 1 ∧ Legal tOpen .safety .voter 0x80 2 ∧
      Legal tPlanned .safety .voter 0x81 1 ∧ tPlanned.voter.planned = true ∧ Legal tSplitable .safety .voter 0x82 0 ∧
      Legal tSplit .module .voter 0x83 1 ∧ Legal tSplit .safety .voter 0x84 0 ∧ Legal activeSynced .safety .pair 0x80 0 ∧
      Legal tLinked .safety .pair 0x81 0 ∧ Legal standbySynced .safety .pair 0x82 0 ∧ (standbySynced.ucb .pair).running = none ∧
      (standbySynced.ucb .pair).busy = false ∧ Legal tOffBus .safety (.can 0) 0x80 0 ∧ (tOffBus.ucb (.can 0)).running = none ∧
      (tOffBus.ucb (.can 0)).busy = false ∧ Legal tOpen .safety .pwr 0x80 0 ∧
      ok (.restart .safety 1) tOpen (fun t => t.tick.restart = some true && (t.ucb .tick).busy) = true ∧
      ok (.exclude .safety 2) tOpen (fun t => t.voter.change = some (.exclude .c) && (t.ucb .place).token = some (.splitJoin, 3)) = true ∧
      ok (.join .safety 1) tPlanned (fun t => t.voter.rejoin.map (·.commanded) = some true && (t.ucb (.lane .b)).state = .test) = true ∧
      ok (.split .safety 0) tSplitable (fun t => t.voter.change = some .split && t.voter.mode = .triple && (t.ucb .voter).busy) = true ∧
      ok (.merge .module 1) tSplit (fun t => t.voter.change = some (.merge true)) = true ∧
      ok (.foxglove .safety 0) tSplit (fun t => t.voter.foxDue && (t.ucb .evr).token = some (.foxglove, 3)) = true ∧
      ok (.switchover .safety 0) activeSynced (fun t => (t.ucb .pair).busy && t.pair = activeSynced.pair) = true ∧
      ok (.resync .safety 0) tLinked (fun t => t.pair.state = .handshake && t.pair.resyncDue && (t.ucb .place).token = some (.partnerResync, 4)) = true ∧
      ok (.detach .safety 0) standbySynced (fun t => t.pair.state = .linked && (t.ucb .pair).result.valid) = true ∧
      ok (.recover .safety 0 0) tOffBus (fun t => (t.can 0).state = 3 && (t.ucb (.can 0)).result.valid) = true ∧
      ok (.moduleReset .safety 0) tOpen (fun t => t.pwr.resetDue = some .command && (t.ucb .pwr).busy) = true := by
  unfold Legal; decide

def noProfile : ProfileSet := { insts := [], items := [], tasks := [], digest := 0 }
def tPlace (x : PlaceState) (running : Option Running := none) : State :=
  withUcb { tOpen with place := x } .place { state := .run, gateOpen := true, busy := running.isSome, running }

def capturing : State := tPlace { capturing := some 3, ticks := 3 } (some (tRunning 0x82))
/-- A capture whose command no longer runs. -/
def stoppable : State := tPlace { capturing := some 3, ticks := 2 }

def captured : State := tPlace { captured := some noProfile }
def migrating : State :=
  { tPlace { map := some tMap, set := [tMap], rebalance := some { since := some 1 }, migrating := true } (some (tRunning 0x80)) with
    tick := { tOpen.tick with n := 65 } }
def combined : State := tPlace { map := some tMap, set := [tMap], lost := [.partner, .card 3], combined := true, computing := true }
def healthy (n : Nat) : State := withRegs (tPlace { lost := [.card 3], returning := [(.card 3, n)] }) [(.place, 0x108, 8)]

set_option maxRecDepth 20000 in
theorem witness_PlacementCommandsBeginAndEnd :
    Legal tOpen .safety .place 0x80 0 ∧ Legal tOpen .safety .place 0x81 0 ∧ Legal tOpen .nonSafety .place 0x82 1 ∧
      Legal tOpen .nonSafety .place 0x83 0 ∧ Legal stoppable .nonSafety .place 0x83 0 ∧ (stoppable.ucb .place).running = none ∧
      commandCheck capturing .nonSafety .place 0x83 0 = (.busy, none) ∧ Legal captured .safety .place 0x84 0 ∧
      Legal tOpen .safety .place 0x84 1 ∧ (captured.ucb .place).running = none ∧ (capturing.ucb .place).running = some (tRunning 0x82) ∧
      migrating.place.rebalance = some { since := some 1 } ∧ 1 + 64 ≤ migrating.tick.n ∧ (migrating.ucb .place).running = some (tRunning 0x80) ∧
      combined.place.combined = true ∧ combined.place.next = none ∧ combined.place.nextSplit = [] ∧ combined.voter.mode ≠ .split ∧
      combined.place.set = [tMap] ∧ (healthy 8).regField .place 0x108 15 0 = 8 ∧ Resource.card 3 ∉ (healthy 8).place.returnNow ∧
      ok (.rebalance .safety 0) tOpen (fun t => t.place.computing && t.place.rebalance.isSome && (t.ucb .place).busy) = true ∧
      ok (.placeReturn .safety 0) (healthy 2) (fun t => t.place.returnNow = [.card 3]) = true ∧
      ok (.profileStart .nonSafety 16777215) tOpen (fun t => t.place.capturing = some 16777215) = true ∧
      ok (.profileStop .nonSafety 0) tOpen (fun t => (t.ucb .place).result.valid && !(t.ucb .place).busy) = true ∧
      ok (.profileStop .nonSafety 0) stoppable (fun t => t.place.capturing = none && t.place.ticks = 2 && (t.ucb .place).result.valid) = true ∧
      ok (.adopt .safety 0) captured (fun t => (activeSlot t.upd).profile = some noProfile && t.place.captured = none) = true ∧
      ok .migrateTimeout migrating
        (fun t => t.place.rebalance = none && !(t.ucb .place).busy && (t.ucb .place).held.map (·.kind) = some 7) = true ∧
      ok (.profileComplete noProfile) capturing (fun t => t.place.captured = some noProfile && t.place.capturing = none) = true ∧
      ok (.resourceReturn (.card 3)) (healthy 8) (fun t => t.place.returnNow = [.card 3]) = true ∧
      ok (.resourceReturn (.card 3)) (healthy 7) (fun t => t.place.returnNow = []) = true := by
  unfold Legal; decide

/-- The engine's map of a combined loss stands ready for the next boundary. -/
theorem test_combined_loss :
    combined.place.computing = true ∧ combined.pwr.inReset = false ∧ startAt combined 6 = false ∧ combined.tick.reinit = false ∧
      combined.place.rebalance = none ∧
    ok .combinedLoss combined (fun t => t.place.next.isSome && !t.place.computing && t.place.us = 0) = true ∧
      ok (.placementMapComplete true 5) combined (fun t => t.place.next.isNone && t.place.us = 5) = true := by decide +kernel

def oneChange : ChangeSet := { base := 1, lane := none, size := 100, items := [{ space := .global, inst := 0, off := 0, data := List.replicate 64 7 }] }
def tChange (base : Nat) : State := tUpd { pkg := some { tPkg with base, payload := .change { oneChange with base } } }
def prepared (version : Nat) : State := tUpd { prepared := true, prepBegun := true, b := { valid := true, fw := some { tFw with version }, pgm := some tImage } }
def trial : State := { tUpd { trial := true, trialLeft := 60 } with tick := tOpen.tick }
def service : State := { tUpd {} with lcs := { tField with service := some false, sessions := 2 } }

theorem witness_LifeCycleAndUpdateCommandsDoTheirPart :
    ((tUpd {}).ucb .lcs).running = none ∧ ((tUpd {}).ucb .lcs).busy = false ∧ Legal (tLcs { stored := .integration }) .safety .lcs 0x80 0 ∧
      Legal service .safety .lcs 0x81 0 ∧ Legal (tUpd { pkg := some tPkg }) .safety .lcs 0x90 0 ∧ Legal (prepared 1) .safety .lcs 0x91 0 ∧
      Legal (prepared 1) .safety .lcs 0x91 0x100 ∧ compatible (prepared 9) = true ∧ compatible (prepared 10) = false ∧
      activateReason (prepared 10) = 6 ∧ Legal trial .safety .lcs 0x92 0 ∧
      Legal (prepared 1) .safety .lcs 0x93 0 ∧ Legal (tChange 1) .safety .lcs 0x94 0 ∧ changeOk (tChange 1) 1 none { oneChange with base := 1 } = true ∧
      changeOk (tChange 2) 2 none { oneChange with base := 2 } = false ∧ Legal tLinked .safety .lcs 0x95 0 ∧
      ok (.lock .safety 0) (tLcs { stored := .integration, sessions := 2 }) (fun t => t.lcs.stored = .field && t.lcs.sessions = 0) = true ∧
      ok (.closeService .safety 0) service (fun t => t.lcs.service = none && t.lcs.sessions = 0) = true ∧
      ok (.apply .safety 0) (tUpd { pkg := some tPkg })
        (fun t => t.upd.applying && !t.upd.b.valid && t.upd.a.valid && (t.ucb .pair).token = some (.firmwareApply, 0x70)) = true ∧
      ok (.activate .safety 0) (prepared 9) (fun t => t.upd.pendingBoot && t.pwr.resetDue = none) = true ∧
      ok (.activate .safety 0) (prepared 10) (fun t => !t.upd.pendingBoot && t.upd.reason = 6 && (t.ucb .lcs).held.map (·.kind) = some 0x22) = true ∧
      ok (.activate .safety 0x100) (prepared 1) (fun t => t.upd.pendingBoot && t.pwr.resetDue = some .update) = true ∧
      ok (.confirm .safety 0) trial (fun t => !t.upd.trial && t.upd.trialLeft = 0) = true ∧
      ok (.abort .safety 0) (prepared 1) (fun t => !t.upd.prepared && !t.upd.b.valid && t.upd.a.valid) = true ∧
      ok (.acceptChange .safety 0) (tChange 1)
        (fun t => t.upd.pkg = none && t.prog.changesDue.length = 1 && t.upd.a.changes.length = 1 && (t.ucb .lcs).result.valid) = true ∧
      ok (.acceptChange .safety 0) (tChange 2) (fun t => t.upd.pkg.isSome && (t.ucb .lcs).held.map (·.kind) = some 0x25) = true ∧
      ok (.restartHandover .safety 0) tLinked (fun t => t.upd.handover = some 2 && t.pair.handover = 2 && (t.ucb .lcs).busy) = true := by
  unfold Legal; decide

/-! ### Invariants -/

def isNext (o : Host.Outcome State Fault Refusal) : Bool := match o with | .next _ => true | _ => false

theorem witness_TheSafeStateEndsOnlyByAReset :
    (tSafe { safe := true }).safe.safe = true ∧ (tSafe { safe := true }).pwr.inReset = false ∧
      isNext (step { tSafe { safe := true } with pending := [.btestDue] }) = true ∧
      (standby (tSafe { safe := true })).pair.role = .standby ∧
      ok (.beacon 0 (weak 0) 5) { standbySynced with safe := { safe := true } } (fun t => !t.pair.takeover) = true := by decide

/-- A stored byte, a line of a lane and a step that changes the bulk store. -/
theorem witness_EveryStepKeepsTheCanonicalForm :
    State.reset.memOk = true ∧ (tVote [rec0 1] [rec0 1] [rec0 1]).memOk = true ∧
      isNext (step { tVote [rec0 1] [rec0 1] [rec0 1] with pending := [.voteDecision none none] }) = true := by decide
end Sys2Proof.Tests
end

section
/-! SUPPORT. The module stays held, in reset or in the safe state (R308, R513): one lemma for each operation that a step can use, in
the order of the model. An operation that can bring neither leaves `held` as it is; one that can keeps it true, or makes it true. -/

namespace Sys2Proof.Machine

open Sys2Proof

/-! ### Being held, through updates, choices and repetitions -/

theorem held_iff {s : State} : s.held = true ↔ s.pwr.inReset = true ∨ s.safe.safe = true := by rw [State.held, Bool.or_eq_true]

/-- Reset and the safe state are all that counts. -/
theorem held_congr {s t : State} (hp : t.pwr.inReset = s.pwr.inReset) (hs : t.safe.safe = s.safe.safe) : t.held = s.held := by
  rw [State.held, hp, hs, State.held]

/-- With `held_fold`: an update of any other part is seen through. -/
@[simp] theorem held_mk (pending freeCount regs regsPending ucbs flt evr tick time clk lcs upd pwr safe cans net hlk laneA laneB laneC
    voter place pair prog bulk) :
    State.held ⟨pending, freeCount, regs, regsPending, ucbs, flt, evr, tick, time, clk, lcs, upd, pwr, safe, cans, net, hlk, laneA, laneB,
      laneC, voter, place, pair, prog, bulk⟩ = (pwr.inReset || safe.safe) := rfl

@[simp] theorem held_fold (s : State) : (s.pwr.inReset || s.safe.safe) = s.held := rfl

@[simp] theorem held_ite (c : Prop) [Decidable c] (s t : State) : (if c then s else t).held = if c then s.held else t.held :=
  apply_ite ..

/-- An operation that leaves `held` as it is, repeated. -/
@[simp] theorem held_foldl {α : Type} {f : State → α → State} (hf : ∀ s a, (f s a).held = s.held) (l : List α) (s : State) :
    (l.foldl f s).held = s.held := by
  induction l generalizing s with
  | nil => rfl
  | cons a l ih => rw [List.foldl_cons, ih, hf]

/-- The same where the repetition carries a second result along. -/
theorem held_foldl_fst {α β : Type} {f : State × β → α → State × β} (hf : ∀ p a, (f p a).1.held = p.1.held) (l : List α)
    (p : State × β) : (l.foldl f p).1.held = p.1.held := by
  induction l generalizing p with
  | nil => rfl
  | cons a l ih => rw [List.foldl_cons, ih, hf]

/-- An operation that keeps the module held, repeated. -/
theorem held_foldl_of {α : Type} {f : State → α → State} (hf : ∀ s a, s.held = true → (f s a).held = true) (l : List α) {s : State}
    (h : s.held = true) : (l.foldl f s).held = true := by
  induction l generalizing s with
  | nil => exact h
  | cons a l ih => exact ih (hf s a h)

theorem held_of_fst_eq {β : Type} {p : State × β} {t : State} {b : β} (h : p = (t, b)) : t.held = p.1.held := by rw [h]
theorem held_of_snd_eq {β : Type} {p : β × State} {t : State} {b : β} (h : p = (b, t)) : t.held = p.2.held := by rw [h]

/-! ### The operations that every unit shares -/

@[simp] theorem State.setLane_held (s : State) (l : Lane) (x : LaneSt) : (s.setLane l x).held = s.held := by
  simp only [State.setLane]
  split <;> simp

@[simp] theorem State.mapLanes_held (s : State) (f : Lane → LaneSt → LaneSt) : (s.mapLanes f).held = s.held := held_congr rfl rfl
@[simp] theorem State.setCan_held (s : State) (n : Fin 6) (c : CanState) : (s.setCan n c).held = s.held := held_congr rfl rfl
@[simp] theorem State.setEth_held (s : State) (x : Fin 4) (e : EthState) : (s.setEth x e).held = s.held := held_congr rfl rfl
@[simp] theorem State.setSer_held (s : State) (x : Fin 4) (e : SerState) : (s.setSer x e).held = s.held := held_congr rfl rfl
@[simp] theorem State.setCard_held (s : State) (slot : Nat) (c : CardState) : (s.setCard slot c).held = s.held := held_congr rfl rfl
@[simp] theorem State.setLink_held (s : State) (n : Nat) (k : LinkState) : (s.setLink n k).held = s.held := held_congr rfl rfl
@[simp] theorem State.free_held (s : State) : s.free.2.held = s.held := held_congr rfl rfl
@[simp] theorem State.at__held (s : State) (t : Nat) : (s.at_ t).held = s.held := held_congr rfl rfl
@[simp] theorem clockTick_held (s : State) : (clockTick s).held = s.held := by simp [clockTick]
@[simp] theorem State.setUcb_held (s : State) (u : UnitId) (f : Ucb → Ucb) : (s.setUcb u f).held = s.held := held_congr rfl rfl

@[simp] theorem State.finish_held (s : State) (u : UnitId) (code : Status) (data : Nat) : (s.finish u code data).held = s.held :=
  held_congr rfl rfl

@[simp] theorem State.begin__held (s : State) (u : UnitId) (w : Writer) (cmd arg : Nat) : (s.begin_ u w cmd arg).held = s.held :=
  held_congr rfl rfl

@[simp] theorem State.complete_held (s : State) (u : UnitId) (cmd : Nat) (code : Status) (data : Nat) :
    (s.complete u cmd code data).held = s.held := held_congr rfl rfl

@[simp] theorem State.setReg_held (s : State) (u : UnitId) (off obj : Nat) (v : W32) : (s.setReg u off obj v).held = s.held :=
  held_congr rfl rfl

@[simp] theorem State.setRegPending_held (s : State) (u : UnitId) (off obj : Nat) (v : W32) :
    (s.setRegPending u off obj v).held = s.held := held_congr rfl rfl

@[simp] theorem State.dropSettings_held (s : State) (u : UnitId) : (s.dropSettings u).held = s.held := held_congr rfl rfl

@[simp] theorem netTestEnd_held (s : State) : (netTestEnd s).held = s.held := by
  simp only [netTestEnd]
  split <;> simp

@[simp] theorem noteGroup_held (s : State) (u : UnitId) : (noteGroup s u).held = s.held := by simp [noteGroup]
@[simp] theorem noteGroups_held (s : State) : (noteGroups s).held = s.held := by simp [noteGroups]
@[simp] theorem State.unitTo_held (s : State) (u : UnitId) (t : UState) : (s.unitTo u t).held = s.held := by simp [State.unitTo]
@[simp] theorem backInRun_held (s : State) (u : UnitId) : (backInRun s u).held = s.held := held_congr rfl rfl
@[simp] theorem enqueue_held (s : State) (code source : Nat) (d : List Byte) : (enqueue s code source d).held = s.held := held_congr rfl rfl
@[simp] theorem suppress_held (s : State) (code : Nat) : (suppress s code).held = s.held := held_congr rfl rfl
@[simp] theorem mergeRecord_held (s : State) (r : EvrRecord) : (mergeRecord s r).held = s.held := held_congr rfl rfl

@[simp] theorem raiseAs_held (s : State) (u : UnitId) (kind cls level address : Nat) (exc : Option ExcInfo) (injected : Bool) :
    (raiseAs s u kind cls level address exc injected).held = s.held := by simp [raiseAs]

@[simp] theorem raise_held (s : State) (u : UnitId) (kind address : Nat) : (raise s u kind address).held = s.held := by simp [raise]
@[simp] theorem raiseOpen_held (s : State) (u : UnitId) (kind : Nat) : (raiseOpen s u kind).held = s.held := by simp [raiseOpen]

@[simp] theorem offerPrivileged_held (s : State) (code source : Nat) (d : List Byte) : (offerPrivileged s code source d).held = s.held := by
  simp only [offerPrivileged]
  split <;> simp

@[simp] theorem offerLimited_held (s : State) (code source : Nat) (d : List Byte) : (offerLimited s code source d).held = s.held := by
  simp [offerLimited]

@[simp] theorem offer_held (s : State) (code : Nat) (u : UnitId) (d : List Byte) : (offer s code u d).held = s.held := by simp [offer]

@[simp] theorem refuse_held (s : State) (u : UnitId) (code : Nat) (st : Status) (member : Option UnitId) :
    (refuse s u code st member).held = s.held := by
  unfold refuse
  (repeat' split) <;> simp

@[simp] theorem takeTokens_held (s : State) (a : Activity) (holder : UnitId) : (takeTokens s a holder).held = s.held := by simp [takeTokens]
@[simp] theorem releaseTokens_held (s : State) (a : Activity) : (releaseTokens s a).held = s.held := by simp [releaseTokens]
@[simp] theorem leaveMaint_held (s : State) (u : UnitId) : (leaveMaint s u).held = s.held := by simp [leaveMaint]

@[simp] theorem dropRejoin_held (s : State) : (dropRejoin s).held = s.held := by
  simp only [dropRejoin]
  split <;> simp

@[simp] theorem endActivity_held (s : State) (a : Activity) : (endActivity s a).held = s.held := by
  have hf : (failRunning s a).held = s.held := by
    unfold failRunning
    split <;> simp
  have hd (t : State) : (dropActivity t a).held = t.held := by cases a <;> simp [dropActivity]
  simp [endActivity_eq, hf, hd]

@[simp] theorem State.lose_held (s : State) (r : Resource) : (s.lose r).held = s.held := held_congr rfl rfl
@[simp] theorem State.healthy_held (s : State) (r : Resource) : (s.healthy r).held = s.held := by simp [State.healthy]
@[simp] theorem State.setDout_held (s : State) (m : Nat) (d : DoState) : (s.setDout m d).held = s.held := held_congr rfl rfl
@[simp] theorem commitSafe_held (s : State) (ps : List Nat) : (commitSafe s ps).held = s.held := held_congr rfl rfl
@[simp] theorem brakesOff_held (s : State) : (brakesOff s).held = s.held := held_congr rfl rfl
@[simp] theorem driveSafe_held (s : State) : (driveSafe s).held = s.held := by simp [driveSafe]
@[simp] theorem discardEmissions_held (s : State) : (discardEmissions s).held = s.held := held_congr rfl rfl

/-- Entry to the safe state holds the module (R305, R306). -/
@[simp] theorem enterSafe_held (s : State) (cause : SafeCause) : (enterSafe s cause).held = true := by
  simp [State.held, (enterSafe_safe s cause).1]

@[simp] theorem raiseSafe_held (s : State) (u : UnitId) (k a : Nat) : (raiseSafe s u k a).held = true := enterSafe_held ..
@[simp] theorem raiseSafeOpen_held (s : State) (u : UnitId) (k : Nat) : (raiseSafeOpen s u k).held = true := enterSafe_held ..
@[simp] theorem noteQueues_held (s : State) : (noteQueues s).held = s.held := held_congr rfl rfl
@[simp] theorem voterStop_held (s : State) (k a : Nat) : (voterStop s k a).held = true := raiseSafe_held ..
@[simp] theorem fenceLane_held {s : State} (l : Lane) (h : s.held = true) : (fenceLane s l).held = true := by simp [fenceLane, h]

@[simp] theorem fenceOrSafe_held {s : State} (l : Lane) (cause : SafeCause) (h : s.held = true) : (fenceOrSafe s l cause).held = true := by
  simp [fenceOrSafe, h]

@[simp] theorem laneFault_held {s : State} (l : Lane) (kind address : Nat) (h : s.held = true) :
    (laneFault s l kind address).held = true := by simp [laneFault, h]

/-! ### EVR -/

@[simp] theorem refill_held (s : State) (code : Nat) : (refill s code).held = s.held := by simp [refill]
@[simp] theorem bucketSwap_held (s : State) (code : Nat) : (bucketSwap s code).held = s.held := held_congr rfl rfl
@[simp] theorem scanRecorder_held (s : State) : (scanRecorder s).held = s.held := by simp [scanRecorder]

/-! ### Module reset -/

@[simp] theorem fallBack_held (s : State) : (fallBack s).held = s.held := by
  simp only [fallBack]
  split <;> simp

/-- Reset entry holds the module (R513). -/
@[simp] theorem enterReset_held (s : State) (cause : ResetCause) : (enterReset s cause).held = true := by
  unfold enterReset
  split
  · rename_i hr
    split <;> simp [State.held, hr]
  · simp [apply_ite State.held]

@[simp] theorem harmless_held (s : State) : (harmless s).held = s.held := by simp [harmless]

/-- A start that stops leaves the module held, also where a start on trial ends in a reset (R499). -/
@[simp] theorem stopStart_held {s : State} (step reason : Nat) (h : s.held = true) : (stopStart s step reason).held = true := by
  simp [stopStart, h]

theorem outsideReset_held {s : State} {f : State → State} (h : s.held = true) (hf : (f s).held = true) :
    (outsideReset s f).held = true := by
  simp [outsideReset, h, hf]

@[simp] theorem externalReset_held {s : State} (us : Nat) (h : s.held = true) : (externalReset s us).held = true := by
  simp [externalReset, h]

/-! ### SAFE/FIO -/

@[simp] theorem State.setBk_held (s : State) (x : Fin 2) (b : Brake) : (s.setBk x b).held = s.held := by simp [State.setBk]
@[simp] theorem State.setDi_held (s : State) (ch : Nat) (d : DiState) : (s.setDi ch d).held = s.held := held_congr rfl rfl
@[simp] theorem driveBrake_held (s : State) (x : Fin 2) (on : Bool) : (driveBrake s x on).held = s.held := by simp [driveBrake]
@[simp] theorem driveDo_held (s : State) (m : Fin 8) (on : Bool) : (driveDo s m on).held = s.held := held_congr rfl rfl

@[simp] theorem drive_held (s : State) (ch : OutCh) (on : Bool) : (drive s ch on).held = s.held := by
  simp only [drive]
  split <;> simp

@[simp] theorem bankOff_held (s : State) (brakes : Bool) : (bankOff s brakes).held = s.held := by simp [bankOff]

@[simp] theorem setReadback_held (s : State) (ch : OutCh) (high : Bool) : (setReadback s ch high).held = s.held := by
  simp only [setReadback]
  split <;> simp

@[simp] theorem holdOpen_held (s : State) (brakes : Bool) : (holdOpen s brakes).held = s.held := by simp [holdOpen]

@[simp] theorem fieldStop_held (s : State) : (fieldStop s).held = s.held := by
  simp only [fieldStop, held_mk, held_fold, bankOff_held]

@[simp] theorem fieldStart_held (s : State) : (fieldStart s).held = s.held := held_congr rfl rfl
@[simp] theorem skipPulse_held (s : State) (ch : OutCh) : (skipPulse s ch).held = s.held := by simp [skipPulse]
@[simp] theorem commitDo_held (s : State) (m : Fin 8) (v : Bool) : (commitDo s m v).held = s.held := by simp [commitDo]
@[simp] theorem watchBrake_held (s : State) (x : Fin 2) (release : Bool) : (watchBrake s x release).held = s.held := by simp [watchBrake]
@[simp] theorem commitBrake_held (s : State) (x : Fin 2) (release : Bool) : (commitBrake s x release).held = s.held := by simp [commitBrake]

@[simp] theorem roundStart_held (s : State) : (roundStart s).held = s.held := by
  simp only [roundStart]
  split <;> simp

@[simp] theorem offPulse_held (s : State) : (offPulse s).held = s.held := by simp [offPulse]
@[simp] theorem extFeed_held (s : State) (ch : OutCh) : (extFeed s ch).held = s.held := by simp [extFeed]
@[simp] theorem crossFeed_held (s : State) (ch y : OutCh) : (crossFeed s ch y).held = s.held := by simp [crossFeed]

@[simp] theorem offPulseEvaluate_held (s : State) (own : Bool) (low : List OutCh) : (offPulseEvaluate s own low).held = s.held := by
  simp only [offPulseEvaluate]
  split <;> simp

@[simp] theorem readbackCheck_held (s : State) (ch : OutCh) (high : Bool) : (readbackCheck s ch high).held = s.held := by
  simp [readbackCheck]

@[simp] theorem brakeLateFault_held {s : State} (x : Fin 2) (release : Bool) (h : s.held = true) :
    (brakeLateFault s x release).held = true := by simp [brakeLateFault, h]

@[simp] theorem brakeFeedback_held {s : State} (x : Fin 2) (level : Bool) (t : Nat) (h : s.held = true) :
    (brakeFeedback s x level t).held = true := by
  simp only [brakeFeedback]
  (repeat' split) <;> simp [h]

@[simp] theorem brakeLate_held {s : State} (x : Fin 2) (h : s.held = true) : (brakeLate s x).held = true := by
  simp only [brakeLate]
  split <;> simp [h]

@[simp] theorem beginBrakeTest_held (s : State) (elec startUp : Bool) : (beginBrakeTest s elec startUp).held = s.held := held_congr rfl rfl

@[simp] theorem endBrakeTest_held {s : State} (t : BrakeTest) (pass : Bool) (failStep : Nat) (h : s.held = true) :
    (endBrakeTest s t pass failStep).held = true := by simp [endBrakeTest, h]

@[simp] theorem recordTime_held (s : State) (phase ms : Nat) : (recordTime s phase ms).held = s.held := by
  simp only [recordTime]
  split <;> simp

@[simp] theorem phaseChange_held (s : State) (t : BrakeTest) (phase : Nat) : (phaseChange s t phase).held = s.held := by
  simp only [phaseChange]
  split <;> simp

@[simp] theorem groupFail_held (s : State) (brakes : Bool) : (groupFail s brakes).held = s.held := by simp [groupFail]

@[simp] theorem groupChecked_held (s : State) (passed : Bool) : (groupChecked s passed).held = s.held := by
  simp only [groupChecked]
  split <;> simp

@[simp] theorem brakeTestStep_held {s : State} (o : BrakeObs) (h : s.held = true) : (brakeTestStep s o).held = true := by
  simp only [brakeTestStep]
  split <;> simp [h]

@[simp] theorem btestDue_held (s : State) : (btestDue s).held = s.held := by simp [btestDue]
@[simp] theorem brakeWordMissed_held (s : State) : (brakeWordMissed s).held = s.held := by simp [brakeWordMissed]
@[simp] theorem diSettle_held (s : State) (ch : Nat) : (diSettle s ch).held = s.held := by simp [diSettle]

@[simp] theorem diEdge_held (s : State) (ch : Nat) (level : Bool) (began : Nat) : (diEdge s ch level began).held = s.held := by
  simp [diEdge]

@[simp] theorem diOvervolt_held (s : State) (ch : Nat) (active : Bool) : (diOvervolt s ch active).held = s.held := by simp [diOvervolt]
@[simp] theorem doTrip_held (s : State) (m : Fin 8) (temp : Bool) : (doTrip s m temp).held = s.held := by simp [doTrip]

/-! ### CAN -/

@[simp] theorem canLayout_held (s : State) (n : Fin 6) (fresh : Bool) : (canLayout s n fresh).held = s.held := held_congr rfl rfl
@[simp] theorem canErrState_held (s : State) (n : Fin 6) (c : CanState) : (canErrState s n c).held = s.held := by simp [canErrState]

@[simp] theorem canEnterBusOff_held (s : State) (n : Fin 6) (c : CanState) : (canEnterBusOff s n c).held = s.held := by
  simp [canEnterBusOff]

@[simp] theorem canError_held (s : State) (n : Fin 6) (lec : Nat) (dataPhase sending : Bool) (by_ : Nat) :
    (canError s n lec dataPhase sending by_).held = s.held := by simp [canError]

@[simp] theorem canException_held (s : State) (n : Fin 6) : (canException s n).held = s.held := by simp [canException]

@[simp] theorem canFrameError_held (s : State) (n : Fin 6) (e : CanErr) : (canFrameError s n e).held = s.held := by
  unfold canFrameError
  (repeat' split) <;> simp

@[simp] theorem canRecovered_held (s : State) (n : Fin 6) : (canRecovered s n).held = s.held := by simp [canRecovered]
@[simp] theorem canStage_held (s : State) (n : Fin 6) (key : Nat) (f : FrameCell) : (canStage s n key f).held = s.held := held_congr rfl rfl

@[simp] theorem canQueue_held (s : State) (n : Fin 6) (safety : Bool) (key : Nat) (f : FrameCell) :
    (canQueue s n safety key f).held = s.held := by simp [canQueue]

@[simp] theorem recDown_held (s : State) (c : CanState) : (recDown s c).1.held = s.held := by
  simp only [recDown]
  split <;> simp

@[simp] theorem canAccept_held (s : State) (n : Fin 6) (e : FilterEntry) (f : CanFrame) (t : Nat) :
    (canAccept s n e f t).held = s.held := by
  unfold canAccept
  split <;> simp

@[simp] theorem canReceive_held (s : State) (n : Fin 6) (f : CanFrame) (t : Nat) : (canReceive s n f t).held = s.held := by
  simp only [canReceive]
  (repeat' split) <;> simp

@[simp] theorem canDrain_held (s : State) (n : Fin 6) : (canDrain s n).held = s.held := by
  simp only [canDrain]
  split <;> simp

@[simp] theorem canChoose_held (s : State) (n : Fin 6) (t : Nat) : (canChoose s n t).held = s.held := by
  simp only [canChoose]
  (repeat' split) <;> simp

@[simp] theorem canCancelLate_held (s : State) (n : Fin 6) (x : Sending) : (canCancelLate s n x).held = s.held := by
  simp only [canCancelLate]
  split <;> simp

@[simp] theorem canSent_held (s : State) (n : Fin 6) (t : Nat) : (canSent s n t).held = s.held := by
  simp only [canSent]
  (repeat' split) <;> simp

theorem canCancel_held {s t : State} {n : Fin 6} {key : Nat} (h : canCancel s n key = some t) : t.held = s.held := by
  simp only [canCancel] at h
  (repeat' split at h) <;> cases h <;> simp

@[simp] theorem canSupersede_held (s : State) (n : Fin 6) (buffer : Nat) : (canSupersede s n buffer).held = s.held := held_congr rfl rfl

@[simp] theorem canEnter_held (s : State) (n : Fin 6) (d : MsgDecl) (r : RouteRec) (cell : FrameCell) :
    (canEnter s n d r cell).1.held = s.held := by
  simp only [canEnter]
  (repeat' split) <;> simp

@[simp] theorem canUndelivered_held (s : State) (n : Fin 6) : (canUndelivered s n).held = s.held := held_congr rfl rfl

@[simp] theorem canMove_held (s : State) (n m : Fin 6) (key : Nat) (d : MsgDecl) (r : RouteRec) :
    (canMove s n m key d r).held = s.held := by simp [canMove]

@[simp] theorem tmTake_held (s : State) (n : Fin 6) (f : CanFrame) (t : Nat) : (tmTake s n f t).held = s.held := by simp [tmTake]

@[simp] theorem tmReference_held (s : State) (n : Fin 6) (f : CanFrame) (t : Nat) : (tmReference s n f t).held = s.held := by
  simp [tmReference]

@[simp] theorem tmLostAt_held (s : State) (n : Fin 6) : (tmLostAt s n).held = s.held := by simp [tmLostAt]
@[simp] theorem tmBecome_held (s : State) (n : Fin 6) : (tmBecome s n).held = s.held := by simp [tmBecome]
@[simp] theorem tmQueue_held (s : State) (n : Fin 6) (b : Nat) : (tmQueue s n b).held = s.held := by simp [tmQueue]
@[simp] theorem canFetchDone_held (s : State) (n : Fin 6) (bank : Nat) : (canFetchDone s n bank).held = s.held := by simp [canFetchDone]

@[simp] theorem canReadEffect_held (s : State) (n : Fin 6) (bank off : Nat) : (canReadEffect s n bank off).held = s.held := by
  simp only [canReadEffect]
  split <;> simp

@[simp] theorem canSwap_held (s : State) (n : Fin 6) (before : W32) (timing : Bool) : (canSwap s n before timing).held = s.held := by
  simp [canSwap]

@[simp] theorem canDiscard_held (s : State) (n : Fin 6) : (canDiscard s n).held = s.held := held_congr rfl rfl
@[simp] theorem canQuiesce_held (s : State) (n : Fin 6) : (canQuiesce s n).held = s.held := held_congr rfl rfl
@[simp] theorem canStart_held (s : State) (n : Fin 6) : (canStart s n).held = s.held := held_congr rfl rfl

/-! ### Links and cards lost or back -/

@[simp] theorem ethDown_held (s : State) (x : Fin 4) : (ethDown s x).held = s.held := by simp [ethDown]
@[simp] theorem splDown_held (s : State) (k : Fin 2) : (splDown s k).held = s.held := by simp [splDown]

@[simp] theorem logSide_held (s : State) (e : Prefetch) : (logSide s e).held = s.held := by
  simp only [logSide]
  split <;> simp

@[simp] theorem dropPrefetch_held (s : State) (p : Prefetch → Bool) : (dropPrefetch s p).held = s.held := by simp [dropPrefetch]
@[simp] theorem cardGone_held (s : State) (slot : Fin 32) : (cardGone s slot).held = s.held := by simp [cardGone]
@[simp] theorem cardLost_held (s : State) (slot : Fin 32) : (cardLost s slot).held = s.held := by simp [cardLost]
@[simp] theorem dropUnreached_held (s : State) : (dropUnreached s).held = s.held := by simp [dropUnreached]
@[simp] theorem hlkDown_held (s : State) (n : Fin 4) : (hlkDown s n).held = s.held := by simp [hlkDown]

/-! ### TIME -/

@[simp] theorem State.setTb_held (s : State) (i : Nat) (b : TimeBase) : (s.setTb i b).held = s.held := by
  simp only [State.setTb]
  split <;> simp

@[simp] theorem tb0Locks_held (s : State) : (tb0Locks s).held = s.held := by simp [tb0Locks]

@[simp] theorem followTb0_held (s : State) : (followTb0 s).held = s.held := by
  simp only [followTb0]
  split <;> simp

@[simp] theorem followRate_held (s : State) (t : Nat) : (followRate s t).held = s.held := by simp [followRate]
@[simp] theorem putTb_held (s : State) (i t : Nat) (b : TimeBase) : (putTb s i t b).held = s.held := by simp [putTb]
@[simp] theorem State.setPg_held (s : State) (k : Nat) (g : PulseGen) : (s.setPg k g).held = s.held := by simp [State.setPg]
@[simp] theorem pgMiss_held (s : State) (k n : Nat) : (pgMiss s k n).held = s.held := by simp [pgMiss]
@[simp] theorem pgArm_held (s : State) (k t : Nat) : (pgArm s k t).held = s.held := by simp [pgArm]

@[simp] theorem pgStep_held (s : State) (k i t : Nat) : (pgStep s k i t).held = s.held := by
  unfold pgStep
  split
  · rfl
  · cases (s.pg k).next with
    | none => rfl
    | some held =>
      cases pgFirst s k ((s.tb i).ns t) with
      | none => exact (pgMiss_held ..).trans (State.setPg_held ..)
      | some n =>
        dsimp only
        split
        · rfl
        · exact (pgMiss_held ..).trans (State.setPg_held ..)

@[simp] theorem pulse_held (s : State) (k : Fin 2) (t : Nat) : (pulse s k t).held = s.held := by
  simp only [pulse]
  split <;> simp

@[simp] theorem stepTb_held (s : State) (i t v : Nat) (b : TimeBase) : (stepTb s i t v b).held = s.held := by simp [stepTb]

@[simp] theorem setAtBoundary_held (s : State) (i t : Nat) : (setAtBoundary s i t).held = s.held := by
  simp only [setAtBoundary]
  split <;> simp

@[simp] theorem setsAtBoundary_held (s : State) (t : Nat) : (setsAtBoundary s t).held = s.held := by simp [setsAtBoundary]
@[simp] theorem setBegin_held (s : State) (arg : Nat) : (setBegin s arg).held = s.held := by simp [setBegin]

@[simp] theorem quot_held (s : State) (o d : Int) : (quot s o d).2.held = s.held := by
  simp only [quot]
  split <;> simp

@[simp] theorem servo_held (s : State) (i t : Nat) (b : TimeBase) (o d : Int) : (servo s i t b o d).held = s.held := by simp [servo]

@[simp] theorem steer_held (s : State) (i t : Nat) (b : TimeBase) (o d : Int) : (steer s i t b o d).held = s.held := by
  simp only [steer]
  (repeat' split) <;> simp

@[simp] theorem measure_held (s : State) (h : Handed) : (measure s h).held = s.held := by simp [measure]

@[simp] theorem measureNext_held (s : State) : (measureNext s).held = s.held := by
  simp only [measureNext]
  split <;> simp

@[simp] theorem tim0_held (s : State) (t : Nat) : (tim0 s t).held = s.held := by
  simp only [tim0]
  split <;> simp

@[simp] theorem tbAlone_held (s : State) (i t : Nat) : (tbAlone s i t).held = s.held := by
  simp only [tbAlone]
  (repeat' split) <;> simp

@[simp] theorem dropSource_held (s : State) (i src t : Nat) : (dropSource s i src t).held = s.held := by simp [dropSource]

@[simp] theorem sourceLost_held (s : State) (i : Fin 3) (src : Nat) : (sourceLost s i src).held = s.held := by
  unfold sourceLost
  (repeat' split) <;> simp

@[simp] theorem remaster_held (s : State) : (remaster s).held = s.held := by simp [remaster]
@[simp] theorem resource_held (s : State) (t : Nat) : (resource s t).held = s.held := by simp [resource]
@[simp] theorem State.setCap_held (s : State) (k : Nat) (c : Capture) : (s.setCap k c).held = s.held := held_congr rfl rfl

@[simp] theorem capture_held (s : State) (k : Fin 4) (src : Fin 3) (rising : Bool) (t : Nat) :
    (capture s k src rising t).held = s.held := by simp [capture]

@[simp] theorem captureLatched_held (t : Nat) (s : State) (k : Nat) : (captureLatched t s k).held = s.held := held_congr rfl rfl
@[simp] theorem timeSnap_held (s : State) (bank i : Nat) : (timeSnap s bank i).held = s.held := held_congr rfl rfl

/-! ### CLK -/

@[simp] theorem endClkChange_held (s : State) (code : Status) : (endClkChange s code).held = s.held := held_congr rfl rfl
@[simp] theorem clkMark_held (s : State) (c : ClockId) : (clkMark s c).held = s.held := held_congr rfl rfl
@[simp] theorem clkFailMessage_held (s : State) : (clkFailMessage s).held = true := enterSafe_held ..
/-- A clock domain that fails brings reset or the safe state. -/
@[simp] theorem domainFail_held (s : State) (f : State → State) : (domainFail s f).held = true := by simp [domainFail]
@[simp] theorem tcxoRefFailed_held (s : State) : (tcxoRefFailed s).held = true := domainFail_held ..
@[simp] theorem refFallback_held {s : State} (h : s.held = true) : (refFallback s).held = true := by simp [refFallback, h]
@[simp] theorem streamDown_held {s : State} (src : Nat) (h : s.held = true) : (streamDown s src).held = true := by simp [streamDown, h]
@[simp] theorem linkStreamsDown_held {s : State} (h : s.held = true) : (linkStreamsDown s).held = true := by simp [linkStreamsDown, h]

@[simp] theorem clkFail_held {s : State} (c : ClockId) (h : s.held = true) : (clkFail s c).held = true := by
  unfold clkFail
  (repeat' split) <;> simp [h]

@[simp] theorem slewTo_held (s : State) (c : ClkChange) : (slewTo s c).held = s.held := held_congr rfl rfl

@[simp] theorem refQualified_held (s : State) : (refQualified s).held = s.held := by
  simp only [refQualified]
  (repeat' split) <;> simp

@[simp] theorem clkChange_held (s : State) : (clkChange s).held = s.held := by
  simp only [clkChange]
  split <;> simp

@[simp] theorem refUnqualified_held (s : State) : (refUnqualified s).held = s.held := by
  simp only [refUnqualified]
  split <;> simp

@[simp] theorem slewDone_held (s : State) : (slewDone s).held = s.held := by
  simp only [slewDone]
  split <;> simp

@[simp] theorem clkSwap_held (s : State) (before : W32) (refWritten outChanged : Bool) :
    (clkSwap s before refWritten outChanged).held = s.held := by simp [clkSwap]

/-! ### Operands of the instructions -/

@[simp] theorem takeReplay_held (s : State) (l : Lane) (k : CtxKind) (len addr : Nat) : (takeReplay s l k len addr).held = s.held :=
  held_congr rfl rfl

@[simp] theorem leaveReplay_held (s : State) (l : Lane) (k : CtxKind) (len addr value : Nat) (ok : Bool) :
    (leaveReplay s l k len addr value ok).held = s.held := by simp [leaveReplay]

@[simp] theorem noteLoad_held (s : State) (l : Lane) (k : CtxKind) (q : Place) (len : Nat) : (noteLoad s l k q len).held = s.held := by
  unfold noteLoad
  (repeat' split) <;> simp

@[simp] theorem State.present_held (s : State) (l : Lane) (r : EffectRec) : (s.present l r).held = s.held := by simp [State.present]

@[simp] theorem storePlace_held (s : State) (l : Lane) (k : CtxKind) (safety : Bool) (a : Access) (size : Nat) (bs : List Byte) :
    (storePlace s l k safety a size bs).held = s.held := by
  simp only [storePlace]
  split <;> simp

@[simp] theorem noteRead_held (s : State) (l : Lane) (k : CtxKind) (a : Access) (len : Nat) : (noteRead s l k a len).held = s.held := by
  simp [noteRead]

/-! ### HLK -/

@[simp] theorem noteOutstanding_held (s : State) : (noteOutstanding s).held = s.held := held_congr rfl rfl
@[simp] theorem forwardWrite_held (s : State) (r : NearReq) : (forwardWrite s r).held = s.held := by simp [forwardWrite]
@[simp] theorem forwardRead_held (s : State) (r : NearReq) : (forwardRead s r).held = s.held := held_congr rfl rfl

@[simp] theorem pumpQueue_held (n : Nat) (s : State) : (pumpQueue n s).held = s.held := by
  induction n generalizing s with
  | zero => rfl
  | succ n ih =>
    unfold pumpQueue
    (repeat' split) <;> simp [ih]

@[simp] theorem pump_held (s : State) : (pump s).held = s.held := pumpQueue_held ..
@[simp] theorem nearRequest_held (s : State) (r : NearReq) : (nearRequest s r).held = s.held := by simp [nearRequest]
@[simp] theorem postedDone_held (s : State) : (postedDone s).held = s.held := by simp [postedDone]

@[simp] theorem readArrived_held (s : State) (l : Lane) (k : CtxKind) (addr value : Nat) (ok : Bool) :
    (readArrived s l k addr value ok).held = s.held := by
  simp only [readArrived]
  split <;> simp

@[simp] theorem endRead_held (s : State) (r : NearReq) (value : Nat) (ok : Bool) : (endRead s r value ok).held = s.held := by
  simp only [endRead]
  split <;> simp

@[simp] theorem consumeWord_held (s : State) (addr : Nat) : (consumeWord s addr).held = s.held := held_congr rfl rfl

@[simp] theorem installBlock_held (s : State) (addr slot : Nat) (d : CardData) : (installBlock s addr slot d).held = s.held := by
  simp only [installBlock]
  (repeat' split) <;> simp

@[simp] theorem cardData_held (s : State) (d : CardData) : (cardData s d).held = s.held := by
  simp only [cardData]
  (repeat' split) <;> simp

@[simp] theorem readTimeout_held (s : State) : (readTimeout s).held = s.held := by
  simp only [readTimeout]
  split <;> simp

@[simp] theorem cardRead_held (s : State) (l : Lane) (k : CtxKind) (addr : Nat) : (cardRead s l k addr).2.held = s.held := by
  unfold cardRead
  (repeat' split) <;> simp

@[simp] theorem cardWrite_held (s : State) (by_ : NearBy) (addr : Nat) (v : W32) : (cardWrite s by_ addr v).2.held = s.held := by
  unfold cardWrite
  (repeat' split) <;> simp

@[simp] theorem retry_held (s : State) : (retry s).held = s.held := held_congr rfl rfl

@[simp] theorem cardAsks_held (s : State) (slot : Fin 32) (n : Fin 4) (r : CardReq) : (cardAsks s slot n r).held = s.held := by
  unfold cardAsks
  (repeat' split) <;> simp

@[simp] theorem lockSequence_held (s : State) (slot : Fin 32) : (lockSequence s slot).held = s.held := by simp [lockSequence]

@[simp] theorem lockTimeout_held (s : State) : (lockTimeout s).held = s.held := by
  simp only [lockTimeout]
  (repeat' split) <;> simp

@[simp] theorem forwardCommand_held (s : State) (slot : Fin 32) (sub : Fin 17) (w : Writer) (code arg : Nat) :
    (forwardCommand s slot sub w code arg).held = s.held := held_congr rfl rfl

@[simp] theorem restartFailed_held (s : State) (u : UnitId) (cls : Nat) : (restartFailed s u cls).held = s.held := by simp [restartFailed]

@[simp] theorem cardRefused_held (s : State) (slot : Fin 32) (sub : Fin 17) (r : Running) (st : Status) :
    (cardRefused s slot sub r st).held = s.held := by simp [cardRefused]

@[simp] theorem cardDone_held (s : State) (slot : Fin 32) (sub : Fin 17) (code : Status) (data : Nat) :
    (cardDone s slot sub code data).held = s.held := by
  simp only [cardDone]
  split <;> simp

@[simp] theorem status_held (s : State) (slot : Fin 32) (sub : Fin 17) (p : CardStatus) : (status s slot sub p).held = s.held := by
  simp only [status]
  (repeat' split) <;> simp

@[simp] theorem hlkTrained_held (s : State) (n : Fin 4) : (hlkTrained s n).held = s.held := by simp [hlkTrained]
@[simp] theorem presence_held (s : State) (slot : Fin 32) : (presence s slot).held = s.held := by simp [presence]
@[simp] theorem rescanBegin_held (s : State) (arg : Nat) : (rescanBegin s arg).held = s.held := held_congr rfl rfl

@[simp] theorem rescanNext_held (s : State) (slot : Nat) (ok : Bool) : (rescanNext s slot ok).held = s.held := by
  simp only [rescanNext]
  split <;> simp

@[simp] theorem cardRecord_held (s : State) (slot : Fin 32) (rec : List Byte) : (cardRecord s slot rec).held = s.held := by
  simp [cardRecord]

@[simp] theorem hlkStop_held (s : State) : (hlkStop s).held = s.held := by
  simp only [hlkStop]
  split <;> simp

@[simp] theorem countMisses_held (s : State) (t : Nat) : (countMisses s t).held = s.held := by simp [countMisses]
@[simp] theorem hlkFetchDone_held (s : State) (bank : Nat) : (hlkFetchDone s bank).held = s.held := by simp [hlkFetchDone]

/-! ### NET -/

@[simp] theorem ethUp_held {s : State} (x : Fin 4) (speed : Nat) (h : s.held = true) : (ethUp s x speed).held = true := by simp [ethUp, h]

@[simp] theorem ethLink_held {s : State} (x : Fin 4) (up : Bool) (speed : Nat) (h : s.held = true) :
    (ethLink s x up speed).held = true := by simp [ethLink, h]

@[simp] theorem ethSwap_held {s : State} (x : Fin 4) (before : W32) (h : s.held = true) : (ethSwap s x before).held = true := by
  simp [ethSwap, h]

@[simp] theorem sync_held (s : State) (x : Fin 4) (offset : Int) (domain t : Nat) : (sync s x offset domain t).held = s.held := by
  simp [sync]

@[simp] theorem bestMaster_held (s : State) (x : Fin 4) (master : Bool) : (bestMaster s x master).held = s.held := by simp [bestMaster]
@[simp] theorem reject_held (s : State) (x : Fin 4) : (reject s x).held = s.held := held_congr rfl rfl

@[simp] theorem telegram_held (s : State) (x : Fin 4) (t : Telegram) : (telegram s x t).held = s.held := by
  unfold telegram
  (repeat' split) <;> simp

@[simp] theorem undelivered_held (s : State) (x : Fin 4) (skip : Bool) : (undelivered s x skip).held = s.held := held_congr rfl rfl

@[simp] theorem publish_held (s : State) (x : Fin 4) (b key p : Nat) (d : TelegramDecl) : (publish s x b key p d).held = s.held := by
  simp [publish]

@[simp] theorem publishDue_held (s : State) (b : Nat) : (publishDue s b).held = s.held := by simp [publishDue]
@[simp] theorem missDue_held (s : State) (b : Nat) : (missDue s b).held = s.held := by simp [missDue]
@[simp] theorem clearTx_held (s : State) : (clearTx s).held = s.held := held_congr rfl rfl
@[simp] theorem inaugurate_held (s : State) (i : Inauguration) : (inaugurate s i).held = s.held := by simp [inaugurate]
@[simp] theorem loadDirectory_held (s : State) : (loadDirectory s).held = s.held := held_congr rfl rfl

@[simp] theorem inaugEffect_held (s : State) : (inaugEffect s).held = s.held := by
  simp only [inaugEffect]
  split <;> simp

@[simp] theorem netFetchDone_held (s : State) (bank : Nat) : (netFetchDone s bank).held = s.held := by simp [netFetchDone]
@[simp] theorem serNextList_held (s : State) (x : Fin 4) : (serNextList s x).held = s.held := by simp [serNextList]
@[simp] theorem serEnd_held (s : State) (x : Fin 4) : (serEnd s x).held = s.held := by simp [serEnd]

@[simp] theorem serFail_held (s : State) (x : Fin 4) : (serFail s x).held = s.held := by
  simp only [serFail]
  split <;> simp

@[simp] theorem serList_held (s : State) (x : Fin 4) (objects : List Nat) : (serList s x objects).held = s.held := by simp [serList]
@[simp] theorem poll_held (s : State) (x : Fin 4) : (poll s x).held = s.held := by simp [poll]

@[simp] theorem serStage_held (s : State) (x : Fin 4) (key : Nat) (data : List Byte) : (serStage s x key data).held = s.held :=
  held_congr rfl rfl

@[simp] theorem serReply_held (s : State) (x : Fin 4) (r : SerialReply) : (serReply s x r).held = s.held := by
  simp only [serReply]
  (repeat' split) <;> simp

@[simp] theorem serTimeout_held (s : State) (x : Fin 4) : (serTimeout s x).held = s.held := by simp [serTimeout]
@[simp] theorem serStop_held (s : State) (x : Fin 4) : (serStop s x).held = s.held := held_congr rfl rfl
@[simp] theorem ethStop_held (s : State) (x : Fin 4) : (ethStop s x).held = s.held := by simp [ethStop]

/-! ### The run of a lane -/

@[simp] theorem State.setCtx_held (s : State) (l : Lane) (k : CtxKind) (c : LaneCtx) : (s.setCtx l k c).held = s.held := by
  simp [State.setCtx]

@[simp] theorem awaitWindow_held (s : State) (l : Lane) (c : LaneCtx) : (awaitWindow s l c).held = s.held := by
  simp only [awaitWindow]
  split <;> simp

@[simp] theorem choose_held (s : State) (l : Lane) : (choose s l).held = s.held := by simp [choose]
@[simp] theorem notePhase_held (s : State) : (notePhase s).held = s.held := by simp [notePhase]
@[simp] theorem resched_held (s : State) (l : Lane) : (resched s l).held = s.held := by simp [resched]
@[simp] theorem emit_held (s : State) (l : Lane) (k : CtxKind) (c : LaneCtx) : (emit s l k c).held = s.held := by simp [emit]
@[simp] theorem noteRun_held (s : State) (p t us : Nat) : (noteRun s p t us).held = s.held := held_congr rfl rfl
@[simp] theorem taskEnded_held (s : State) (l : Lane) (k : CtxKind) : (taskEnded s l k).held = s.held := by simp [taskEnded]
@[simp] theorem endTask_held (s : State) (l : Lane) (k : CtxKind) (c : LaneCtx) : (endTask s l k c).held = s.held := by simp [endTask]

@[simp] theorem instanceEnds_held (s : State) (l : Lane) (k : CtxKind) (c : LaneCtx) : (instanceEnds s l k c).held = s.held := by
  simp [instanceEnds]

@[simp] theorem abortTask_held (s : State) (l : Lane) (k : CtxKind) : (abortTask s l k).held = s.held := by simp [abortTask]
@[simp] theorem refillQueue_held (s : State) (l : Lane) : (refillQueue s l).held = s.held := by simp [refillQueue]

@[simp] theorem except_held (s : State) (l : Lane) (k : CtxKind) (c : LaneCtx) (kind space addr : Nat) :
    (except s l k c kind space addr).held = s.held := by simp [except]

@[simp] theorem arrived_held (s : State) (guardAt : Nat) (l : Lane) : (arrived s guardAt l).held = s.held := by simp [arrived]

/-- An instruction is as harmless as its body: an encoding that is not assigned raises an event alone. -/
theorem issue_held {s : State} {body : CtxKind → LaneCtx → State} (hb : ∀ k c, (body k c).held = s.held) (l : Lane) (len : Nat)
    (regs : List Nat) (legal : Bool) : (issue s l len regs legal body).held = s.held := by
  unfold issue
  split <;> simp [hb]

@[simp] theorem compute_held (s : State) (l : Lane) (len rd : Nat) (regs : List Nat) (legal : Bool) (f : Program → LaneCtx → OpRes) :
    (compute s l len rd regs legal f).held = s.held := issue_held (fun k c => by split <;> simp) ..

/-! ### LCS -/

@[simp] theorem lcsChange_held (s : State) (old new : LifeCycle) : (lcsChange s old new).held = s.held := by simp [lcsChange]
@[simp] theorem closeDebug_held (s : State) : (closeDebug s).held = s.held := held_congr rfl rfl

@[simp] theorem challenge_held (s : State) (returning : Bool) (nonce : Nat) : (challenge s returning nonce).held = s.held := by
  simp [challenge]

@[simp] theorem authFail_held (s : State) : (authFail s).held = s.held := by simp [authFail]
@[simp] theorem respond_held (s : State) (d : SignedDoc) (t : Nat) : (respond s d t).held = s.held := by simp [respond]
@[simp] theorem unlock_held (s : State) (d : SignedDoc) : (unlock s d).held = s.held := by simp [unlock]
@[simp] theorem debugIntrusive_held {s : State} (h : s.held = true) : (debugIntrusive s).held = true := by simp [debugIntrusive, h]
@[simp] theorem svcSession_held (s : State) (opened : Bool) (peer : Nat) : (svcSession s opened peer).held = s.held := by simp [svcSession]
@[simp] theorem eraseSecrets_held (s : State) : (eraseSecrets s).held = s.held := held_congr rfl rfl

@[simp] theorem returnRequest_held (s : State) (consent : Option SignedDoc) (vendor : SignedDoc) (t : Nat) :
    (returnRequest s consent vendor t).held = s.held := by simp [returnRequest]

@[simp] theorem erased_held {s : State} (ok : Bool) (h : s.held = true) : (erased s ok).held = true := by simp [erased, h]
@[simp] theorem lockNow_held (s : State) : (lockNow s).held = s.held := by simp [lockNow]
@[simp] theorem closeService_held (s : State) : (closeService s).held = s.held := by simp [closeService]

/-! ### PWR -/

@[simp] theorem supplyRecord_held (s : State) (code : Nat) : (supplyRecord s code).held = s.held := by simp [supplyRecord]
@[simp] theorem pfWarn_held (s : State) : (pfWarn s).held = s.held := by simp [pfWarn]
@[simp] theorem powerReturn_held (s : State) : (powerReturn s).held = s.held := by simp [powerReturn]
@[simp] theorem shutdown_held {s : State} (h : s.held = true) : (shutdown s).held = true := by simp [shutdown, h]

@[simp] theorem safeRestart_held {s : State} (h : s.held = true) : (safeRestart s).held = true := by
  simp only [safeRestart]
  split <;> simp [h]

@[simp] theorem strapsRead_held (s : State) (straps : BitVec 13) : (strapsRead s straps).held = s.held := by simp [strapsRead]
@[simp] theorem setTemp_held (s : State) (t : Int) : (setTemp s t).held = s.held := held_congr rfl rfl
@[simp] theorem resetAtBoundary_held (s : State) (cause : ResetCause) : (resetAtBoundary s cause).held = s.held := held_congr rfl rfl

/-! ### UPD -/

@[simp] theorem prepareSlot_held (s : State) : (prepareSlot s).held = s.held := by simp [prepareSlot]
@[simp] theorem applyBegin_held (s : State) : (applyBegin s).held = s.held := by simp [applyBegin]
@[simp] theorem writeImage_held (s : State) (p : Package) : (writeImage s p).held = s.held := held_congr rfl rfl
@[simp] theorem updRecord_held (s : State) (code target v : Nat) : (updRecord s code target v).held = s.held := by simp [updRecord]

@[simp] theorem applySelf_held (s : State) (p : Package) (written : Bool) : (applySelf s p written).2.held = s.held := by
  simp only [applySelf]
  (repeat' split) <;> simp

@[simp] theorem activateSelf_held (s : State) (resetNow : Bool) : (activateSelf s resetNow).held = s.held := by simp [activateSelf]

@[simp] theorem autoApply_held {s : State} (p : Package) (h : s.held = true) : (autoApply s p).held = true := by
  simp only [autoApply]
  split <;> simp [h]

@[simp] theorem deliver_held {s : State} (p : Package) (h : s.held = true) : (deliver s p).held = true := by simp [deliver, h]
@[simp] theorem trialExpired_held {s : State} (h : s.held = true) : (trialExpired s).held = true := by simp [trialExpired, h]
@[simp] theorem confirmSelf_held (s : State) : (confirmSelf s).held = s.held := by simp [confirmSelf]
@[simp] theorem abortUpdate_held (s : State) : (abortUpdate s).held = s.held := held_congr rfl rfl
@[simp] theorem acceptChange_held (s : State) (c : ChangeSet) : (acceptChange s c).held = s.held := by simp [acceptChange]

/-! ### The program's data -/

@[simp] theorem State.writeBulk_held (s : State) (key : Nat) (bs : List Byte) : (s.writeBulk key bs).held = s.held := held_congr rfl rfl

@[simp] theorem writePlace_held (s : State) (p : Nat) (q : Place) (bs : List Byte) : (writePlace s p q bs).held = s.held := by
  unfold writePlace
  (repeat' split) <;> simp

@[simp] theorem writePlaces_held (s : State) (p : Nat) (qs : List Place) (bs : List Byte) : (writePlaces s p qs bs).held = s.held := by
  simp [writePlaces]

@[simp] theorem putInst_held (s : State) (pn : Nat) (p : Program) (d : InstDecl) (m : Memory) : (putInst s pn p d m).held = s.held := by
  simp [putInst]

@[simp] theorem resetComposite_held (s : State) (k : Nat) : (resetComposite s k).held = s.held := by
  simp only [resetComposite]
  split <;> simp

@[simp] theorem overrideStores_held (s : State) (pn key : Nat) (bs : List Byte) : (overrideStores s pn key bs).held = s.held := by
  simp [overrideStores]

@[simp] theorem applyItem_held (s : State) (pn : Nat) (i : ChangeItem) : (applyItem s pn i).held = s.held :=
  (held_foldl (fun s q => by split <;> simp) _ _).trans (writePlaces_held ..)

@[simp] theorem applyChange_held (s : State) (c : ChangeSet) : (applyChange s c).held = s.held := by simp [applyChange]
@[simp] theorem initOutputs_held (s : State) (pn : Nat) (p : Program) : (initOutputs s pn p).held = s.held := held_congr rfl rfl

@[simp] theorem initProgram_held (s : State) (pn : Nat) (p : Program) (gen : Option RetGen) : (initProgram s pn p gen).held = s.held := by
  simp [initProgram]

@[simp] theorem State.setInactiveGen_held (s : State) (g : RetGen) : (s.setInactiveGen g).held = s.held := by simp [State.setInactiveGen]
@[simp] theorem commitGeneration_held (s : State) : (commitGeneration s).held = s.held := by simp [commitGeneration]
@[simp] theorem restartProgram_held (s : State) (warm : Bool) : (restartProgram s warm).2.held = s.held := by simp [restartProgram]

/-! ### What the states of a unit mean -/

@[simp] theorem leaveRun_held (s : State) (u : UnitId) : (leaveRun s u).held = s.held := by
  simp only [leaveRun]
  split <;> simp

@[simp] theorem outOfService_held {s : State} (u : UnitId) (h : s.held = true) : (outOfService s u).held = true := by
  simp only [outOfService]
  split <;> simp [h]

@[simp] theorem enterRun_held (s : State) (u : UnitId) : (enterRun s u).held = s.held := by
  simp only [enterRun]
  split <;> simp

@[simp] theorem enterState_held {s : State} (u : UnitId) (t : UState) (h : s.held = true) : (enterState s u t).held = true := by
  simp [enterState, h]

@[simp] theorem failSelf_held {s : State} (u : UnitId) (kind address : Nat) (h : s.held = true) :
    (failSelf s u kind address).held = true := by simp [failSelf, h]

/-- RESET of SAFE/FIO does not end the safe state (R330). -/
@[simp] theorem reinit_held (s : State) (u : UnitId) : (reinit s u).held = s.held := by
  unfold reinit
  split <;> simp [held_congr (s := s), resetSafe]

@[simp] theorem resetUnit_held {s : State} (u : UnitId) (h : s.held = true) : (resetUnit s u).held = true := by simp [resetUnit, h]

@[simp] theorem forceGate_held {s : State} (u : UnitId) (t : UState) (h : s.held = true) : (forceGate s u t).held = true := by
  simp [forceGate, h]

/-! ### FLT -/

@[simp] theorem openWindow_held (s : State) (w : ReactWindow) : (openWindow s w).held = s.held := held_congr rfl rfl
@[simp] theorem clearUnit_held (s : State) (u : UnitId) : (clearUnit s u).held = s.held := by simp [clearUnit]

@[simp] theorem resetOutcome_held (s : State) (u : UnitId) : (resetOutcome s u).held = s.held := by
  simp only [resetOutcome]
  split <;> simp

@[simp] theorem endFieldActivities_held (s : State) (u : UnitId) : (endFieldActivities s u).held = s.held := by simp [endFieldActivities]

@[simp] theorem unitReset_held {s : State} (u : UnitId) (primary cls : Nat) (h : s.held = true) :
    (unitReset s u primary cls).held = true := by
  rw [unitReset, resetOutcome_held]
  exact held_foldl_of (fun s v hs => by simp [hs]) _ (by simp [h])

@[simp] theorem cancelRestart_held (s : State) (u : UnitId) : (cancelRestart s u).held = s.held := held_congr rfl rfl

@[simp] theorem timedDegraded_held {s : State} (u : UnitId) (primary cls : Nat) (h : s.held = true) :
    (timedDegraded s u primary cls).held = true :=
  held_foldl_of (fun s v hs => by simp [hs]) (withMembers s u) (s := openWindow _ _) (by simp [h])

@[simp] theorem laneExclusion_held {s : State} (l : Lane) (m : FaultMsg) (h : s.held = true) : (laneExclusion s l m).held = true := by
  simp [laneExclusion, h]

@[simp] theorem react_held {s : State} (u : UnitId) (m : FaultMsg) (seq : Nat) (r : Reaction) (degrades : Bool) (h : s.held = true) :
    (react s u m seq r degrades).held = true := by
  unfold react
  (repeat' split) <;> simp [h]

@[simp] theorem offerFault_held (s : State) (m : FaultMsg) (seq : Nat) : (offerFault s m seq).held = s.held := by simp [offerFault]
@[simp] theorem nextHeld_held (s : State) (u : UnitId) : (nextHeld s u).held = s.held := by simp [nextHeld]

@[simp] theorem injectReported_held (s : State) (m : FaultMsg) (seq : Nat) : (injectReported s m seq).held = s.held := by
  simp [injectReported]

@[simp] theorem recordMsg_held (s : State) (m : FaultMsg) (seq : Nat) (v : Verdict) (r : Reaction) (primary : Nat) :
    (recordMsg s m seq v r primary).held = s.held := held_congr rfl rfl

@[simp] theorem takeFrom_held {s : State} (u : UnitId) (h : s.held = true) : (takeFrom s u).held = true := by
  simp only [takeFrom]
  split <;> simp [h]

@[simp] theorem takeMessage_held {s : State} (u : UnitId) (h : s.held = true) : (takeMessage s u).held = true := by simp [takeMessage, h]
@[simp] theorem writeBack_held (s : State) (image : NMap W32) : (writeBack s image).held = s.held := held_congr rfl rfl

@[simp] theorem restartOne_held (start : Bool) {s : State} (u : UnitId) (h : s.held = true) : (restartOne start s u).held = true := by
  simp [restartOne, h]

@[simp] theorem restartSource_held {s : State} (u : UnitId) (w : ReactWindow) (h : s.held = true) : (restartSource s u w).held = true := by
  simp only [restartSource]
  split
  · simp [h]
  · exact held_foldl_of (fun s v hs => by simp [hs]) _ (by simp [h])
  · have hr (b : Bool) (l : List UnitId) : (l.foldl (restartOne b) s).held = true :=
      held_foldl_of (fun s v hs => restartOne_held (h := hs) ..) _ h
    simp only [held_ite, State.complete_held, hr, ite_self]

@[simp] theorem restartUnit_held {s : State} (u : UnitId) (h : s.held = true) : (restartUnit s u).held = true := by
  simp only [restartUnit]
  split <;> simp [h]

@[simp] theorem restartsDue_held {s : State} (h : s.held = true) : (restartsDue s).held = true :=
  held_foldl_of (fun _ _ hs => restartUnit_held (h := hs) ..) _ h

@[simp] theorem closeRestarted_held (s : State) : (closeRestarted s).held = s.held := held_congr rfl rfl
@[simp] theorem closeWindow_held (s : State) (u : UnitId) : (closeWindow s u).held = s.held := held_congr rfl rfl
@[simp] theorem acknowledge_held (s : State) (all : Bool) (cls : Nat) : (acknowledge s all cls).held = s.held := held_congr rfl rfl

@[simp] theorem raiseEcc_held (s : State) (u : UnitId) (kind address : Nat) (injected : Bool) :
    (raiseEcc s u kind address injected).held = s.held := by simp [raiseEcc]

@[simp] theorem eccCorrected_held (s : State) (p : EccPlace) (address : Nat) (injected : Bool) :
    (eccCorrected s p address injected).held = s.held := by
  simp only [eccCorrected]
  split <;> simp

@[simp] theorem eccUncorrectable_held {s : State} (p : EccPlace) (address : Nat) (injected : Bool) (h : s.held = true) :
    (eccUncorrectable s p address injected).held = true := by
  simp only [eccUncorrectable]
  split <;> simp [h]

@[simp] theorem loseFrame_held (s : State) (n : Fin 6) (c : CanState) (f : Option FrameCell) : (loseFrame s n c f).held = s.held := by
  simp only [loseFrame]
  split <;> simp

@[simp] theorem loseWord_held (s : State) (w : UnitWord) : (loseWord s w).held = s.held := by
  unfold loseWord
  split
  · simp
  · simp
  · dsimp only
    split <;> simp
  · rfl
  · split <;> simp

@[simp] theorem selfReg_held (s : State) (address : Nat) (injected : Bool) : (selfReg s address injected).held = true := by simp [selfReg]

@[simp] theorem inject_held {s : State} (arg : Nat) (h : s.held = true) : (inject s arg).held = true := by
  simp only [inject]
  split <;> simp [h]

@[simp] theorem injectMissed_held {s : State} (h : s.held = true) : (injectMissed s).held = true := by simp [injectMissed, h]
@[simp] theorem degradeCount_held (s : State) : (degradeCount s).held = s.held := by simp [degradeCount]
@[simp] theorem degradeExpired_held {s : State} (h : s.held = true) : (degradeExpired s).held = true := by simp [degradeExpired, h]
@[simp] theorem clearSummary_held (s : State) : (clearSummary s).held = s.held := held_congr rfl rfl
@[simp] theorem copyHistory_held (s : State) (bank index : Nat) : (copyHistory s bank index).held = s.held := held_congr rfl rfl

/-! ### PLACE -/

@[simp] theorem reportNone_held (s : State) (p : Program) (old : Option PMap) (new : PMap) : (reportNone s p old new).held = s.held :=
  held_foldl (fun s r => by split <;> simp) ..

@[simp] theorem adoptSet_held (s : State) (inp : PlaceInput) (ms : List PMap) : (adoptSet s inp ms).held = s.held := by simp [adoptSet]

@[simp] theorem loadBase_held (s : State) (ms : List PMap) : (loadBase s ms).held = s.held := by
  simp only [loadBase]
  split <;> simp

@[simp] theorem loadSet_held (s : State) (period : Nat) (mismatch : Bool) : (loadSet s period mismatch).2.held = s.held := by
  simp only [loadSet]
  split <;> simp

@[simp] theorem dropFrames_held (s : State) (n : Fin 6) (key : Nat) : (dropFrames s n key).held = s.held := by simp [dropFrames]

@[simp] theorem reroute_held (s : State) (p : Nat) (d : MsgDecl) (old new : RouteRec) : (reroute s p d old new).held = s.held := by
  unfold reroute
  (repeat' split) <;> simp

@[simp] theorem switchMap_held (s : State) (p : Nat) (new : PMap) : (switchMap s p new).held = s.held := by
  have hp (m : Option PMap) (l : List PMap) : (if p = 0 then { s with place := { s.place with map := m } }
      else { s with place := { s.place with splitMaps := l } }).held = s.held := by split <;> rfl
  simp only [switchMap]
  split
  · exact hp ..
  · rw [reportNone_held, held_foldl (canLayout_held · · false)]
    exact (held_foldl (fun s d => by split <;> simp) ..).trans (hp ..)

@[simp] theorem returnsDue_held (s : State) : (returnsDue s).held = s.held := held_congr rfl rfl
@[simp] theorem awaitCombined_held (s : State) : (awaitCombined s).held = s.held := held_congr rfl rfl
@[simp] theorem endCombined_held (s : State) : (endCombined s).held = s.held := held_congr rfl rfl

@[simp] theorem switchMain_held (s : State) : (switchMain s).held = s.held := by
  simp only [switchMain]
  (repeat' split) <;> simp

@[simp] theorem switchSplit_held (s : State) : (switchSplit s).held = s.held := by simp [switchSplit]
@[simp] theorem rebalanceLost_held (s : State) (lane : Bool) : (rebalanceLost s lane).held = s.held := by simp [rebalanceLost]

@[simp] theorem placeStep_held (s : State) : (placeStep s).held = s.held := by
  simp only [placeStep]
  split <;> simp

@[simp] theorem combinedDone_held (s : State) (mismatch : Bool) (us : Nat) : (combinedDone s mismatch us).held = s.held := by
  simp only [combinedDone]
  (repeat' split) <;> simp

@[simp] theorem resourceReturn_held (s : State) (r : Resource) : (resourceReturn s r).held = s.held := by simp [resourceReturn]
@[simp] theorem returnAll_held (s : State) : (returnAll s).held = s.held := held_congr rfl rfl
@[simp] theorem rebalanceBegin_held (s : State) : (rebalanceBegin s).held = s.held := held_congr rfl rfl
@[simp] theorem rebalanceFails_held (s : State) : (rebalanceFails s).held = s.held := held_congr rfl rfl

@[simp] theorem presentCopies_held (s : State) : (presentCopies s).held = s.held := by
  simp only [presentCopies]
  split <;> simp

@[simp] theorem rebalanceComputed_held (s : State) (mismatch : Bool) (us : Nat) : (rebalanceComputed s mismatch us).held = s.held := by
  simp only [rebalanceComputed]
  split <;> simp

@[simp] theorem partnerSet_held (s : State) (digest : Nat) : (partnerSet s digest).held = s.held := by
  simp only [partnerSet]
  split <;> simp

@[simp] theorem rebalanceGuard_held (s : State) : (rebalanceGuard s).held = s.held := by
  simp only [rebalanceGuard]
  split <;> simp

@[simp] theorem migrate_held (s : State) (old new : PMap) : (migrate s old new).held = s.held := by
  unfold migrate
  split
  · rfl
  · exact held_foldl (fun s m => by split <;> simp) ..

@[simp] theorem migrateBulk_held (s : State) (old new : PMap) : (migrateBulk s old new).held = s.held := by
  unfold migrateBulk
  split
  · rfl
  · exact held_foldl (fun s m => by split <;> simp) ..

@[simp] theorem rebalanceSwitch_held (s : State) (n : Nat) : (rebalanceSwitch s n).held = s.held := by
  simp only [rebalanceSwitch]
  split <;> simp

@[simp] theorem migrateTimeout_held (s : State) : (migrateTimeout s).held = s.held := by
  simp only [migrateTimeout]
  split <;> simp

@[simp] theorem profileStart_held (s : State) (ticks : Nat) : (profileStart s ticks).held = s.held := held_congr rfl rfl

@[simp] theorem profileTick_held (s : State) : (profileTick s).held = s.held := by
  simp only [profileTick]
  split <;> simp

@[simp] theorem profileComplete_held (s : State) (p : ProfileSet) : (profileComplete s p).held = s.held := by
  simp only [profileComplete]
  split <;> simp

@[simp] theorem profileStop_held (s : State) : (profileStop s).held = s.held := by simp [profileStop]
@[simp] theorem adoptProfile_held (s : State) (none_ : Bool) : (adoptProfile s none_).held = s.held := by simp [adoptProfile]
@[simp] theorem windowOver_held (s : State) (inst : Nat) : (windowOver s inst).held = s.held := by simp [windowOver]
@[simp] theorem placeFetchDone_held (s : State) (bank : Nat) : (placeFetchDone s bank).held = s.held := by simp [placeFetchDone]

/-! ### PAIR -/

@[simp] theorem reclaim_held (s : State) : (reclaim s).held = s.held := by simp [reclaim]
@[simp] theorem setRole_held (s : State) (r : Role) : (setRole s r).held = s.held := held_congr rfl rfl

@[simp] theorem abandonHandover_held (s : State) : (abandonHandover s).held = s.held := by
  simp only [abandonHandover]
  (repeat' split) <;> simp

@[simp] theorem losePartner_held (s : State) : (losePartner s).held = s.held := held_congr rfl rfl

@[simp] theorem endPartnerApply_held (s : State) : (endPartnerApply s).held = s.held := by
  simp only [endPartnerApply]
  split <;> simp

@[simp] theorem partnerLost_held (s : State) (next : PairState) : (partnerLost s next).held = s.held := by simp [partnerLost]
@[simp] theorem syncFormed_held (s : State) : (syncFormed s).held = s.held := by simp [syncFormed]
@[simp] theorem confirmCause_held (s : State) : (confirmCause s).held = s.held := by simp [confirmCause]
@[simp] theorem sendBeacon_held (s : State) (n : Nat) : (sendBeacon s n).held = s.held := held_congr rfl rfl

@[simp] theorem followState_held (s : State) (before now : Nat) : (followState s before now).held = s.held := by
  unfold followState
  (repeat' split) <;> simp

@[simp] theorem standbyBeacon_held (s : State) (b : Beacon) (before : Nat) : (standbyBeacon s b before).held = s.held := by
  simp [standbyBeacon]

@[simp] theorem activeBeacon_held (s : State) (b : Beacon) (before : Nat) : (activeBeacon s b before).held = s.held := by
  simp only [activeBeacon]
  split <;> simp

@[simp] theorem beacon_held (s : State) (b : Beacon) (t : Nat) : (beacon s b t).held = s.held := by simp [beacon]
@[simp] theorem beaconsAbsent_held (s : State) : (beaconsAbsent s).held = s.held := by simp [beaconsAbsent]

@[simp] theorem linkChange_held {s : State} (k : Fin 2) (up : Bool) (h : s.held = true) : (linkChange s k up).held = true := by
  simp [linkChange, h]

@[simp] theorem settleRoles_held (s : State) (p : PeerIdentity) : (settleRoles s p).held = s.held := by simp [settleRoles]

@[simp] theorem endResync_held (s : State) (check format : Nat) : (endResync s check format).held = s.held := by
  simp only [endResync]
  split <;> simp

@[simp] theorem runChecks_held (s : State) (p : PeerIdentity) : (runChecks s p).held = s.held := by simp [runChecks]
@[simp] theorem partnerResync_held (s : State) (p : PeerIdentity) : (partnerResync s p).held = s.held := by simp [partnerResync]

@[simp] theorem retryResync_held (s : State) : (retryResync s).held = s.held := by
  simp only [retryResync]
  split <;> simp

@[simp] theorem copyPages_held (s : State) (c : StateCopy) : (copyPages s c).held = s.held := held_congr rfl rfl

@[simp] theorem copyUnits_held {s : State} (c : StateCopy) (h : s.held = true) : (copyUnits s c).held = true := by
  refine (held_foldl (fun s e => by split <;> simp) ..).trans (held_foldl_of (fun s e hs => ?_) _ h)
  split <;> simp [hs]

@[simp] theorem copyTime_held (s : State) (c : StateCopy) : (copyTime s c).held = s.held := held_congr rfl rfl

@[simp] theorem copyRecords_held (s : State) (c : StateCopy) : (copyRecords s c).held = s.held := by
  simp only [copyRecords]
  split <;> simp

@[simp] theorem copyInput_held (s : State) (c : StateCopy) : (copyInput s c).held = s.held := held_congr rfl rfl

@[simp] theorem copyRebalance_held (s : State) (c : StateCopy) : (copyRebalance s c).held = s.held := by
  simp only [copyRebalance]
  split <;> simp

@[simp] theorem applyCopy_held {s : State} (c : StateCopy) (h : s.held = true) : (applyCopy s c).held = true := by simp [applyCopy, h]
@[simp] theorem copyMissing_held (s : State) : (copyMissing s).held = s.held := by simp [copyMissing]

@[simp] theorem stateCopy_held {s : State} (c : StateCopy) (ok : Bool) (h : s.held = true) : (stateCopy s c ok).held = true := by
  simp [stateCopy, h]

@[simp] theorem copyAcked_held (s : State) (a : CopyAck) : (copyAcked s a).held = s.held := by
  simp only [copyAcked]
  (repeat' split) <;> simp

@[simp] theorem revertStep_held (s : State) : (revertStep s).held = s.held := by
  unfold revertStep
  split <;> exact held_congr rfl rfl

@[simp] theorem announceHandover_held (s : State) (n : Nat) : (announceHandover s n).held = s.held := by simp [announceHandover]
@[simp] theorem resyncCmd_held (s : State) : (resyncCmd s).held = s.held := by simp [resyncCmd]
@[simp] theorem detachCmd_held (s : State) : (detachCmd s).held = s.held := by simp [detachCmd]
@[simp] theorem takeLosses_held (s : State) : (takeLosses s).held = s.held := by simp [takeLosses]
@[simp] theorem takeOver_held (s : State) (handover : Bool) : (takeOver s handover).held = s.held := by simp [takeOver]
@[simp] theorem seizeStep_held (s : State) : (seizeStep s).held = s.held := by simp [seizeStep]
@[simp] theorem depose_held (s : State) : (depose s).held = s.held := by simp [depose]
@[simp] theorem State.setStation_held (s : State) (k : Nat) (x : StationSt) : (s.setStation k x).held = s.held := held_congr rfl rfl

@[simp] theorem loseStation_held (s : State) (k : Nat) : (loseStation s k).held = s.held := by
  simp only [loseStation]
  (repeat' split) <;> simp

@[simp] theorem stationLost_held (s : State) (i : Nat) : (stationLost s i).held = s.held := by simp [stationLost]

/-! ### Step 2 of a boundary -/

@[simp] theorem stationLatch_held (s : State) (t p : Nat) (d : StationDecl) : (stationLatch s t p d).held = s.held := by simp [stationLatch]
@[simp] theorem stationsLatch_held (s : State) (t : Nat) : (stationsLatch s t).held = s.held := by simp [stationsLatch]

@[simp] theorem holdPayloads_held (s : State) (t p : Nat) : (holdPayloads s t p).held = s.held :=
  held_foldl (fun s m => by split <;> simp) ..

@[simp] theorem latchLane_held (s : State) (l : Lane) (n t : Nat) : (latchLane s l n t).held = s.held := by simp [latchLane]
@[simp] theorem takeStaging_held (s : State) (t : Nat) : (takeStaging s t).held = s.held := by simp [takeStaging]
@[simp] theorem claimsLatched_held (s : State) (t : Nat) : (claimsLatched s t).held = s.held := held_congr rfl rfl
@[simp] theorem latchStep_held (s : State) (n t : Nat) : (latchStep s n t).held = s.held := by simp [latchStep]

/-! ### Step 3 of a boundary -/

@[simp] theorem commitValues_held (s : State) (ws : List OutWrite) : (commitValues s ws).held = s.held := held_congr rfl rfl
@[simp] theorem splitSafe_held (s : State) : (splitSafe s).held = s.held := by simp [splitSafe]
@[simp] theorem driveOutputs_held (s : State) (ps : List Nat) : (driveOutputs s ps).held = s.held := by simp [driveOutputs]
@[simp] theorem sendBrakeWord_held (s : State) : (sendBrakeWord s).held = s.held := held_congr rfl rfl
@[simp] theorem sendClaims_held (s : State) : (sendClaims s).held = s.held := held_congr rfl rfl

@[simp] theorem commitMessage_held (acc : State × Deliveries) (w : OutWrite) : (commitMessage acc w).1.held = acc.1.held := by
  obtain ⟨s, r⟩ := acc
  simp only [commitMessage]
  split
  · split
    · split
      · rfl
      · split <;> rename_i hc <;> simp [held_of_fst_eq hc]
    · split <;> rfl
    · rfl
  · rfl

@[simp] theorem supersede_held (s : State) (w : OutWrite) : (supersede s w).held = s.held := by
  unfold supersede
  (repeat' split) <;> simp

@[simp] theorem commitMessages_held (s : State) (ws : List OutWrite) : (commitMessages s ws).held = s.held := by
  simp only [commitMessages, ↓held_mk, held_fold, held_foldl (serList_held · · _), held_foldl_fst commitMessage_held]
  exact held_foldl (fun s k => by split <;> simp) ..

@[simp] theorem stationsCommitted_held (s : State) : (stationsCommitted s).held = s.held := by simp [stationsCommitted]

@[simp] theorem commitPassed_held (s : State) (n : Nat) (gs : List EmitGroup) (switch : Bool) :
    (commitPassed s n gs switch).held = s.held := by simp [commitPassed]

@[simp] theorem commitSafeOnly_held (s : State) : (commitSafeOnly s).held = s.held := by simp [commitSafeOnly]

@[simp] theorem commitStep_held (s : State) (n : Nat) (gs : List EmitGroup) (safeOnly switch : Bool) :
    (commitStep s n gs safeOnly switch).held = s.held := by simp [commitStep]

/-! ### Loads and stores -/

@[simp] theorem exceptAt_held (s : State) (l : Lane) (k : CtxKind) (c : LaneCtx) (kind : Nat) (a : Access) :
    (exceptAt s l k c kind a).held = s.held := by simp [exceptAt]

@[simp] theorem storeTo_held (s : State) (l : Lane) (k : CtxKind) (c : LaneCtx) (a : Access) (size : Nat) (bs : List Byte) :
    (storeTo s l k c a size bs).held = s.held := by simp [storeTo]

/-! ### Messages -/

@[simp] theorem exceptMsg_held (s : State) (l : Lane) (k : CtxKind) (c : LaneCtx) (a : Access) (e : Nat × Bool) :
    (exceptMsg s l k c a e).held = s.held := by simp [exceptMsg]

@[simp] theorem storePayload_held (s : State) (l : Lane) (k : CtxKind) (safety : Bool) (a : Access) (bs : List Byte) :
    (storePayload s l k safety a bs).held = s.held := held_foldl_fst (fun p q => by simp) ..

@[simp] theorem awaitRoom_held (s : State) (l : Lane) (k : CtxKind) : (awaitRoom s l k).held = s.held := by simp [awaitRoom]

/-! ### LANE/VOTER -/

@[simp] theorem noteDis_held (s : State) (l : Option Lane) (how kind addr : Nat) : (noteDis s l how kind addr).held = s.held :=
  held_congr rfl rfl

@[simp] theorem countDis_held (s : State) (l : Lane) : (countDis s l).held = s.held := by simp [countDis]

@[simp] theorem laneAgainst_held {s : State} (l : Lane) (kind how : Nat) (r : EffectRec) (h : s.held = true) :
    (laneAgainst s l kind how r).held = true := by simp [laneAgainst, h]

@[simp] theorem noPass_held (s : State) (kind : Nat) (r : EffectRec) : (noPass s kind r).held = true := by simp [noPass]
@[simp] theorem noteDigest_held (s : State) (l : Option Lane) : (noteDigest s l).held = s.held := held_congr rfl rfl
@[simp] theorem latent_held (s : State) (l : Lane) (vs : List Lane) : (latent s l vs).held = s.held := by simp [latent]
@[simp] theorem digestSplit_held (s : State) : (digestSplit s).held = true := by simp [digestSplit]
@[simp] theorem agreed_held (s : State) (d : W64) : (agreed s d).held = s.held := held_congr rfl rfl

@[simp] theorem compareDigests_held {s : State} (h : s.held = true) : (compareDigests s).held = true := by
  simp only [compareDigests]
  split <;> simp [h]

@[simp] theorem digestStep_held {s : State} (h : s.held = true) : (digestStep s).held = true := by simp [digestStep, h]
@[simp] theorem laneTest_held (s : State) (l : Lane) : (laneTest s l).held = s.held := by simp [laneTest]
@[simp] theorem testFailed_held (s : State) (l : Lane) : (testFailed s l).held = s.held := by simp [testFailed]

@[simp] theorem laneTestEnd_held {s : State} (l : Lane) (passed : Bool) (h : s.held = true) : (laneTestEnd s l passed).held = true := by
  simp [laneTestEnd, h]

@[simp] theorem startCopy_held (s : State) (r : Rejoin) : (startCopy s r).held = s.held := by simp [startCopy]
@[simp] theorem takeAndCopy_held (s : State) (r : Rejoin) : (takeAndCopy s r).held = s.held := by simp [takeAndCopy]

@[simp] theorem rejoin_held (s : State) (l : Lane) : (rejoin s l).held = s.held := by
  simp only [rejoin]
  split <;> simp

@[simp] theorem latentResync_held (s : State) (l : Lane) : (latentResync s l).held = s.held := by
  simp only [latentResync]
  split <;> simp

@[simp] theorem failRejoin_held {s : State} (h : s.held = true) : (failRejoin s).held = true := by
  simp only [failRejoin]
  split <;> simp [h]

@[simp] theorem rejoinCopied_held {s : State} (differs : Bool) (h : s.held = true) : (rejoinCopied s differs).held = true := by
  simp only [rejoinCopied]
  split <;> simp [h]

@[simp] theorem rejoinLate_held {s : State} (h : s.held = true) : (rejoinLate s).held = true := by
  simp only [rejoinLate]
  split <;> simp [h]

@[simp] theorem recopyStep_held {s : State} (h : s.held = true) : (recopyStep s).held = true := by
  simp only [recopyStep]
  split <;> simp [h]

@[simp] theorem enterRejoined_held (s : State) : (enterRejoined s).held = s.held := by
  simp only [enterRejoined]
  split <;> simp

@[simp] theorem leaveSet_held (s : State) (l : Lane) : (leaveSet s l).held = s.held := by simp [leaveSet]
@[simp] theorem excludeFaulted_held (s : State) (l : Lane) : (excludeFaulted s l).held = s.held := by simp [excludeFaulted]
@[simp] theorem excludeStep_held (s : State) : (excludeStep s).held = s.held := by simp [excludeStep]
@[simp] theorem allLanes_held (s : State) (role : LaneRole) : (allLanes s role).held = s.held := held_congr rfl rfl

@[simp] theorem changeMode_held (s : State) : (changeMode s).held = s.held := by
  simp only [changeMode]
  split <;> simp

@[simp] theorem voterStep_held (s : State) : (voterStep s).held = s.held := by simp [voterStep]
@[simp] theorem foxBegin_held (s : State) : (foxBegin s).held = s.held := by simp [foxBegin]
@[simp] theorem foxStep_held (s : State) : (foxStep s).held = s.held := by simp [foxStep]

@[simp] theorem foxEnd_held {s : State} (failed : Option Nat) (h : s.held = true) : (foxEnd s failed).held = true := by
  simp only [foxEnd]
  split <;> simp [h]

@[simp] theorem excludeCmd_held (s : State) (l : Lane) : (excludeCmd s l).held = s.held := held_congr rfl rfl
@[simp] theorem joinCmd_held (s : State) (l : Lane) : (joinCmd s l).held = s.held := by simp [joinCmd]

@[simp] theorem splitCmd_held (s : State) : (splitCmd s).held = s.held := by
  simp only [splitCmd]
  split <;> simp

@[simp] theorem mergeCmd_held (s : State) (warm : Bool) : (mergeCmd s warm).held = s.held := held_congr rfl rfl
@[simp] theorem foxCmd_held (s : State) : (foxCmd s).held = s.held := held_congr rfl rfl

/-! ### Commands -/

@[simp] theorem applyCommon_held {s : State} (u : UnitId) (code : Nat) (h : s.held = true) : (applyCommon s u code).held = true := by
  unfold applyCommon
  (repeat' split) <;> simp [h]

@[simp] theorem groupEnabled_held (s : State) (u : UnitId) (code : Nat) : (groupEnabled s u code).held = s.held := by simp [groupEnabled]

@[simp] theorem carryOut_held {s : State} (u : UnitId) (code : Nat) (h : s.held = true) : (carryOut s u code).held = true := by
  rw [carryOut, groupEnabled_held]
  exact held_foldl_of (fun s v hs => applyCommon_held (h := hs) ..) _ h

@[simp] theorem runCommon_held {s : State} (w : Writer) (u : UnitId) (code arg : Nat) (h : s.held = true) :
    (runCommon s w u code arg).held = true := by simp [runCommon, h]

@[simp] theorem quiescenceEnd_held {s : State} (u : UnitId) (stuck : List UnitId) (h : s.held = true) :
    (quiescenceEnd s u stuck).held = true := by
  simp only [quiescenceEnd]
  (repeat' split) <;> simp [h]

@[simp] theorem selfTestEnd_held {s : State} (u : UnitId) (passed : Bool) (h : s.held = true) : (selfTestEnd s u passed).held = true := by
  unfold selfTestEnd
  (repeat' split) <;> simp [h]

@[simp] theorem activateCmd_held (s : State) (arg : Nat) : (activateCmd s arg).held = s.held := by
  simp only [activateCmd]
  split <;> simp

@[simp] theorem confirmCmd_held (s : State) (arg : Nat) : (confirmCmd s arg).held = s.held := by
  simp only [confirmCmd]
  split <;> simp

@[simp] theorem acceptCmd_held (s : State) (w : Writer) : (acceptCmd s w).held = s.held := by
  unfold acceptCmd
  (repeat' split) <;> simp

@[simp] theorem applyCmd_held (s : State) (arg : Nat) : (applyCmd s arg).held = s.held := by
  simp only [applyCmd]
  split <;> simp

@[simp] theorem runSpecific_held {s : State} (w : Writer) (u : UnitId) (code arg : Nat) (h : s.held = true) :
    (runSpecific s w u code arg).held = true := by
  have hp (t : State) (a : Activity) (v : UnitId) : (takeTokens t a v).pwr = t.pwr := (takeTokens_same ..).same .pwr (by decide)
  unfold runSpecific
  split <;> simp [h, hp]

@[simp] theorem cardCommand_held (s : State) (w : Writer) (slot : Fin 32) (sub : Fin 17) (code arg : Nat) :
    (cardCommand s w slot sub code arg).held = s.held := by
  simp only [cardCommand]
  split <;> simp

@[simp] theorem ucbCommand_held {s : State} (w : Writer) (u : UnitId) (code arg : Nat) (h : s.held = true) :
    (ucbCommand s w u code arg).held = true := by
  unfold ucbCommand
  (repeat' split) <;> simp [h]

@[simp] theorem applyEnd_held (s : State) (arg : Nat) (code : Status) : (applyEnd s arg code).held = s.held := by
  simp only [applyEnd]
  split <;> simp

@[simp] theorem commandComplete_held (s : State) (u : UnitId) (code : Status) (data : Nat) :
    (commandComplete s u code data).held = s.held := by
  simp only [commandComplete]
  split <;> simp

/-! ### Control space -/

@[simp] theorem readEffect_held (s : State) (u : UnitId) (bank off : Nat) : (readEffect s u bank off).held = s.held := by
  unfold readEffect
  (repeat' split) <;> simp

@[simp] theorem accessFault_held (s : State) (addr kind : Nat) : (accessFault s addr kind).held = s.held := by simp [accessFault]

@[simp] theorem errorResponse_held (s : State) (w : Writer) (target : UnitId) : (errorResponse s w target).held = s.held := by
  simp only [errorResponse]
  split <;> simp

@[simp] theorem failAccess_held (s : State) (w : Writer) (addr kind : Nat) : (failAccess s w addr kind).held = s.held := by
  simp [failAccess]

@[simp] theorem absentAccess_held (s : State) (w : Writer) (u : UnitId) (addr : Nat) : (absentAccess s w u addr).held = s.held := by
  simp only [absentAccess]
  split <;> simp

@[simp] theorem readRegister_held (s : State) (w : Writer) (addr : Nat) : (readRegister s w addr).2.held = s.held := by
  unfold readRegister
  (repeat' split) <;> simp

@[simp] theorem programRead_held (s : State) (w : Writer) (l : Lane) (k : CtxKind) (addr : Nat) :
    (programRead s w l k addr).2.held = s.held := by
  unfold programRead
  split
  · split
    · split
      · rfl
      · split
        · simp
        · split
          · rename_i hc
            simpa using held_of_snd_eq hc
          · simp
    · simp
  · simp

@[simp] theorem badSetting_held (s : State) (u : UnitId) (off : Nat) : (badSetting s u off).held = s.held := by simp [badSetting]

@[simp] theorem selected?_held (s : State) (u : UnitId) (bank off : Nat) (v : W32) : (selected? s u bank off v).held = s.held := by
  simp only [selected?]
  split <;> simp

@[simp] theorem storeSetting_held (s : State) (u : UnitId) (bank off : Nat) (d : RegDef) (value : W32) :
    (storeSetting s u bank off d value).held = s.held := by simp [storeSetting]

@[simp] theorem storeClk_held (s : State) (off : Nat) (v : W32) (mirror : Nat) : (storeClk s off v mirror).held = s.held := by
  simp [storeClk]

@[simp] theorem mirrorWrite_held (s : State) (off : Nat) (v : W32) : (mirrorWrite s off v).held = s.held := by
  unfold mirrorWrite
  (repeat' split) <;> simp

@[simp] theorem cancelWrite_held (s : State) (n : Fin 6) (bank : Nat) (v : W32) : (cancelWrite s n bank v).2.held = s.held := by
  simp only [cancelWrite]
  split
  · exact canCancel_held ‹_›
  · rfl

@[simp] theorem deliverWrite_held (s : State) (u : UnitId) (bank off : Nat) (d : RegDef) (v : W32) :
    (deliverWrite s u bank off d v).2.held = s.held := by
  unfold deliverWrite
  (repeat' split) <;> simp

@[simp] theorem writeRegister_held {s : State} (w : Writer) (by_ : NearBy) (addr : Nat) (v : W32) (size : Nat) (h : s.held = true) :
    (writeRegister s w by_ addr v size).2.held = true := by
  have hc {b : Bool} {t : State} (e : cardWrite s by_ addr v = (b, t)) : t.held = true :=
    (held_of_snd_eq e).trans ((cardWrite_held ..).trans h)
  unfold writeRegister
  iterate 4 (split; · simp [h])
  split
  · split <;> simp [h]
  · split
    · iterate 4 (split; · simp [h])
      split
      · exact hc ‹_›
      · exact (failAccess_held ..).trans (hc ‹_›)
    · iterate 2 (split; · simp [h])
      split <;> simp [h]

@[simp] theorem fetchDone_held (s : State) (u : UnitId) (bank : Nat) : (fetchDone s u bank).held = s.held := by
  simp only [fetchDone]
  split <;> simp

@[simp] theorem diagFault_held (s : State) (r : DiagRead) : (diagFault s r).held = s.held := by
  simp only [diagFault]
  (repeat' split) <;> simp

@[simp] theorem diagRead_held (s : State) (r : DiagRead) : (diagRead s r).held = s.held := by simp [diagRead]

/-! ### The vote -/

@[simp] theorem passOutput_held (s : State) (p : Nat) (r : EffectRec) : (passOutput s p r).held = s.held := held_congr rfl rfl

@[simp] theorem passWrite_held {s : State} (ls : List Lane) (r : EffectRec) (h : s.held = true) : (passWrite s ls r).held = true := by
  simp [passWrite, h]

@[simp] theorem passException_held {s : State} (ls : List Lane) (r : EffectRec) (h : s.held = true) :
    (passException s ls r).held = true := by
  simp only [passException]
  (repeat' split) <;> simp [h]

@[simp] theorem passRetentive_held (s : State) (r : EffectRec) : (passRetentive s r).held = s.held := by simp [passRetentive]

@[simp] theorem passMigration_held (s : State) (r : EffectRec) : (passMigration s r).held = s.held := by
  simp only [passMigration]
  split <;> simp

@[simp] theorem passEffect_held {s : State} (ls : List Lane) (r : EffectRec) (h : s.held = true) : (passEffect s ls r).held = true := by
  simp only [passEffect]
  split <;> simp [h]

@[simp] theorem passFor_held {s : State} (ls : List Lane) (r : EffectRec) (h : s.held = true) : (passFor s ls r).held = true := by
  simp [passFor, h]

@[simp] theorem decide?_held {s : State} (o : VoteOutcome) (r : EffectRec) (h : s.held = true) : (decide? s o r).held = true := by
  simp only [decide?]
  split <;> simp [h]

@[simp] theorem voteDecision_held {s : State} (outOfSlot : Option Lane) (bad : Option Comparator) (h : s.held = true) :
    (voteDecision s outOfSlot bad).held = true := by
  have hd (hs : List (Lane × EffectRec)) {t : State} (ht : t.held = true) : (if t.voter.halted then t else
      match hs.filter fun (h : Lane × EffectRec) => decide (h.1 ∈ voteSet t) with
      | h :: _ => decide? t (voteOf bad (hs.filter fun (h : Lane × EffectRec) => decide (h.1 ∈ voteSet t))) h.2
      | [] => t).held = true := by (repeat' split) <;> simp [ht]
  simp only [voteDecision]
  split
  · exact h
  · split
    · split <;> simp [h]
    · split
      · exact h
      · exact hd _ (by (repeat' split) <;> simp [h])

@[simp] theorem lateAt_held {s : State} (l : Lane) (h : s.held = true) : (lateAt s l).held = true := by
  unfold lateAt
  (repeat' split) <;> simp [h]

/-! ### Waits of the SYS group -/

@[simp] theorem fenceDone_held (s : State) (l : Lane) : (fenceDone s l).held = s.held := by
  simp only [fenceDone]
  split <;> simp

@[simp] theorem twaitDone_held (s : State) (l : Lane) (t : Nat) : (twaitDone s l t).held = s.held := by
  simp only [twaitDone]
  (repeat' split) <;> simp

@[simp] theorem tryRead_held (s : State) (l : Lane) (k : CtxKind) (addr : Nat) : (tryRead s l k addr).held = s.held := by
  simp only [tryRead]
  split
  · split <;> simp
  · split
    · rfl
    · split <;> rename_i hp <;> simp [held_of_snd_eq hp]

@[simp] theorem ackWrites_held (s : State) (l : Lane) (k : CtxKind) : (ackWrites s l k).held = s.held := by simp [ackWrites]

@[simp] theorem urdDone_held (s : State) (l : Lane) : (urdDone s l).held = s.held := by
  simp only [urdDone]
  (repeat' split) <;> simp

/-! ### The guard -/

@[simp] theorem suspendAll_held (s : State) : (suspendAll s).held = s.held := held_congr rfl rfl
@[simp] theorem gatherPages_held (s : State) (pages : List (Lane × List Nat)) : (gatherPages s pages).held = s.held := by simp [gatherPages]
@[simp] theorem stopController_held (s : State) (task cause : Nat) : (stopController s task cause).held = s.held := by simp [stopController]
@[simp] theorem noteSkip_held (s : State) (p t : Nat) : (noteSkip s p t).held = s.held := by simp [noteSkip]
@[simp] theorem skipTasks_held (s : State) (p : Nat) (ts : List Nat) : (skipTasks s p ts).held = s.held := by simp [skipTasks]

@[simp] theorem overrun_held (s : State) (p : Nat) : (overrun s p).held = s.held := by
  unfold overrun
  (repeat' split) <;> simp

@[simp] theorem overruns_held (s : State) : (overruns s).held = s.held := by simp [overruns]
@[simp] theorem noteSlack_held (s : State) : (noteSlack s).held = s.held := by simp [noteSlack]

@[simp] theorem retentiveEmission_held (s : State) : (retentiveEmission s).held = s.held := by
  unfold retentiveEmission
  (repeat' split) <;> simp

@[simp] theorem guardBegin_held (s : State) : (guardBegin s).held = s.held := by simp [guardBegin]
@[simp] theorem guardRest_held {s : State} (h : s.held = true) : (guardRest s).held = true := by simp [guardRest, h]
@[simp] theorem guardGo_held {s : State} (h : s.held = true) : (guardGo s).held = true := by simp [guardGo, h]
@[simp] theorem guardWork_held {s : State} (h : s.held = true) : (guardWork s).held = true := by simp [guardWork, h]
@[simp] theorem guardClose_held {s : State} (h : s.held = true) : (guardClose s).held = true := by simp [guardClose, h]
@[simp] theorem boundaryMissed_held {s : State} (h : s.held = true) : (boundaryMissed s).held = true := by simp [boundaryMissed, h]
@[simp] theorem preempt_held (s s' : State) (l : Lane) (i : Nat) : (preempt s s' l i).held = s'.held := by simp [preempt]
@[simp] theorem safetyWindow_held (s : State) (i : Nat) : (safetyWindow s i).held = s.held := by simp [safetyWindow]

/-! ### What the module measures -/

@[simp] theorem sampleSupply_held (v : Nat) (s : State) : (sampleSupply v s).held = s.held := held_congr rfl rfl
@[simp] theorem sampleField_held (v : Nat) (s : State) : (sampleField v s).held = s.held := by simp [sampleField]
@[simp] theorem sampleLinks_held (v : Nat) (s : State) : (sampleLinks v s).held = s.held := by simp [sampleLinks]
@[simp] theorem sampleAll_held (s : State) : (sampleAll s).held = s.held := by simp [sampleAll]

/-! ### The shadow swap -/

@[simp] theorem imageSetting_held (s : State) (e : Nat × Nat × W32) : (imageSetting s e).held = s.held := by
  unfold imageSetting
  (repeat' split) <;> simp

@[simp] theorem imageSettings_held (s : State) : (imageSettings s).held = s.held := by simp [imageSettings]
@[simp] theorem offsetSwap_held (s : State) (ws : List Swapped) : (offsetSwap s ws).held = s.held := by simp [offsetSwap]
@[simp] theorem rangeSwap_held (s : State) (ws : List Swapped) (g : Fin 4) : (rangeSwap s ws g).held = s.held := by simp [rangeSwap]
@[simp] theorem canSwaps_held (s : State) (ws : List Swapped) (n : Fin 6) : (canSwaps s ws n).held = s.held := by simp [canSwaps]

@[simp] theorem ethSwaps_held {s : State} (ws : List Swapped) (x : Fin 4) (h : s.held = true) : (ethSwaps s ws x).held = true := by
  simp [ethSwaps, h]

@[simp] theorem pgSwap_held (s : State) (ws : List Swapped) (t k : Nat) : (pgSwap s ws t k).held = s.held := by simp [pgSwap]
@[simp] theorem clkSwaps_held (s : State) (ws : List Swapped) : (clkSwaps s ws).held = s.held := by simp [clkSwaps]
@[simp] theorem bucketSwaps_held (s : State) (ws : List Swapped) : (bucketSwaps s ws).held = s.held := by simp [bucketSwaps]

@[simp] theorem shadowSwap_held {s : State} (t : Nat) (h : s.held = true) : (shadowSwap s t).held = true := by
  have he (ws : List Swapped) {r : State} (hr : r.held = true) : ((List.finRange 4).foldl (fun s x => ethSwaps s ws x) r).held = true :=
    held_foldl_of (fun s x hs => ethSwaps_held (h := hs) ..) _ hr
  simp only [shadowSwap, pgSwap_held, resource_held, bucketSwaps_held, clkSwaps_held]
  exact he _ (by simp [h])

@[simp] theorem openUnits_held {s : State} (h : s.held = true) : (openUnits s).held = true := by
  rw [openUnits, loadDirectory_held]
  exact held_foldl_of (fun s u hs => by simp [hs]) _ h

/-! ### The boundary sequence -/

@[simp] theorem forgetCount_held (s : State) (n : Nat) : (forgetCount s n).held = s.held := by simp [forgetCount]
@[simp] theorem setAlign_held (s : State) (a : Align) (rephased : Bool) : (setAlign s a rephased).held = s.held := held_congr rfl rfl

@[simp] theorem takePoint_held (s : State) (g : GridPoint) : (takePoint s g).held = s.held := by
  simp only [takePoint]
  split <;> simp

@[simp] theorem noteLate_held (s : State) (lag bph : Nat) : (noteLate s lag bph).held = s.held := by simp [noteLate]
@[simp] theorem dropWork_held (s : State) : (dropWork s).held = s.held := held_congr rfl rfl

@[simp] theorem standDown_held (s : State) : (standDown s).held = s.held := by
  simp only [standDown]
  split <;> simp

@[simp] theorem seizeLinked_held (s : State) : (seizeLinked s).held = s.held := held_congr rfl rfl
@[simp] theorem runFromCopy_held (s : State) : (runFromCopy s).held = s.held := held_congr rfl rfl
@[simp] theorem pairStep_held (s : State) (n : Nat) : (pairStep s n).held = s.held := by simp [pairStep]

@[simp] theorem composeUnits_held (s : State) : (composeUnits s).held = s.held :=
  held_foldl (fun s p => held_foldl (fun s d => by split <;> simp) ..) ..

@[simp] theorem releaseMerge_held (s : State) : (releaseMerge s).held = s.held := by simp [releaseMerge]
@[simp] theorem beginTicks_held (s : State) : (beginTicks s).held = s.held := by simp [beginTicks]
@[simp] theorem clearFigures_held (s : State) : (clearFigures s).held = s.held := held_congr rfl rfl

@[simp] theorem endRestart_held (s : State) (code : Status) (kind : Nat) : (endRestart s code kind).held = s.held := by
  simp only [endRestart]
  (repeat' split) <;> simp

@[simp] theorem restartNow_held (s : State) (warm : Bool) : (restartNow s warm).held = s.held := by simp [restartNow]

@[simp] theorem adoptLoaded_held (s : State) (inp : PlaceInput) (ms : List PMap) : (adoptLoaded s inp ms).held = s.held := by
  simp [adoptLoaded]

@[simp] theorem startProgram_held (s : State) : (startProgram s).held = s.held := by simp [startProgram]

@[simp] theorem programStep_held (s : State) : (programStep s).1.held = s.held := by
  unfold programStep
  (repeat' split) <;> simp

@[simp] theorem enterSplit_held (s : State) : (enterSplit s).held = s.held := by simp [enterSplit]
@[simp] theorem takeChanges_held (s : State) : (takeChanges s).held = s.held := by simp [takeChanges]
@[simp] theorem layoutAll_held (s : State) : (layoutAll s).held = s.held := held_congr rfl rfl

@[simp] theorem trialStep_held (s : State) : (trialStep s).held = s.held := by
  simp only [trialStep]
  split <;> simp

@[simp] theorem swapStep_held {s : State} (t : Nat) (h : s.held = true) : (swapStep s t).held = true := by simp [swapStep, h]
@[simp] theorem retryStep_held (s : State) : (retryStep s).held = s.held := by simp [retryStep]
@[simp] theorem modeStep_held (s : State) (n : Nat) : (modeStep s n).held = s.held := by simp [modeStep]

theorem withoutNewLosses_held {s : State} {f : State → State} (hf : ∀ t, (f t).held = t.held) (lost : List Resource) :
    (withoutNewLosses s lost f).held = s.held := by
  simp [withoutNewLosses, hf]

@[simp] theorem step1_held {s : State} (n t : Nat) (h : s.held = true) : (step1 s n t).1.held = true := by
  simp [step1, withoutNewLosses_held (modeStep_held · n), h, apply_ite Prod.fst]

@[simp] theorem coalesce_held (s : State) : (coalesce s).held = s.held := by
  simp only [coalesce]
  split <;> simp

@[simp] theorem copyStep_held (s : State) (n : Nat) : (copyStep s n).held = s.held := by simp [copyStep]

@[simp] theorem linkedHandover_held (s : State) (n : Nat) : (linkedHandover s n).held = s.held := by
  simp only [linkedHandover]
  (repeat' split) <;> simp

@[simp] theorem clearLeaveOut_held (s : State) (pn : Nat) (ks : List Nat) : (clearLeaveOut s pn ks).held = s.held := by
  simp only [clearLeaveOut]
  split <;> simp

@[simp] theorem activate_held (s : State) (prev n : Nat) : (activate s prev n).held = s.held :=
  (held_foldl (fun s pn => by simp) ..).trans (held_foldl (fun s l => by split <;> simp) ..)

@[simp] theorem step5_held (s : State) (prev n t : Nat) : (step5 s prev n t).held = s.held := by simp [step5]

@[simp] theorem runBoundary_held {s : State} (g : GridPoint) (lag bph : Nat) (h : s.held = true) :
    (runBoundary s g lag bph).held = true := by simp [runBoundary, h]

@[simp] theorem noteStart_held (s : State) : (noteStart s).held = s.held := by simp [noteStart]

/-- A boundary keeps the module held, whether it runs or gives way to a reset that is due. -/
@[simp] theorem boundaryAt_held {s : State} (at_ lag bph : Nat) (h : s.held = true) : (boundaryAt s at_ lag bph).held = true := by
  have hg {t : State} (ht : t.held = true) : (guardClose (if guardDue t then guardWork t else t)).held = true :=
    guardClose_held (h := by split <;> simp [ht])
  simp only [boundaryAt]
  split
  · exact h
  · split
    · simp
    · exact runBoundary_held (h := by simp [hg, h]) ..

/-! ### Cells -/

@[simp] theorem cellBack_held (s : State) (l : Lane) (k : CtxKind) (c : LaneCtx) (a : Access) (bs : List Byte) :
    (cellBack s l k c a bs).held = s.held := by
  simp only [cellBack]
  split <;> simp

/-! ### Calls and the stack -/

@[simp] theorem fbcall_held (s : State) (l : Lane) (k : CtxKind) (c : LaneCtx) (target sig : Nat) :
    (fbcall s l k c target sig).held = s.held := by
  simp only [fbcall]
  split <;> simp

@[simp] theorem fbret_held (s : State) (l : Lane) (k : CtxKind) (c : LaneCtx) : (fbret s l k c).held = s.held := by simp [fbret]

@[simp] theorem moveSp_held (s : State) (l : Lane) (k : CtxKind) (c : LaneCtx) (sp : Int) : (moveSp s l k c sp).held = s.held := by
  simp [moveSp]

/-! ### The start -/

@[simp] theorem beginStart_held (s : State) (k : Nat) : (beginStart s k).held = s.held := held_congr rfl rfl
@[simp] theorem oscReady_held (s : State) (o : Osc) : (oscReady s o).held = s.held := by simp [oscReady]
@[simp] theorem pllLock_held {s : State} (h : s.held = true) : (pllLock s).held = true := by simp [pllLock, h]
@[simp] theorem scanDone_held (s : State) : (scanDone s).held = s.held := by simp [scanDone]

@[simp] theorem startLane_held (passed : Bool) {s : State} (l : Lane) (h : s.held = true) : (startLane passed s l).held = true := by
  simp [startLane, h]

@[simp] theorem readRecords_held (s : State) : (readRecords s).held = s.held := held_congr rfl rfl

@[simp] theorem foxDone_held {s : State} (seen : List (Nat × List FoxFlag)) (bist : Bool × Bool × Bool) (h : s.held = true) :
    (foxDone s seen bist).held = true := by
  have hl (a b c : Bool) {t : State} (ht : t.held = true) : (startLane c (startLane b (startLane a t .a) .b) .c).held = true :=
    startLane_held (h := startLane_held (h := startLane_held (h := ht) ..) ..) ..
  simp [foxDone, h, hl]

@[simp] theorem startCard_held (s : State) (slot : Fin 32) (rec : List Byte) : (startCard s slot rec).held = s.held := by
  simp only [startCard]
  split <;> simp

@[simp] theorem applyTransition_held (s : State) : (applyTransition s).held = s.held := by
  simp only [applyTransition]
  split <;> simp

@[simp] theorem chooseSlot_held (s : State) : (chooseSlot s).held = s.held := by simp [chooseSlot]
@[simp] theorem reportFallback_held (s : State) : (reportFallback s).held = s.held := by simp [reportFallback]

@[simp] theorem stopForImage_held {s : State} (h : s.held = true) : (stopForImage s).held = true := by
  have hs := stopStart_held 5 1 h
  simp only [stopForImage]
  split
  · split
    · exact hs
    · exact autoApply_held (h := hs) ..
  · exact hs

@[simp] theorem acceptImage_held (s : State) (g : ProgramImage) : (acceptImage s g).held = s.held := by simp [acceptImage]
@[simp] theorem beginCompute_held (s : State) : (beginCompute s).held = s.held := held_congr rfl rfl

@[simp] theorem bootSlot_held {s : State} (h : s.held = true) : (bootSlot s).held = true := by
  simp only [bootSlot]
  (repeat' split) <;> simp [h]

@[simp] theorem applyImage_held {s : State} (h : s.held = true) : (applyImage s).held = true := by simp [applyImage, h]

@[simp] theorem startRecord_held {s : State} (slot : Nat) (rec : List Byte) (h : s.held = true) : (startRecord s slot rec).held = true := by
  unfold startRecord
  (repeat' split) <;> simp [h]

@[simp] theorem idmRead_held {s : State} (slot : Fin 33) (rec : List Byte) (h : s.held = true) : (idmRead s slot rec).held = true := by
  unfold idmRead
  (repeat' split) <;> simp [h]

@[simp] theorem setReady_held {s : State} (mismatch : Bool) (us : Nat) (h : s.held = true) : (setReady s mismatch us).held = true := by
  simp only [setReady]
  split <;> rename_i hl <;> simp [held_of_snd_eq hl, h]

@[simp] theorem restartSet_held (s : State) (mismatch : Bool) (us : Nat) : (restartSet s mismatch us).held = s.held := by
  simp only [restartSet]
  split <;> simp

@[simp] theorem mapComplete_held {s : State} (mismatch : Bool) (us : Nat) (h : s.held = true) :
    (mapComplete s mismatch us).held = true := by simp [mapComplete, h]

@[simp] theorem brakeSettings_held (s : State) : (brakeSettings s).held = s.held := held_foldl (fun s e => by split <;> simp) ..
@[simp] theorem beginBrakeStep_held (s : State) : (beginBrakeStep s).held = s.held := by simp [beginBrakeStep]
@[simp] theorem resync_held (s : State) (p : PeerIdentity) : (resync s p).held = s.held := by simp [resync]
@[simp] theorem beaconWait_held (s : State) : (beaconWait s).held = s.held := by simp [beaconWait]
@[simp] theorem stepTimeout_held {s : State} (h : s.held = true) : (stepTimeout s).held = true := by simp [stepTimeout, h]
end Sys2Proof.Machine
end

section
/-! Every command that gives a next state keeps the module held, but for the reset release of a module in reset. -/

namespace Sys2Proof.Machine

open Sys2Proof

/-- An instruction of a lane brings neither reset nor the safe state: what it presents goes to the voter. -/
theorem exec_instruction_held (s : State) {i : Instr} (hi : i.cmdClass = .instruction) : Gives i s (·.held = s.held) := by
  cases i with
  | mov | movhi | sel | rdcf | wrcf | rdqf | rdtk | add | sub | mul | div | mod | neg | abs | min | max | limit | mulh | fadd | fsub
  | fmul | fdiv | fsqrt | fabs | fneg | fmin | fmax | fma | flimit | cvt | trunc | and | or | xor | andn | not | shl | shr | sar | rol
  | ror | btst | bset | bclr | binv | bext | bins | popc | clz | cmp | qtst | qmax | li | addi => exact ⟨_, rfl, compute_held ..⟩
  | wrqf | b | fbcall | fbret | enter | leave | qout | qclr | cmt | nop | fence | trap =>
    exact ⟨_, rfl, issue_held (fun k c => by simp) ..⟩
  | ld | st | ldq | ref | jr | msend | mrecv | mstat | vsync | twait | yield | urd | uwr
  | ton | tof | tp | ctu | ctd | ctud | rtrig | ftrig =>
    refine ⟨_, rfl, issue_held (fun k c => ?_) ..⟩
    dsimp only
    (repeat' split) <;> simp
  | _ => cases hi

/-- A writer's command or access keeps the module held. -/
theorem exec_written_held {s : State} (h : s.held = true) {i : Instr} (hi : i.cmdClass = .written) : Gives i s (·.held = true) := by
  cases i with
  | enable | start | quiesce | gateOff | test | clear | reset | nopCommand | restart | rebalance | placeReturn | profileStart
  | profileStop | adopt | exclude | join | split | merge | foxglove | switchover | resync | detach | ack | inject | brakeTest
  | pulseRetime | recover | timeSet | rescan | lock | closeService | apply | activate | confirm | abort | acceptChange
  | restartHandover | moduleReset => exact ⟨_, rfl, ucbCommand_held (h := h) ..⟩
  | registerWrite | placeRdSelWrite | cannFiltSelWrite | netDirSelWrite | hlkIdmSelWrite | timeSnapSelWrite | fltHistSelWrite
  | cannTxCancel | c71MirrorWrite => exact ⟨_, rfl, writeRegister_held (h := h) ..⟩
  | resultWindowRead => exact ⟨_, rfl, (readRegister_held ..).trans h⟩
  | _ => cases hi

/-- Reset release, the one command that ends a hold, acts on a module in reset alone. -/
theorem resetRelease_outside_reset {s : State} (hr : s.pwr.inReset = false) (straps : Option (BitVec 13)) (cards : W32) :
    resetRelease s straps cards = s := by
  simp [resetRelease, hr]

/-- An event outside reset keeps the module held. -/
theorem exec_event_held {s : State} (h : s.held = true) (hr : s.pwr.inReset = false) {i : Instr} (hi : i.cmdClass = .event) :
    Gives i s (·.held = true) := by
  cases i with
  | resetRelease => exact ⟨s, congrArg Host.Outcome.next (resetRelease_outside_reset hr ..), h⟩
  | challenge | challengeResponse | unlockToken | debugIntrusive | returnRequest | package | svcSession =>
    exact ⟨_, rfl, outsideReset_held h (by simp [h])⟩
  | supplyLow b | supplyHigh b | fieldSupplyRecovered b => cases b <;> exact ⟨_, rfl, by simp [h]⟩
  | loadDataReturn | clkFail => exact ⟨_, rfl, by split <;> simp [h]⟩
  | scrub => exact ⟨_, rfl, by dsimp only; (repeat' split) <;> simp [h]⟩
  | oscWaitExpiry | pllLock | recorderScan | foxgloveTestEnd | idmReadComplete | placementMapComplete | startStepTimeout | boundary
  | unitResetRestart | reactionWindowClose | guardStart | boundaryMissed | safetyWindowStart | windowOver | fenceCompletion
  | twaitCompletion | urdCompletion | voteDecision | late | rejoin | rejoinCopyComplete | rejoinFail | latentResync | quiescenceEnd
  | commandComplete | selfTestEnd | fetchComplete | migrateTimeout | profileComplete | combinedLoss | resourceReturn | beacon
  | beaconsAbsent | partnerResync | beaconWaitTimeout | syncTimeout | stateCopy | copyMissing | revertDue | brakeWord
  | brakeWordTimeout | stationLost | faultMessage | injectMissed | degradeExpired | offPulse | offPulseEvaluation | extFeedPersist
  | readbackCheck | pulseStarved | brakeFeedbackCheck | brakeNorel | brakeTestStep | btestDue | edge | diBreak | diOvervolt
  | rangeSettled | doOverload | doOvertemp | doOpen | doFeed | canFrameReceived | queueDrain | transmitChoice | frameTransmitted
  | frameError | recoveryComplete | referenceMessage | tmLost | tmMaster | ethLinkChange | sync | telegramReceived | inauguration
  | poll | serialResponse | respTimeout | measurement | tim0Edge | srcLost | holdExpired | pulseInstant | captureEdge
  | cardReadCompletion | readTimeout | cardRequest | lockedSequence | lockTimeout | statusPacket | hlkLinkDown | cardAbsent
  | cardPresence | referenceQualified | clockSourceChange | refUnqual | slewComplete | recordWrite | tokenRefill | lockoutExpiry
  | diagnosticsRead | erasureComplete | trialExpired | pfWarn | powerReturn | shutdown | resetEntry | externalReset | presenceOpen
  | brownout | watchdog | safeRestart | strapChanged | tempHigh | tempCrit | sweetpeaLinkChange | copyAcknowledged | hollyhockLinkUp
  | breakCleared | junctionCooled | openLoadCleared | busIntegration | pathDelayMeasurement | bestMasterClock =>
    exact ⟨_, rfl, by simp [h]⟩
  | _ => cases hi

/-- Outside reset every command keeps the module held. -/
theorem exec_held {s : State} (h : s.held = true) (hr : s.pwr.inReset = false) (i : Instr) : Gives i s (·.held = true) := by
  cases hi : i.cmdClass with
  | instruction =>
    obtain ⟨t, ht, he⟩ := exec_instruction_held s hi
    exact ⟨t, ht, he.trans h⟩
  | written => exact exec_written_held h hi
  | event => exact exec_event_held h hr hi

/-- Outside reset every step keeps the module held. -/
theorem step_held {s t : State} (h : s.held = true) (hr : s.pwr.inReset = false) (hs : step s = .next t) : t.held = true := by
  unfold step at hs
  split at hs
  · obtain rfl := Host.Outcome.next.inj hs
    exact (clockTick_held s).trans h
  · rename_i c rest _
    obtain ⟨u, hu, hh⟩ := exec_held (s := { s with pending := rest }) h hr c
    obtain rfl := Host.Outcome.next.inj (hs.symm.trans hu)
    exact hh

end Sys2Proof.Machine
end

section
/-! What a module that does not run claims, and what a standby that does not run leaves undone (R265, R308). -/

namespace Sys2Proof.Machine

open Sys2Proof

variable {s : State}

theorem running_of_safe (h : s.safe.safe = true) : running s = false := by simp [running, h]

/-- HEALTH.RUNNING, its bit 5, is 0 (Table PAIR-2). -/
theorem health_lt_of_not_running (h : running s = false) : health s < 32 := by
  have bit (b : Bool) : b2n b ≤ 1 := by cases b <;> decide
  have h5 : b2n (running s) = 0 := by rw [h]; rfl
  have h4 := bit (decide (s.voter.mode = .triple))
  have h3 := bit (!s.voter.degraded)
  have h2 := bit (s.pair.link0 && s.pair.link1)
  have h1 := bit ((usedLinks s).all (hlkUp s))
  have h0 := bit (decide (s.tick.align = .aligned))
  unfold health
  omega

theorem confirmCause_of_not_running (h : running s = false) : confirmCause s = s := by simp [confirmCause, h]

theorem handoverDue_of_not_running (h : running s = false) (n : Nat) : handoverDue s n = false := by simp [handoverDue, h]

theorem syncFormed_role (s : State) : (syncFormed s).pair.role = s.pair.role := by
  unfold syncFormed
  rw [(healthy_same ..).same .pair (by decide), (noteGroups_same _).same .pair (by decide)]
  rfl

theorem revertStep_role (s : State) : (revertStep s).pair.role = s.pair.role := by
  unfold revertStep
  split <;> rfl

/-- At a boundary a standby that does not run takes over for no cause and no hand-over: it forms sync or counts on, and claims again. -/
theorem pairStep_standby_of_not_running (h : running s = false) (hr : s.pair.role = .standby) (n : Nat) :
    (pairStep s n).pair.role = .standby := by
  simp only [pairStep, hr, h, handoverDue_of_not_running h, if_true, Bool.and_false, Bool.false_and, Bool.false_eq_true, if_false]
  split
  · exact (syncFormed_role s).trans hr
  · exact (revertStep_role s).trans hr

end Sys2Proof.Machine
end

section

namespace Sys2Proof.Machine

/-- Settles O59: outside reset every step keeps the module held (R308), and a standby in the safe state does not run, so that it neither
confirms a cause (R265) nor follows an announced hand-over (R268, R504; log entry 21). -/
theorem theSafeStateEndsOnlyByAReset : Obligations.TheSafeStateEndsOnlyByAReset := by
  intro s hsafe
  have hrun := running_of_safe hsafe
  refine ⟨fun t hr hs => ?_, fun hrole =>
    ⟨health_lt_of_not_running hrun, confirmCause_of_not_running hrun, pairStep_standby_of_not_running hrun hrole⟩⟩
  exact (held_iff.1 (step_held (held_iff.2 (.inr hsafe)) hr hs)).symm

end Sys2Proof.Machine
end

section
/-! SUPPORT. What CLK_MON.FAILED holds after a clock has failed (R451, R452): which operations leave the marks alone, and what each of
FRC, SRC and the TCXO adds to them. -/

namespace Sys2Proof.Machine

open Sys2Proof

/-! ### Operations that add no mark -/

theorem dropActivity_failed (s : State) (a : Activity) : (dropActivity s a).clk.failed = s.clk.failed := by
  have keep (us : List UnitId) (t : State) : (us.foldl leaveMaint t).clk = t.clk :=
    (SameBut.foldl (ps := [.ucbs]) leaveMaint_same us t).same .clk (by decide)
  have drop (t : State) : (dropRejoin t).clk = t.clk := (dropRejoin_same t).same .clk (by decide)
  cases a with
  | foxglove => exact congrArg ClkState.failed (keep _ _)
  | splitJoin => exact congrArg ClkState.failed ((keep _ _).trans (drop _))
  | brakeTest | clockChange | firmwareApply | partnerResync | offPulseRetime => rfl

/-- The end of an activity, a clock-source change too, leaves the marks of failed clocks as they are. -/
@[simp] theorem endActivity_failed (s : State) (a : Activity) : (endActivity s a).clk.failed = s.clk.failed := by
  have fin : (releaseTokens (failRunning s a) a).clk = s.clk :=
    ((failRunning_same s a).trans (releaseTokens_same _ a)).same .clk (by decide)
  rw [endActivity_eq]
  split
  · rfl
  · rw [dropActivity_failed, fin]

@[simp] theorem forcedSwitch_failed (s : State) (core system : Bool) : (forcedSwitch s core system).clk.failed = s.clk.failed := by
  simp [forcedSwitch]

/-- The clock event and the safe state that follows it leave CLK as it is. -/
@[simp] theorem clkFailMessage_clk (s : State) : (clkFailMessage s).clk = s.clk :=
  ((setUcb_same ..).mono (by decide) |>.trans (enterSafe_same _ _)).same .clk (by decide)

@[simp] theorem raise_clk (s : State) (u : UnitId) (k a : Nat) : (raise s u k a).clk = s.clk := (raise_same ..).same .clk (by decide)

/-! ### The mark of one clock -/

theorem clkMark_failed {c : ClockId} {b : Nat} (hb : clkMonBit c = some b) (s : State) :
    (clkMark s c).clk.failed = s.clk.failed ||| 2 ^ b := by
  simp only [clkMark, hb]
  rfl

/-- One clock is marked failed, and the marks of the others stay. -/
def MarksOnly (b : Nat) (s t : State) : Prop :=
  t.clk.failed.testBit b = true ∧ ∀ n, n ≠ b → t.clk.failed.testBit n = s.clk.failed.testBit n

theorem MarksOnly.refl {s : State} {b : Nat} (h : s.clk.failed.testBit b = true) : MarksOnly b s s := ⟨h, fun _ _ => rfl⟩

theorem MarksOnly.of_clkMark {c : ClockId} {b : Nat} (hb : clkMonBit c = some b) {s t : State}
    (h : t.clk.failed = (clkMark s c).clk.failed) : MarksOnly b s t := by
  rw [clkMark_failed hb] at h
  refine ⟨?_, fun n hn => ?_⟩
  · rw [h, Nat.testBit_or, Nat.testBit_two_pow_self, Bool.or_true]
  · rw [h, Nat.testBit_or, Nat.testBit_two_pow_of_ne hn.symm, Bool.or_false]

/-! ### The failure of one clock -/

variable {s : State}

/-- A domain that fails with FRC failed before resets the module (R452). -/
theorem domainFail_of_frc_failed (h : s.clk.failed.testBit 0 = true) (f : State → State) : domainFail s f = enterReset s .clock :=
  if_pos h

/-- A domain that fails while FRC runs does its part and sends the clock event (R452, R454). -/
theorem domainFail_of_frc_runs (h : s.clk.failed.testBit 0 = false) (f : State → State) :
    domainFail s f = clkFailMessage (f s) := by
  simp [domainFail, h]

@[simp] theorem fallBack_pwr (s : State) : (fallBack s).pwr = s.pwr := by
  simp only [fallBack]
  split <;> rfl

/-- Reset entry puts the module in reset, where it is not in it (R513). -/
theorem enterReset_inReset (h : s.pwr.inReset = false) (cause : ResetCause) : (enterReset s cause).pwr.inReset = true := by
  simp only [enterReset, h, Bool.false_eq_true, if_false]
  split
  · rw [fallBack_pwr]
  · rfl

theorem tcxoRefFailed_failed (h : s.clk.failed.testBit 0 = false) :
    (tcxoRefFailed s).clk.failed = (clkMark s .tcxo).clk.failed := by
  rw [tcxoRefFailed, domainFail_of_frc_runs h, clkFailMessage_clk]
  exact forcedSwitch_failed ..

theorem clkFail_frc_marks (h : monitorArmed s .frc = true) : MarksOnly 0 s (clkFail s .frc) := by
  simp only [clkFail, h, Bool.not_true, Bool.false_eq_true, if_false]
  split
  · rename_i failedBefore
    exact MarksOnly.refl failedBefore
  · exact MarksOnly.of_clkMark rfl (congrArg ClkState.failed (raise_clk ..))

theorem clkFail_src_marks (h : monitorArmed s .src = true) : MarksOnly 1 s (clkFail s .src) := by
  simp only [clkFail, h, Bool.not_true, Bool.false_eq_true, if_false]
  exact MarksOnly.of_clkMark rfl (congrArg ClkState.failed (raise_clk ..))

/-- The TCXO is marked, but where it is the reference and FRC has failed: then the module resets (Table CLK-5). -/
theorem clkFail_tcxo_marks_or_resets (h : monitorArmed s .tcxo = true) (hr : s.pwr.inReset = false) :
    (s.clk.refInUse = 0 ∧ s.clk.failed.testBit 0 = true ∧ (clkFail s .tcxo).pwr.inReset = true) ∨
      MarksOnly 2 s (clkFail s .tcxo) := by
  simp only [clkFail, h, Bool.not_true, Bool.false_eq_true, if_false]
  split
  · rename_i failedBefore
    exact .inr (MarksOnly.refl failedBefore)
  split
  · rename_i inUse
    cases frc : s.clk.failed.testBit 0 with
    | true =>
      refine .inl ⟨inUse, rfl, ?_⟩
      rw [tcxoRefFailed, domainFail_of_frc_failed frc]
      exact enterReset_inReset hr .clock
    | false => exact .inr (MarksOnly.of_clkMark rfl (tcxoRefFailed_failed frc))
  · exact .inr (MarksOnly.of_clkMark rfl (congrArg ClkState.failed (clkFailMessage_clk _)))

/-! ### What a finding leads to -/

theorem exec_clkFail_of_failed {f : ClkFinding} {c : ClockId} (h : clockFailed f = some c) :
    exec (.clkFail f) s = .next (clkFail s c) := by
  change execClkFail f s = _
  rw [execClkFail, h]

theorem exec_clkFail_of_none {f : ClkFinding} (h : clockFailed f = none) : exec (.clkFail f) s = .next s := by
  change execClkFail f s = _
  rw [execClkFail, h]

/-- Two pairs out of three that agree, or all three, fail no clock (R451). -/
theorem clockFailed_of_single_disagreement {frcTcxo frcSrc tcxoSrc : Bool}
    (h : (frcTcxo = false ∧ frcSrc = false) ∨ (frcTcxo = false ∧ tcxoSrc = false) ∨ (frcSrc = false ∧ tcxoSrc = false)) :
    clockFailed (.compared frcTcxo frcSrc tcxoSrc) = none := by
  rcases h with ⟨rfl, rfl⟩ | ⟨rfl, rfl⟩ | ⟨rfl, rfl⟩ <;> simp [clockFailed]

end Sys2Proof.Machine
end

section

namespace Sys2Proof.Machine

/-- Settles O39: the clock that disagrees with both others is the one that fails (R451), its failure marks it alone, and only the TCXO,
in use with FRC failed, resets the module instead (R452). -/
theorem clocksJudgeOneAnotherTwoOutOfThree : Obligations.ClocksJudgeOneAnotherTwoOutOfThree := by
  intro s frcTcxo frcSrc tcxoSrc hr fails
  refine ⟨?frc, ?tcxo, ?src, fun agree => exec_clkFail_of_none (clockFailed_of_single_disagreement agree)⟩
  case frc =>
    rintro rfl rfl rfl armed
    exact ⟨_, exec_clkFail_of_failed rfl, .inr (clkFail_frc_marks armed)⟩
  case tcxo =>
    rintro rfl rfl rfl armed
    exact ⟨_, exec_clkFail_of_failed rfl, (clkFail_tcxo_marks_or_resets armed hr).imp_left fun resets => ⟨rfl, resets⟩⟩
  case src =>
    rintro rfl rfl rfl armed
    exact ⟨_, exec_clkFail_of_failed rfl, .inr (clkFail_src_marks armed)⟩

end Sys2Proof.Machine
end

section
/-! SUPPORT. Every byte store keeps its canonical form (log entry 4): first the stores of each part of the state, then one lemma for each
operation that a step can use, in the order of the model. -/

namespace Sys2Proof.Machine

open Sys2Proof

/-! ### The byte stores of the parts of the state -/

/-- The retentive generations of the program have their canonical form. -/
def ProgState.memOk (x : ProgState) : Bool := Memory.wf x.retA.bytes && Memory.wf x.retB.bytes

/-- The generations saved with the image slots have their canonical form. -/
def UpdState.memOk (x : UpdState) : Bool := x.a.memOk && x.b.memOk

/-- The mailboxes of the cards have their canonical form. -/
def cardsOk (m : NMap CardState) : Bool := m.all fun c => Memory.wf c.2.mailbox

/-- A saved generation, if there is one, has its canonical form. -/
def genOk (g : Option RetGen) : Bool := match g with | some g => Memory.wf g.bytes | none => true

theorem memOk_iff {s : State} : s.memOk = true ↔ Memory.wf s.bulk = true ∧ (∀ l, (s.lane l).memOk = true) ∧ s.prog.memOk = true ∧
    s.upd.memOk = true ∧ cardsOk s.hlk.cards = true := by
  simp only [State.memOk, ProgState.memOk, UpdState.memOk, cardsOk, Bool.and_eq_true]
  constructor
  · rintro ⟨⟨⟨⟨⟨⟨⟨⟨hb, ha⟩, hl⟩, hc⟩, hra⟩, hrb⟩, hua⟩, hub⟩, hh⟩
    exact ⟨hb, fun l => by cases l <;> assumption, ⟨hra, hrb⟩, ⟨hua, hub⟩, hh⟩
  · rintro ⟨hb, hl, ⟨hra, hrb⟩, ⟨hua, hub⟩, hh⟩
    exact ⟨⟨⟨⟨⟨⟨⟨⟨hb, hl .a⟩, hl .b⟩, hl .c⟩, hra⟩, hrb⟩, hua⟩, hub⟩, hh⟩

/-- With `memOk_fold`: an update of a part without byte stores is seen through. -/
@[simp] theorem memOk_mk (pending freeCount regs regsPending ucbs flt evr tick time clk lcs upd pwr safe cans net hlk laneA laneB laneC
    voter place pair prog bulk) :
    State.memOk ⟨pending, freeCount, regs, regsPending, ucbs, flt, evr, tick, time, clk, lcs, upd, pwr, safe, cans, net, hlk, laneA, laneB,
      laneC, voter, place, pair, prog, bulk⟩ = (Memory.wf bulk && (laneA.memOk && (laneB.memOk && (laneC.memOk &&
      (prog.memOk && (upd.memOk && cardsOk hlk.cards)))))) := by
  simp only [State.memOk, ProgState.memOk, UpdState.memOk, cardsOk, Bool.and_assoc]

@[simp] theorem memOk_fold (s : State) : (Memory.wf s.bulk && (s.laneA.memOk && (s.laneB.memOk && (s.laneC.memOk &&
    (s.prog.memOk && (s.upd.memOk && cardsOk s.hlk.cards)))))) = s.memOk := (memOk_mk ..).symm

section
variable {s : State} (h : s.memOk = true)
include h

@[simp] theorem bulk_wf : Memory.wf s.bulk = true := (memOk_iff.1 h).1
@[simp] theorem lane_memOk (l : Lane) : (s.lane l).memOk = true := (memOk_iff.1 h).2.1 l
@[simp] theorem laneA_memOk : s.laneA.memOk = true := lane_memOk h .a
@[simp] theorem laneB_memOk : s.laneB.memOk = true := lane_memOk h .b
@[simp] theorem laneC_memOk : s.laneC.memOk = true := lane_memOk h .c
@[simp] theorem prog_memOk : s.prog.memOk = true := (memOk_iff.1 h).2.2.1
@[simp] theorem upd_memOk : s.upd.memOk = true := (memOk_iff.1 h).2.2.2.1
@[simp] theorem cards_ok : cardsOk s.hlk.cards = true := (memOk_iff.1 h).2.2.2.2

end

theorem memOk_of_fst_eq {β : Type} {p : State × β} {t : State} {b : β} (h : p = (t, b)) (hp : p.1.memOk = true) : t.memOk = true := by
  rw [h] at hp; exact hp

theorem memOk_of_snd_eq {β : Type} {p : β × State} {t : State} {b : β} (h : p = (b, t)) (hp : p.2.memOk = true) : t.memOk = true := by
  rw [h] at hp; exact hp

@[simp] theorem memOk_ite (c : Prop) [Decidable c] (s t : State) : (if c then s else t).memOk = if c then s.memOk else t.memOk :=
  apply_ite ..

theorem ite_memOk {c : Prop} [Decidable c] {s t : State} (hs : s.memOk = true) (ht : t.memOk = true) :
    (if c then s else t).memOk = true := by
  split
  · exact hs
  · exact ht

@[simp] theorem LaneSt.memOk_ite (c : Prop) [Decidable c] (x y : LaneSt) : (if c then x else y).memOk = if c then x.memOk else y.memOk :=
  apply_ite ..

/-- An operation that keeps the form, repeated. -/
theorem memOk_foldl {α : Type} {f : State → α → State} (hf : ∀ s a, s.memOk = true → (f s a).memOk = true) (l : List α) {s : State}
    (h : s.memOk = true) : (l.foldl f s).memOk = true := by
  induction l generalizing s with
  | nil => exact h
  | cons a l ih => exact ih (hf s a h)

/-- The same where the repetition carries a second result along. -/
theorem memOk_foldl_fst {α β : Type} {f : State × β → α → State × β} (hf : ∀ p a, p.1.memOk = true → (f p a).1.memOk = true) (l : List α)
    {p : State × β} (h : p.1.memOk = true) : (l.foldl f p).1.memOk = true := by
  induction l generalizing p with
  | nil => exact h
  | cons a l ih => exact ih (hf p a h)

/-- The parts of the state that hold byte stores. -/
def storeParts : List Part := [.bulk, .laneA, .laneB, .laneC, .prog, .upd, .hlk]

/-- An operation that touches none of them. -/
theorem SameBut.memOk {ps : List Part} {s t : State} (f : SameBut ps s t) (hp : ∀ p ∈ storeParts, p ∉ ps) : t.memOk = s.memOk := by
  have hb : t.bulk = s.bulk := f.same .bulk (hp _ (by decide))
  have ha : t.laneA = s.laneA := f.same .laneA (hp _ (by decide))
  have hl : t.laneB = s.laneB := f.same .laneB (hp _ (by decide))
  have hc : t.laneC = s.laneC := f.same .laneC (hp _ (by decide))
  have hg : t.prog = s.prog := f.same .prog (hp _ (by decide))
  have hu : t.upd = s.upd := f.same .upd (hp _ (by decide))
  have hk : t.hlk = s.hlk := f.same .hlk (hp _ (by decide))
  rw [State.memOk, hb, ha, hl, hc, hg, hu, hk, State.memOk]

/-- An operation that leaves the stores as they are, repeated. -/
@[simp] theorem memOk_foldl_eq {α : Type} {f : State → α → State} (hf : ∀ s a, (f s a).memOk = s.memOk) (l : List α) (s : State) :
    (l.foldl f s).memOk = s.memOk := by
  induction l generalizing s with
  | nil => rfl
  | cons a l ih => rw [List.foldl_cons, ih, hf]

/-! ### Lanes -/

/-- With `LaneSt.memOk_fold`: an update of a part without byte stores is seen through. -/
@[simp] theorem LaneSt.memOk_mk (role bist current safety timed skip free mem tracked in0 in1 in2 queue spill excl latent stops dis corrected
    uncorrected) :
    LaneSt.memOk ⟨role, bist, current, safety, timed, skip, free, mem, tracked, in0, in1, in2, queue, spill, excl, latent, stops, dis,
      corrected, uncorrected⟩ = (Memory.wf mem && (Memory.wf in0.bytes && (Memory.wf in1.bytes && Memory.wf in2.bytes))) := by
  simp only [LaneSt.memOk, Bool.and_assoc]

@[simp] theorem LaneSt.memOk_fold (x : LaneSt) :
    (Memory.wf x.mem && (Memory.wf x.in0.bytes && (Memory.wf x.in1.bytes && Memory.wf x.in2.bytes))) = x.memOk :=
  (LaneSt.memOk_mk ..).symm

theorem LaneSt.memOk_iff {x : LaneSt} : x.memOk = true ↔ Memory.wf x.mem = true ∧ Memory.wf x.in0.bytes = true ∧
    Memory.wf x.in1.bytes = true ∧ Memory.wf x.in2.bytes = true := by simp only [← LaneSt.memOk_fold, Bool.and_eq_true]

/-! What leaves a lane's stores as they are. -/

@[simp] theorem setCtx_memOk (x : LaneSt) (k : CtxKind) (c : LaneCtx) : (x.setCtx k c).memOk = x.memOk := by cases k <;> rfl
@[simp] theorem present_memOk (x : LaneSt) (r : EffectRec) : (x.present r).memOk = x.memOk := by unfold LaneSt.present; split <;> rfl
@[simp] theorem stopLane_memOk (x : LaneSt) : (stopLane x).memOk = x.memOk := rfl
@[simp] theorem suspendTimed_memOk (x : LaneSt) : (suspendTimed x).memOk = x.memOk := rfl
@[simp] theorem endFreeWait_memOk (x : LaneSt) (t : Nat) : (endFreeWait t x).memOk = x.memOk := by unfold endFreeWait; split <;> rfl
@[simp] theorem activateLane_memOk (x : LaneSt) (p : Program) (due : List (Nat × Nat)) : (activateLane p due x).memOk = x.memOk := rfl

section
variable {x : LaneSt} (h : x.memOk = true)
include h

@[simp] theorem mem_wf : Memory.wf x.mem = true := (LaneSt.memOk_iff.1 h).1
@[simp] theorem in0_wf : Memory.wf x.in0.bytes = true := (LaneSt.memOk_iff.1 h).2.1
@[simp] theorem in1_wf : Memory.wf x.in1.bytes = true := (LaneSt.memOk_iff.1 h).2.2.1
@[simp] theorem in2_wf : Memory.wf x.in2.bytes = true := (LaneSt.memOk_iff.1 h).2.2.2

@[simp] theorem inBuf_wf (i : Nat) : Memory.wf (x.inBuf i).bytes = true := by
  unfold LaneSt.inBuf
  split <;> simp [h]

@[simp] theorem put_memOk (a : Nat) (bs : List Byte) : (x.put a bs).memOk = true := by simp [LaneSt.put, Memory.wf_writeBytes, h]
@[simp] theorem store_memOk (a : Nat) (bs : List Byte) : (x.store a bs).memOk = true := by simp [LaneSt.store, Memory.wf_writeBytes, h]

@[simp] theorem setInBuf_memOk (i : Nat) {b : InBuf} (hb : Memory.wf b.bytes = true) : (x.setInBuf i b).memOk = true := by
  unfold LaneSt.setInBuf
  split <;> simp [h, hb]

@[simp] theorem saveCtx_memOk (k : CtxKind) : (saveCtx x k).memOk = true := by simp [saveCtx, h]
@[simp] theorem suspendLane_memOk : (suspendLane x).memOk = true := by unfold suspendLane; split <;> simp [h]
@[simp] theorem stopFor_memOk (t : Nat) (w : Option Nat) : (stopFor t x w).memOk = true := by unfold stopFor; split <;> simp [h]
@[simp] theorem suspend_memOk (t lead : Nat) (w : Option Nat) : (x.suspend t lead w).memOk = true := by simp [LaneSt.suspend, h]

/-- A lane that takes over the program of another takes over its memories (R233). -/
@[simp] theorem copyProgram_memOk (dst : LaneSt) : (copyProgram dst x).memOk = true := by simp [copyProgram, h]

end

@[simp] theorem clearLane_memOk (x : LaneSt) : (clearLane x).memOk = true := rfl

/-! ### Image slots, generations and cards -/

@[simp] theorem ProgState.memOk_mk (image outs changes txUndelivered firstTick retA retB retValid retLeft retDone retMore changesDue) :
    ProgState.memOk ⟨image, outs, changes, txUndelivered, firstTick, retA, retB, retValid, retLeft, retDone, retMore, changesDue⟩ =
      (Memory.wf retA.bytes && Memory.wf retB.bytes) := rfl

@[simp] theorem ProgState.memOk_fold (x : ProgState) : (Memory.wf x.retA.bytes && Memory.wf x.retB.bytes) = x.memOk := rfl

@[simp] theorem ImageSlot.memOk_eq (x : ImageSlot) : x.memOk = genOk x.saved := rfl
@[simp] theorem genOk_none : genOk none = true := rfl
@[simp] theorem genOk_some (g : RetGen) : genOk (some g) = Memory.wf g.bytes := rfl

@[simp] theorem UpdState.memOk_mk (slotB a b trial trialMin trialLeft trialRun trials safeOnTrial fallbackAt fallenBack pkg prepared prepBegun
    pendingBoot applying reason secFw secPgm partnerPrep cardPrep cardTrial handover newlyApplied) :
    UpdState.memOk ⟨slotB, a, b, trial, trialMin, trialLeft, trialRun, trials, safeOnTrial, fallbackAt, fallenBack, pkg, prepared, prepBegun,
      pendingBoot, applying, reason, secFw, secPgm, partnerPrep, cardPrep, cardTrial, handover, newlyApplied⟩ =
      (genOk a.saved && genOk b.saved) := rfl

@[simp] theorem UpdState.memOk_fold (x : UpdState) : (genOk x.a.saved && genOk x.b.saved) = x.memOk := rfl

section
variable {x : ProgState} (h : x.memOk = true)
include h

@[simp] theorem retA_wf : Memory.wf x.retA.bytes = true := (Bool.and_eq_true_iff.1 h).1
@[simp] theorem retB_wf : Memory.wf x.retB.bytes = true := (Bool.and_eq_true_iff.1 h).2

end

section
variable {x : UpdState} (h : x.memOk = true)
include h

@[simp] theorem slotA_genOk : genOk x.a.saved = true := (Bool.and_eq_true_iff.1 h).1
@[simp] theorem slotB_genOk : genOk x.b.saved = true := (Bool.and_eq_true_iff.1 h).2
@[simp] theorem activeSlot_genOk : genOk (activeSlot x).saved = true := by simp [activeSlot, apply_ite ImageSlot.saved, apply_ite genOk, h]
@[simp] theorem inactiveSlot_genOk : genOk (inactiveSlot x).saved = true := by
  simp [inactiveSlot, apply_ite ImageSlot.saved, apply_ite genOk, h]

@[simp] theorem setActive_memOk {g : ImageSlot} (hg : genOk g.saved = true) : (x.setActive g).memOk = true := by
  unfold UpdState.setActive
  split <;> simp [h, hg]

@[simp] theorem setInactive_memOk {g : ImageSlot} (hg : genOk g.saved = true) : (x.setInactive g).memOk = true := by
  unfold UpdState.setInactive
  split <;> simp [h, hg]

end

@[simp] theorem cardsOk_nil : cardsOk [] = true := rfl

theorem cardsOk_iff {m : NMap CardState} : cardsOk m = true ↔ ∀ c ∈ m, Memory.wf c.2.mailbox = true := by simp [cardsOk]

@[simp] theorem cardsOk_put {m : NMap CardState} (slot : Nat) {c : CardState} (h : cardsOk m = true) (hc : Memory.wf c.mailbox = true) :
    cardsOk (mapPut slot c m) = true := by
  refine cardsOk_iff.2 fun d hd => ?_
  rcases mem_put hd with rfl | hd
  · exact hc
  · exact cardsOk_iff.1 h d hd

theorem mem_of_mapGet? {α : Type} {k : Nat} {v : α} {m : NMap α} (h : mapGet? k m = some v) : (k, v) ∈ m := by
  induction m with
  | nil => cases h
  | cons p m ih =>
    obtain ⟨j, w⟩ := p
    simp only [mapGet?] at h
    split at h
    · rename_i hj
      obtain rfl := hj
      obtain rfl := Option.some.inj h
      exact List.mem_cons_self ..
    · exact List.mem_cons_of_mem _ (ih h)

@[simp] theorem mailbox_wf {s : State} (h : s.memOk = true) (slot : Nat) : Memory.wf (s.card slot).mailbox = true := by
  unfold State.card mapGetD
  cases hc : mapGet? slot s.hlk.cards with
  | none => rfl
  | some c => exact cardsOk_iff.1 (cards_ok h) _ (mem_of_mapGet? hc)

/-! ### The operations that every unit shares -/

/-- A lane whose stores are replaced by stores in the form; and one whose stores are the same. -/
@[simp] theorem State.setLane_memOk {s : State} (l : Lane) {x : LaneSt} (h : s.memOk = true) (hx : x.memOk = true) :
    (s.setLane l x).memOk = true := by
  cases l <;> simp [State.setLane, h, hx]
@[simp] theorem State.setLane_memOk_eq {s : State} {l : Lane} {x : LaneSt} (hx : x.memOk = (s.lane l).memOk) :
    (s.setLane l x).memOk = s.memOk := by
  cases l <;> simp only [State.lane] at hx <;> simp [State.setLane, hx]
@[simp] theorem State.setLane_laneA_memOk {s : State} {l : Lane} {x : LaneSt} (hx : x.memOk = (s.lane l).memOk) :
    (s.setLane l x).laneA.memOk = s.laneA.memOk := by cases l <;> first | exact hx | rfl
@[simp] theorem State.setLane_laneB_memOk {s : State} {l : Lane} {x : LaneSt} (hx : x.memOk = (s.lane l).memOk) :
    (s.setLane l x).laneB.memOk = s.laneB.memOk := by cases l <;> first | exact hx | rfl
@[simp] theorem State.setLane_laneC_memOk {s : State} {l : Lane} {x : LaneSt} (hx : x.memOk = (s.lane l).memOk) :
    (s.setLane l x).laneC.memOk = s.laneC.memOk := by cases l <;> first | exact hx | rfl

theorem State.mapLanes_memOk {s : State} {f : Lane → LaneSt → LaneSt} (h : s.memOk = true)
    (hf : ∀ l x, x.memOk = true → (f l x).memOk = true) : (s.mapLanes f).memOk = true := by
  simp [State.mapLanes, h, hf]
@[simp] theorem State.mapLanes_memOk_eq (s : State) {f : Lane → LaneSt → LaneSt} (hf : ∀ l x, (f l x).memOk = x.memOk) :
    (s.mapLanes f).memOk = s.memOk := by
  simp [State.mapLanes, hf]

@[simp] theorem State.setCan_memOk (s : State) (n : Fin 6) (c : CanState) : (s.setCan n c).memOk = s.memOk := by simp [State.setCan]
@[simp] theorem State.setEth_memOk (s : State) (x : Fin 4) (e : EthState) : (s.setEth x e).memOk = s.memOk := by simp [State.setEth]
@[simp] theorem State.setSer_memOk (s : State) (x : Fin 4) (e : SerState) : (s.setSer x e).memOk = s.memOk := by simp [State.setSer]

@[simp] theorem State.setCard_memOk {s : State} (slot : Nat) {c : CardState} (h : s.memOk = true) (hc : Memory.wf c.mailbox = true) :
    (s.setCard slot c).memOk = true := by
  simp [State.setCard, h, hc]

@[simp] theorem State.setLink_memOk (s : State) (n : Nat) (k : LinkState) : (s.setLink n k).memOk = s.memOk := by simp [State.setLink]
@[simp] theorem State.free_memOk (s : State) : s.free.2.memOk = s.memOk := by simp [State.free]
@[simp] theorem State.at_memOk (s : State) (t : Nat) : (s.at_ t).memOk = s.memOk := by simp [State.at_]
@[simp] theorem clockTick_memOk (s : State) : (clockTick s).memOk = s.memOk := by simp [clockTick]
@[simp] theorem State.setUcb_memOk (s : State) (u : UnitId) (f : Ucb → Ucb) : (s.setUcb u f).memOk = s.memOk := by simp [State.setUcb]

@[simp] theorem State.finish_memOk (s : State) (u : UnitId) (code : Status) (data : Nat) : (s.finish u code data).memOk = s.memOk := by
  simp [State.finish]

@[simp] theorem State.begin_memOk (s : State) (u : UnitId) (w : Writer) (cmd arg : Nat) : (s.begin_ u w cmd arg).memOk = s.memOk := by
  simp [State.begin_]

@[simp] theorem State.complete_memOk (s : State) (u : UnitId) (cmd : Nat) (code : Status) (data : Nat) : (s.complete u cmd code
    data).memOk = s.memOk := by
  simp [State.complete]

@[simp] theorem State.setReg_memOk (s : State) (u : UnitId) (off obj : Nat) (v : W32) : (s.setReg u off obj v).memOk = s.memOk := by
  simp [State.setReg]

@[simp] theorem State.setRegPending_memOk (s : State) (u : UnitId) (off obj : Nat) (v : W32) : (s.setRegPending u off obj v).memOk =
    s.memOk := by
  simp [State.setRegPending]

@[simp] theorem State.dropSettings_memOk (s : State) (u : UnitId) : (s.dropSettings u).memOk = s.memOk := by simp [State.dropSettings]

@[simp] theorem netTestEnd_memOk (s : State) : (netTestEnd s).memOk = s.memOk := by
  simp only [netTestEnd]
  split <;> simp

@[simp] theorem noteGroup_memOk (s : State) (u : UnitId) : (noteGroup s u).memOk = s.memOk := by simp [noteGroup]
@[simp] theorem noteGroups_memOk (s : State) : (noteGroups s).memOk = s.memOk := by simp [noteGroups]
@[simp] theorem State.unitTo_memOk (s : State) (u : UnitId) (t : UState) : (s.unitTo u t).memOk = s.memOk := by simp [State.unitTo]
@[simp] theorem backInRun_memOk (s : State) (u : UnitId) : (backInRun s u).memOk = s.memOk := by simp [backInRun]

@[simp] theorem enqueue_memOk (s : State) (code source : Nat) (d : List Byte) : (enqueue s code source d).memOk = s.memOk := by
  simp [enqueue]

@[simp] theorem suppress_memOk (s : State) (code : Nat) : (suppress s code).memOk = s.memOk := by simp [suppress]
@[simp] theorem mergeRecord_memOk (s : State) (r : EvrRecord) : (mergeRecord s r).memOk = s.memOk := by simp [mergeRecord]

@[simp] theorem raiseAs_memOk (s : State) (u : UnitId) (kind cls level address : Nat) (exc : Option ExcInfo) (injected : Bool) : (raiseAs
    s u kind cls level address exc injected).memOk = s.memOk := by
  simp [raiseAs]

@[simp] theorem raise_memOk (s : State) (u : UnitId) (kind address : Nat) : (raise s u kind address).memOk = s.memOk := by simp [raise]
@[simp] theorem raiseOpen_memOk (s : State) (u : UnitId) (kind : Nat) : (raiseOpen s u kind).memOk = s.memOk := by simp [raiseOpen]

@[simp] theorem offerPrivileged_memOk (s : State) (code source : Nat) (d : List Byte) : (offerPrivileged s code source d).memOk = s.memOk
    := by
  simp only [offerPrivileged]
  split <;> simp

@[simp] theorem offerLimited_memOk (s : State) (code source : Nat) (d : List Byte) : (offerLimited s code source d).memOk = s.memOk := by
  simp [offerLimited]

@[simp] theorem offer_memOk (s : State) (code : Nat) (u : UnitId) (d : List Byte) : (offer s code u d).memOk = s.memOk := by simp [offer]

@[simp] theorem refuse_memOk (s : State) (u : UnitId) (code : Nat) (st : Status) (member : Option UnitId) : (refuse s u code st
    member).memOk = s.memOk := by
  unfold refuse
  (repeat' split) <;> simp

@[simp] theorem takeTokens_memOk (s : State) (a : Activity) (holder : UnitId) : (takeTokens s a holder).memOk = s.memOk := by
  simp [takeTokens]

@[simp] theorem releaseTokens_memOk (s : State) (a : Activity) : (releaseTokens s a).memOk = s.memOk := by simp [releaseTokens]
@[simp] theorem leaveMaint_memOk (s : State) (u : UnitId) : (leaveMaint s u).memOk = s.memOk := by simp [leaveMaint]

@[simp] theorem dropRejoin_memOk (s : State) : (dropRejoin s).memOk = s.memOk := by
  simp only [dropRejoin]
  split <;> simp

@[simp] theorem endActivity_memOk (s : State) (a : Activity) : (endActivity s a).memOk = s.memOk := by
  have hf : (failRunning s a).memOk = s.memOk := (failRunning_same s a).memOk (by decide)
  have hd (t : State) : (dropActivity t a).memOk = t.memOk := by cases a <;> simp [dropActivity]
  simp [endActivity_eq, hf, hd]

@[simp] theorem State.lose_memOk (s : State) (r : Resource) : (s.lose r).memOk = s.memOk := by simp [State.lose]
@[simp] theorem State.healthy_memOk (s : State) (r : Resource) : (s.healthy r).memOk = s.memOk := by simp [State.healthy]
@[simp] theorem State.setDout_memOk (s : State) (m : Nat) (d : DoState) : (s.setDout m d).memOk = s.memOk := by simp [State.setDout]
@[simp] theorem commitSafe_memOk (s : State) (ps : List Nat) : (commitSafe s ps).memOk = s.memOk := by simp [commitSafe]
@[simp] theorem brakesOff_memOk (s : State) : (brakesOff s).memOk = s.memOk := by simp [brakesOff]

@[simp] theorem driveSafe_memOk (s : State) : (driveSafe s).memOk = s.memOk := (driveSafe_same s).memOk (by decide)

@[simp] theorem discardEmissions_memOk (s : State) : (discardEmissions s).memOk = s.memOk := by simp [discardEmissions]

@[simp] theorem enterSafe_memOk (s : State) (cause : SafeCause) : (enterSafe s cause).memOk = s.memOk := by
  have hm : (markSafe s cause).memOk = s.memOk := (markSafe_same ..).memOk (by decide)
  have ho (t : State) : (openSupplies t).memOk = t.memOk := (openSupplies_same t).memOk (by decide)
  have hc (t : State) : (clearRunning t).memOk = t.memOk := by simp [clearRunning]
  simp [enterSafe_eq, enterSafeBody, noteSafe, hm, ho, hc]

@[simp] theorem raiseSafe_memOk (s : State) (u : UnitId) (k a : Nat) : (raiseSafe s u k a).memOk = s.memOk := by simp [raiseSafe]

@[simp] theorem raiseSafeOpen_memOk (s : State) (u : UnitId) (k : Nat) : (raiseSafeOpen s u k).memOk = s.memOk := by simp [raiseSafeOpen]

@[simp] theorem noteQueues_memOk (s : State) : (noteQueues s).memOk = s.memOk := by simp [noteQueues]

@[simp] theorem voterStop_memOk (s : State) (k a : Nat) : (voterStop s k a).memOk = s.memOk := by simp [voterStop]

@[simp] theorem fenceLane_memOk (s : State) (l : Lane) : (fenceLane s l).memOk = s.memOk := by
  have hl : ((noteQueues s).setLane l (stopLane (s.lane l))).memOk = s.memOk :=
    (State.setLane_memOk_eq (s := noteQueues s) (by cases l <;> rfl)).trans (noteQueues_memOk s)
  unfold fenceLane
  split
  · rfl
  · split
    · exact voterStop_memOk ..
    · exact hl

@[simp] theorem fenceOrSafe_memOk (s : State) (l : Lane) (cause : SafeCause) : (fenceOrSafe s l cause).memOk = s.memOk := by
  simp [fenceOrSafe]

@[simp] theorem laneFault_memOk (s : State) (l : Lane) (kind address : Nat) : (laneFault s l kind address).memOk = s.memOk := by
  simp [laneFault]

/-! ### EVR -/

@[simp] theorem refill_memOk (s : State) (code : Nat) : (refill s code).memOk = s.memOk := by simp [refill]
@[simp] theorem bucketSwap_memOk (s : State) (code : Nat) : (bucketSwap s code).memOk = s.memOk := by simp [bucketSwap]
@[simp] theorem scanRecorder_memOk (s : State) : (scanRecorder s).memOk = s.memOk := by simp [scanRecorder]

/-! ### Module reset -/

theorem keepUpd_memOk {s : State} (h : s.memOk = true) : (keepUpd s).memOk = true := by
  have hi : ((s.upd.setInactive { inactiveSlot s.upd with valid := false })).memOk = true :=
    setInactive_memOk (upd_memOk h) (inactiveSlot_genOk (upd_memOk h))
  simp only [keepUpd, UpdState.memOk_mk, UpdState.memOk_fold]
  split
  · exact hi
  · exact upd_memOk h
@[simp] theorem fallBack_memOk {s : State} (h : s.memOk = true) : (fallBack s).memOk = true := by
  have hu : (s.upd.setActive { activeSlot s.upd with valid := false }).memOk = true :=
    setActive_memOk (upd_memOk h) (activeSlot_genOk (upd_memOk h))
  simp only [fallBack]
  split
  · rename_i g hg
    have hs : genOk (some g) = true := by rw [← hg]; exact activeSlot_genOk hu
    have hw : Memory.wf g.bytes = true := hs
    simp [h, hw]; exact hu
  · simp [h]; exact hu

@[simp] theorem enterReset_memOk {s : State} (cause : ResetCause) (h : s.memOk = true) : (enterReset s cause).memOk = true := by
  simp only [enterReset]
  split
  · split <;> exact h
  · split
    · exact fallBack_memOk (by simp [keepUpd_memOk h, h])
    · simp [keepUpd_memOk h, h]

@[simp] theorem harmless_memOk (s : State) : (harmless s).memOk = s.memOk := by simp [harmless]

@[simp] theorem stopStart_memOk {s : State} (step reason : Nat) (h : s.memOk = true) : (stopStart s step reason).memOk = true := by
  simp [stopStart, h]

theorem outsideReset_memOk {s : State} {f : State → State} (h : s.memOk = true) (hf : (f s).memOk = true) :
    (outsideReset s f).memOk = true := by
  simp [outsideReset, h, hf]

@[simp] theorem externalReset_memOk {s : State} (us : Nat) (h : s.memOk = true) : (externalReset s us).memOk = true := by
  simp [externalReset, h]

/-! ### SAFE/FIO -/

@[simp] theorem State.setBk_memOk (s : State) (x : Fin 2) (b : Brake) : (s.setBk x b).memOk = s.memOk := by simp [State.setBk]
@[simp] theorem State.setDi_memOk (s : State) (ch : Nat) (d : DiState) : (s.setDi ch d).memOk = s.memOk := by simp [State.setDi]
@[simp] theorem driveBrake_memOk (s : State) (x : Fin 2) (on : Bool) : (driveBrake s x on).memOk = s.memOk := by simp [driveBrake]
@[simp] theorem driveDo_memOk (s : State) (m : Fin 8) (on : Bool) : (driveDo s m on).memOk = s.memOk := by simp [driveDo]

@[simp] theorem drive_memOk (s : State) (ch : OutCh) (on : Bool) : (drive s ch on).memOk = s.memOk := by
  simp only [drive]
  split <;> simp

@[simp] theorem bankOff_memOk (s : State) (brakes : Bool) : (bankOff s brakes).memOk = s.memOk := by simp [bankOff]

@[simp] theorem setReadback_memOk (s : State) (ch : OutCh) (high : Bool) : (setReadback s ch high).memOk = s.memOk := by
  simp only [setReadback]
  split <;> simp

@[simp] theorem holdOpen_memOk (s : State) (brakes : Bool) : (holdOpen s brakes).memOk = s.memOk := by simp [holdOpen]
@[simp] theorem fieldStop_memOk (s : State) : (fieldStop s).memOk = s.memOk := by simp [fieldStop]
@[simp] theorem fieldStart_memOk (s : State) : (fieldStart s).memOk = s.memOk := by simp [fieldStart]
@[simp] theorem skipPulse_memOk (s : State) (ch : OutCh) : (skipPulse s ch).memOk = s.memOk := by simp [skipPulse]
@[simp] theorem commitDo_memOk (s : State) (m : Fin 8) (v : Bool) : (commitDo s m v).memOk = s.memOk := by simp [commitDo]

@[simp] theorem watchBrake_memOk (s : State) (x : Fin 2) (release : Bool) : (watchBrake s x release).memOk = s.memOk := by
  simp [watchBrake]

@[simp] theorem commitBrake_memOk (s : State) (x : Fin 2) (release : Bool) : (commitBrake s x release).memOk = s.memOk := by
  simp [commitBrake]

@[simp] theorem roundStart_memOk (s : State) : (roundStart s).memOk = s.memOk := by
  simp only [roundStart]
  split <;> simp

@[simp] theorem offPulse_memOk (s : State) : (offPulse s).memOk = s.memOk := by simp [offPulse]
@[simp] theorem extFeed_memOk (s : State) (ch : OutCh) : (extFeed s ch).memOk = s.memOk := by simp [extFeed]
@[simp] theorem crossFeed_memOk (s : State) (ch y : OutCh) : (crossFeed s ch y).memOk = s.memOk := by simp [crossFeed]

@[simp] theorem offPulseEvaluate_memOk (s : State) (own : Bool) (low : List OutCh) : (offPulseEvaluate s own low).memOk = s.memOk := by
  simp only [offPulseEvaluate]
  split <;> simp

@[simp] theorem readbackCheck_memOk (s : State) (ch : OutCh) (high : Bool) : (readbackCheck s ch high).memOk = s.memOk := by
  simp [readbackCheck]

@[simp] theorem brakeLateFault_memOk (s : State) (x : Fin 2) (release : Bool) : (brakeLateFault s x release).memOk = s.memOk := by
  simp [brakeLateFault]

@[simp] theorem brakeFeedback_memOk (s : State) (x : Fin 2) (level : Bool) (t : Nat) : (brakeFeedback s x level t).memOk = s.memOk := by
  simp only [brakeFeedback]
  (repeat' split) <;> simp

@[simp] theorem brakeLate_memOk (s : State) (x : Fin 2) : (brakeLate s x).memOk = s.memOk := by
  unfold brakeLate
  (repeat' split) <;> simp

@[simp] theorem beginBrakeTest_memOk (s : State) (elec startUp : Bool) : (beginBrakeTest s elec startUp).memOk = s.memOk := by
  simp [beginBrakeTest]

@[simp] theorem endBrakeTest_memOk {s : State} (t : BrakeTest) (pass : Bool) (failStep : Nat) (h : s.memOk = true) : (endBrakeTest s t
    pass failStep).memOk = true := by
  simp [endBrakeTest, h]

@[simp] theorem recordTime_memOk (s : State) (phase ms : Nat) : (recordTime s phase ms).memOk = s.memOk := by
  simp only [recordTime]
  split <;> simp

@[simp] theorem phaseChange_memOk (s : State) (t : BrakeTest) (phase : Nat) : (phaseChange s t phase).memOk = s.memOk := by
  simp only [phaseChange]
  split <;> simp

@[simp] theorem groupFail_memOk (s : State) (brakes : Bool) : (groupFail s brakes).memOk = s.memOk := by simp [groupFail]

@[simp] theorem groupChecked_memOk (s : State) (passed : Bool) : (groupChecked s passed).memOk = s.memOk := by
  simp only [groupChecked]
  split <;> simp

@[simp] theorem brakeTestStep_memOk {s : State} (o : BrakeObs) (h : s.memOk = true) : (brakeTestStep s o).memOk = true := by
  simp only [brakeTestStep]
  split <;> simp [h]

@[simp] theorem btestDue_memOk (s : State) : (btestDue s).memOk = s.memOk := by simp [btestDue]
@[simp] theorem brakeWordMissed_memOk (s : State) : (brakeWordMissed s).memOk = s.memOk := by simp [brakeWordMissed]
@[simp] theorem diSettle_memOk (s : State) (ch : Nat) : (diSettle s ch).memOk = s.memOk := by simp [diSettle]

@[simp] theorem diEdge_memOk (s : State) (ch : Nat) (level : Bool) (began : Nat) : (diEdge s ch level began).memOk = s.memOk := by
  simp [diEdge]

@[simp] theorem diOvervolt_memOk (s : State) (ch : Nat) (active : Bool) : (diOvervolt s ch active).memOk = s.memOk := by simp [diOvervolt]
@[simp] theorem doTrip_memOk (s : State) (m : Fin 8) (temp : Bool) : (doTrip s m temp).memOk = s.memOk := by simp [doTrip]

/-! ### CAN -/

@[simp] theorem canLayout_memOk (s : State) (n : Fin 6) (fresh : Bool) : (canLayout s n fresh).memOk = s.memOk := by simp [canLayout]
@[simp] theorem canErrState_memOk (s : State) (n : Fin 6) (c : CanState) : (canErrState s n c).memOk = s.memOk := by simp [canErrState]

@[simp] theorem canEnterBusOff_memOk (s : State) (n : Fin 6) (c : CanState) : (canEnterBusOff s n c).memOk = s.memOk := by
  simp [canEnterBusOff]

@[simp] theorem canError_memOk (s : State) (n : Fin 6) (lec : Nat) (dataPhase sending : Bool) (by_ : Nat) : (canError s n lec dataPhase
    sending by_).memOk = s.memOk := by
  simp [canError]

@[simp] theorem canException_memOk (s : State) (n : Fin 6) : (canException s n).memOk = s.memOk := by simp [canException]

@[simp] theorem canFrameError_memOk (s : State) (n : Fin 6) (e : CanErr) : (canFrameError s n e).memOk = s.memOk := by
  unfold canFrameError
  (repeat' split) <;> simp

@[simp] theorem canRecovered_memOk (s : State) (n : Fin 6) : (canRecovered s n).memOk = s.memOk := by simp [canRecovered]

@[simp] theorem canStage_memOk (s : State) (n : Fin 6) (key : Nat) (f : FrameCell) : (canStage s n key f).memOk = s.memOk := by
  simp [canStage]

@[simp] theorem canQueue_memOk (s : State) (n : Fin 6) (safety : Bool) (key : Nat) (f : FrameCell) : (canQueue s n safety key f).memOk =
    s.memOk := by
  simp [canQueue]

@[simp] theorem recDown_memOk (s : State) (c : CanState) : (recDown s c).1.memOk = s.memOk := by
  simp only [recDown]
  split <;> simp

@[simp] theorem canAccept_memOk (s : State) (n : Fin 6) (e : FilterEntry) (f : CanFrame) (t : Nat) : (canAccept s n e f t).memOk = s.memOk
    := by
  unfold canAccept
  split <;> simp

@[simp] theorem canReceive_memOk (s : State) (n : Fin 6) (f : CanFrame) (t : Nat) : (canReceive s n f t).memOk = s.memOk := by
  simp only [canReceive]
  (repeat' split) <;> simp

@[simp] theorem canDrain_memOk (s : State) (n : Fin 6) : (canDrain s n).memOk = s.memOk := by
  simp only [canDrain]
  split <;> simp

@[simp] theorem canChoose_memOk (s : State) (n : Fin 6) (t : Nat) : (canChoose s n t).memOk = s.memOk := by
  simp only [canChoose]
  (repeat' split) <;> simp

@[simp] theorem canCancelLate_memOk (s : State) (n : Fin 6) (x : Sending) : (canCancelLate s n x).memOk = s.memOk := by
  simp only [canCancelLate]
  split <;> simp

@[simp] theorem canSent_memOk (s : State) (n : Fin 6) (t : Nat) : (canSent s n t).memOk = s.memOk := by
  simp only [canSent]
  (repeat' split) <;> simp

@[simp] theorem canCancel_memOk {s t : State} {n : Fin 6} {key : Nat} (h : canCancel s n key = some t) : t.memOk = s.memOk := by
  simp only [canCancel] at h
  (repeat' split at h) <;> cases h <;> simp

@[simp] theorem canSupersede_memOk (s : State) (n : Fin 6) (buffer : Nat) : (canSupersede s n buffer).memOk = s.memOk := by
  simp [canSupersede]

@[simp] theorem canEnter_memOk (s : State) (n : Fin 6) (d : MsgDecl) (r : RouteRec) (cell : FrameCell) : (canEnter s n d r cell).1.memOk =
    s.memOk := by
  simp only [canEnter]
  (repeat' split) <;> simp

@[simp] theorem canUndelivered_memOk (s : State) (n : Fin 6) : (canUndelivered s n).memOk = s.memOk := by simp [canUndelivered]

@[simp] theorem canMove_memOk (s : State) (n m : Fin 6) (key : Nat) (d : MsgDecl) (r : RouteRec) : (canMove s n m key d r).memOk = s.memOk
    := by
  simp [canMove]

@[simp] theorem tmTake_memOk (s : State) (n : Fin 6) (f : CanFrame) (t : Nat) : (tmTake s n f t).memOk = s.memOk := by simp [tmTake]

@[simp] theorem tmReference_memOk (s : State) (n : Fin 6) (f : CanFrame) (t : Nat) : (tmReference s n f t).memOk = s.memOk := by
  simp [tmReference]

@[simp] theorem tmLostAt_memOk (s : State) (n : Fin 6) : (tmLostAt s n).memOk = s.memOk := by simp [tmLostAt]
@[simp] theorem tmBecome_memOk (s : State) (n : Fin 6) : (tmBecome s n).memOk = s.memOk := by simp [tmBecome]
@[simp] theorem tmQueue_memOk (s : State) (n : Fin 6) (b : Nat) : (tmQueue s n b).memOk = s.memOk := by simp [tmQueue]

@[simp] theorem canFetchDone_memOk (s : State) (n : Fin 6) (bank : Nat) : (canFetchDone s n bank).memOk = s.memOk := by
  simp [canFetchDone]

@[simp] theorem canReadEffect_memOk (s : State) (n : Fin 6) (bank off : Nat) : (canReadEffect s n bank off).memOk = s.memOk := by
  simp only [canReadEffect]
  split <;> simp

@[simp] theorem canSwap_memOk (s : State) (n : Fin 6) (before : W32) (timing : Bool) : (canSwap s n before timing).memOk = s.memOk := by
  simp [canSwap]

@[simp] theorem canDiscard_memOk (s : State) (n : Fin 6) : (canDiscard s n).memOk = s.memOk := by simp [canDiscard]
@[simp] theorem canQuiesce_memOk (s : State) (n : Fin 6) : (canQuiesce s n).memOk = s.memOk := by simp [canQuiesce]
@[simp] theorem canStart_memOk (s : State) (n : Fin 6) : (canStart s n).memOk = s.memOk := by simp [canStart]

/-! ### Links and cards lost or back -/

@[simp] theorem ethDown_memOk (s : State) (x : Fin 4) : (ethDown s x).memOk = s.memOk := by simp [ethDown]
@[simp] theorem splDown_memOk (s : State) (k : Fin 2) : (splDown s k).memOk = s.memOk := by simp [splDown]

@[simp] theorem logSide_memOk (s : State) (e : Prefetch) : (logSide s e).memOk = s.memOk := by
  simp only [logSide]
  split <;> simp

@[simp] theorem dropPrefetch_memOk (s : State) (p : Prefetch → Bool) : (dropPrefetch s p).memOk = s.memOk := by simp [dropPrefetch]

@[simp] theorem cardGone_memOk {s : State} (slot : Fin 32) (h : s.memOk = true) : (cardGone s slot).memOk = true := by
  have hc : (s.setCard slot { s.card slot with present := false, lost := true, misses := 0, imageNew := false }).memOk = true :=
    State.setCard_memOk _ h (mailbox_wf h slot)
  unfold cardGone
  simp only [State.lose_memOk, dropPrefetch_memOk]
  exact memOk_foldl (fun s i hs => by split <;> simp [hs]) _ hc

@[simp] theorem cardLost_memOk {s : State} (slot : Fin 32) (h : s.memOk = true) : (cardLost s slot).memOk = true := by simp [cardLost, h]

@[simp] theorem dropUnreached_memOk {s : State} (h : s.memOk = true) : (dropUnreached s).memOk = true := by
  unfold dropUnreached
  exact memOk_foldl (fun s a hs => by simp [hs]) _ (by simp [h])

@[simp] theorem hlkDown_memOk {s : State} (n : Fin 4) (h : s.memOk = true) : (hlkDown s n).memOk = true := by simp [hlkDown, h]

/-! ### TIME -/

@[simp] theorem State.setTb_memOk (s : State) (i : Nat) (b : TimeBase) : (s.setTb i b).memOk = s.memOk := by
  simp only [State.setTb]
  split <;> simp

@[simp] theorem tb0Locks_memOk (s : State) : (tb0Locks s).memOk = s.memOk := by simp [tb0Locks]

@[simp] theorem followTb0_memOk (s : State) : (followTb0 s).memOk = s.memOk := by
  simp only [followTb0]
  split <;> simp

@[simp] theorem followRate_memOk (s : State) (t : Nat) : (followRate s t).memOk = s.memOk := by simp [followRate]
@[simp] theorem putTb_memOk (s : State) (i t : Nat) (b : TimeBase) : (putTb s i t b).memOk = s.memOk := by simp [putTb]
@[simp] theorem State.setPg_memOk (s : State) (k : Nat) (g : PulseGen) : (s.setPg k g).memOk = s.memOk := by simp [State.setPg]
@[simp] theorem pgMiss_memOk (s : State) (k n : Nat) : (pgMiss s k n).memOk = s.memOk := by simp [pgMiss]
@[simp] theorem pgArm_memOk (s : State) (k t : Nat) : (pgArm s k t).memOk = s.memOk := by simp [pgArm]

@[simp] theorem pgStep_memOk (s : State) (k i t : Nat) : (pgStep s k i t).memOk = s.memOk := by
  unfold pgStep
  split
  · rfl
  · cases (s.pg k).next with
    | none => rfl
    | some held =>
      cases pgFirst s k ((s.tb i).ns t) with
      | none => exact (pgMiss_memOk ..).trans (State.setPg_memOk ..)
      | some n =>
        dsimp only
        split
        · rfl
        · exact (pgMiss_memOk ..).trans (State.setPg_memOk ..)

@[simp] theorem pulse_memOk (s : State) (k : Fin 2) (t : Nat) : (pulse s k t).memOk = s.memOk := by
  simp only [pulse]
  split <;> simp

@[simp] theorem stepTb_memOk (s : State) (i t v : Nat) (b : TimeBase) : (stepTb s i t v b).memOk = s.memOk := by simp [stepTb]

@[simp] theorem setAtBoundary_memOk (s : State) (i t : Nat) : (setAtBoundary s i t).memOk = s.memOk := by
  simp only [setAtBoundary]
  split <;> simp

@[simp] theorem setsAtBoundary_memOk (s : State) (t : Nat) : (setsAtBoundary s t).memOk = s.memOk := by simp [setsAtBoundary]
@[simp] theorem setBegin_memOk (s : State) (arg : Nat) : (setBegin s arg).memOk = s.memOk := by simp [setBegin]

@[simp] theorem quot_memOk (s : State) (o d : Int) : (quot s o d).2.memOk = s.memOk := by
  simp only [quot]
  split <;> simp

@[simp] theorem servo_memOk (s : State) (i t : Nat) (b : TimeBase) (o d : Int) : (servo s i t b o d).memOk = s.memOk := by simp [servo]

@[simp] theorem steer_memOk (s : State) (i t : Nat) (b : TimeBase) (o d : Int) : (steer s i t b o d).memOk = s.memOk := by
  simp only [steer]
  (repeat' split) <;> simp

@[simp] theorem measure_memOk (s : State) (h : Handed) : (measure s h).memOk = s.memOk := by simp [measure]

@[simp] theorem measureNext_memOk (s : State) : (measureNext s).memOk = s.memOk := by
  simp only [measureNext]
  split <;> simp

@[simp] theorem tim0_memOk (s : State) (t : Nat) : (tim0 s t).memOk = s.memOk := by
  simp only [tim0]
  split <;> simp

@[simp] theorem tbAlone_memOk (s : State) (i t : Nat) : (tbAlone s i t).memOk = s.memOk := by
  simp only [tbAlone]
  (repeat' split) <;> simp

@[simp] theorem dropSource_memOk (s : State) (i src t : Nat) : (dropSource s i src t).memOk = s.memOk := by simp [dropSource]

@[simp] theorem sourceLost_memOk (s : State) (i : Fin 3) (src : Nat) : (sourceLost s i src).memOk = s.memOk := by
  unfold sourceLost
  (repeat' split) <;> simp

@[simp] theorem remaster_memOk (s : State) : (remaster s).memOk = s.memOk := by simp [remaster]
@[simp] theorem resource_memOk (s : State) (t : Nat) : (resource s t).memOk = s.memOk := by simp [resource]
@[simp] theorem State.setCap_memOk (s : State) (k : Nat) (c : Capture) : (s.setCap k c).memOk = s.memOk := by simp [State.setCap]

@[simp] theorem capture_memOk (s : State) (k : Fin 4) (src : Fin 3) (rising : Bool) (t : Nat) : (capture s k src rising t).memOk = s.memOk
    := by
  simp [capture]

@[simp] theorem captureLatched_memOk (t : Nat) (s : State) (k : Nat) : (captureLatched t s k).memOk = s.memOk := by simp [captureLatched]
@[simp] theorem timeSnap_memOk (s : State) (bank i : Nat) : (timeSnap s bank i).memOk = s.memOk := by simp [timeSnap]

/-! ### CLK -/

@[simp] theorem endClkChange_memOk (s : State) (code : Status) : (endClkChange s code).memOk = s.memOk := by simp [endClkChange]
@[simp] theorem clkMark_memOk (s : State) (c : ClockId) : (clkMark s c).memOk = s.memOk := by simp [clkMark]
@[simp] theorem clkFailMessage_memOk (s : State) : (clkFailMessage s).memOk = s.memOk := by simp [clkFailMessage]

@[simp] theorem forcedSwitch_memOk (s : State) (core system : Bool) : (forcedSwitch s core system).memOk = s.memOk := by
  simp [forcedSwitch]
@[simp] theorem stopLinkDomain_memOk {s : State} (h : s.memOk = true) : (stopLinkDomain s).memOk = true := by
  rw [stopLinkDomain, memOk_foldl_eq splDown_memOk]
  exact memOk_foldl (fun s n hs => hlkDown_memOk n hs) _ (by simp [h])
@[simp] theorem domainFail_memOk {s : State} {f : State → State} (h : s.memOk = true) (hf : (f s).memOk = true) :
    (domainFail s f).memOk = true := by
  simp [domainFail, h, hf]

@[simp] theorem tcxoRefFailed_memOk {s : State} (h : s.memOk = true) : (tcxoRefFailed s).memOk = true :=
  domainFail_memOk h (by simp [h])

@[simp] theorem refFallback_memOk {s : State} (h : s.memOk = true) : (refFallback s).memOk = true := by simp [refFallback, h]
@[simp] theorem streamDown_memOk {s : State} (src : Nat) (h : s.memOk = true) : (streamDown s src).memOk = true := by simp [streamDown, h]
@[simp] theorem linkStreamsDown_memOk {s : State} (h : s.memOk = true) : (linkStreamsDown s).memOk = true := by simp [linkStreamsDown, h]

@[simp] theorem clkFail_memOk {s : State} (c : ClockId) (h : s.memOk = true) : (clkFail s c).memOk = true := by
  unfold clkFail
  split
  · exact h
  · cases c with
    | linkPll =>
      dsimp only
      split
      · simp [h]
      · exact linkStreamsDown_memOk (domainFail_memOk h (by simp [h]))
    | corePll | systemPll =>
      dsimp only
      split
      · simp [h]
      · exact domainFail_memOk h (by simp [h])
    | _ => dsimp only; (repeat' split) <;> simp [h]

@[simp] theorem slewTo_memOk (s : State) (c : ClkChange) : (slewTo s c).memOk = s.memOk := by simp [slewTo]

@[simp] theorem refQualified_memOk (s : State) : (refQualified s).memOk = s.memOk := by
  simp only [refQualified]
  (repeat' split) <;> simp

@[simp] theorem clkChange_memOk (s : State) : (clkChange s).memOk = s.memOk := by
  simp only [clkChange]
  split <;> simp

@[simp] theorem refUnqualified_memOk (s : State) : (refUnqualified s).memOk = s.memOk := by
  simp only [refUnqualified]
  split <;> simp

@[simp] theorem slewDone_memOk (s : State) : (slewDone s).memOk = s.memOk := by
  simp only [slewDone]
  split <;> simp

@[simp] theorem clkSwap_memOk (s : State) (before : W32) (refWritten outChanged : Bool) : (clkSwap s before refWritten outChanged).memOk =
    s.memOk := by
  simp [clkSwap]

/-! ### Operands of the instructions -/

@[simp] theorem takeReplay_memOk (s : State) (l : Lane) (k : CtxKind) (len addr : Nat) : (takeReplay s l k len addr).memOk = s.memOk := by
  simp [takeReplay]

@[simp] theorem leaveReplay_memOk (s : State) (l : Lane) (k : CtxKind) (len addr value : Nat) (ok : Bool) : (leaveReplay s l k len addr
    value ok).memOk = s.memOk := by
  simp [leaveReplay]

@[simp] theorem noteLoad_memOk (s : State) (l : Lane) (k : CtxKind) (q : Place) (len : Nat) : (noteLoad s l k q len).memOk = s.memOk := by
  unfold noteLoad
  (repeat' split) <;> simp

@[simp] theorem State.present_memOk (s : State) (l : Lane) (r : EffectRec) : (s.present l r).memOk = s.memOk := by simp [State.present]

@[simp] theorem storePlace_memOk {s : State} (l : Lane) (k : CtxKind) (safety : Bool) (a : Access) (size : Nat) (bs : List Byte)
    (h : s.memOk = true) : (storePlace s l k safety a size bs).memOk = true := by
  unfold storePlace
  split
  · exact State.setLane_memOk l h (store_memOk (lane_memOk h l) ..)
  · exact (State.present_memOk ..).trans h

@[simp] theorem noteRead_memOk (s : State) (l : Lane) (k : CtxKind) (a : Access) (len : Nat) : (noteRead s l k a len).memOk = s.memOk :=
    by
  simp [noteRead]

/-! ### HLK -/

@[simp] theorem noteOutstanding_memOk (s : State) : (noteOutstanding s).memOk = s.memOk := by simp [noteOutstanding]
@[simp] theorem forwardWrite_memOk (s : State) (r : NearReq) : (forwardWrite s r).memOk = s.memOk := by simp [forwardWrite]
@[simp] theorem forwardRead_memOk (s : State) (r : NearReq) : (forwardRead s r).memOk = s.memOk := by simp [forwardRead]

@[simp] theorem pumpQueue_memOk (n : Nat) (s : State) : (pumpQueue n s).memOk = s.memOk := by
  induction n generalizing s with
  | zero => rfl
  | succ n ih =>
    unfold pumpQueue
    (repeat' split) <;> simp [ih]

@[simp] theorem pump_memOk (s : State) : (pump s).memOk = s.memOk := by simp [pump]
@[simp] theorem nearRequest_memOk (s : State) (r : NearReq) : (nearRequest s r).memOk = s.memOk := by simp [nearRequest]
@[simp] theorem postedDone_memOk (s : State) : (postedDone s).memOk = s.memOk := by simp [postedDone]

@[simp] theorem readArrived_memOk (s : State) (l : Lane) (k : CtxKind) (addr value : Nat) (ok : Bool) : (readArrived s l k addr value
    ok).memOk = s.memOk := by
  simp only [readArrived]
  split <;> simp

@[simp] theorem endRead_memOk (s : State) (r : NearReq) (value : Nat) (ok : Bool) : (endRead s r value ok).memOk = s.memOk := by
  simp only [endRead]
  split <;> simp

@[simp] theorem consumeWord_memOk (s : State) (addr : Nat) : (consumeWord s addr).memOk = s.memOk := by simp [consumeWord]

@[simp] theorem installBlock_memOk (s : State) (addr slot : Nat) (d : CardData) : (installBlock s addr slot d).memOk = s.memOk := by
  simp only [installBlock]
  (repeat' split) <;> simp

@[simp] theorem cardData_memOk (s : State) (d : CardData) : (cardData s d).memOk = s.memOk := by
  simp only [cardData]
  (repeat' split) <;> simp

@[simp] theorem readTimeout_memOk (s : State) : (readTimeout s).memOk = s.memOk := by
  simp only [readTimeout]
  split <;> simp

@[simp] theorem cardRead_memOk (s : State) (l : Lane) (k : CtxKind) (addr : Nat) : (cardRead s l k addr).2.memOk = s.memOk := by
  unfold cardRead
  (repeat' split) <;> simp

@[simp] theorem cardWrite_memOk (s : State) (by_ : NearBy) (addr : Nat) (v : W32) : (cardWrite s by_ addr v).2.memOk = s.memOk := by
  unfold cardWrite
  (repeat' split) <;> simp

@[simp] theorem retry_memOk (s : State) : (retry s).memOk = s.memOk := by simp [retry]

@[simp] theorem cardAsks_memOk {s : State} (slot : Fin 32) (n : Fin 4) (r : CardReq) (h : s.memOk = true) :
    (cardAsks s slot n r).memOk = true := by
  have hm := mailbox_wf h slot
  unfold cardAsks
  split
  · exact h
  · split
    · simp [h]
    · cases r with
      | image d => exact State.setCard_memOk slot h hm
      | mailboxWrite off d => exact State.setCard_memOk slot h (Memory.wf_writeBytes hm ..)
      | mailboxRead off => dsimp only; split <;> simp [h]
      | locked => exact h

@[simp] theorem lockSequence_memOk (s : State) (slot : Fin 32) : (lockSequence s slot).memOk = s.memOk := by simp [lockSequence]

@[simp] theorem lockTimeout_memOk (s : State) : (lockTimeout s).memOk = s.memOk := by
  simp only [lockTimeout]
  (repeat' split) <;> simp

@[simp] theorem forwardCommand_memOk (s : State) (slot : Fin 32) (sub : Fin 17) (w : Writer) (code arg : Nat) : (forwardCommand s slot sub
    w code arg).memOk = s.memOk := by
  simp [forwardCommand]

@[simp] theorem restartFailed_memOk (s : State) (u : UnitId) (cls : Nat) : (restartFailed s u cls).memOk = s.memOk := by
  simp [restartFailed]

@[simp] theorem cardRefused_memOk (s : State) (slot : Fin 32) (sub : Fin 17) (r : Running) (st : Status) : (cardRefused s slot sub r
    st).memOk = s.memOk := by
  simp [cardRefused]

@[simp] theorem cardDone_memOk (s : State) (slot : Fin 32) (sub : Fin 17) (code : Status) (data : Nat) : (cardDone s slot sub code
    data).memOk = s.memOk := by
  simp only [cardDone]
  split <;> simp

@[simp] theorem status_memOk (s : State) (slot : Fin 32) (sub : Fin 17) (p : CardStatus) : (status s slot sub p).memOk = s.memOk := by
  simp only [status]
  (repeat' split) <;> simp

@[simp] theorem hlkTrained_memOk (s : State) (n : Fin 4) : (hlkTrained s n).memOk = s.memOk := by simp [hlkTrained]

@[simp] theorem presence_memOk {s : State} (slot : Fin 32) (h : s.memOk = true) : (presence s slot).memOk = true := by
  have hc : (s.setCard slot { s.card slot with line := true }).memOk = true := State.setCard_memOk slot h (mailbox_wf h slot)
  unfold presence
  split
  · exact h
  · exact hc

@[simp] theorem rescanBegin_memOk (s : State) (arg : Nat) : (rescanBegin s arg).memOk = s.memOk := by simp [rescanBegin]

@[simp] theorem rescanNext_memOk (s : State) (slot : Nat) (ok : Bool) : (rescanNext s slot ok).memOk = s.memOk := by
  simp only [rescanNext]
  split <;> simp

@[simp] theorem cardRecord_memOk {s : State} (slot : Fin 32) (rec : List Byte) (h : s.memOk = true) : (cardRecord s slot rec).memOk = true
    := by
  simp [cardRecord, h]

@[simp] theorem hlkStop_memOk {s : State} (h : s.memOk = true) : (hlkStop s).memOk = true := by
  have hc : ((cardSlots s).foldl cardLost s).memOk = true := memOk_foldl (fun s t hs => cardLost_memOk t hs) _ h
  simp only [hlkStop]
  split <;> simp [hc]

@[simp] theorem countMisses_memOk {s : State} (t : Nat) (h : s.memOk = true) : (countMisses s t).memOk = true := by
  refine memOk_foldl (fun s slot hs => ?_) _ h
  have hm := mailbox_wf hs slot
  dsimp only
  (repeat' split)
  · exact hs
  · exact State.setCard_memOk slot hs hm
  · exact cardLost_memOk slot hs
  · exact State.setCard_memOk slot hs hm

@[simp] theorem hlkFetchDone_memOk (s : State) (bank : Nat) : (hlkFetchDone s bank).memOk = s.memOk := by simp [hlkFetchDone]

/-! ### NET -/

@[simp] theorem ethUp_memOk {s : State} (x : Fin 4) (speed : Nat) (h : s.memOk = true) : (ethUp s x speed).memOk = true := by
  simp [ethUp, h]

@[simp] theorem ethLink_memOk {s : State} (x : Fin 4) (up : Bool) (speed : Nat) (h : s.memOk = true) : (ethLink s x up speed).memOk = true
    := by
  simp [ethLink, h]

@[simp] theorem ethSwap_memOk {s : State} (x : Fin 4) (before : W32) (h : s.memOk = true) : (ethSwap s x before).memOk = true := by
  simp [ethSwap, h]

@[simp] theorem sync_memOk (s : State) (x : Fin 4) (offset : Int) (domain t : Nat) : (sync s x offset domain t).memOk = s.memOk := by
  simp [sync]

@[simp] theorem bestMaster_memOk (s : State) (x : Fin 4) (master : Bool) : (bestMaster s x master).memOk = s.memOk := by simp [bestMaster]
@[simp] theorem reject_memOk (s : State) (x : Fin 4) : (reject s x).memOk = s.memOk := by simp [reject]

@[simp] theorem telegram_memOk (s : State) (x : Fin 4) (t : Telegram) : (telegram s x t).memOk = s.memOk := by
  unfold telegram
  (repeat' split) <;> simp

@[simp] theorem undelivered_memOk (s : State) (x : Fin 4) (skip : Bool) : (undelivered s x skip).memOk = s.memOk := by simp [undelivered]

@[simp] theorem publish_memOk (s : State) (x : Fin 4) (b key p : Nat) (d : TelegramDecl) : (publish s x b key p d).memOk = s.memOk := by
  simp [publish]

@[simp] theorem publishDue_memOk (s : State) (b : Nat) : (publishDue s b).memOk = s.memOk := by simp [publishDue]
@[simp] theorem missDue_memOk (s : State) (b : Nat) : (missDue s b).memOk = s.memOk := by simp [missDue]
@[simp] theorem clearTx_memOk (s : State) : (clearTx s).memOk = s.memOk := by simp [clearTx]
@[simp] theorem inaugurate_memOk (s : State) (i : Inauguration) : (inaugurate s i).memOk = s.memOk := by simp [inaugurate]
@[simp] theorem loadDirectory_memOk (s : State) : (loadDirectory s).memOk = s.memOk := by simp [loadDirectory]

@[simp] theorem inaugEffect_memOk (s : State) : (inaugEffect s).memOk = s.memOk := by
  simp only [inaugEffect]
  split <;> simp

@[simp] theorem netFetchDone_memOk (s : State) (bank : Nat) : (netFetchDone s bank).memOk = s.memOk := by simp [netFetchDone]
@[simp] theorem serNextList_memOk (s : State) (x : Fin 4) : (serNextList s x).memOk = s.memOk := by simp [serNextList]
@[simp] theorem serEnd_memOk (s : State) (x : Fin 4) : (serEnd s x).memOk = s.memOk := by simp [serEnd]

@[simp] theorem serFail_memOk (s : State) (x : Fin 4) : (serFail s x).memOk = s.memOk := by
  simp only [serFail]
  split <;> simp

@[simp] theorem serList_memOk (s : State) (x : Fin 4) (objects : List Nat) : (serList s x objects).memOk = s.memOk := by simp [serList]
@[simp] theorem poll_memOk (s : State) (x : Fin 4) : (poll s x).memOk = s.memOk := by simp [poll]

@[simp] theorem serStage_memOk (s : State) (x : Fin 4) (key : Nat) (data : List Byte) : (serStage s x key data).memOk = s.memOk := by
  simp [serStage]

@[simp] theorem serReply_memOk (s : State) (x : Fin 4) (r : SerialReply) : (serReply s x r).memOk = s.memOk := by
  simp only [serReply]
  (repeat' split) <;> simp

@[simp] theorem serTimeout_memOk (s : State) (x : Fin 4) : (serTimeout s x).memOk = s.memOk := by simp [serTimeout]
@[simp] theorem serStop_memOk (s : State) (x : Fin 4) : (serStop s x).memOk = s.memOk := by simp [serStop]
@[simp] theorem ethStop_memOk (s : State) (x : Fin 4) : (ethStop s x).memOk = s.memOk := by simp [ethStop]

/-! ### The run of a lane -/

@[simp] theorem State.setCtx_memOk (s : State) (l : Lane) (k : CtxKind) (c : LaneCtx) : (s.setCtx l k c).memOk = s.memOk := by
  simp [State.setCtx]

@[simp] theorem awaitWindow_memOk (s : State) (l : Lane) (c : LaneCtx) : (awaitWindow s l c).memOk = s.memOk := by
  simp only [awaitWindow]
  split <;> simp

@[simp] theorem choose_memOk {s : State} (l : Lane) (h : s.memOk = true) : (choose s l).memOk = true := by
  have hx := lane_memOk h l
  have hy : (startFree s l).memOk = true := by
    unfold startFree
    split <;> simp [hx]
  have put {t : State} {y : LaneSt} (k : Option CtxKind) (ht : t.memOk = true) (hy : y.memOk = true) :
      (t.setLane l { y with current := k }).memOk = true := State.setLane_memOk l ht hy
  unfold choose
  dsimp only
  repeat' with_reducible apply ite_memOk
  all_goals refine put _ ?_ ?_ <;> simp [h, hx, hy]

@[simp] theorem notePhase_memOk (s : State) : (notePhase s).memOk = s.memOk := by simp [notePhase]
@[simp] theorem resched_memOk {s : State} (l : Lane) (h : s.memOk = true) : (resched s l).memOk = true := by simp [resched, h]
@[simp] theorem emit_memOk (s : State) (l : Lane) (k : CtxKind) (c : LaneCtx) : (emit s l k c).memOk = s.memOk := by simp [emit]
@[simp] theorem noteRun_memOk (s : State) (p t us : Nat) : (noteRun s p t us).memOk = s.memOk := by simp [noteRun]
@[simp] theorem taskEnded_memOk (s : State) (l : Lane) (k : CtxKind) : (taskEnded s l k).memOk = s.memOk := by simp [taskEnded]

@[simp] theorem endTask_memOk {s : State} (l : Lane) (k : CtxKind) (c : LaneCtx) (h : s.memOk = true) : (endTask s l k c).memOk = true :=
    by
  simp [endTask, h]

@[simp] theorem instanceEnds_memOk {s : State} (l : Lane) (k : CtxKind) (c : LaneCtx) (h : s.memOk = true) : (instanceEnds s l k c).memOk
    = true := by
  simp [instanceEnds, h]

@[simp] theorem abortTask_memOk {s : State} (l : Lane) (k : CtxKind) (h : s.memOk = true) : (abortTask s l k).memOk = true := by
  simp [abortTask, h]

@[simp] theorem refillQueue_memOk {s : State} (l : Lane) (h : s.memOk = true) : (refillQueue s l).memOk = true := by
  unfold refillQueue
  dsimp only
  split
  · exact State.setLane_memOk l h (lane_memOk h l)
  · refine memOk_foldl (fun s k hs => ?_) _ (State.setLane_memOk l h (lane_memOk h l))
    (repeat' split) <;> simp [hs]

@[simp] theorem except_memOk (s : State) (l : Lane) (k : CtxKind) (c : LaneCtx) (kind space addr : Nat) : (except s l k c kind space
    addr).memOk = s.memOk := by
  simp [except]

@[simp] theorem arrived_memOk {s : State} (guardAt : Nat) (l : Lane) (h : s.memOk = true) : (arrived s guardAt l).memOk = true := by
  unfold arrived
  dsimp only
  split
  · exact h
  · exact resched_memOk l (State.setLane_memOk l h (List.foldlRecOn (motive := fun x => LaneSt.memOk x = true) _ _ (lane_memOk h l)
      fun x hx e _ => stopFor_memOk hx ..))

theorem issue_memOk {s : State} (h : s.memOk = true) {body : CtxKind → LaneCtx → State} (hb : ∀ k c, (body k c).memOk = true)
    (l : Lane) (len : Nat) (regs : List Nat) (legal : Bool) : (issue s l len regs legal body).memOk = true := by
  unfold issue
  split
  · exact h
  · dsimp only
    (repeat' split) <;> simp [h, hb]

@[simp] theorem compute_memOk {s : State} (l : Lane) (len rd : Nat) (regs : List Nat) (legal : Bool) (f : Program → LaneCtx → OpRes)
    (h : s.memOk = true) : (compute s l len rd regs legal f).memOk = true := issue_memOk h (fun k c => by split <;> simp [h]) ..

/-! ### LCS -/

@[simp] theorem lcsChange_memOk (s : State) (old new : LifeCycle) : (lcsChange s old new).memOk = s.memOk := by simp [lcsChange]
@[simp] theorem closeDebug_memOk (s : State) : (closeDebug s).memOk = s.memOk := by simp [closeDebug]

@[simp] theorem challenge_memOk (s : State) (returning : Bool) (nonce : Nat) : (challenge s returning nonce).memOk = s.memOk := by
  simp [challenge]

@[simp] theorem authFail_memOk (s : State) : (authFail s).memOk = s.memOk := by simp [authFail]
@[simp] theorem respond_memOk (s : State) (d : SignedDoc) (t : Nat) : (respond s d t).memOk = s.memOk := by simp [respond]
@[simp] theorem unlock_memOk (s : State) (d : SignedDoc) : (unlock s d).memOk = s.memOk := by simp [unlock]
@[simp] theorem debugIntrusive_memOk (s : State) : (debugIntrusive s).memOk = s.memOk := by simp [debugIntrusive]

@[simp] theorem svcSession_memOk (s : State) (opened : Bool) (peer : Nat) : (svcSession s opened peer).memOk = s.memOk := by
  simp [svcSession]

@[simp] theorem eraseSecrets_memOk {s : State} (h : s.memOk = true) : (eraseSecrets s).memOk = true := by simp [eraseSecrets, h]

@[simp] theorem returnRequest_memOk {s : State} (consent : Option SignedDoc) (vendor : SignedDoc) (t : Nat) (h : s.memOk = true) :
    (returnRequest s consent vendor t).memOk = true := by
  simp [returnRequest, h]

@[simp] theorem drainRecorder_memOk (s : State) : (drainRecorder s).memOk = s.memOk := by simp [drainRecorder]
@[simp] theorem erased_memOk {s : State} (ok : Bool) (h : s.memOk = true) : (erased s ok).memOk = true := by
  unfold erased
  (repeat' split) <;> simp [h]

@[simp] theorem lockNow_memOk (s : State) : (lockNow s).memOk = s.memOk := by simp [lockNow]
@[simp] theorem closeService_memOk (s : State) : (closeService s).memOk = s.memOk := by simp [closeService]

/-! ### PWR -/

@[simp] theorem supplyRecord_memOk (s : State) (code : Nat) : (supplyRecord s code).memOk = s.memOk := by simp [supplyRecord]
@[simp] theorem pfWarn_memOk (s : State) : (pfWarn s).memOk = s.memOk := by simp [pfWarn]
@[simp] theorem powerReturn_memOk (s : State) : (powerReturn s).memOk = s.memOk := by simp [powerReturn]
@[simp] theorem shutdown_memOk {s : State} (h : s.memOk = true) : (shutdown s).memOk = true := by simp [shutdown, h]

@[simp] theorem safeRestart_memOk {s : State} (h : s.memOk = true) : (safeRestart s).memOk = true := by
  simp only [safeRestart]
  split <;> simp [h]

@[simp] theorem strapsRead_memOk (s : State) (straps : BitVec 13) : (strapsRead s straps).memOk = s.memOk := by simp [strapsRead]
@[simp] theorem setTemp_memOk (s : State) (t : Int) : (setTemp s t).memOk = s.memOk := by simp [setTemp]

@[simp] theorem resetAtBoundary_memOk (s : State) (cause : ResetCause) : (resetAtBoundary s cause).memOk = s.memOk := by
  simp [resetAtBoundary]

/-! ### UPD -/

theorem setUpd_memOk {s : State} {u : UpdState} (h : s.memOk = true) (hu : u.memOk = true) :
    State.memOk { s with upd := u } = true := by simp [h, hu]
@[simp] theorem prepareSlot_memOk {s : State} (h : s.memOk = true) : (prepareSlot s).memOk = true := by
  unfold prepareSlot
  split
  · exact h
  · exact setUpd_memOk h (setInactive_memOk (upd_memOk h) rfl)

@[simp] theorem applyBegin_memOk {s : State} (h : s.memOk = true) : (applyBegin s).memOk = true := by
  have hu := upd_memOk (prepareSlot_memOk h)
  have hx : ((prepareSlot s).upd.setInactive { inactiveSlot (prepareSlot s).upd with valid := false }).memOk = true :=
    setInactive_memOk hu (inactiveSlot_genOk hu)
  simp [applyBegin, hx, h]

@[simp] theorem writeImage_memOk {s : State} (p : Package) (h : s.memOk = true) : (writeImage s p).memOk = true :=
  setUpd_memOk h (setInactive_memOk (upd_memOk h) rfl)

@[simp] theorem updRecord_memOk (s : State) (code target v : Nat) : (updRecord s code target v).memOk = s.memOk := by simp [updRecord]

@[simp] theorem applySelf_memOk {s : State} (p : Package) (written : Bool) (h : s.memOk = true) : (applySelf s p written).2.memOk = true
    := by
  simp only [applySelf]
  (repeat' split) <;> simp [h]

theorem validGeneration_genOk {s : State} (h : s.memOk = true) : genOk (validGeneration s) = true := by
  unfold validGeneration
  split <;> simp [h]
@[simp] theorem activateSelf_memOk {s : State} (resetNow : Bool) (h : s.memOk = true) : (activateSelf s resetNow).memOk = true := by
  have hu : (s.upd.setActive { activeSlot s.upd with saved := validGeneration s }).memOk = true :=
    setActive_memOk (upd_memOk h) (validGeneration_genOk h)
  simp [activateSelf, hu, h]

@[simp] theorem autoApply_memOk {s : State} (p : Package) (h : s.memOk = true) : (autoApply s p).memOk = true := by
  simp only [autoApply]
  split <;> simp [h]

@[simp] theorem deliver_memOk {s : State} (p : Package) (h : s.memOk = true) : (deliver s p).memOk = true := by simp [deliver, h]
@[simp] theorem trialExpired_memOk (s : State) : (trialExpired s).memOk = s.memOk := by simp [trialExpired]
@[simp] theorem confirmSelf_memOk (s : State) : (confirmSelf s).memOk = s.memOk := by simp [confirmSelf]

@[simp] theorem abortUpdate_memOk {s : State} (h : s.memOk = true) : (abortUpdate s).memOk = true := by
  have hu : (s.upd.setInactive { inactiveSlot s.upd with valid := false }).memOk = true :=
    setInactive_memOk (upd_memOk h) (inactiveSlot_genOk (upd_memOk h))
  unfold abortUpdate
  split <;> simp [hu, h]

@[simp] theorem acceptChange_memOk {s : State} (c : ChangeSet) (h : s.memOk = true) : (acceptChange s c).memOk = true := by
  have hu (cs : List ChangeSet) : (s.upd.setActive { activeSlot s.upd with changes := cs }).memOk = true :=
    setActive_memOk (upd_memOk h) (activeSlot_genOk (upd_memOk h))
  simp [acceptChange, hu, h]

/-! ### The program's data -/

@[simp] theorem State.writeBulk_memOk {s : State} (key : Nat) (bs : List Byte) (h : s.memOk = true) : (s.writeBulk key bs).memOk = true := by
  simp [State.writeBulk, Memory.wf_writeBytes, h]

@[simp] theorem writePlace_memOk {s : State} (p : Nat) (q : Place) (bs : List Byte) (h : s.memOk = true) :
    (writePlace s p q bs).memOk = true := by
  unfold writePlace
  split
  · exact h
  · split
    · exact memOk_foldl (fun s l hs => State.setLane_memOk l hs (put_memOk (lane_memOk hs l) ..)) _ h
    · exact State.writeBulk_memOk _ _ h

@[simp] theorem writePlaces_memOk {s : State} (p : Nat) (qs : List Place) (bs : List Byte) (h : s.memOk = true) :
    (writePlaces s p qs bs).memOk = true := memOk_foldl (fun _ q => writePlace_memOk p q bs) _ h

@[simp] theorem putInst_memOk {s : State} (pn : Nat) (p : Program) (d : InstDecl) (m : Memory) (h : s.memOk = true) : (putInst s pn p d
    m).memOk = true := by
  simp [putInst, h]

@[simp] theorem resetComposite_memOk {s : State} (k : Nat) (h : s.memOk = true) : (resetComposite s k).memOk = true := by
  unfold resetComposite
  split
  · exact h
  · exact memOk_foldl (fun _ _ => writePlace_memOk _ _ _) _ h

@[simp] theorem overrideStores_memOk (s : State) (pn key : Nat) (bs : List Byte) : (overrideStores s pn key bs).memOk = s.memOk := by
  simp [overrideStores]

@[simp] theorem applyItem_memOk {s : State} (pn : Nat) (i : ChangeItem) (h : s.memOk = true) : (applyItem s pn i).memOk = true :=
  memOk_foldl (fun _ q hs => by cases q <;> simp [hs]) _ (writePlaces_memOk _ _ _ h)

@[simp] theorem applyChange_memOk {s : State} (c : ChangeSet) (h : s.memOk = true) : (applyChange s c).memOk = true :=
  memOk_foldl (fun s i hs => applyItem_memOk _ i (by split <;> simp [hs])) _ h

@[simp] theorem initOutputs_memOk (s : State) (pn : Nat) (p : Program) : (initOutputs s pn p).memOk = s.memOk := by simp [initOutputs]

@[simp] theorem initProgram_memOk {s : State} (pn : Nat) (p : Program) (gen : Option RetGen) (h : s.memOk = true) :
    (initProgram s pn p gen).memOk = true :=
  memOk_foldl (fun _ _ => writePlaces_memOk _ _ _) _ (memOk_foldl (fun _ _ => writePlace_memOk _ _ _) _ h)

theorem inactiveGen_wf {s : State} (h : s.memOk = true) : Memory.wf (inactiveGen s).bytes = true := by
  unfold inactiveGen
  split <;> simp [h]
@[simp] theorem State.setInactiveGen_memOk {s : State} {g : RetGen} (hg : Memory.wf g.bytes = true) (h : s.memOk = true) :
    (s.setInactiveGen g).memOk = true := by
  unfold State.setInactiveGen
  split <;> simp [h, hg]

@[simp] theorem commitGeneration_memOk {s : State} (h : s.memOk = true) : (commitGeneration s).memOk = true := by
  unfold commitGeneration
  split
  · exact h
  · have hi := State.setInactiveGen_memOk (g := { inactiveGen s with image := imageDigest s, tick := s.tick.n }) (inactiveGen_wf h) h
    simp [hi]

@[simp] theorem restartProgram_memOk {s : State} (warm : Bool) (h : s.memOk = true) : (restartProgram s warm).2.memOk = true := by
  have hm : ((commitGeneration s).mapLanes fun _ x => if x.role = .voting || x.role = .split then clearLane x else x).memOk = true :=
    State.mapLanes_memOk (commitGeneration_memOk h) fun l x hx => by split <;> simp [hx]
  unfold restartProgram
  dsimp only
  generalize (commitGeneration s).mapLanes _ = t at hm ⊢
  have hf {u : State} (g : State → Option RetGen) (hu : u.memOk = true) :
      ((progsInForce (commitGeneration s)).foldl (fun s pn => initProgram s pn (progOf s pn) (g s)) u).memOk = true :=
    memOk_foldl (fun _ _ => initProgram_memOk _ _ _) _ hu
  split <;> simp [hf, hm]

/-! ### What the states of a unit mean -/

@[simp] theorem leaveRun_memOk {s : State} (u : UnitId) (h : s.memOk = true) : (leaveRun s u).memOk = true := by
  simp only [leaveRun]
  split <;> simp [h]

@[simp] theorem outOfService_memOk {s : State} (u : UnitId) (h : s.memOk = true) : (outOfService s u).memOk = true := by
  simp only [outOfService]
  split <;> simp [h]

@[simp] theorem enterRun_memOk (s : State) (u : UnitId) : (enterRun s u).memOk = s.memOk := by
  simp only [enterRun]
  split <;> simp

@[simp] theorem enterState_memOk {s : State} (u : UnitId) (t : UState) (h : s.memOk = true) : (enterState s u t).memOk = true := by
  simp [enterState, h]

@[simp] theorem failSelf_memOk {s : State} (u : UnitId) (kind address : Nat) (h : s.memOk = true) : (failSelf s u kind address).memOk =
    true := by
  simp [failSelf, h]

@[simp] theorem reinit_memOk {s : State} (u : UnitId) (h : s.memOk = true) : (reinit s u).memOk = true := by
  unfold reinit
  (repeat' split) <;> simp [h]

@[simp] theorem resetUnit_memOk {s : State} (u : UnitId) (h : s.memOk = true) : (resetUnit s u).memOk = true := by simp [resetUnit, h]

@[simp] theorem forceGate_memOk {s : State} (u : UnitId) (t : UState) (h : s.memOk = true) : (forceGate s u t).memOk = true := by
  simp [forceGate, h]

/-! ### FLT -/

@[simp] theorem openWindow_memOk (s : State) (w : ReactWindow) : (openWindow s w).memOk = s.memOk := by simp [openWindow]
@[simp] theorem clearUnit_memOk {s : State} (u : UnitId) (h : s.memOk = true) : (clearUnit s u).memOk = true := by simp [clearUnit, h]

@[simp] theorem resetOutcome_memOk (s : State) (u : UnitId) : (resetOutcome s u).memOk = s.memOk := by
  simp only [resetOutcome]
  split <;> simp

@[simp] theorem endFieldActivities_memOk (s : State) (u : UnitId) : (endFieldActivities s u).memOk = s.memOk := by
  simp [endFieldActivities]

@[simp] theorem unitReset_memOk {s : State} (u : UnitId) (primary cls : Nat) (h : s.memOk = true) : (unitReset s u primary cls).memOk = true := by
  rw [unitReset, resetOutcome_memOk]
  exact memOk_foldl (fun s v hs => by simp [hs]) _ (by simp [h])

@[simp] theorem cancelRestart_memOk (s : State) (u : UnitId) : (cancelRestart s u).memOk = s.memOk := by simp [cancelRestart]

@[simp] theorem timedDegraded_memOk {s : State} (u : UnitId) (primary cls : Nat) (h : s.memOk = true) :
    (timedDegraded s u primary cls).memOk = true :=
  memOk_foldl (fun s v hs => by simp [hs]) (withMembers s u) (s := openWindow _ _) (by simp [h])

@[simp] theorem laneExclusion_memOk (s : State) (l : Lane) (m : FaultMsg) : (laneExclusion s l m).memOk = s.memOk := by
  simp [laneExclusion]

@[simp] theorem react_memOk {s : State} (u : UnitId) (m : FaultMsg) (seq : Nat) (r : Reaction) (degrades : Bool) (h : s.memOk = true) :
    (react s u m seq r degrades).memOk = true := by
  unfold react
  (repeat' split) <;> simp [h]

@[simp] theorem offerFault_memOk (s : State) (m : FaultMsg) (seq : Nat) : (offerFault s m seq).memOk = s.memOk := by simp [offerFault]
@[simp] theorem nextHeld_memOk (s : State) (u : UnitId) : (nextHeld s u).memOk = s.memOk := by simp [nextHeld]

@[simp] theorem injectReported_memOk (s : State) (m : FaultMsg) (seq : Nat) : (injectReported s m seq).memOk = s.memOk := by
  simp [injectReported]

@[simp] theorem recordMsg_memOk (s : State) (m : FaultMsg) (seq : Nat) (v : Verdict) (r : Reaction) (primary : Nat) : (recordMsg s m seq v
    r primary).memOk = s.memOk := by
  simp [recordMsg]

@[simp] theorem takeFrom_memOk {s : State} (u : UnitId) (h : s.memOk = true) : (takeFrom s u).memOk = true := by
  simp only [takeFrom]
  split <;> simp [h]

@[simp] theorem takeMessage_memOk {s : State} (u : UnitId) (h : s.memOk = true) : (takeMessage s u).memOk = true := by
  simp [takeMessage, h]

@[simp] theorem writeBack_memOk (s : State) (image : NMap W32) : (writeBack s image).memOk = s.memOk := by simp [writeBack]

@[simp] theorem restartOne_memOk (start : Bool) {s : State} (u : UnitId) (h : s.memOk = true) : (restartOne start s u).memOk = true := by
  simp [restartOne, h]

@[simp] theorem restartSource_memOk {s : State} (u : UnitId) (w : ReactWindow) (h : s.memOk = true) :
    (restartSource s u w).memOk = true := by
  simp only [restartSource]
  split
  · simp [h]
  · exact memOk_foldl (fun s v hs => by simp [hs]) _ (by simp [h])
  · have hr (b : Bool) (l : List UnitId) : (l.foldl (restartOne b) s).memOk = true :=
      memOk_foldl (fun s v hs => by simp [hs]) _ h
    simp only [memOk_ite, State.complete_memOk, hr, ite_self]

@[simp] theorem restartUnit_memOk {s : State} (u : UnitId) (h : s.memOk = true) : (restartUnit s u).memOk = true := by
  simp only [restartUnit]
  split <;> simp [h]

@[simp] theorem restartsDue_memOk {s : State} (h : s.memOk = true) : (restartsDue s).memOk = true :=
  memOk_foldl (fun _ _ hs => restartUnit_memOk _ hs) _ h

@[simp] theorem closeRestarted_memOk (s : State) : (closeRestarted s).memOk = s.memOk := by simp [closeRestarted]
@[simp] theorem closeWindow_memOk (s : State) (u : UnitId) : (closeWindow s u).memOk = s.memOk := by simp [closeWindow]
@[simp] theorem acknowledge_memOk (s : State) (all : Bool) (cls : Nat) : (acknowledge s all cls).memOk = s.memOk := by simp [acknowledge]

@[simp] theorem raiseEcc_memOk (s : State) (u : UnitId) (kind address : Nat) (injected : Bool) : (raiseEcc s u kind address
    injected).memOk = s.memOk := by
  simp [raiseEcc]

@[simp] theorem eccCorrected_memOk (s : State) (p : EccPlace) (address : Nat) (injected : Bool) : (eccCorrected s p address
    injected).memOk = s.memOk := by
  simp only [eccCorrected]
  split <;> simp

@[simp] theorem eccUncorrectable_memOk (s : State) (p : EccPlace) (address : Nat) (injected : Bool) : (eccUncorrectable s p address
    injected).memOk = s.memOk := by
  unfold eccUncorrectable
  (repeat' split) <;> simp

@[simp] theorem loseFrame_memOk (s : State) (n : Fin 6) (c : CanState) (f : Option FrameCell) : (loseFrame s n c f).memOk = s.memOk := by
  simp only [loseFrame]
  split <;> simp

@[simp] theorem loseWord_memOk (s : State) (w : UnitWord) : (loseWord s w).memOk = s.memOk := by
  unfold loseWord
  split
  · simp
  · simp
  · dsimp only
    split <;> simp
  · rfl
  · split <;> simp

@[simp] theorem selfReg_memOk (s : State) (address : Nat) (injected : Bool) : (selfReg s address injected).memOk = s.memOk := by
  simp [selfReg]

@[simp] theorem inject_memOk (s : State) (arg : Nat) : (inject s arg).memOk = s.memOk := by
  unfold inject
  (repeat' split) <;> simp

@[simp] theorem injectMissed_memOk (s : State) : (injectMissed s).memOk = s.memOk := by simp [injectMissed]
@[simp] theorem degradeCount_memOk (s : State) : (degradeCount s).memOk = s.memOk := by simp [degradeCount]
@[simp] theorem degradeExpired_memOk (s : State) : (degradeExpired s).memOk = s.memOk := by simp [degradeExpired]
@[simp] theorem clearSummary_memOk (s : State) : (clearSummary s).memOk = s.memOk := by simp [clearSummary]
@[simp] theorem copyHistory_memOk (s : State) (bank index : Nat) : (copyHistory s bank index).memOk = s.memOk := by simp [copyHistory]

/-! ### PLACE -/

@[simp] theorem reportNone_memOk (s : State) (p : Program) (old : Option PMap) (new : PMap) : (reportNone s p old new).memOk = s.memOk :=
  memOk_foldl_eq (fun s r => by split <;> simp) ..

@[simp] theorem adoptSet_memOk {s : State} (inp : PlaceInput) (ms : List PMap) (h : s.memOk = true) : (adoptSet s inp ms).memOk = true := by
  have hc := memOk_foldl (f := fun s (t : Fin 32) => s.setCard t { s.card t with placed := capability (s.card t).record })
    (fun s t hs => State.setCard_memOk _ hs (mailbox_wf hs t)) (cardSlots s) h
  simp only [adoptSet, memOk_mk, memOk_fold, hc]

@[simp] theorem loadBase_memOk (s : State) (ms : List PMap) : (loadBase s ms).memOk = s.memOk := by
  simp only [loadBase]
  split <;> simp

@[simp] theorem loadSet_memOk {s : State} (period : Nat) (mismatch : Bool) (h : s.memOk = true) : (loadSet s period mismatch).2.memOk =
    true := by
  simp only [loadSet]
  split <;> simp [h]

@[simp] theorem dropFrames_memOk (s : State) (n : Fin 6) (key : Nat) : (dropFrames s n key).memOk = s.memOk := by simp [dropFrames]

@[simp] theorem reroute_memOk (s : State) (p : Nat) (d : MsgDecl) (old new : RouteRec) : (reroute s p d old new).memOk = s.memOk := by
  unfold reroute
  (repeat' split) <;> simp

@[simp] theorem switchMap_memOk (s : State) (p : Nat) (new : PMap) : (switchMap s p new).memOk = s.memOk := by
  simp only [switchMap]
  split
  · split <;> simp
  · rw [reportNone_memOk, memOk_foldl_eq (canLayout_memOk · · false)]
    refine (memOk_foldl_eq (fun s d => by split <;> simp) ..).trans ?_
    split <;> simp

@[simp] theorem returnsDue_memOk (s : State) : (returnsDue s).memOk = s.memOk := by simp [returnsDue]
@[simp] theorem awaitCombined_memOk (s : State) : (awaitCombined s).memOk = s.memOk := by simp [awaitCombined]
@[simp] theorem endCombined_memOk (s : State) : (endCombined s).memOk = s.memOk := by simp [endCombined]

@[simp] theorem switchMain_memOk (s : State) : (switchMain s).memOk = s.memOk := by
  simp only [switchMain]
  (repeat' split) <;> simp

@[simp] theorem switchSplit_memOk (s : State) : (switchSplit s).memOk = s.memOk := by simp [switchSplit]
@[simp] theorem rebalanceLost_memOk (s : State) (lane : Bool) : (rebalanceLost s lane).memOk = s.memOk := by simp [rebalanceLost]

@[simp] theorem placeStep_memOk (s : State) : (placeStep s).memOk = s.memOk := by
  simp only [placeStep]
  split <;> simp

@[simp] theorem combinedDone_memOk (s : State) (mismatch : Bool) (us : Nat) : (combinedDone s mismatch us).memOk = s.memOk := by
  simp only [combinedDone]
  (repeat' split) <;> simp

@[simp] theorem resourceReturn_memOk (s : State) (r : Resource) : (resourceReturn s r).memOk = s.memOk := by simp [resourceReturn]
@[simp] theorem returnAll_memOk (s : State) : (returnAll s).memOk = s.memOk := by simp [returnAll]
@[simp] theorem rebalanceBegin_memOk (s : State) : (rebalanceBegin s).memOk = s.memOk := by simp [rebalanceBegin]
@[simp] theorem rebalanceFails_memOk (s : State) : (rebalanceFails s).memOk = s.memOk := by simp [rebalanceFails]

@[simp] theorem presentCopies_memOk (s : State) : (presentCopies s).memOk = s.memOk := by
  simp only [presentCopies]
  split <;> simp

@[simp] theorem rebalanceComputed_memOk (s : State) (mismatch : Bool) (us : Nat) : (rebalanceComputed s mismatch us).memOk = s.memOk := by
  simp only [rebalanceComputed]
  split <;> simp

@[simp] theorem partnerSet_memOk (s : State) (digest : Nat) : (partnerSet s digest).memOk = s.memOk := by
  simp only [partnerSet]
  split <;> simp

@[simp] theorem rebalanceGuard_memOk (s : State) : (rebalanceGuard s).memOk = s.memOk := by
  simp only [rebalanceGuard]
  split <;> simp

@[simp] theorem migrate_memOk {s : State} (old new : PMap) (h : s.memOk = true) : (migrate s old new).memOk = true := by
  unfold migrate
  split
  · exact h
  · refine memOk_foldl (fun s m hs => ?_) _ h
    split
    · exact memOk_foldl (fun s l hs => State.setLane_memOk l hs (store_memOk (lane_memOk hs l) ..)) _ hs
    · exact hs

@[simp] theorem migrateBulk_memOk {s : State} (old new : PMap) (h : s.memOk = true) : (migrateBulk s old new).memOk = true := by
  unfold migrateBulk
  split
  · exact h
  · refine memOk_foldl (fun s m hs => ?_) _ h
    split <;> simp [hs]

@[simp] theorem rebalanceSwitch_memOk {s : State} (n : Nat) (h : s.memOk = true) : (rebalanceSwitch s n).memOk = true := by
  have hm (o n : PMap) := migrate_memOk o n (migrateBulk_memOk o n h)
  unfold rebalanceSwitch
  split
  · refine ite_memOk h ?_
    split <;> simp [h, hm]
  · exact h

@[simp] theorem migrateTimeout_memOk (s : State) : (migrateTimeout s).memOk = s.memOk := by
  simp only [migrateTimeout]
  split <;> simp

@[simp] theorem profileStart_memOk (s : State) (ticks : Nat) : (profileStart s ticks).memOk = s.memOk := by simp [profileStart]

@[simp] theorem profileTick_memOk (s : State) : (profileTick s).memOk = s.memOk := by
  simp only [profileTick]
  split <;> simp

@[simp] theorem profileComplete_memOk (s : State) (p : ProfileSet) : (profileComplete s p).memOk = s.memOk := by
  simp only [profileComplete]
  split <;> simp

@[simp] theorem profileStop_memOk (s : State) : (profileStop s).memOk = s.memOk := by simp [profileStop]

@[simp] theorem adoptProfile_memOk {s : State} (none_ : Bool) (h : s.memOk = true) : (adoptProfile s none_).memOk = true := by
  have hu {a : ImageSlot} (ha : a.saved = (activeSlot s.upd).saved) : (s.upd.setActive a).memOk = true :=
    setActive_memOk (upd_memOk h) (by rw [ha]; exact activeSlot_genOk (upd_memOk h))
  unfold adoptProfile
  dsimp only
  split <;> simp [hu, h]

@[simp] theorem windowOver_memOk (s : State) (inst : Nat) : (windowOver s inst).memOk = s.memOk := by simp [windowOver]
@[simp] theorem placeFetchDone_memOk (s : State) (bank : Nat) : (placeFetchDone s bank).memOk = s.memOk := by simp [placeFetchDone]

/-! ### PAIR -/

@[simp] theorem reclaim_memOk (s : State) : (reclaim s).memOk = s.memOk := by simp [reclaim]
@[simp] theorem setRole_memOk (s : State) (r : Role) : (setRole s r).memOk = s.memOk := by simp [setRole]

@[simp] theorem abandonHandover_memOk (s : State) : (abandonHandover s).memOk = s.memOk := by
  simp only [abandonHandover]
  (repeat' split) <;> simp

@[simp] theorem losePartner_memOk (s : State) : (losePartner s).memOk = s.memOk := by simp [losePartner]

@[simp] theorem endPartnerApply_memOk (s : State) : (endPartnerApply s).memOk = s.memOk := by
  simp only [endPartnerApply]
  split <;> simp

@[simp] theorem partnerLost_memOk (s : State) (next : PairState) : (partnerLost s next).memOk = s.memOk := by simp [partnerLost]
@[simp] theorem syncFormed_memOk (s : State) : (syncFormed s).memOk = s.memOk := by simp [syncFormed]
@[simp] theorem confirmCause_memOk (s : State) : (confirmCause s).memOk = s.memOk := by simp [confirmCause]
@[simp] theorem sendBeacon_memOk (s : State) (n : Nat) : (sendBeacon s n).memOk = s.memOk := by simp [sendBeacon]

@[simp] theorem followState_memOk (s : State) (before now : Nat) : (followState s before now).memOk = s.memOk := by
  unfold followState
  (repeat' split) <;> simp

@[simp] theorem standbyBeacon_memOk (s : State) (b : Beacon) (before : Nat) : (standbyBeacon s b before).memOk = s.memOk := by
  simp [standbyBeacon]

@[simp] theorem activeBeacon_memOk (s : State) (b : Beacon) (before : Nat) : (activeBeacon s b before).memOk = s.memOk := by
  simp only [activeBeacon]
  split <;> simp

@[simp] theorem beacon_memOk (s : State) (b : Beacon) (t : Nat) : (beacon s b t).memOk = s.memOk := by simp [beacon]
@[simp] theorem beaconsAbsent_memOk (s : State) : (beaconsAbsent s).memOk = s.memOk := by simp [beaconsAbsent]

@[simp] theorem linkChange_memOk {s : State} (k : Fin 2) (up : Bool) (h : s.memOk = true) : (linkChange s k up).memOk = true := by
  simp [linkChange, h]

@[simp] theorem settleRoles_memOk (s : State) (p : PeerIdentity) : (settleRoles s p).memOk = s.memOk := by simp [settleRoles]

@[simp] theorem endResync_memOk (s : State) (check format : Nat) : (endResync s check format).memOk = s.memOk := by
  simp only [endResync]
  split <;> simp

@[simp] theorem runChecks_memOk (s : State) (p : PeerIdentity) : (runChecks s p).memOk = s.memOk := by simp [runChecks]
@[simp] theorem partnerResync_memOk (s : State) (p : PeerIdentity) : (partnerResync s p).memOk = s.memOk := by simp [partnerResync]

@[simp] theorem retryResync_memOk (s : State) : (retryResync s).memOk = s.memOk := by
  simp only [retryResync]
  split <;> simp

@[simp] theorem putBytes_wf {m : Memory} (base : Nat) (bs : Bytes) (h : Memory.wf m = true) : Memory.wf (putBytes m base bs) = true := by
  unfold putBytes
  induction bs generalizing m with
  | nil => exact h
  | cons b bs ih => exact ih (Memory.wf_writeByte h ..)
@[simp] theorem copyPages_memOk {s : State} (c : StateCopy) (h : s.memOk = true) : (copyPages s c).memOk = true := by
  have hm := State.mapLanes_memOk (f := fun _ x => { x with mem := putBytes x.mem 0 c.lanePages }) h fun l x hx => by simp [hx]
  simp [copyPages, hm]

@[simp] theorem copyUnits_memOk {s : State} (c : StateCopy) (h : s.memOk = true) : (copyUnits s c).memOk = true := by
  refine (memOk_foldl_eq (fun s e => by split <;> simp) ..).trans (memOk_foldl (fun s e hs => ?_) _ ?_)
  · split
    · exact ite_memOk (enterState_memOk _ _ hs) hs
    · exact hs
  · simp [h]

@[simp] theorem copyTime_memOk (s : State) (c : StateCopy) : (copyTime s c).memOk = s.memOk := by simp [copyTime]

@[simp] theorem copyRecords_memOk {s : State} (c : StateCopy) (h : s.memOk = true) : (copyRecords s c).memOk = true := by
  have hu {t : State} (ht : t.memOk = true) {a : ImageSlot} (ha : a.saved = (activeSlot t.upd).saved) : (t.upd.setActive a).memOk = true :=
    setActive_memOk (upd_memOk ht) (by rw [ha]; exact activeSlot_genOk (upd_memOk ht))
  have hf (cs : List ChangeSet) := memOk_foldl (f := fun s (ch : ChangeSet) =>
    ch.items.foldl (fun s i => applyItem s (match ch.lane with | some l => 1 + l.idx | none => 0) i)
      { s with upd := s.upd.setActive { activeSlot s.upd with changes := (activeSlot s.upd).changes ++ [ch] },
               prog := { s.prog with changes := s.prog.changes ++ [ch] } })
    (fun t ch ht => memOk_foldl (fun _ i hs => applyItem_memOk _ i hs) _ (by simp [hu ht, ht])) cs h
  unfold copyRecords
  dsimp only
  split
  · exact setUpd_memOk (hf _) (hu (hf _) rfl)
  · exact hf _

@[simp] theorem copyInput_memOk {s : State} (c : StateCopy) (h : s.memOk = true) : (copyInput s c).memOk = true :=
  State.mapLanes_memOk h fun _ _ hx => setInBuf_memOk hx _ (putBytes_wf 0 _ rfl)

@[simp] theorem copyRebalance_memOk (s : State) (c : StateCopy) : (copyRebalance s c).memOk = s.memOk := by
  simp only [copyRebalance]
  split <;> simp

/-- The parts of a copy that become the standby's state, before the retentive generation and the counters. -/
theorem copyParts_memOk {s : State} (c : StateCopy) (h : s.memOk = true) :
    (copyRebalance (copyInput (copyRecords (copyTime (copyUnits (copyPages s c) c) c) c) c) c).memOk = true := by
  rw [copyRebalance_memOk]
  refine copyInput_memOk c (copyRecords_memOk c ?_)
  rw [copyTime_memOk]
  exact copyUnits_memOk c (copyPages_memOk c h)
@[simp] theorem applyCopy_memOk {s : State} (c : StateCopy) (h : s.memOk = true) : (applyCopy s c).memOk = true := by
  have hp := copyParts_memOk c h
  unfold applyCopy
  dsimp only
  generalize copyRebalance _ c = t at hp ⊢
  have hg := State.setInactiveGen_memOk (g := { inactiveGen t with bytes := putBytes (inactiveGen t).bytes 0 c.retentive })
    (putBytes_wf 0 _ (inactiveGen_wf hp)) hp
  split <;> simp [hp, hg]

@[simp] theorem copyMissing_memOk (s : State) : (copyMissing s).memOk = s.memOk := by simp [copyMissing]

@[simp] theorem stateCopy_memOk {s : State} (c : StateCopy) (ok : Bool) (h : s.memOk = true) : (stateCopy s c ok).memOk = true := by
  simp [stateCopy, h]

@[simp] theorem copyAcked_memOk (s : State) (a : CopyAck) : (copyAcked s a).memOk = s.memOk := by
  simp only [copyAcked]
  (repeat' split) <;> simp

@[simp] theorem revertStep_memOk (s : State) : (revertStep s).memOk = s.memOk := by simp [revertStep]
@[simp] theorem announceHandover_memOk (s : State) (n : Nat) : (announceHandover s n).memOk = s.memOk := by simp [announceHandover]
@[simp] theorem resyncCmd_memOk (s : State) : (resyncCmd s).memOk = s.memOk := by simp [resyncCmd]
@[simp] theorem detachCmd_memOk (s : State) : (detachCmd s).memOk = s.memOk := by simp [detachCmd]
@[simp] theorem takeLosses_memOk (s : State) : (takeLosses s).memOk = s.memOk := by simp [takeLosses]
@[simp] theorem takeOver_memOk (s : State) (handover : Bool) : (takeOver s handover).memOk = s.memOk := by simp [takeOver]
@[simp] theorem seizeStep_memOk (s : State) : (seizeStep s).memOk = s.memOk := by simp [seizeStep]
@[simp] theorem depose_memOk (s : State) : (depose s).memOk = s.memOk := by simp [depose]

@[simp] theorem State.setStation_memOk (s : State) (k : Nat) (x : StationSt) : (s.setStation k x).memOk = s.memOk := by
  simp [State.setStation]

@[simp] theorem loseStation_memOk (s : State) (k : Nat) : (loseStation s k).memOk = s.memOk := by
  simp only [loseStation]
  (repeat' split) <;> simp

@[simp] theorem stationLost_memOk (s : State) (i : Nat) : (stationLost s i).memOk = s.memOk := by simp [stationLost]

/-! ### Step 2 of a boundary -/

@[simp] theorem stationLatch_memOk (s : State) (t p : Nat) (d : StationDecl) : (stationLatch s t p d).memOk = s.memOk := by
  simp [stationLatch]

@[simp] theorem stationsLatch_memOk (s : State) (t : Nat) : (stationsLatch s t).memOk = s.memOk := by simp [stationsLatch]

@[simp] theorem holdPayloads_memOk (s : State) (t p : Nat) : (holdPayloads s t p).memOk = s.memOk :=
  memOk_foldl_eq (fun s m => by split <;> simp) ..

@[simp] theorem putBlock_wf {b : InBuf} (off : Nat) (bs : List Byte) (tags : List (Nat × Tag)) (h : Memory.wf b.bytes = true) :
    Memory.wf (putBlock b off bs tags).bytes = true := Memory.wf_writeBytes h ..
theorem putBlocks_wf {α : Type} {f : InBuf → α → InBuf} (hf : ∀ b a, Memory.wf b.bytes = true → Memory.wf (f b a).bytes = true)
    (l : List α) {b : InBuf} (h : Memory.wf b.bytes = true) : Memory.wf (l.foldl f b).bytes = true := by
  induction l generalizing b with
  | nil => exact h
  | cons a l ih => exact ih (hf b a h)
theorem inputImage_wf (s : State) (p n t : Nat) (prev : InBuf) : Memory.wf (inputImage s p n t prev).bytes = true := by
  have hv := putBlocks_wf (f := fun b v => putBlock b v.off (bytesLE v.ty.size (latchValue s t p prev v).1)
    [(0, (latchValue s t p prev v).2)]) (fun _ _ => putBlock_wf _ _ _) (progOf s p).inputs (b := { n, time := t }) rfl
  unfold inputImage
  dsimp only
  refine putBlocks_wf (fun _ _ => putBlock_wf _ _ _) _ ?_
  (repeat' split) <;> simp [hv]
@[simp] theorem latchLane_memOk {s : State} (l : Lane) (n t : Nat) (h : s.memOk = true) : (latchLane s l n t).memOk = true :=
  State.setLane_memOk l h (setInBuf_memOk (lane_memOk h l) _ (inputImage_wf ..))

@[simp] theorem takeStaging_memOk (s : State) (t : Nat) : (takeStaging s t).memOk = s.memOk := by simp [takeStaging]
@[simp] theorem claimsLatched_memOk (s : State) (t : Nat) : (claimsLatched s t).memOk = s.memOk := by simp [claimsLatched]

@[simp] theorem latchStep_memOk {s : State} (n t : Nat) (h : s.memOk = true) : (latchStep s n t).memOk = true := by
  have hl := memOk_foldl (f := fun s l => latchLane s l n t) (fun s l => latchLane_memOk l n t) (runSet (stationsLatch s t))
    (s := stationsLatch s t) (by simp [h])
  simp [latchStep, hl]

/-! ### Step 3 of a boundary -/

@[simp] theorem commitValues_memOk (s : State) (ws : List OutWrite) : (commitValues s ws).memOk = s.memOk := by simp [commitValues]
@[simp] theorem splitSafe_memOk (s : State) : (splitSafe s).memOk = s.memOk := by simp [splitSafe]
@[simp] theorem driveOutputs_memOk (s : State) (ps : List Nat) : (driveOutputs s ps).memOk = s.memOk := by simp [driveOutputs]
@[simp] theorem sendBrakeWord_memOk (s : State) : (sendBrakeWord s).memOk = s.memOk := by simp [sendBrakeWord]
@[simp] theorem sendClaims_memOk (s : State) : (sendClaims s).memOk = s.memOk := by simp [sendClaims]

@[simp] theorem commitMessage_memOk (acc : State × Deliveries) (w : OutWrite) (h : acc.1.memOk = true) : (commitMessage acc w).1.memOk = true := by
  obtain ⟨s, r⟩ := acc
  have he (n : Fin 6) (d : MsgDecl) (route : RouteRec) (f : FrameCell) : (canEnter s n d route f).1.memOk = true := by
    simpa using h
  simp only [commitMessage]
  split
  · split
    · split
      · exact h
      · split <;> rename_i hc
        · exact memOk_of_fst_eq hc (he _ _ _ _)
        · have hs := memOk_of_fst_eq hc (he _ _ _ _)
          simp [hs]
    · split <;> exact h
    · exact h
  · exact h

@[simp] theorem supersede_memOk (s : State) (w : OutWrite) : (supersede s w).memOk = s.memOk := by
  unfold supersede
  (repeat' split) <;> simp

@[simp] theorem commitMessages_memOk {s : State} (ws : List OutWrite) (h : s.memOk = true) : (commitMessages s ws).memOk = true := by
  unfold commitMessages
  dsimp only
  rw [memOk_mk, ProgState.memOk_mk, ProgState.memOk_fold, memOk_fold, memOk_foldl_eq (serList_memOk · · _)]
  refine memOk_foldl_fst commitMessage_memOk _ ?_
  exact memOk_foldl (fun s k hs => by split <;> simp [hs]) _ h

@[simp] theorem stationsCommitted_memOk (s : State) : (stationsCommitted s).memOk = s.memOk := by simp [stationsCommitted]

@[simp] theorem commitPassed_memOk {s : State} (n : Nat) (gs : List EmitGroup) (switch : Bool) (h : s.memOk = true) : (commitPassed s n gs
    switch).memOk = true := by
  simp [commitPassed, h]

@[simp] theorem commitSafeOnly_memOk (s : State) : (commitSafeOnly s).memOk = s.memOk := by simp [commitSafeOnly]

@[simp] theorem commitStep_memOk {s : State} (n : Nat) (gs : List EmitGroup) (safeOnly switch : Bool) (h : s.memOk = true) : (commitStep s
    n gs safeOnly switch).memOk = true := by
  simp [commitStep, h]

/-! ### Loads and stores -/

@[simp] theorem exceptAt_memOk (s : State) (l : Lane) (k : CtxKind) (c : LaneCtx) (kind : Nat) (a : Access) : (exceptAt s l k c kind
    a).memOk = s.memOk := by
  simp [exceptAt]

@[simp] theorem storeTo_memOk {s : State} (l : Lane) (k : CtxKind) (c : LaneCtx) (a : Access) (size : Nat) (bs : List Byte) (h : s.memOk =
    true) : (storeTo s l k c a size bs).memOk = true := by
  simp [storeTo, h]

/-! ### Messages -/

@[simp] theorem exceptMsg_memOk (s : State) (l : Lane) (k : CtxKind) (c : LaneCtx) (a : Access) (e : Nat × Bool) : (exceptMsg s l k c a
    e).memOk = s.memOk := by
  simp [exceptMsg]

@[simp] theorem storePayload_memOk {s : State} (l : Lane) (k : CtxKind) (safety : Bool) (a : Access) (bs : List Byte) (h : s.memOk = true) :
    (storePayload s l k safety a bs).memOk = true := memOk_foldl_fst (fun p q hp => by simp [hp]) _ h

@[simp] theorem awaitRoom_memOk (s : State) (l : Lane) (k : CtxKind) : (awaitRoom s l k).memOk = s.memOk := by simp [awaitRoom]

/-! ### LANE/VOTER -/

@[simp] theorem noteDis_memOk (s : State) (l : Option Lane) (how kind addr : Nat) : (noteDis s l how kind addr).memOk = s.memOk := by
  simp [noteDis]

@[simp] theorem countDis_memOk (s : State) (l : Lane) : (countDis s l).memOk = s.memOk := by simp [countDis]

@[simp] theorem laneAgainst_memOk (s : State) (l : Lane) (kind how : Nat) (r : EffectRec) : (laneAgainst s l kind how r).memOk = s.memOk
    := by
  simp [laneAgainst]

@[simp] theorem noPass_memOk (s : State) (kind : Nat) (r : EffectRec) : (noPass s kind r).memOk = s.memOk := by simp [noPass]
@[simp] theorem noteDigest_memOk (s : State) (l : Option Lane) : (noteDigest s l).memOk = s.memOk := by simp [noteDigest]
@[simp] theorem latent_memOk (s : State) (l : Lane) (vs : List Lane) : (latent s l vs).memOk = s.memOk := by simp [latent]
@[simp] theorem digestSplit_memOk (s : State) : (digestSplit s).memOk = s.memOk := by simp [digestSplit]
@[simp] theorem agreed_memOk (s : State) (d : W64) : (agreed s d).memOk = s.memOk := by simp [agreed]

@[simp] theorem compareDigests_memOk (s : State) : (compareDigests s).memOk = s.memOk := by
  simp only [compareDigests]
  (repeat' split) <;> simp

@[simp] theorem digestStep_memOk (s : State) : (digestStep s).memOk = s.memOk := by simp [digestStep]
@[simp] theorem laneTest_memOk (s : State) (l : Lane) : (laneTest s l).memOk = s.memOk := by simp [laneTest]
@[simp] theorem testFailed_memOk (s : State) (l : Lane) : (testFailed s l).memOk = s.memOk := by simp [testFailed]

@[simp] theorem laneTestEnd_memOk {s : State} (l : Lane) (passed : Bool) (h : s.memOk = true) : (laneTestEnd s l passed).memOk = true :=
    by
  simp [laneTestEnd, h]

@[simp] theorem startCopy_memOk (s : State) (r : Rejoin) : (startCopy s r).memOk = s.memOk := by simp [startCopy]
@[simp] theorem takeAndCopy_memOk (s : State) (r : Rejoin) : (takeAndCopy s r).memOk = s.memOk := by simp [takeAndCopy]

@[simp] theorem rejoin_memOk (s : State) (l : Lane) : (rejoin s l).memOk = s.memOk := by
  simp only [rejoin]
  split <;> simp

@[simp] theorem latentResync_memOk (s : State) (l : Lane) : (latentResync s l).memOk = s.memOk := by
  simp only [latentResync]
  split <;> simp

@[simp] theorem failRejoin_memOk {s : State} (h : s.memOk = true) : (failRejoin s).memOk = true := by
  simp only [failRejoin]
  split <;> simp [h]

@[simp] theorem rejoinCopied_memOk {s : State} (differs : Bool) (h : s.memOk = true) : (rejoinCopied s differs).memOk = true := by
  simp only [rejoinCopied]
  split <;> simp [h]

@[simp] theorem rejoinLate_memOk {s : State} (h : s.memOk = true) : (rejoinLate s).memOk = true := by
  simp only [rejoinLate]
  split <;> simp [h]

@[simp] theorem recopyStep_memOk {s : State} (h : s.memOk = true) : (recopyStep s).memOk = true := by
  simp only [recopyStep]
  split <;> simp [h]

@[simp] theorem enterRejoined_memOk {s : State} (h : s.memOk = true) : (enterRejoined s).memOk = true := by
  have hc (l src : Lane) : (s.setLane l { copyProgram (s.lane l) (s.lane src) with role := .voting, current := none }).memOk = true :=
    State.setLane_memOk l h (by rw [LaneSt.memOk_mk, LaneSt.memOk_fold]; exact copyProgram_memOk (lane_memOk h src) _)
  unfold enterRejoined
  split
  · refine ite_memOk h ?_
    dsimp only
    split <;> simp only [State.finish_memOk, memOk_mk, memOk_fold, releaseTokens_memOk, State.setUcb_memOk, hc]
  · exact h

@[simp] theorem leaveSet_memOk (s : State) (l : Lane) : (leaveSet s l).memOk = s.memOk := by simp [leaveSet]
@[simp] theorem excludeFaulted_memOk (s : State) (l : Lane) : (excludeFaulted s l).memOk = s.memOk := by simp [excludeFaulted]
@[simp] theorem excludeStep_memOk (s : State) : (excludeStep s).memOk = s.memOk := by simp [excludeStep]

@[simp] theorem allLanes_memOk {s : State} (role : LaneRole) (h : s.memOk = true) : (allLanes s role).memOk = true := by
  have hm := State.mapLanes_memOk (f := fun _ x => { clearLane x with role }) h fun _ x _ => clearLane_memOk x
  unfold allLanes
  simp [hm]

@[simp] theorem changeMode_memOk {s : State} (h : s.memOk = true) : (changeMode s).memOk = true := by
  simp only [changeMode]
  split <;> simp [h]

@[simp] theorem voterStep_memOk {s : State} (h : s.memOk = true) : (voterStep s).memOk = true := by simp [voterStep, h]
@[simp] theorem foxBegin_memOk (s : State) : (foxBegin s).memOk = s.memOk := by simp [foxBegin]
@[simp] theorem foxStep_memOk (s : State) : (foxStep s).memOk = s.memOk := by simp [foxStep]

@[simp] theorem foxEnd_memOk {s : State} (failed : Option Nat) (h : s.memOk = true) : (foxEnd s failed).memOk = true := by
  simp only [foxEnd]
  split <;> simp [h]

@[simp] theorem excludeCmd_memOk (s : State) (l : Lane) : (excludeCmd s l).memOk = s.memOk := by simp [excludeCmd]
@[simp] theorem joinCmd_memOk (s : State) (l : Lane) : (joinCmd s l).memOk = s.memOk := by simp [joinCmd]

@[simp] theorem splitCmd_memOk (s : State) : (splitCmd s).memOk = s.memOk := by
  simp only [splitCmd]
  split <;> simp

@[simp] theorem mergeCmd_memOk (s : State) (warm : Bool) : (mergeCmd s warm).memOk = s.memOk := by simp [mergeCmd]
@[simp] theorem foxCmd_memOk (s : State) : (foxCmd s).memOk = s.memOk := by simp [foxCmd]

/-! ### Commands -/

@[simp] theorem applyCommon_memOk {s : State} (u : UnitId) (code : Nat) (h : s.memOk = true) : (applyCommon s u code).memOk = true := by
  unfold applyCommon
  (repeat' split) <;> simp [h]

@[simp] theorem groupEnabled_memOk (s : State) (u : UnitId) (code : Nat) : (groupEnabled s u code).memOk = s.memOk := by
  simp [groupEnabled]

@[simp] theorem carryOut_memOk {s : State} (u : UnitId) (code : Nat) (h : s.memOk = true) : (carryOut s u code).memOk = true := by
  rw [carryOut, groupEnabled_memOk]
  exact memOk_foldl (fun s v hs => applyCommon_memOk (h := hs) ..) _ h

@[simp] theorem runCommon_memOk {s : State} (w : Writer) (u : UnitId) (code arg : Nat) (h : s.memOk = true) : (runCommon s w u code
    arg).memOk = true := by
  simp [runCommon, h]

@[simp] theorem quiescenceEnd_memOk {s : State} (u : UnitId) (stuck : List UnitId) (h : s.memOk = true) : (quiescenceEnd s u stuck).memOk
    = true := by
  simp only [quiescenceEnd]
  (repeat' split) <;> simp [h]

@[simp] theorem selfTestEnd_memOk {s : State} (u : UnitId) (passed : Bool) (h : s.memOk = true) : (selfTestEnd s u passed).memOk = true :=
    by
  unfold selfTestEnd
  (repeat' split) <;> simp [h]

@[simp] theorem activateCmd_memOk {s : State} (arg : Nat) (h : s.memOk = true) : (activateCmd s arg).memOk = true := by
  simp only [activateCmd]
  split <;> simp [h]

@[simp] theorem confirmCmd_memOk (s : State) (arg : Nat) : (confirmCmd s arg).memOk = s.memOk := by
  simp only [confirmCmd]
  split <;> simp

@[simp] theorem acceptCmd_memOk {s : State} (w : Writer) (h : s.memOk = true) : (acceptCmd s w).memOk = true := by
  unfold acceptCmd
  (repeat' split) <;> simp [h]

@[simp] theorem applyCmd_memOk {s : State} (arg : Nat) (h : s.memOk = true) : (applyCmd s arg).memOk = true := by
  simp only [applyCmd]
  split <;> simp [h]

@[simp] theorem runSpecific_memOk {s : State} (w : Writer) (u : UnitId) (code arg : Nat) (h : s.memOk = true) : (runSpecific s w u code
    arg).memOk = true := by
  have hp (t : State) (a : Activity) (v : UnitId) : (takeTokens t a v).pwr = t.pwr := (takeTokens_same ..).same .pwr (by decide)
  unfold runSpecific
  split <;> simp [h, hp]

@[simp] theorem cardCommand_memOk (s : State) (w : Writer) (slot : Fin 32) (sub : Fin 17) (code arg : Nat) : (cardCommand s w slot sub
    code arg).memOk = s.memOk := by
  simp only [cardCommand]
  split <;> simp

@[simp] theorem ucbCommand_memOk {s : State} (w : Writer) (u : UnitId) (code arg : Nat) (h : s.memOk = true) : (ucbCommand s w u code
    arg).memOk = true := by
  unfold ucbCommand
  (repeat' split) <;> simp [h]

@[simp] theorem applyEnd_memOk {s : State} (arg : Nat) (code : Status) (h : s.memOk = true) : (applyEnd s arg code).memOk = true := by
  simp only [applyEnd]
  split <;> simp [h]

@[simp] theorem commandComplete_memOk {s : State} (u : UnitId) (code : Status) (data : Nat) (h : s.memOk = true) : (commandComplete s u
    code data).memOk = true := by
  simp only [commandComplete]
  split <;> simp [h]

/-! ### Control space -/

@[simp] theorem readEffect_memOk (s : State) (u : UnitId) (bank off : Nat) : (readEffect s u bank off).memOk = s.memOk := by
  unfold readEffect
  (repeat' split) <;> simp

@[simp] theorem accessFault_memOk (s : State) (addr kind : Nat) : (accessFault s addr kind).memOk = s.memOk := by simp [accessFault]

@[simp] theorem errorResponse_memOk (s : State) (w : Writer) (target : UnitId) : (errorResponse s w target).memOk = s.memOk := by
  simp only [errorResponse]
  split <;> simp

@[simp] theorem failAccess_memOk (s : State) (w : Writer) (addr kind : Nat) : (failAccess s w addr kind).memOk = s.memOk := by
  simp [failAccess]

@[simp] theorem absentAccess_memOk (s : State) (w : Writer) (u : UnitId) (addr : Nat) : (absentAccess s w u addr).memOk = s.memOk := by
  simp only [absentAccess]
  split <;> simp

@[simp] theorem readRegister_memOk (s : State) (w : Writer) (addr : Nat) : (readRegister s w addr).2.memOk = s.memOk := by
  unfold readRegister
  (repeat' split) <;> simp

@[simp] theorem programRead_memOk {s : State} (w : Writer) (l : Lane) (k : CtxKind) (addr : Nat) (h : s.memOk = true) :
    (programRead s w l k addr).2.memOk = true := by
  have hr {r : Option (Nat × Bool)} {t : State} (e : cardRead s l k addr = (r, t)) : t.memOk = true := memOk_of_snd_eq e (by simp [h])
  unfold programRead
  split
  · split
    · split
      · exact h
      · split
        · simp [h]
        · split
          · rename_i hc
            simp [hr hc]
          · simp [h]
    · simp [h]
  · simp [h]

@[simp] theorem badSetting_memOk (s : State) (u : UnitId) (off : Nat) : (badSetting s u off).memOk = s.memOk := by simp [badSetting]

@[simp] theorem selected?_memOk (s : State) (u : UnitId) (bank off : Nat) (v : W32) : (selected? s u bank off v).memOk = s.memOk := by
  simp only [selected?]
  split <;> simp

@[simp] theorem storeSetting_memOk (s : State) (u : UnitId) (bank off : Nat) (d : RegDef) (value : W32) : (storeSetting s u bank off d
    value).memOk = s.memOk := by
  simp [storeSetting]

@[simp] theorem storeClk_memOk (s : State) (off : Nat) (v : W32) (mirror : Nat) : (storeClk s off v mirror).memOk = s.memOk := by
  simp [storeClk]

@[simp] theorem mirrorWrite_memOk (s : State) (off : Nat) (v : W32) : (mirrorWrite s off v).memOk = s.memOk := by
  unfold mirrorWrite
  (repeat' split) <;> simp

@[simp] theorem cancelWrite_memOk {s : State} (n : Fin 6) (bank : Nat) (v : W32) (h : s.memOk = true) :
    (cancelWrite s n bank v).2.memOk = true := by
  simp only [cancelWrite]
  split
  · exact (canCancel_memOk ‹_›).trans h
  · exact h

@[simp] theorem deliverWrite_memOk {s : State} (u : UnitId) (bank off : Nat) (d : RegDef) (v : W32) (h : s.memOk = true) : (deliverWrite s
    u bank off d v).2.memOk = true := by
  unfold deliverWrite
  (repeat' split) <;> simp [h]

@[simp] theorem writeRegister_memOk {s : State} (w : Writer) (by_ : NearBy) (addr : Nat) (v : W32) (size : Nat) (h : s.memOk = true) :
    (writeRegister s w by_ addr v size).2.memOk = true := by
  have hc {b : Bool} {t : State} (e : cardWrite s by_ addr v = (b, t)) : t.memOk = true := memOk_of_snd_eq e (by simp [h])
  unfold writeRegister
  iterate 4 (split; · simp [h])
  split
  · split <;> simp [h]
  · split
    · iterate 4 (split; · simp [h])
      split
      · exact hc ‹_›
      · exact (failAccess_memOk ..).trans (hc ‹_›)
    · iterate 2 (split; · simp [h])
      split <;> simp [h]

@[simp] theorem fetchDone_memOk (s : State) (u : UnitId) (bank : Nat) : (fetchDone s u bank).memOk = s.memOk := by
  simp only [fetchDone]
  split <;> simp

@[simp] theorem diagFault_memOk (s : State) (r : DiagRead) : (diagFault s r).memOk = s.memOk := by
  simp only [diagFault]
  (repeat' split) <;> simp

@[simp] theorem diagRead_memOk (s : State) (r : DiagRead) : (diagRead s r).memOk = s.memOk := by simp [diagRead]

/-! ### The vote -/

@[simp] theorem passOutput_memOk (s : State) (p : Nat) (r : EffectRec) : (passOutput s p r).memOk = s.memOk := by simp [passOutput]

@[simp] theorem passWrite_memOk {s : State} (ls : List Lane) (r : EffectRec) (h : s.memOk = true) : (passWrite s ls r).memOk = true := by
  simp [passWrite, h]

@[simp] theorem passException_memOk {s : State} (ls : List Lane) (r : EffectRec) (h : s.memOk = true) :
    (passException s ls r).memOk = true := by
  have hf {t : State} (ht : t.memOk = true) : (ls.foldl (fun s l => abortTask s l r.ctx) t).memOk = true :=
    memOk_foldl (fun s l hs => by simp [hs]) ls ht
  unfold passException
  dsimp only
  split
  · split <;> simp [h]
  · refine hf ?_
    split <;> simp [h]

@[simp] theorem passRetentive_memOk {s : State} (r : EffectRec) (h : s.memOk = true) : (passRetentive s r).memOk = true := by
  have hg := State.setInactiveGen_memOk (g := { inactiveGen s with bytes := Memory.writeBytes (inactiveGen s).bytes r.addr r.bytes })
    (Memory.wf_writeBytes (inactiveGen_wf h) ..) h
  simp [passRetentive, hg]

@[simp] theorem passMigration_memOk {s : State} (r : EffectRec) (h : s.memOk = true) : (passMigration s r).memOk = true := by
  simp only [passMigration]
  split <;> simp [h]

@[simp] theorem passEffect_memOk {s : State} (ls : List Lane) (r : EffectRec) (h : s.memOk = true) : (passEffect s ls r).memOk = true :=
    by
  simp only [passEffect]
  split <;> simp [h]

@[simp] theorem passFor_memOk {s : State} (ls : List Lane) (r : EffectRec) (h : s.memOk = true) : (passFor s ls r).memOk = true := by
  unfold passFor
  refine memOk_foldl (fun s l hs => refillQueue_memOk l hs) ls (passEffect_memOk _ _ ?_)
  simp [h]

@[simp] theorem decide?_memOk {s : State} (o : VoteOutcome) (r : EffectRec) (h : s.memOk = true) : (decide? s o r).memOk = true := by
  simp only [decide?]
  split <;> simp [h]

@[simp] theorem voteDecision_memOk {s : State} (outOfSlot : Option Lane) (bad : Option Comparator) (h : s.memOk = true) : (voteDecision s
    outOfSlot bad).memOk = true := by
  have hd (hs : List (Lane × EffectRec)) {t : State} (ht : t.memOk = true) : (if t.voter.halted then t else
      match hs.filter fun (h : Lane × EffectRec) => decide (h.1 ∈ voteSet t) with
      | h :: _ => decide? t (voteOf bad (hs.filter fun (h : Lane × EffectRec) => decide (h.1 ∈ voteSet t))) h.2
      | [] => t).memOk = true := by (repeat' split) <;> simp [ht]
  simp only [voteDecision]
  split
  · exact h
  · split
    · split <;> simp [h]
    · split
      · exact h
      · exact hd _ (by (repeat' split) <;> simp [h])

@[simp] theorem lateAt_memOk {s : State} (l : Lane) (h : s.memOk = true) : (lateAt s l).memOk = true := by
  unfold lateAt
  (repeat' split) <;> simp [h]

/-! ### Waits of the SYS group -/

@[simp] theorem fenceDone_memOk (s : State) (l : Lane) : (fenceDone s l).memOk = s.memOk := by
  simp only [fenceDone]
  split <;> simp

@[simp] theorem twaitDone_memOk (s : State) (l : Lane) (t : Nat) : (twaitDone s l t).memOk = s.memOk := by
  simp only [twaitDone]
  (repeat' split) <;> simp

@[simp] theorem tryRead_memOk {s : State} (l : Lane) (k : CtxKind) (addr : Nat) (h : s.memOk = true) : (tryRead s l k addr).memOk = true := by
  simp only [tryRead]
  split
  · split <;> simp [h]
  · split
    · exact h
    · split <;> rename_i hp <;> simp [memOk_of_snd_eq hp (programRead_memOk _ _ _ _ h)]

@[simp] theorem ackWrites_memOk (s : State) (l : Lane) (k : CtxKind) : (ackWrites s l k).memOk = s.memOk := by simp [ackWrites]

@[simp] theorem urdDone_memOk {s : State} (l : Lane) (h : s.memOk = true) : (urdDone s l).memOk = true := by
  simp only [urdDone]
  (repeat' split) <;> simp [h]

/-! ### The guard -/

@[simp] theorem suspendAll_memOk {s : State} (h : s.memOk = true) : (suspendAll s).memOk = true :=
  State.mapLanes_memOk h fun l x hx => by split <;> simp [hx]

@[simp] theorem gatherPages_memOk (s : State) (pages : List (Lane × List Nat)) : (gatherPages s pages).memOk = s.memOk := by
  simp [gatherPages]

@[simp] theorem stopController_memOk (s : State) (task cause : Nat) : (stopController s task cause).memOk = s.memOk := by
  simp [stopController]

@[simp] theorem noteSkip_memOk (s : State) (p t : Nat) : (noteSkip s p t).memOk = s.memOk := by simp [noteSkip]

@[simp] theorem skipTasks_memOk (s : State) (p : Nat) (ts : List Nat) : (skipTasks s p ts).memOk = s.memOk := by
  have hl (t : State) (ls : List Lane) : (ls.foldl (fun s l => s.setLane l (suspendTimed (s.lane l))) t).memOk = t.memOk :=
    memOk_foldl_eq (fun s l => State.setLane_memOk_eq (suspendTimed_memOk _)) ls t
  simp [skipTasks, hl]

@[simp] theorem overrun_memOk (s : State) (p : Nat) : (overrun s p).memOk = s.memOk := by
  unfold overrun
  (repeat' split) <;> simp

@[simp] theorem overruns_memOk (s : State) : (overruns s).memOk = s.memOk := by simp [overruns]
@[simp] theorem noteSlack_memOk (s : State) : (noteSlack s).memOk = s.memOk := by simp [noteSlack]

@[simp] theorem retentiveEmission_memOk (s : State) : (retentiveEmission s).memOk = s.memOk := by
  unfold retentiveEmission
  (repeat' split) <;> simp

@[simp] theorem guardBegin_memOk {s : State} (h : s.memOk = true) : (guardBegin s).memOk = true := by
  have ha := suspendAll_memOk (s := noteSlack s) (by simp [h])
  refine memOk_foldl (fun s l hs => ?_) _ (by simp [ha])
  split <;> simp [hs]

@[simp] theorem guardRest_memOk {s : State} (h : s.memOk = true) : (guardRest s).memOk = true := by simp [guardRest, h]
@[simp] theorem guardGo_memOk {s : State} (h : s.memOk = true) : (guardGo s).memOk = true := by simp [guardGo, h]
@[simp] theorem guardWork_memOk {s : State} (h : s.memOk = true) : (guardWork s).memOk = true := by simp [guardWork, h]

@[simp] theorem guardClose_memOk {s : State} (h : s.memOk = true) : (guardClose s).memOk = true := by
  unfold guardClose
  split
  · exact guardRest_memOk (State.mapLanes_memOk h fun _ x hx => by
      rw [LaneSt.memOk_mk, LaneSt.memOk_fold]; exact suspendLane_memOk hx)
  · exact h

@[simp] theorem boundaryMissed_memOk (s : State) : (boundaryMissed s).memOk = s.memOk := by simp [boundaryMissed]

@[simp] theorem preempt_memOk {s s' : State} (l : Lane) (i : Nat) (h : s.memOk = true) (h' : s'.memOk = true) :
    (preempt s s' l i).memOk = true := resched_memOk l (State.setLane_memOk l h' (suspend_memOk (lane_memOk h l) ..))

@[simp] theorem safetyWindow_memOk {s : State} (i : Nat) (h : s.memOk = true) : (safetyWindow s i).memOk = true :=
  ite_memOk h (memOk_foldl (fun _ l => preempt_memOk l i h) _ h)

/-! ### What the module measures -/

@[simp] theorem sampleSupply_memOk (v : Nat) (s : State) : (sampleSupply v s).memOk = s.memOk := by simp [sampleSupply]
@[simp] theorem sampleField_memOk (v : Nat) (s : State) : (sampleField v s).memOk = s.memOk := by simp [sampleField]
@[simp] theorem sampleLinks_memOk (v : Nat) (s : State) : (sampleLinks v s).memOk = s.memOk := by simp [sampleLinks]
@[simp] theorem sampleAll_memOk (s : State) : (sampleAll s).memOk = s.memOk := by simp [sampleAll]

/-! ### The shadow swap -/

@[simp] theorem imageSetting_memOk (s : State) (e : Nat × Nat × W32) : (imageSetting s e).memOk = s.memOk := by
  unfold imageSetting
  (repeat' split) <;> simp

@[simp] theorem imageSettings_memOk (s : State) : (imageSettings s).memOk = s.memOk := by simp [imageSettings]
@[simp] theorem offsetSwap_memOk (s : State) (ws : List Swapped) : (offsetSwap s ws).memOk = s.memOk := by simp [offsetSwap]
@[simp] theorem rangeSwap_memOk (s : State) (ws : List Swapped) (g : Fin 4) : (rangeSwap s ws g).memOk = s.memOk := by simp [rangeSwap]
@[simp] theorem canSwaps_memOk (s : State) (ws : List Swapped) (n : Fin 6) : (canSwaps s ws n).memOk = s.memOk := by simp [canSwaps]

@[simp] theorem ethSwaps_memOk {s : State} (ws : List Swapped) (x : Fin 4) (h : s.memOk = true) : (ethSwaps s ws x).memOk = true := by
  simp [ethSwaps, h]

@[simp] theorem pgSwap_memOk (s : State) (ws : List Swapped) (t k : Nat) : (pgSwap s ws t k).memOk = s.memOk := by simp [pgSwap]
@[simp] theorem clkSwaps_memOk (s : State) (ws : List Swapped) : (clkSwaps s ws).memOk = s.memOk := by simp [clkSwaps]
@[simp] theorem bucketSwaps_memOk (s : State) (ws : List Swapped) : (bucketSwaps s ws).memOk = s.memOk := by simp [bucketSwaps]

@[simp] theorem shadowSwap_memOk {s : State} (t : Nat) (h : s.memOk = true) : (shadowSwap s t).memOk = true := by
  have he (ws : List Swapped) {r : State} (hr : r.memOk = true) : ((List.finRange 4).foldl (fun s x => ethSwaps s ws x) r).memOk = true :=
    memOk_foldl (fun s x hs => ethSwaps_memOk (h := hs) ..) _ hr
  simp only [shadowSwap, pgSwap_memOk, resource_memOk, bucketSwaps_memOk, clkSwaps_memOk]
  exact he _ (by simp [h])

@[simp] theorem openUnits_memOk {s : State} (h : s.memOk = true) : (openUnits s).memOk = true := by
  rw [openUnits, loadDirectory_memOk]
  exact memOk_foldl (fun s u hs => by simp [hs]) _ h

/-! ### The boundary sequence -/

@[simp] theorem forgetCount_memOk {s : State} (n : Nat) (h : s.memOk = true) : (forgetCount s n).memOk = true :=
  ite_memOk (State.mapLanes_memOk h fun _ x hx => by simp [hx]) h

@[simp] theorem setAlign_memOk (s : State) (a : Align) (rephased : Bool) : (setAlign s a rephased).memOk = s.memOk := by simp [setAlign]

@[simp] theorem takePoint_memOk {s : State} (g : GridPoint) (h : s.memOk = true) : (takePoint s g).memOk = true := by
  simp only [takePoint]
  split <;> simp [h]

@[simp] theorem noteLate_memOk (s : State) (lag bph : Nat) : (noteLate s lag bph).memOk = s.memOk := by simp [noteLate]
@[simp] theorem dropWork_memOk (s : State) : (dropWork s).memOk = s.memOk := by simp [dropWork]

@[simp] theorem standDown_memOk (s : State) : (standDown s).memOk = s.memOk := by
  simp only [standDown]
  split <;> simp

@[simp] theorem seizeLinked_memOk (s : State) : (seizeLinked s).memOk = s.memOk := by simp [seizeLinked]
@[simp] theorem runFromCopy_memOk (s : State) : (runFromCopy s).memOk = s.memOk := by simp [runFromCopy]
@[simp] theorem pairStep_memOk (s : State) (n : Nat) : (pairStep s n).memOk = s.memOk := by simp [pairStep]

@[simp] theorem composeUnits_memOk (s : State) : (composeUnits s).memOk = s.memOk :=
  memOk_foldl_eq (fun s p => memOk_foldl_eq (fun s d => by split <;> simp) ..) ..

@[simp] theorem releaseMerge_memOk (s : State) : (releaseMerge s).memOk = s.memOk := by simp [releaseMerge]
@[simp] theorem beginTicks_memOk (s : State) : (beginTicks s).memOk = s.memOk := by simp [beginTicks]

@[simp] theorem clearFigures_memOk (s : State) : (clearFigures s).memOk = s.memOk := by simp [clearFigures, restartCounts]

@[simp] theorem endRestart_memOk (s : State) (code : Status) (kind : Nat) : (endRestart s code kind).memOk = s.memOk := by
  simp only [endRestart]
  (repeat' split) <;> simp

@[simp] theorem restartNow_memOk {s : State} (warm : Bool) (h : s.memOk = true) : (restartNow s warm).memOk = true := by
  simp [restartNow, h]

@[simp] theorem adoptLoaded_memOk {s : State} (inp : PlaceInput) (ms : List PMap) (h : s.memOk = true) : (adoptLoaded s inp ms).memOk =
    true := by
  simp [adoptLoaded, h]

@[simp] theorem startProgram_memOk {s : State} (h : s.memOk = true) : (startProgram s).memOk = true := by simp [startProgram, h]

@[simp] theorem programStep_memOk {s : State} (h : s.memOk = true) : (programStep s).1.memOk = true := by
  unfold programStep
  (repeat' split) <;> simp [h]

@[simp] theorem enterSplit_memOk {s : State} (h : s.memOk = true) : (enterSplit s).memOk = true := by simp [enterSplit, h]

@[simp] theorem takeChanges_memOk {s : State} (h : s.memOk = true) : (takeChanges s).memOk = true := by
  have hc := memOk_foldl (f := applyChange) (fun _ c => applyChange_memOk c) s.prog.changesDue h
  simp [takeChanges, hc]

@[simp] theorem layoutAll_memOk (s : State) : (layoutAll s).memOk = s.memOk := by simp [layoutAll]

@[simp] theorem trialStep_memOk (s : State) : (trialStep s).memOk = s.memOk := by
  simp only [trialStep]
  split <;> simp

@[simp] theorem swapStep_memOk {s : State} (t : Nat) (h : s.memOk = true) : (swapStep s t).memOk = true := by simp [swapStep, h]
@[simp] theorem retryStep_memOk (s : State) : (retryStep s).memOk = s.memOk := by simp [retryStep]
@[simp] theorem modeStep_memOk {s : State} (n : Nat) (h : s.memOk = true) : (modeStep s n).memOk = true := by simp [modeStep, h]

@[simp] theorem withoutNewLosses_memOk {s : State} {f : State → State} (hf : ∀ t, t.memOk = true → (f t).memOk = true) (lost : List Resource)
    (h : s.memOk = true) : (withoutNewLosses s lost f).memOk = true :=
  memOk_foldl (fun s r hs => by simp [hs]) _ (hf _ (by simp [h]))

@[simp] theorem step1_memOk {s : State} (n t : Nat) (h : s.memOk = true) : (step1 s n t).1.memOk = true := by
  have h1 : (restartsDue (dropPrefetch (swapStep s t) fun _ => true)).memOk = true := restartsDue_memOk (by simp [h])
  have h2 : (takeChanges (setsAtBoundary (inaugEffect (restartsDue (dropPrefetch (swapStep s t) fun _ => true))) t)).memOk = true :=
    takeChanges_memOk (by simp [h1])
  have h3 := withoutNewLosses_memOk (f := (modeStep · n)) (fun _ => modeStep_memOk n) s.place.lost h2
  unfold step1
  dsimp only
  split <;> simp [h3]

@[simp] theorem coalesce_memOk (s : State) : (coalesce s).memOk = s.memOk := by
  simp only [coalesce]
  split <;> simp

@[simp] theorem copyStep_memOk (s : State) (n : Nat) : (copyStep s n).memOk = s.memOk := by simp [copyStep]

@[simp] theorem linkedHandover_memOk (s : State) (n : Nat) : (linkedHandover s n).memOk = s.memOk := by
  simp only [linkedHandover]
  (repeat' split) <;> simp

@[simp] theorem clearLeaveOut_memOk (s : State) (pn : Nat) (ks : List Nat) : (clearLeaveOut s pn ks).memOk = s.memOk := by
  simp only [clearLeaveOut]
  split <;> simp

@[simp] theorem activate_memOk (s : State) (prev n : Nat) : (activate s prev n).memOk = s.memOk := by
  refine (memOk_foldl_eq (fun s pn => by simp) ..).trans (memOk_foldl_eq (fun s l => ?_) ..)
  split
  · exact State.setLane_memOk_eq (activateLane_memOk ..)
  · simp

@[simp] theorem step5_memOk {s : State} (prev n t : Nat) (h : s.memOk = true) : (step5 s prev n t).memOk = true := by
  have hr {u : State} (hu : u.memOk = true) : ((runSet u).foldl resched u).memOk = true := memOk_foldl (fun _ l => resched_memOk l) _ hu
  unfold step5
  dsimp only
  rw [closeRestarted_memOk, notePhase_memOk]
  refine ite_memOk ?_ (hr ?_) <;> split <;> simp [h]

/-- Steps 2 to 5 of a boundary, after the first. -/
theorem boundarySteps_memOk {s : State} (gs : List EmitGroup) (safeOnly switch : Bool) (prev n t : Nat) (h : s.memOk = true) :
    (step5 (linkedHandover (copyStep (commitStep ((List.finRange 6).foldl (fun s k => tmQueue s k n) (clearTx (latchStep s n t))) n gs
      safeOnly switch) n) n) prev n t).memOk = true := by
  refine step5_memOk _ _ _ ?_
  have hl := latchStep_memOk n t h
  simp [hl]
@[simp] theorem runBoundary_memOk {s : State} (g : GridPoint) (lag bph : Nat) (h : s.memOk = true) : (runBoundary s g lag bph).memOk = true := by
  have h0 : (sampleAll (sendBeacon (takePoint s g) g.n)).memOk = true := by simp [h]
  have h1 {u : State} (hu : u.memOk = true) : (step1 (noteLate u lag bph) g.n g.time).1.memOk = true := step1_memOk _ _ (by simp [hu])
  unfold runBoundary
  dsimp only
  generalize sampleAll _ = u at h0 ⊢
  exact boundarySteps_memOk _ _ _ _ _ _ (h1 (by simp [h0]))

@[simp] theorem noteStart_memOk (s : State) : (noteStart s).memOk = s.memOk := by simp [noteStart]

@[simp] theorem boundaryAt_memOk {s : State} (at_ lag bph : Nat) (h : s.memOk = true) : (boundaryAt s at_ lag bph).memOk = true := by
  have hg {t : State} (ht : t.memOk = true) : (guardClose (if guardDue t then guardWork t else t)).memOk = true :=
    guardClose_memOk (h := by split <;> simp [ht])
  simp only [boundaryAt]
  split
  · exact h
  · split
    · simp [h]
    · exact runBoundary_memOk (h := by simp [hg, h]) ..

/-! ### Cells -/

@[simp] theorem cellBack_memOk {s : State} (l : Lane) (k : CtxKind) (c : LaneCtx) (a : Access) (bs : List Byte) (h : s.memOk = true) :
    (cellBack s l k c a bs).memOk = true := by
  simp only [cellBack]
  split
  · exact State.setLane_memOk l (by simp [h]) (store_memOk (by simp [h]) ..)
  · simp [h]

/-! ### Calls and the stack -/

@[simp] theorem fbcall_memOk {s : State} (l : Lane) (k : CtxKind) (c : LaneCtx) (target sig : Nat) (h : s.memOk = true) :
    (fbcall s l k c target sig).memOk = true := by
  unfold fbcall
  dsimp only
  split
  · simp [h]
  · iterate 5
      with_reducible apply ite_memOk
      · simp [h]
    exact State.setLane_memOk l h (by simp [h])

@[simp] theorem fbret_memOk {s : State} (l : Lane) (k : CtxKind) (c : LaneCtx) (h : s.memOk = true) : (fbret s l k c).memOk = true := by
  simp [fbret, h]

@[simp] theorem moveSp_memOk (s : State) (l : Lane) (k : CtxKind) (c : LaneCtx) (sp : Int) : (moveSp s l k c sp).memOk = s.memOk := by
  simp [moveSp]

/-! ### The start -/

@[simp] theorem beginStart_memOk (s : State) (k : Nat) : (beginStart s k).memOk = s.memOk := by simp [beginStart]
@[simp] theorem oscReady_memOk (s : State) (o : Osc) : (oscReady s o).memOk = s.memOk := by simp [oscReady]
@[simp] theorem pllLock_memOk {s : State} (h : s.memOk = true) : (pllLock s).memOk = true := by simp [pllLock, h]
@[simp] theorem scanDone_memOk (s : State) : (scanDone s).memOk = s.memOk := by simp [scanDone]

@[simp] theorem startLane_memOk (passed : Bool) {s : State} (l : Lane) (h : s.memOk = true) : (startLane passed s l).memOk = true := by
  simp [startLane, h]

@[simp] theorem readRecords_memOk {s : State} (h : s.memOk = true) : (readRecords s).memOk = true := by simp [readRecords, h]

@[simp] theorem foxDone_memOk {s : State} (seen : List (Nat × List FoxFlag)) (bist : Bool × Bool × Bool) (h : s.memOk = true) : (foxDone s
    seen bist).memOk = true := by
  have hl (a b c : Bool) {t : State} (ht : t.memOk = true) : (startLane c (startLane b (startLane a t .a) .b) .c).memOk = true :=
    startLane_memOk (h := startLane_memOk (h := startLane_memOk (h := ht) ..) ..) ..
  simp [foxDone, h, hl]

@[simp] theorem startCard_memOk {s : State} (slot : Fin 32) (rec : List Byte) (h : s.memOk = true) : (startCard s slot rec).memOk = true
    := by
  simp only [startCard]
  split <;> simp [h]

@[simp] theorem applyTransition_memOk (s : State) : (applyTransition s).memOk = s.memOk := by
  simp only [applyTransition]
  split <;> simp

@[simp] theorem chooseSlot_memOk {s : State} (h : s.memOk = true) : (chooseSlot s).memOk = true := by simp [chooseSlot, h]
@[simp] theorem reportFallback_memOk (s : State) : (reportFallback s).memOk = s.memOk := by simp [reportFallback]

@[simp] theorem stopForImage_memOk {s : State} (h : s.memOk = true) : (stopForImage s).memOk = true := by
  simp only [stopForImage]
  (repeat' split) <;> simp [h]

@[simp] theorem acceptImage_memOk (s : State) (g : ProgramImage) : (acceptImage s g).memOk = s.memOk := by simp [acceptImage]
@[simp] theorem beginCompute_memOk (s : State) : (beginCompute s).memOk = s.memOk := by simp [beginCompute]

@[simp] theorem bootSlot_memOk {s : State} (h : s.memOk = true) : (bootSlot s).memOk = true := by
  simp only [bootSlot]
  (repeat' split) <;> simp [h]

@[simp] theorem applyImage_memOk {s : State} (h : s.memOk = true) : (applyImage s).memOk = true := by simp [applyImage, h]

@[simp] theorem startRecord_memOk {s : State} (slot : Nat) (rec : List Byte) (h : s.memOk = true) : (startRecord s slot rec).memOk = true
    := by
  unfold startRecord
  (repeat' split) <;> simp [h]

@[simp] theorem idmRead_memOk {s : State} (slot : Fin 33) (rec : List Byte) (h : s.memOk = true) : (idmRead s slot rec).memOk = true := by
  unfold idmRead
  (repeat' split) <;> simp [h]

@[simp] theorem setReady_memOk {s : State} (mismatch : Bool) (us : Nat) (h : s.memOk = true) : (setReady s mismatch us).memOk = true := by
  simp only [setReady]
  split <;> rename_i hl <;> simp [memOk_of_snd_eq hl (by simp [h])]

@[simp] theorem restartSet_memOk (s : State) (mismatch : Bool) (us : Nat) : (restartSet s mismatch us).memOk = s.memOk := by
  simp only [restartSet]
  split <;> simp

@[simp] theorem mapComplete_memOk {s : State} (mismatch : Bool) (us : Nat) (h : s.memOk = true) : (mapComplete s mismatch us).memOk = true
    := by
  simp [mapComplete, h]

@[simp] theorem brakeSettings_memOk (s : State) : (brakeSettings s).memOk = s.memOk := memOk_foldl_eq (fun s e => by split <;> simp) ..
@[simp] theorem beginBrakeStep_memOk (s : State) : (beginBrakeStep s).memOk = s.memOk := by simp [beginBrakeStep]
@[simp] theorem resync_memOk (s : State) (p : PeerIdentity) : (resync s p).memOk = s.memOk := by simp [resync]
@[simp] theorem beaconWait_memOk (s : State) : (beaconWait s).memOk = s.memOk := by simp [beaconWait]
@[simp] theorem stepTimeout_memOk {s : State} (h : s.memOk = true) : (stepTimeout s).memOk = true := by simp [stepTimeout, h]

/-! ### Reset release -/

@[simp] theorem wakeUp_memOk {s : State} (h : s.memOk = true) : (wakeUp s).memOk = true := by simp [wakeUp, h]
@[simp] theorem releaseUnits_memOk (s : State) : (releaseUnits s).memOk = s.memOk := by simp [releaseUnits]

@[simp] theorem release_memOk {s : State} (straps : BitVec 13) (cards : W32) (h : s.memOk = true) : (release s straps cards).memOk = true := by
  have hf {t : State} (ht : t.memOk = true) : ((List.finRange 32).foldl (fun s (t : Fin 32) =>
      if bitAt cards t.val then s.setCard t { s.card t with line := true } else s) t).memOk = true :=
    memOk_foldl (fun s t hs => by split <;> simp [hs]) _ ht
  simp only [release, offerPrivileged_memOk]
  refine hf ?_
  simp [h]

@[simp] theorem resetRelease_memOk {s : State} (straps : Option (BitVec 13)) (cards : W32) (h : s.memOk = true) :
    (resetRelease s straps cards).memOk = true := by
  unfold resetRelease
  (repeat' split) <;> simp [h]

/-! ### Every command -/

/-- An instruction of a lane keeps the form. -/
theorem exec_instruction_memOk {s : State} (h : s.memOk = true) {i : Instr} (hi : i.cmdClass = .instruction) :
    Gives i s (·.memOk = true) := by
  cases i with
  | mov | movhi | sel | rdcf | wrcf | rdqf | rdtk | add | sub | mul | div | mod | neg | abs | min | max | limit | mulh | fadd | fsub
  | fmul | fdiv | fsqrt | fabs | fneg | fmin | fmax | fma | flimit | cvt | trunc | and | or | xor | andn | not | shl | shr | sar | rol
  | ror | btst | bset | bclr | binv | bext | bins | popc | clz | cmp | qtst | qmax | li | addi => exact ⟨_, rfl, compute_memOk (h := h) ..⟩
  | wrqf | b | fbcall | fbret | enter | leave | qout | qclr | cmt | nop | fence | trap =>
    exact ⟨_, rfl, issue_memOk h (fun k c => by simp [h]) ..⟩
  | ld | st | ldq | ref | jr | msend | mrecv | mstat | vsync | twait | yield | urd | uwr
  | ton | tof | tp | ctu | ctd | ctud | rtrig | ftrig =>
    refine ⟨_, rfl, issue_memOk h (fun k c => ?_) ..⟩
    dsimp only
    (repeat' split) <;> simp [h]
  | _ => cases hi

/-- A writer's command or access keeps the form. -/
theorem exec_written_memOk {s : State} (h : s.memOk = true) {i : Instr} (hi : i.cmdClass = .written) : Gives i s (·.memOk = true) := by
  cases i with
  | enable | start | quiesce | gateOff | test | clear | reset | nopCommand | restart | rebalance | placeReturn | profileStart
  | profileStop | adopt | exclude | join | split | merge | foxglove | switchover | resync | detach | ack | inject | brakeTest
  | pulseRetime | recover | timeSet | rescan | lock | closeService | apply | activate | confirm | abort | acceptChange
  | restartHandover | moduleReset => exact ⟨_, rfl, ucbCommand_memOk (h := h) ..⟩
  | registerWrite | placeRdSelWrite | cannFiltSelWrite | netDirSelWrite | hlkIdmSelWrite | timeSnapSelWrite | fltHistSelWrite
  | cannTxCancel | c71MirrorWrite => exact ⟨_, rfl, writeRegister_memOk (h := h) ..⟩
  | resultWindowRead => exact ⟨_, rfl, (readRegister_memOk ..).trans h⟩
  | _ => cases hi

/-- An event keeps the form. -/
theorem exec_event_memOk {s : State} (h : s.memOk = true) {i : Instr} (hi : i.cmdClass = .event) :
    Gives i s (·.memOk = true) := by
  cases i with
  | challenge | challengeResponse | unlockToken | debugIntrusive | returnRequest | package | svcSession =>
    exact ⟨_, rfl, outsideReset_memOk h (by simp [h])⟩
  | supplyLow b | supplyHigh b | fieldSupplyRecovered b => cases b <;> exact ⟨_, rfl, by simp [h]⟩
  | loadDataReturn | clkFail => exact ⟨_, rfl, by split <;> simp [h]⟩
  | scrub => exact ⟨_, rfl, by dsimp only; (repeat' split) <;> simp [h]⟩
  | oscWaitExpiry | pllLock | recorderScan | foxgloveTestEnd | idmReadComplete | placementMapComplete | startStepTimeout | boundary
  | unitResetRestart | reactionWindowClose | guardStart | boundaryMissed | safetyWindowStart | windowOver | fenceCompletion
  | twaitCompletion | urdCompletion | voteDecision | late | rejoin | rejoinCopyComplete | rejoinFail | latentResync | quiescenceEnd
  | commandComplete | selfTestEnd | fetchComplete | migrateTimeout | profileComplete | combinedLoss | resourceReturn | beacon
  | beaconsAbsent | partnerResync | beaconWaitTimeout | syncTimeout | stateCopy | copyMissing | revertDue | brakeWord
  | brakeWordTimeout | stationLost | faultMessage | injectMissed | degradeExpired | offPulse | offPulseEvaluation | extFeedPersist
  | readbackCheck | pulseStarved | brakeFeedbackCheck | brakeNorel | brakeTestStep | btestDue | edge | diBreak | diOvervolt
  | rangeSettled | doOverload | doOvertemp | doOpen | doFeed | canFrameReceived | queueDrain | transmitChoice | frameTransmitted
  | frameError | recoveryComplete | referenceMessage | tmLost | tmMaster | ethLinkChange | sync | telegramReceived | inauguration
  | poll | serialResponse | respTimeout | measurement | tim0Edge | srcLost | holdExpired | pulseInstant | captureEdge
  | cardReadCompletion | readTimeout | cardRequest | lockedSequence | lockTimeout | statusPacket | hlkLinkDown | cardAbsent
  | cardPresence | referenceQualified | clockSourceChange | refUnqual | slewComplete | recordWrite | tokenRefill | lockoutExpiry
  | diagnosticsRead | erasureComplete | trialExpired | pfWarn | powerReturn | shutdown | resetEntry | externalReset | presenceOpen
  | brownout | watchdog | safeRestart | strapChanged | tempHigh | tempCrit | sweetpeaLinkChange | copyAcknowledged | hollyhockLinkUp
  | breakCleared | junctionCooled | openLoadCleared | busIntegration | pathDelayMeasurement | bestMasterClock | resetRelease =>
    exact ⟨_, rfl, by simp [h]⟩
  | _ => cases hi

/-- Every command keeps the form. -/
theorem exec_memOk {s : State} (h : s.memOk = true) (i : Instr) : Gives i s (·.memOk = true) := by
  cases hi : i.cmdClass with
  | instruction => exact exec_instruction_memOk h hi
  | written => exact exec_written_memOk h hi
  | event => exact exec_event_memOk h hi

theorem step_memOk {s t : State} (h : s.memOk = true) (hs : step s = .next t) : t.memOk = true := by
  unfold step at hs
  split at hs
  · obtain rfl := Host.Outcome.next.inj hs
    exact (clockTick_memOk s).trans h
  · rename_i c rest _
    obtain ⟨u, hu, hm⟩ := exec_memOk (s := { s with pending := rest }) h c
    obtain rfl := Host.Outcome.next.inj (hs.symm.trans hu)
    exact hm

/-- Settles O60: each of the operations that a command is made of keeps the form (log entry 4), since every write to a byte store does. -/
theorem everyStepKeepsTheCanonicalForm : Obligations.EveryStepKeepsTheCanonicalForm := fun _ _ h hs => step_memOk h hs

end Sys2Proof.Machine
end

section

namespace Sys2Proof.Machine

/-- Settles O1: the two cases of the queue (log entry 2). -/
theorem aStepRunsTheFrontCommand : Obligations.AStepRunsTheFrontCommand := by
  refine fun s => ⟨fun c rest => rfl, fun h => ?_⟩
  unfold step
  rw [h]

/-- No setting is stored and none is pending in the machine after reset. -/
theorem reg_of_reset (u : UnitId) (off obj : Nat) : State.reset.reg u off obj = resetValue State.reset u off := rfl

/-- Settles O2: each part of the state that reset makes, at the value of its definition. -/
theorem resetLeavesEverythingAtItsResetValue : Obligations.ResetLeavesEverythingAtItsResetValue := by
  refine ⟨rfl, rfl, rfl, rfl, by decide, rfl, rfl, rfl, rfl, rfl, rfl, rfl, by decide, reg_of_reset, fun u => ⟨rfl, rfl, rfl⟩⟩

end Sys2Proof.Machine
end

section
/-! SUPPORT. Moves (Table ISA-5): which forms are assigned. -/

namespace Sys2Proof.Machine

open Sys2Proof

theorem plain_iff {f : RFmt} {rd ra rb : Bool} : RFmt.plain f rd ra rb = true ↔
    f.i = false ∧ f.ty = 0 ∧ (rd = true ∨ f.rd = 0) ∧ (ra = true ∨ f.ra = 0) ∧ (rb = true ∨ f.rb = 0) := by
  simp [RFmt.plain, and_assoc]

/-- An instruction of format R with register operands is one word long. -/
theorem len_of_register {f : RFmt} (h : f.i = false) : RFmt.len f = 4 := by simp [RFmt.len, h]

theorem field_low {n : Nat} (w : BitVec n) (hi : Nat) : field w hi 0 = w.toNat % 2 ^ (hi + 1) := by simp [field]

/-- Settles O3: the operand of each of the moves, on the settled context. -/
theorem movesPutTheirOperandIntoRd : Obligations.MovesPutTheirOperandIntoRd := by
  refine fun s l k c => ⟨fun f h ha => ?_, fun f h ht hb => ⟨fun hi ha => ?_, fun hi => ?_, fun hi => ?_, fun hi ha => ⟨?_, ?_, ?_⟩,
    fun hi hd => ?_⟩, fun f h ht hb hi hd => ?_, fun f h ht hi => ?_⟩
  · refine congrArg Host.Outcome.next ?_
    simpa [ha] using compute_result h rfl
  · exact computeR_result h (by simp [ht, hb, ha]) (by simp [hi])
  · exact computeR_result h (by simp [ht, hb, hi]) (by simp [hi, aOf])
  · refine ⟨BitVec.ofNat 64 (f.ext.toNat * 2 ^ 32 + (c.rd f.ra.toNat).toNat % 2 ^ 32), ?_, computeR_result h (by simp [ht, hb, hi]) rfl⟩
    have he := f.ext.isLt
    rw [BitVec.toNat_ofNat, Nat.mod_eq_of_lt (by omega)]
  · exact computeR_result h (plain_iff.2 ⟨hi, ht, .inl rfl, .inr ha, .inr hb⟩) rfl
  · exact computeR_result h (plain_iff.2 ⟨hi, ht, .inl rfl, .inr ha, .inr hb⟩) rfl
  · exact computeR_result h (plain_iff.2 ⟨hi, ht, .inl rfl, .inr ha, .inr hb⟩) rfl
  · refine (computeR_result h (plain_iff.2 ⟨hi, ht, .inr hd, .inl rfl, .inr hb⟩) rfl).trans ?_
    simp [hd, hi, aOf, field_low]
  · refine congrArg Host.Outcome.next ?_
    rw [plain_iff.2 ⟨hi, ht, .inr hd, .inl rfl, .inr hb⟩, len_of_register hi, issue_runs (regs := RFmt.regs f) h]
    simp [aOf, field_low]
  · exact computeR_result h (plain_iff.2 ⟨hi, ht, .inl rfl, .inl rfl, .inl rfl⟩) rfl

end Sys2Proof.Machine
end

section
/-! SUPPORT. Flags and register forms: each flag of cf after an instruction, and the range of the integer types (Tables PGM-2, PGM-5,
PGM-6). -/

namespace Sys2Proof.Machine

open Sys2Proof

/-! ### Flags -/

theorem setBit_getLsbD (cf : Byte) {i j : Nat} (v : Bool) (hj : j < 8) :
    (setBit cf i v).getLsbD j = if i = j then v else cf.getLsbD j := by
  unfold setBit
  have hbit : (BitVec.ofNat 8 (2 ^ i)).getLsbD j = decide (i = j) := by
    rw [BitVec.getLsbD_ofNat, decide_eq_true hj, Bool.true_and, Nat.testBit_two_pow]
  cases v
  · rw [if_neg (by decide), BitVec.getLsbD_and, BitVec.getLsbD_not, hbit, decide_eq_true hj, Bool.true_and]
    by_cases h : i = j
    · rw [decide_eq_true h, if_pos h, Bool.not_true, Bool.and_false]
    · rw [decide_eq_false h, if_neg h, Bool.not_false, Bool.and_true]
  · rw [if_pos rfl, BitVec.getLsbD_or, hbit]
    by_cases h : i = j
    · rw [decide_eq_true h, if_pos h, Bool.or_true]
    · rw [decide_eq_false h, if_neg h, Bool.or_false]

@[simp] theorem setT_getLsbD (cf : Byte) {j : Nat} (v : Bool) (hj : j < 8) :
    (setT cf v).getLsbD j = if 6 = j then v else cf.getLsbD j := setBit_getLsbD cf v hj

theorem setZN_Z (cf : Byte) (w r : Nat) : (setZN cf w r).getLsbD 0 = decide (r % 2 ^ w = 0) := by
  simp [-BitVec.getLsbD_eq_getElem, setZN, setBit_getLsbD, cfZ, cfN]

theorem setZN_N (cf : Byte) (w r : Nat) : (setZN cf w r).getLsbD 1 = decide (r / 2 ^ (w - 1) % 2 = 1) := by
  simp [-BitVec.getLsbD_eq_getElem, setZN, setBit_getLsbD, cfN]

/-- Z and N are the lowest two flags; the others stay. -/
theorem setZN_other (cf : Byte) (w r : Nat) {j : Nat} (h : 2 ≤ j) (hj : j ≤ 6) : (setZN cf w r).getLsbD j = cf.getLsbD j := by
  have h0 : ¬ 0 = j := by omega
  have h1 : ¬ 1 = j := by omega
  simp [-BitVec.getLsbD_eq_getElem, setZN, setBit_getLsbD, cfZ, cfN, show j < 8 by omega, h0, h1]

section
variable (cf : Byte) (w r : Nat) (c v s : Bool)

theorem setArith_Z : (setArith cf w r c v s).getLsbD 0 = decide (r % 2 ^ w = 0) := by
  cases s <;> simp [-BitVec.getLsbD_eq_getElem, setArith, setBit_getLsbD, cfS, cfV, cfC, setZN_Z]

theorem setArith_C : (setArith cf w r c v s).getLsbD 2 = c := by
  cases s <;> simp [-BitVec.getLsbD_eq_getElem, setArith, setBit_getLsbD, cfS, cfV, cfC]

theorem setArith_V : (setArith cf w r c v s).getLsbD 3 = v := by
  cases s <;> simp [-BitVec.getLsbD_eq_getElem, setArith, setBit_getLsbD, cfS, cfV]

theorem setArith_U : (setArith cf w r c v s).getLsbD 4 = cf.getLsbD 4 := by
  cases s <;> simp [-BitVec.getLsbD_eq_getElem, setArith, setBit_getLsbD, cfS, cfV, cfC, setZN_other]

/-- S is sticky. -/
theorem setArith_S : (setArith cf w r c v s).getLsbD 5 = (cf.getLsbD 5 || s) := by
  cases s <;> simp [-BitVec.getLsbD_eq_getElem, setArith, setBit_getLsbD, cfS, cfV, cfC, setZN_other]

theorem setArith_T : (setArith cf w r c v s).getLsbD 6 = cf.getLsbD 6 := by
  cases s <;> simp [-BitVec.getLsbD_eq_getElem, setArith, setBit_getLsbD, cfS, cfV, cfC, setZN_other]

end

/-! ### Widths and ranges -/

theorem width_le (t : Ty) : t.width ≤ 64 := by cases t <;> decide
theorem width_pos (t : Ty) : 0 < t.width := by cases t <;> decide

theorem two_pow_width (t : Ty) : (2 : Int) ^ t.width = 2 * 2 ^ (t.width - 1) := by
  obtain ⟨k, hk⟩ := Nat.exists_eq_add_of_lt (width_pos t)
  rw [hk, Nat.zero_add, Nat.add_sub_cancel, Int.pow_succ, Int.mul_comm]

theorem loOf_le_hiOf (t : Ty) : loOf t ≤ hiOf t := by cases t <;> decide

/-- The range of a type has at most 2 ^ width values around 0. -/
theorem range_width (t : Ty) : loOf t ≤ 0 ∧ 0 ≤ hiOf t ∧ hiOf t - loOf t < 2 ^ t.width := by cases t <;> decide

theorem toSigned_bounds {w : Nat} (hw : 0 < w) (v : Nat) : -(2 ^ (w - 1) : Int) ≤ toSigned w v ∧ toSigned w v ≤ 2 ^ (w - 1) - 1 := by
  obtain ⟨k, rfl⟩ : ∃ k, w = k + 1 := ⟨w - 1, by omega⟩
  have hm : v % 2 ^ (k + 1) < 2 ^ (k + 1) := Nat.mod_lt _ (Nat.two_pow_pos _)
  have hp : ((2 : Int) ^ k) = ((2 ^ k : Nat) : Int) := by norm_cast
  unfold toSigned
  rw [Nat.add_sub_cancel, hp]
  generalize v % 2 ^ (k + 1) = m at hm ⊢
  rw [Nat.pow_succ] at hm ⊢
  generalize 2 ^ k = q at hm ⊢
  split <;> omega

theorem intOf_bounds (t : Ty) (x : W64) : loOf t ≤ intOf t x ∧ intOf t x ≤ hiOf t := by
  unfold loOf hiOf intOf
  have hm : rawOf t x < 2 ^ t.width := Nat.mod_lt _ (Nat.two_pow_pos _)
  split
  · exact toSigned_bounds (width_pos t) _
  · have hp : ((2 : Int) ^ t.width) = ((2 ^ t.width : Nat) : Int) := by norm_cast
    rw [hp]
    omega

theorem ofSigned_lt (w : Nat) (v : Int) : ofSigned w v < 2 ^ w := by
  have h1 := Int.emod_lt_of_pos v (b := ((2 ^ w : Nat) : Int)) (by exact_mod_cast Nat.two_pow_pos w)
  have h0 := Int.emod_nonneg v (b := ((2 ^ w : Nat) : Int)) (by exact_mod_cast Nat.ne_of_gt (Nat.two_pow_pos w))
  unfold ofSigned
  omega

/-- The bits of a value in its type's range are all zero exactly when the value is. -/
theorem ofSigned_eq_zero {t : Ty} {v : Int} (hl : loOf t ≤ v) (hh : v ≤ hiOf t) : ofSigned t.width v % 2 ^ t.width = 0 ↔ v = 0 := by
  rw [Nat.mod_eq_of_lt (ofSigned_lt ..)]
  obtain ⟨hlo, hhi, hr⟩ := range_width t
  have hp : ((2 : Int) ^ t.width) = ((2 ^ t.width : Nat) : Int) := by norm_cast
  rw [hp] at hr
  have h0 := Int.emod_nonneg v (b := ((2 ^ t.width : Nat) : Int)) (by exact_mod_cast Nat.ne_of_gt (Nat.two_pow_pos t.width))
  unfold ofSigned
  constructor
  · intro h
    have hd : ((2 ^ t.width : Nat) : Int) ∣ v := Int.dvd_of_emod_eq_zero (by omega)
    have hn : 2 ^ t.width ∣ v.natAbs := Int.natAbs_natCast (2 ^ t.width) ▸ Int.natAbs_dvd_natAbs.2 hd
    exact Int.natAbs_eq_zero.1 (Nat.eq_zero_of_dvd_of_lt hn (by omega))
  · rintro rfl
    simp

/-! ### Register forms -/

/-- The register form keeps the low width bits. -/
theorem regForm_mod (t : Ty) (raw : Nat) : (regForm t raw).toNat % 2 ^ t.width = raw % 2 ^ t.width := by
  cases t <;> simp only [regForm, Ty.isSigned, Ty.width, toSigned, if_true, if_false, Bool.false_eq_true, BitVec.toNat_ofInt,
    BitVec.toNat_ofNat] <;> omega

theorem regForm_getLsbD (t : Ty) (raw : Nat) {j : Nat} (hj : j < t.width) : (regForm t raw).getLsbD j = raw.testBit j := by
  have h := congrArg (Nat.testBit · j) (regForm_mod t raw)
  rw [← BitVec.testBit_toNat]
  simpa [Nat.testBit_mod_two_pow, hj] using h

theorem regForm_congr {t : Ty} {a b : Nat} (h : a % 2 ^ t.width = b % 2 ^ t.width) : regForm t a = regForm t b := by
  simp only [regForm, h]

theorem regForm_regForm (t : Ty) (raw : Nat) : regForm t (regForm t raw).toNat = regForm t raw := regForm_congr (regForm_mod t raw)

theorem regForm_eq_zero (t : Ty) (raw : Nat) : regForm t raw = 0 ↔ raw % 2 ^ t.width = 0 := by
  constructor
  · intro h
    rw [← regForm_mod, h]
    simp
  · intro h
    simp only [regForm, h]
    cases t <;> decide

/-- A result below the sign bit stands for itself. -/
theorem regForm_toNat {t : Ty} {raw : Nat} (h : raw < 2 ^ (t.width - 1)) : (regForm t raw).toNat = raw := by
  cases t <;> simp only [Ty.width] at h <;> simp only [regForm, Ty.isSigned, Ty.width, toSigned, if_true, if_false, Bool.false_eq_true,
    BitVec.toNat_ofInt, BitVec.toNat_ofNat] <;> omega

theorem setZN_regForm (t : Ty) (cf : Byte) (raw : Nat) : (setZN cf t.width raw).getLsbD 0 = decide (regForm t raw = 0) ∧
    (setZN cf t.width raw).getLsbD 1 = (regForm t raw).getLsbD (t.width - 1) := by
  constructor
  · rw [setZN_Z, decide_eq_decide, regForm_eq_zero]
  · rw [setZN_N, regForm_getLsbD t raw (by have := width_pos t; omega), Nat.testBit_eq_decide_div_mod_eq]

/-! ### Results fitted to their type -/

/-- The flags of an exact result `x` that is clamped to the range of `t` (Table PGM-6): Z of the value written, S set by a clamp and
otherwise kept, V or C for a result outside the range, U and T kept. -/
def ClampFlags (t : Ty) (x : Int) (cf cf' : Byte) : Prop :=
  let v := max (loOf t) (min (hiOf t) x)
  (cf'.getLsbD 0 = decide (v = 0)) ∧ cf'.getLsbD 5 = (cf.getLsbD 5 || decide (v ≠ x)) ∧
    (t.isSigned = true → cf'.getLsbD 3 = decide (v ≠ x)) ∧
    (t.isSigned = false → cf'.getLsbD 2 = decide (v ≠ x) ∧ cf'.getLsbD 3 = false) ∧
    cf'.getLsbD 4 = cf.getLsbD 4 ∧ cf'.getLsbD 6 = cf.getLsbD 6

theorem clamp_ne_iff (t : Ty) (x : Int) : max (loOf t) (min (hiOf t) x) ≠ x ↔ x < loOf t ∨ hiOf t < x := by
  have := loOf_le_hiOf t
  omega

theorem fitInt_clamps {t : Ty} {trap : Bool} (cf : Byte) {x : Int} (carry : Bool) (h : trap = false ∨ loOf t ≤ x ∧ x ≤ hiOf t) :
    ∃ cf', fitInt t trap cf x carry = .res (regForm t (ofSigned t.width (max (loOf t) (min (hiOf t) x)))) cf' ∧ ClampFlags t x cf cf' := by
  have hout : (decide (x < loOf t) || decide (hiOf t < x)) = decide (max (loOf t) (min (hiOf t) x) ≠ x) := by
    rw [← Bool.decide_or, decide_eq_decide]
    exact (clamp_ne_iff t x).symm
  have hexc : ((decide (x < loOf t) || decide (hiOf t < x)) && trap) = false := by
    rcases h with h | ⟨hl, hh⟩
    · simp [h]
    · simp [Int.not_lt.2 hl, Int.not_lt.2 hh]
  have hz := ofSigned_eq_zero (t := t) (v := max (loOf t) (min (hiOf t) x)) (Int.le_max_left ..)
    (by have := loOf_le_hiOf t; omega)
  unfold fitInt
  simp only [hexc, Bool.false_eq_true, if_false]
  refine ⟨_, rfl, ?_⟩
  simp only [ClampFlags, setArith_Z, setArith_S, setArith_V, setArith_C, setArith_U, setArith_T, hz, hout]
  refine ⟨trivial, trivial, fun hs => by simp [hs], fun hs => by simp [hs], trivial, trivial⟩

theorem fitInt_overflow {t : Ty} (cf : Byte) {x : Int} (carry : Bool) (h : x < loOf t ∨ hiOf t < x) :
    fitInt t true cf x carry = .exc 0x45 := by
  rcases h with h | h <;> simp [fitInt, h, xIntOverflow]

/-- Z and N of a result in range, the other flags kept. -/
theorem plainInt_flags {t : Ty} (cf : Byte) {v : Int} (hl : loOf t ≤ v) (hh : v ≤ hiOf t) :
    ∃ cf', plainInt t cf v = .res (regForm t (ofSigned t.width v)) cf' ∧ cf'.getLsbD 0 = decide (v = 0) ∧
      cf'.getLsbD 1 = (regForm t (ofSigned t.width v)).getLsbD (t.width - 1) ∧ (∀ j, 2 ≤ j → j ≤ 6 → cf'.getLsbD j = cf.getLsbD j) := by
  refine ⟨_, rfl, ?_, ?_, fun j h2 h6 => setZN_other _ _ _ h2 h6⟩
  · rw [setZN_Z, decide_eq_decide]
    exact ofSigned_eq_zero hl hh
  · exact (setZN_regForm t cf _).2

end Sys2Proof.Machine
end
section
/-! SUPPORT. A computing instruction of format R, from its encoding to its result. -/

namespace Sys2Proof.Machine

open Sys2Proof

/-- The instruction is one that computes, and its result on the context is `r`. -/
def Computes (i : Instr) (s : State) (l : Lane) (k : CtxKind) (c : LaneCtx) (len rd : Nat) (r : OpRes) : Prop :=
  ∃ regs g, Executes s l (rd :: regs) len k c ∧ exec i s = .next (compute s l len rd regs true g) ∧ g (laneProg s l) c = r

/-- Operand b for a type: the extension word or the register. -/
def operandB (t : Ty) (f : RFmt) (c : LaneCtx) : W64 := if f.i then extOperand t f.ext else c.rd f.rb.toNat

section
variable {i : Instr} {s : State} {l : Lane} {k : CtxKind} {c : LaneCtx} {len rd : Nat} {r : OpRes} {v : W64} {cf : Byte} {kind : Nat}

theorem Computes.delivers (h : Computes i s l k c len rd r) (hr : r = .res v cf) : Delivers i s l k c len rd v cf := by
  obtain ⟨regs, g, hx, he, hg⟩ := h
  exact he.trans (congrArg Host.Outcome.next (compute_result hx (hg.trans hr)))

theorem Computes.excepts (h : Computes i s l k c len rd r) (hr : r = .exc kind) (hq : queueFull (s.lane l) = false) :
    Excepts i s l k c kind := by
  obtain ⟨regs, g, hx, he, hg⟩ := h
  exact except_excepts hq (he.trans (congrArg Host.Outcome.next (compute_exception hx (hg.trans hr))))

variable {f : RFmt} {t : Ty} {ok : Ty → Bool} {legal : Bool} {g : Ty → Bool → Byte → W64 → W64 → W64 → OpRes}

theorem computesR {g : Program → LaneCtx → OpRes} (h : ExecutesR s l f k c) (hl : legal = true) (he : exec i s = computeR s l f legal g) :
    Computes i s l k c (if f.i then 8 else 4) f.rd.toNat (g (laneProg s l) c) := by
  subst hl
  exact ⟨_, g, h, he, rfl⟩

theorem type_of_code (ht : Ty.ofCode f.ty.toNat = some t) : RFmt.type? f = some t := ht

theorem theTy_of_code (ht : Ty.ofCode f.ty.toNat = some t) : RFmt.theTy f = t := by simp [RFmt.theTy, type_of_code ht]

theorem tyIs_of_code (ht : Ty.ofCode f.ty.toNat = some t) (hok : ok t = true) : RFmt.tyIs f ok = true := by
  simp [RFmt.tyIs, type_of_code ht, hok]

theorem bOk_of_code (ht : Ty.ofCode f.ty.toNat = some t) (hb : f.i = true → f.rb = 0) (hx : t = .bool → f.i = true → f.ext.toNat < 2) :
    RFmt.bOk f = true := by
  unfold RFmt.bOk
  rw [type_of_code ht]
  cases hi : f.i with
  | false => rfl
  | true => by_cases h : t = .bool <;> simp_all

/-- An instruction of a group that takes operands a and b, and rd. -/
theorem computes_of_group (g : Ty → Bool → Byte → W64 → W64 → W64 → OpRes)
    (he : exec i s = computeR s l f (RFmt.tyIs f ok && RFmt.bOk f) fun p c =>
      g (RFmt.theTy f) (trapMode p c) c.cf (dOf c f) (aOf c f) (bOf c f))
    (h : ExecutesR s l f k c) (ht : Ty.ofCode f.ty.toNat = some t) (hok : ok t = true) (hb : f.i = true → f.rb = 0)
    (hx : t = .bool → f.i = true → f.ext.toNat < 2) :
    Computes i s l k c (if f.i then 8 else 4) f.rd.toNat
      (g t (trapMode (laneProg s l) c) c.cf (c.rd f.rd.toNat) (c.rd f.ra.toNat) (operandB t f c)) := by
  have hc := computesR h (by rw [tyIs_of_code ht hok, bOk_of_code ht hb hx]; rfl) he
  simpa only [bOf, dOf, aOf, theTy_of_code ht, operandB] using hc

/-- An instruction of a group that takes operand a only. -/
theorem computes_of_group_a (g : Ty → Bool → Byte → W64 → OpRes)
    (he : exec i s = computeR s l f (RFmt.tyIs f ok && RFmt.aOnly f) fun p c => g (RFmt.theTy f) (trapMode p c) c.cf (aOf c f))
    (h : ExecutesR s l f k c) (ht : Ty.ofCode f.ty.toNat = some t) (hok : ok t = true) (hi : f.i = false) (hb : f.rb = 0) :
    Computes i s l k c (if f.i then 8 else 4) f.rd.toNat (g t (trapMode (laneProg s l) c) c.cf (c.rd f.ra.toNat)) := by
  have hc := computesR h (by rw [tyIs_of_code ht hok]; simp [RFmt.aOnly, hi, hb]) he
  simpa only [aOf, theTy_of_code ht] using hc

end

end Sys2Proof.Machine
end

section
/-! The INT group (R141, R142, Table ISA-7). -/

namespace Sys2Proof.Machine

open Sys2Proof

theorem not_bool_of_isInt {t : Ty} (h : t.isInt = true) : t ≠ .bool := by rintro rfl; cases h

/-- A result that is fitted to its type, as the obligation says it. -/
theorem Computes.clamps {i : Instr} {s : State} {l : Lane} {k : CtxKind} {c : LaneCtx} {len rd : Nat} {t : Ty} {x : Int} {carry : Bool}
    (h : Computes i s l k c len rd (fitInt t (trapMode (laneProg s l) c) c.cf x carry)) :
    (trapMode (laneProg s l) c = false ∨ (loOf t ≤ x ∧ x ≤ hiOf t) →
      ∃ cf, Delivers i s l k c len rd (regForm t (ofSigned t.width (max (loOf t) (min (hiOf t) x)))) cf ∧ ClampFlags t x c.cf cf) ∧
    (trapMode (laneProg s l) c = true → (x < loOf t ∨ hiOf t < x) → queueFull (s.lane l) = false → Excepts i s l k c 0x45) := by
  refine ⟨fun hx => ?_, fun htrap hx hq => ?_⟩
  · obtain ⟨cf, he, hf⟩ := fitInt_clamps c.cf carry hx
    exact ⟨cf, h.delivers he, hf⟩
  · exact h.excepts (by rw [htrap]; exact fitInt_overflow c.cf carry hx) hq

theorem intOf_int64 (x : W64) : intOf .int64 x = x.toInt := by
  have h := x.isLt
  simp only [intOf, Ty.isSigned, if_true, rawOf, toSigned, Ty.width, BitVec.toInt_eq_toNat_cond]
  omega

/-- A result of MIN, MAX, LIMIT or MULH, as the obligation says it. -/
theorem Computes.plain {i : Instr} {s : State} {l : Lane} {k : CtxKind} {c : LaneCtx} {len rd : Nat} {t : Ty} {v : Int}
    (h : Computes i s l k c len rd (plainInt t c.cf v)) (hl : loOf t ≤ v) (hh : v ≤ hiOf t) :
    ∃ cf : Byte, Delivers i s l k c len rd (regForm t (ofSigned t.width v)) cf ∧ cf.getLsbD 0 = decide (v = 0) ∧
      cf.getLsbD 1 = (regForm t (ofSigned t.width v)).getLsbD (t.width - 1) ∧ (∀ j, 2 ≤ j → j ≤ 6 → cf.getLsbD j = c.cf.getLsbD j) := by
  obtain ⟨cf, he, hf⟩ := plainInt_flags c.cf hl hh
  exact ⟨cf, h.delivers he, hf⟩

theorem range_cases (t : Ty) : loOf t = 0 ∨ hiOf t < -loOf t := by cases t <;> decide

/-- The quotient of two values of a type exceeds only its upper end. -/
theorem tdiv_ge {t : Ty} {a b : Int} (ha : loOf t ≤ a ∧ a ≤ hiOf t) (hb : loOf t ≤ b) : loOf t ≤ a.tdiv b := by
  rcases range_cases t with h | h
  · rw [h] at ha hb ⊢
    exact Int.tdiv_nonneg ha.1 hb
  · have := Int.natAbs_tdiv_le_natAbs a b
    omega

/-- A remainder stays in the range of the dividend. -/
theorem tmod_range {t : Ty} {a : Int} (b : Int) (ha : loOf t ≤ a ∧ a ≤ hiOf t) : loOf t ≤ a.tmod b ∧ a.tmod b ≤ hiOf t := by
  obtain ⟨hl, hh, _⟩ := range_width t
  have habs : (a.tmod b).natAbs ≤ a.natAbs := by
    rw [Int.natAbs_tmod]
    exact Nat.mod_le ..
  rcases Int.le_total 0 a with h | h
  · have := Int.tmod_nonneg b h
    omega
  · have := Int.tmod_nonneg b (Int.neg_nonneg.2 h)
    rw [Int.neg_tmod] at this
    omega

/-- A product lies within the product of the bounds of its factors. -/
theorem mul_bounds {a b : Int} {m : Nat} (ha : a.natAbs ≤ m) (hb : b.natAbs ≤ m) :
    -((m * m : Nat) : Int) ≤ a * b ∧ a * b ≤ ((m * m : Nat) : Int) := by
  have h : (a * b).natAbs ≤ m * m := Int.natAbs_mul a b ▸ Nat.mul_le_mul ha hb
  omega

/-- The upper half of a product stays in the range of a 64-bit type. -/
theorem mulh_range {t : Ty} (ht : t = .int64 ∨ t = .uint64) {a b : Int} (ha : loOf t ≤ a ∧ a ≤ hiOf t) (hb : loOf t ≤ b ∧ b ≤ hiOf t) :
    loOf t ≤ a * b / 2 ^ 64 ∧ a * b / 2 ^ 64 ≤ hiOf t := by
  have hp : loOf t * 2 ^ 64 ≤ a * b ∧ a * b < (hiOf t + 1) * 2 ^ 64 := by
    rcases ht with rfl | rfl <;> simp only [loOf, hiOf, Ty.isSigned, Ty.width, if_true, if_false, Bool.false_eq_true] at ha hb ⊢
    · have h := mul_bounds (a := a) (b := b) (m := 2 ^ 63) (by omega) (by omega)
      omega
    · have h := mul_bounds (a := a) (b := b) (m := 2 ^ 64 - 1) (by omega) (by omega)
      have h0 := Int.mul_nonneg ha.1 hb.1
      omega
  omega

/-- The largest value of the sign of the dividend; 0 for 0 ÷ 0 and for MOD (R142). -/
theorem divZero_sat (t : Ty) (cf : Byte) (a : Int) (isMod : Bool) :
    ∃ cf' : Byte, divZero t false cf a isMod =
        .res (regForm t (ofSigned t.width (if isMod || a = 0 then 0 else if a < 0 then loOf t else hiOf t))) cf' ∧
      cf'.getLsbD 5 = true ∧ cf'.getLsbD (if t.isSigned then 3 else 2) = true := by
  refine ⟨_, rfl, by rw [setArith_S]; simp, ?_⟩
  cases hs : t.isSigned with
  | true => exact setArith_V ..
  | false => exact setArith_C ..

theorem divZero_trap (t : Ty) (cf : Byte) (a : Int) (isMod : Bool) : divZero t true cf a isMod = .exc 0x46 := rfl

/-- Settles O4: each instruction computes its exact result, which is fitted to its type, divided by zero, or plain. -/
theorem integerInstructionsFollowTheirTable : Obligations.IntegerInstructionsFollowTheirTable := by
  refine ⟨fun s l k c t i x len rd h => ?_, fun s l k c f t h ht hi hb => ?_, fun s l k c f t h ht hi hb => ?_⟩
  · rcases h with ⟨f, h, ht, hi, rfl, rfl, h' | h'⟩ | ⟨f, h, rfl, rfl, rfl, rfl, rfl⟩
    · obtain ⟨hb, hm⟩ := h'
      have hx : t = .bool → f.i = true → f.ext.toNat < 2 := fun e => absurd e (not_bool_of_isInt hi)
      simp only [List.mem_cons, Prod.mk.injEq, List.not_mem_nil, or_false] at hm
      rcases hm with ⟨rfl, rfl⟩ | ⟨rfl, rfl⟩ | ⟨rfl, rfl⟩
      · exact (computes_of_group (fun t tr cf _ a b => intAdd t tr cf a b) rfl h ht hi hb hx).clamps
      · exact (computes_of_group (fun t tr cf _ a b => intSub t tr cf a b) rfl h ht hi hb hx).clamps
      · exact (computes_of_group (fun t tr cf _ a b => intMul t tr cf a b) rfl h ht hi hb hx).clamps
    · obtain ⟨hf, hb, hm⟩ := h'
      simp only [List.mem_cons, Prod.mk.injEq, List.not_mem_nil, or_false] at hm
      rcases hm with ⟨rfl, rfl⟩ | ⟨rfl, rfl⟩
      · exact (computes_of_group_a intNeg rfl h ht hi hf hb).clamps
      · exact (computes_of_group_a intAbs rfl h ht hi hf hb).clamps
    · have hc : Computes (.addi l f) s l k c 4 f.rd.toNat
          (intAdd .int64 (trapMode (laneProg s l) c) c.cf (c.rd f.ra.toNat) (imm64 f)) := ⟨_, _, h, rfl, rfl⟩
      have hx : (c.rd f.ra.toNat).toInt + f.imm.toInt = intOf .int64 (c.rd f.ra.toNat) + intOf .int64 (imm64 f) := by
        rw [intOf_int64, intOf_int64, imm64, BitVec.toInt_signExtend_of_le (by decide)]
      rw [hx]
      exact hc.clamps
  · have hx : t = .bool → f.i = true → f.ext.toNat < 2 := fun e => absurd e (not_bool_of_isInt hi)
    have hdiv := computes_of_group (fun t tr cf _ a b => intDiv t tr cf a b) (i := .div l f) rfl h ht hi hb hx
    have hmod := computes_of_group (fun t tr cf _ a b => intMod t tr cf a b) (i := .mod l f) rfl h ht hi hb hx
    have ha := intOf_bounds t (c.rd f.ra.toNat)
    have hb' := intOf_bounds t (operandB t f c)
    intro a b trap
    refine ⟨fun (h0 : intOf t (operandB t f c) ≠ 0) => ⟨?_, fun hle => ?_⟩, fun (h0 : intOf t (operandB t f c) = 0) htrap => ?_,
      fun (h0 : intOf t (operandB t f c) = 0) htrap hq => ?_⟩
    · simp only [intMod, if_neg h0] at hmod
      have hr := tmod_range (intOf t (operandB t f c)) ha
      obtain ⟨cf, hd, _⟩ := hmod.clamps.1 (.inr hr)
      rw [Int.min_eq_right hr.2, Int.max_eq_right hr.1] at hd
      exact ⟨cf, hd⟩
    · simp only [intDiv, if_neg h0] at hdiv
      have hr : loOf t ≤ (intOf t (c.rd f.ra.toNat)).tdiv (intOf t (operandB t f c)) := tdiv_ge ha hb'.1
      obtain ⟨cf, hd, _⟩ := hdiv.clamps.1 (hle.imp id fun hh => ⟨hr, hh⟩)
      rw [Int.max_eq_right (Int.le_min.2 ⟨loOf_le_hiOf t, hr⟩)] at hd
      exact ⟨cf, hd⟩
    · simp only [intDiv, intMod, if_pos h0, show trapMode (laneProg s l) c = false from htrap] at hdiv hmod
      intro e he
      simp only [List.mem_cons, List.not_mem_nil, or_false] at he
      rcases he with rfl | rfl
      · obtain ⟨cf, hr, hf⟩ := divZero_sat t c.cf a false
        exact ⟨cf, by simpa [DeliversR] using hdiv.delivers hr, hf⟩
      · obtain ⟨cf, hr, hf⟩ := divZero_sat t c.cf a true
        exact ⟨cf, by simpa [DeliversR] using hmod.delivers hr, hf⟩
    · simp only [intDiv, intMod, if_pos h0, show trapMode (laneProg s l) c = true from htrap] at hdiv hmod
      exact ⟨hdiv.excepts (divZero_trap ..) hq, hmod.excepts (divZero_trap ..) hq⟩
  · have hx : t = .bool → f.i = true → f.ext.toNat < 2 := fun e => absurd e (not_bool_of_isInt hi)
    have ha := intOf_bounds t (c.rd f.ra.toNat)
    have hb' := intOf_bounds t (operandB t f c)
    have hd := intOf_bounds t (c.rd f.rd.toNat)
    intro a b d e he
    simp only [List.mem_append, List.mem_cons, List.not_mem_nil, or_false] at he
    rcases he with (rfl | rfl | rfl) | he
    · exact (computes_of_group (fun t _ cf _ a b => intMin t cf a b) rfl h ht hi hb hx).plain (by omega) (by omega)
    · exact (computes_of_group (fun t _ cf _ a b => intMax t cf a b) rfl h ht hi hb hx).plain (by omega) (by omega)
    · exact (computes_of_group (fun t _ cf d a b => intLimit t cf d a b) rfl h ht hi hb hx).plain
        (by omega) (by omega)
    · split at he
      · rename_i h64
        obtain rfl := List.mem_singleton.1 he
        have hr := mulh_range h64 ha hb'
        exact (computes_of_group (fun t _ cf _ a b => intMulh t cf a b) rfl h ht (by simpa using h64) hb hx).plain hr.1 hr.2
      · cases he

end Sys2Proof.Machine
end

section
/-! The REAL group (R106, R107, R143, Table ISA-8): what the format and the overflow mode make of an operation's outcome. -/

namespace Sys2Proof.Machine

open Sys2Proof

/-! ### Operations on finite numbers are not invalid -/

theorem roundReal_valid (m : FloatFmt) (n : Bool) (x : Nat) (e : Int) (st : Bool) : roundReal m n x e st ≠ .invalid := by
  unfold roundReal
  dsimp only
  (repeat' split) <;> simp

theorem toFmt_valid (m : FloatFmt) {r : Machine.Real} (h : r ≠ .nan) : toFmt m r ≠ .invalid := by
  cases r with
  | nan => exact absurd rfl h
  | inf a => simp [toFmt]
  | fin n x e => exact roundReal_valid _ _ _ _ _

/-- A number that is neither an infinity nor a NaN. -/
def IsFinite (r : Machine.Real) : Prop := ∃ n x e, r = Machine.Real.fin n x e

theorem IsFinite.ne_nan {r : Machine.Real} (h : IsFinite r) : r ≠ .nan := by
  obtain ⟨n, x, e, rfl⟩ := h
  simp

theorem IsFinite.neg {r : Machine.Real} (h : IsFinite r) : IsFinite (negReal r) := by
  obtain ⟨n, x, e, rfl⟩ := h
  exact ⟨_, _, _, rfl⟩

theorem IsFinite.abs {r : Machine.Real} (h : IsFinite r) : IsFinite (absReal r) := by
  obtain ⟨n, x, e, rfl⟩ := h
  exact ⟨_, _, _, rfl⟩

theorem IsFinite.mul {a b : Machine.Real} (ha : IsFinite a) (hb : IsFinite b) : IsFinite (mulExact a b) := by
  obtain ⟨n, x, e, rfl⟩ := ha
  obtain ⟨n', x', e', rfl⟩ := hb
  exact ⟨_, _, _, rfl⟩

theorem IsFinite.min {a b : Machine.Real} (ha : IsFinite a) (hb : IsFinite b) : IsFinite (minReal a b) := by
  unfold minReal
  (repeat' split) <;> assumption

theorem IsFinite.max {a b : Machine.Real} (ha : IsFinite a) (hb : IsFinite b) : IsFinite (maxReal a b) := by
  unfold maxReal
  (repeat' split) <;> assumption

theorem noNan_finite {a b : Machine.Real} (ha : IsFinite a) (hb : IsFinite b) {f : Machine.Real → Machine.Real → Machine.Real}
    (hf : IsFinite (f a b)) : IsFinite (noNan a b f) := by
  simpa [noNan, ha.ne_nan, hb.ne_nan] using hf

theorem addReal_valid (m : FloatFmt) {a b : Machine.Real} (ha : IsFinite a) (hb : IsFinite b) : addReal m a b ≠ .invalid := by
  obtain ⟨n, x, e, rfl⟩ := ha
  obtain ⟨n', x', e', rfl⟩ := hb
  simp only [addReal, sumReal]
  split
  · simp
  · exact roundReal_valid _ _ _ _ _

theorem divReal_valid (m : FloatFmt) {a b : Machine.Real} (ha : IsFinite a) (hb : IsFinite b)
    (h0 : ∀ n e, b ≠ Machine.Real.fin n 0 e) : divReal m a b ≠ .invalid := by
  obtain ⟨n, x, e, rfl⟩ := ha
  obtain ⟨n', x', e', rfl⟩ := hb
  have hx : x' ≠ 0 := by
    rintro rfl
    exact h0 n' e' rfl
  simp only [divReal, if_neg hx]
  exact roundReal_valid _ _ _ _ _

theorem sqrtReal_valid (m : FloatFmt) {a : Machine.Real} (ha : IsFinite a) (h0 : ∀ x e, a = Machine.Real.fin true x e → x = 0) :
    sqrtReal m a ≠ .invalid := by
  obtain ⟨n, x, e, rfl⟩ := ha
  simp only [sqrtReal]
  split
  · simp
  · split
    · rename_i hx hn
      subst hn
      exact absurd (h0 x e rfl) hx
    · exact roundReal_valid _ _ _ _ _

/-! ### The overflow mode -/

/-- The result of a real operation whose overflow raises `kind` in TRAP mode. -/
def realResult (kind : Nat) (t : Ty) (trap : Bool) (cf : Byte) : RealOut → OpRes
  | .ovf neg => if trap then .exc kind else fitReal t false cf (.ovf neg)
  | r => fitReal t trap cf r

theorem fitReal_eq (t : Ty) (trap : Bool) (cf : Byte) (r : RealOut) : fitReal t trap cf r = realResult 0x48 t trap cf r := by
  cases r <;> cases trap <;> rfl

/-- What a division that overflows raises: DIV_ZERO over a zero (R107). -/
def divKind : Machine.Real → Nat
  | .fin _ 0 _ => 0x46
  | _ => 0x48

theorem divKind_eq (l : Lane) (f : RFmt) (r : Machine.Real) :
    (if Instr.fdiv l f = .fdiv l f ∧ (match r with | .fin _ 0 _ => true | _ => false) = true then 0x46 else 0x48) = divKind r := by
  rcases r with _ | _ | ⟨n, _ | x, e⟩ <;> simp [divKind]

theorem realDiv_eq (t : Ty) (trap : Bool) (cf : Byte) (a b : W64) :
    realDiv t trap cf a b = realResult (divKind (realOf t b)) t trap cf (divReal (fmtOf t) (realOf t a) (realOf t b)) := by
  unfold realDiv
  generalize divReal (fmtOf t) (realOf t a) (realOf t b) = d
  cases d with
  | ovf neg =>
    cases trap with
    | false => rfl
    | true => rcases realOf t b with _ | _ | ⟨n, _ | x, e⟩ <;> simp [realResult, divKind, fitReal, xDivZero, xRealOverflow]
  | val bits => rfl
  | invalid => rfl

theorem fitReal_val (t : Ty) (trap : Bool) (cf : Byte) (bits : Nat) :
    ∃ cf' : Byte, fitReal t trap cf (.val bits) = .res (BitVec.ofNat 64 bits) cf' ∧
      cf'.getLsbD 0 = realIsZero (fmtOf t) bits ∧ cf'.getLsbD 1 = realIsNeg (fmtOf t) bits ∧ cf'.getLsbD 2 = false ∧
      cf'.getLsbD 3 = false ∧ cf'.getLsbD 4 = cf.getLsbD 4 ∧ cf'.getLsbD 5 = cf.getLsbD 5 ∧ cf'.getLsbD 6 = cf.getLsbD 6 := by
  refine ⟨_, rfl, ?_⟩
  simp [-BitVec.getLsbD_eq_getElem, setBit_getLsbD, cfZ, cfN, cfC, cfV]

theorem fitReal_ovf (t : Ty) (cf : Byte) (neg : Bool) :
    ∃ cf' : Byte, fitReal t false cf (.ovf neg) = .res (BitVec.ofNat 64 (maxBits (fmtOf t) neg)) cf' ∧
      cf'.getLsbD 0 = false ∧ cf'.getLsbD 1 = neg ∧ cf'.getLsbD 2 = false ∧ cf'.getLsbD 3 = true ∧ cf'.getLsbD 5 = true ∧
      cf'.getLsbD 4 = cf.getLsbD 4 ∧ cf'.getLsbD 6 = cf.getLsbD 6 := by
  have hz : realIsZero (fmtOf t) (maxBits (fmtOf t) neg) = false := by cases t <;> cases neg <;> decide
  have hn : realIsNeg (fmtOf t) (maxBits (fmtOf t) neg) = neg := by cases t <;> cases neg <;> decide
  refine ⟨_, rfl, ?_⟩
  simp [-BitVec.getLsbD_eq_getElem, setBit_getLsbD, cfZ, cfN, cfC, cfV, cfS, hz, hn]

/-! ### Instructions -/

section
variable {i : Instr} {s : State} {l : Lane} {k : CtxKind} {c : LaneCtx} {f : RFmt} {t : Ty} {kind : Nat} {r : RealOut}

theorem not_bool_of_isReal (h : t.isReal = true) : t ≠ .bool := by rintro rfl; cases h

/-- An outcome that is not invalid is delivered in SAT mode. -/
theorem Computes.real_sat {len rd : Nat} (h : Computes i s l k c len rd (realResult kind t (trapMode (laneProg s l) c) c.cf r))
    (htrap : trapMode (laneProg s l) c = false) (hr : r ≠ .invalid) : ∃ v cf, Delivers i s l k c len rd v cf := by
  rw [htrap] at h
  cases r with
  | invalid => exact absurd rfl hr
  | val bits =>
    obtain ⟨cf, he, _⟩ := fitReal_val t false c.cf bits
    exact ⟨_, cf, h.delivers he⟩
  | ovf neg =>
    obtain ⟨cf, he, _⟩ := fitReal_ovf t c.cf neg
    exact ⟨_, cf, h.delivers he⟩

/-- What is delivered for each outcome, as the obligation says it. -/
theorem Computes.real {len rd kind' : Nat} (h : Computes i s l k c len rd (realResult kind t (trapMode (laneProg s l) c) c.cf r))
    (hk : kind' = kind) :
    (∀ bits, r = .val bits → ∃ cf : Byte, Delivers i s l k c len rd (BitVec.ofNat 64 bits) cf ∧
      cf.getLsbD 0 = realIsZero (fmtOf t) bits ∧ cf.getLsbD 1 = realIsNeg (fmtOf t) bits ∧ cf.getLsbD 2 = false ∧
      cf.getLsbD 3 = false ∧ cf.getLsbD 4 = c.cf.getLsbD 4 ∧ cf.getLsbD 5 = c.cf.getLsbD 5 ∧ cf.getLsbD 6 = c.cf.getLsbD 6) ∧
    (∀ neg, r = .ovf neg → trapMode (laneProg s l) c = false → ∃ cf : Byte,
      Delivers i s l k c len rd (BitVec.ofNat 64 (maxBits (fmtOf t) neg)) cf ∧
      cf.getLsbD 0 = false ∧ cf.getLsbD 1 = neg ∧ cf.getLsbD 2 = false ∧ cf.getLsbD 3 = true ∧ cf.getLsbD 5 = true ∧
      cf.getLsbD 4 = c.cf.getLsbD 4 ∧ cf.getLsbD 6 = c.cf.getLsbD 6) ∧
    (∀ neg, r = .ovf neg → trapMode (laneProg s l) c = true → queueFull (s.lane l) = false → Excepts i s l k c kind') ∧
    (r = .invalid → queueFull (s.lane l) = false → Excepts i s l k c 0x47) := by
  subst hk
  refine ⟨?_, ?_, ?_, ?_⟩
  · rintro bits rfl
    obtain ⟨cf, he, hf⟩ := fitReal_val t (trapMode (laneProg s l) c) c.cf bits
    exact ⟨cf, h.delivers he, hf⟩
  · rintro neg rfl htrap
    obtain ⟨cf, he, hf⟩ := fitReal_ovf t c.cf neg
    rw [htrap] at h
    exact ⟨cf, h.delivers he, hf⟩
  · rintro neg rfl htrap hq
    rw [htrap] at h
    exact h.excepts rfl hq
  · rintro rfl hq
    exact h.excepts rfl hq

/-- An instruction of the group that is fitted as it is. -/
theorem Computes.of_fitReal {len rd : Nat} {trap : Bool} {cf : Byte} (h : Computes i s l k c len rd (fitReal t trap cf r)) :
    Computes i s l k c len rd (realResult 0x48 t trap cf r) := fitReal_eq t trap cf r ▸ h

end

/-- Settles O5: every outcome of the group is fitted to the format and the overflow mode. -/
theorem realResultsAreRoundedOnceOrInvalid : Obligations.RealResultsAreRoundedOnceOrInvalid := by
  intro s l k c f t h ht hr m a b d trap finite
  have hx : t = .bool → f.i = true → f.ext.toNat < 2 := fun e => absurd e (not_bool_of_isReal hr)
  have hadd (hb) := (computes_of_group (i := .fadd l f) (fun t tr cf _ a b => realAdd t tr cf a b) rfl h ht hr hb hx).of_fitReal
  have hsub (hb) := (computes_of_group (i := .fsub l f) (fun t tr cf _ a b => realSub t tr cf a b) rfl h ht hr hb hx).of_fitReal
  have hmul (hb) := (computes_of_group (i := .fmul l f) (fun t tr cf _ a b => realMul t tr cf a b) rfl h ht hr hb hx).of_fitReal
  have hfma (hb) := (computes_of_group (i := .fma l f) (fun t tr cf d a b => realFma t tr cf d a b) rfl h ht hr hb hx).of_fitReal
  have hmin (hb) := (computes_of_group (i := .fmin l f) (fun t tr cf _ a b => realMin t tr cf a b) rfl h ht hr hb hx).of_fitReal
  have hmax (hb) := (computes_of_group (i := .fmax l f) (fun t tr cf _ a b => realMax t tr cf a b) rfl h ht hr hb hx).of_fitReal
  have hlim (hb) := (computes_of_group (i := .flimit l f) (fun t tr cf d a b => realLimit t tr cf d a b) rfl h ht hr hb hx).of_fitReal
  have hdiv (hb) := computes_of_group (i := .fdiv l f) (fun t tr cf _ a b => realDiv t tr cf a b) rfl h ht hr hb hx
  simp only [realDiv_eq] at hdiv
  have hsqrt (hi hb) := (computes_of_group_a (i := .fsqrt l f) realSqrt rfl h ht hr hi hb).of_fitReal
  have habs (hi hb) := (computes_of_group_a (i := .fabs l f) realAbs rfl h ht hr hi hb).of_fitReal
  have hneg (hi hb) := (computes_of_group_a (i := .fneg l f) realNeg rfl h ht hr hi hb).of_fitReal
  refine ⟨fun hb ht0 (ha : IsFinite a) (hbf : IsFinite b) (hd : IsFinite d) => ⟨fun i hi => ?_, fun h0 => ?_⟩,
    fun hi hb ht0 (ha : IsFinite a) => ⟨fun i hm => ?_, fun h0 => ?_⟩, fun i r hm => ?_⟩
  · simp only [List.mem_cons, List.not_mem_nil, or_false] at hi
    rcases hi with rfl | rfl | rfl | rfl | rfl | rfl | rfl
    · exact (hadd hb).real_sat ht0 (addReal_valid m ha hbf)
    · exact (hsub hb).real_sat ht0 (addReal_valid m ha hbf.neg)
    · exact (hmul hb).real_sat ht0 (toFmt_valid m (ha.mul hbf).ne_nan)
    · exact (hfma hb).real_sat ht0 (addReal_valid m hd (ha.mul hbf))
    · exact (hmin hb).real_sat ht0 (toFmt_valid m (noNan_finite ha hbf (ha.min hbf)).ne_nan)
    · exact (hmax hb).real_sat ht0 (toFmt_valid m (noNan_finite ha hbf (ha.max hbf)).ne_nan)
    · have hx := noNan_finite hd ha (hd.max ha)
      exact (hlim hb).real_sat ht0 (toFmt_valid m (noNan_finite hx hbf (hx.min hbf)).ne_nan)
  · exact (hdiv hb).real_sat ht0 (divReal_valid m ha hbf h0)
  · simp only [List.mem_cons, List.not_mem_nil, or_false] at hm
    rcases hm with rfl | rfl
    · exact (habs hi hb).real_sat ht0 (toFmt_valid m ha.abs.ne_nan)
    · exact (hneg hi hb).real_sat ht0 (toFmt_valid m ha.neg.ne_nan)
  · exact (hsqrt hi hb).real_sat ht0 (sqrtReal_valid m ha h0)
  · simp only [List.mem_cons, List.not_mem_nil, or_false, Prod.mk.injEq] at hm
    rcases hm with ⟨hb, h' | h' | h' | h' | h' | h' | h' | h'⟩ | ⟨hi, hb, h' | h' | h'⟩ <;> obtain ⟨rfl, rfl⟩ := h'
    · exact (hadd hb).real (if_neg (by simp))
    · exact (hsub hb).real (if_neg (by simp))
    · exact (hmul hb).real (if_neg (by simp))
    · exact (hdiv hb).real (divKind_eq l f _)
    · exact (hfma hb).real (if_neg (by simp))
    · exact (hmin hb).real (if_neg (by simp))
    · exact (hmax hb).real (if_neg (by simp))
    · exact (hlim hb).real (if_neg (by simp))
    · exact (hsqrt hi hb).real (if_neg (by simp))
    · exact (habs hi hb).real (if_neg (by simp))
    · exact (hneg hi hb).real (if_neg (by simp))

end Sys2Proof.Machine
end

section
/-! CVT and TRUNC (R144). -/

namespace Sys2Proof.Machine

open Sys2Proof

/-- An encoding that is not assigned raises ILLEGAL_OP (R127). -/
theorem computeR_illegal {i : Instr} {s : State} {l : Lane} {k : CtxKind} {c : LaneCtx} {f : RFmt} {legal : Bool}
    {g : Program → LaneCtx → OpRes} (h : ExecutesR s l f k c) (hl : legal = false) (he : exec i s = computeR s l f legal g)
    (hq : queueFull (s.lane l) = false) : Excepts i s l k c 0x40 := by
  subst hl
  exact except_excepts hq (he.trans (congrArg Host.Outcome.next (issue_illegal (regs := f.rd.toNat :: RFmt.regs f) h _)))

/-! ### What a conversion gives -/

section
variable {src dst : Ty} {toZero trap : Bool} {cf : Byte} {a : W64}

theorem not_real_of_isInt {t : Ty} (h : t.isInt = true) : t.isReal = false := by cases t <;> first | rfl | cases h

theorem convert_nan (hs : src.isReal = true) (h : realOf src a = .nan) : convert src dst toZero trap cf a = .exc 0x47 := by
  simp [convert, hs, h, xRealInvalid]

theorem convert_real_int (hs : src.isReal = true) (hd : dst.isInt = true) (h : realOf src a ≠ .nan) :
    convert src dst toZero trap cf a = realToIntRes dst trap cf toZero (realOf src a) := by
  simp [convert, hs, h, not_bool_of_isInt hd, not_real_of_isInt hd]

theorem convert_int_int (hs : src.isReal = false) (hd : dst.isInt = true) :
    convert src dst toZero trap cf a = fitInt dst trap cf (convSource src a) false := by
  simp [convert, hs, not_bool_of_isInt hd, not_real_of_isInt hd]

theorem convert_real_real (hs : src.isReal = true) (hd : dst.isReal = true) (h : realOf src a ≠ .nan) :
    convert src dst toZero trap cf a = fitReal dst trap cf (toFmt (fmtOf dst) (realOf src a)) := by
  simp [convert, hs, h, not_bool_of_isReal hd, hd]

theorem convert_int_real (hs : src.isReal = false) (hd : dst.isReal = true) :
    convert src dst toZero trap cf a = fitReal dst trap cf (intToReal (fmtOf dst) (convSource src a)) := by
  simp [convert, hs, not_bool_of_isReal hd, hd]

/-- To BOOL: 0 for zero and 1 otherwise, with every flag kept. -/
theorem convert_fin_bool (hs : src.isReal = true) {n : Bool} {m : Nat} {e : Int} (h : realOf src a = .fin n m e) :
    convert src .bool toZero trap cf a = .res (if m = 0 then 0 else 1) cf := by
  by_cases hm : m = 0 <;> simp [convert, hs, h, boolRes, b2n, hm]

theorem convert_inf_bool (hs : src.isReal = true) {n : Bool} (h : realOf src a = .inf n) :
    convert src .bool toZero trap cf a = .res 1 cf := by
  simp [convert, hs, h, boolRes, b2n]

theorem convert_int_bool (hs : src.isReal = false) :
    convert src .bool toZero trap cf a = .res (if convSource src a = 0 then 0 else 1) cf := by
  by_cases hm : convSource src a = 0 <;> simp [convert, hs, boolRes, b2n, hm]

end

section
variable {s : State} {l : Lane} {k : CtxKind} {c : LaneCtx} {f : RFmt} {src dst : Ty}

theorem computes_cvt (h : ExecutesR s l f k c) (hs : Ty.ofCode f.ty.toNat = some src) (hd : Ty.ofCode f.rb.toNat = some dst)
    (hi : f.i = false) : Computes (.cvt l f) s l k c (if f.i then 8 else 4) f.rd.toNat
      (convert src dst false (trapMode (laneProg s l) c) c.cf (c.rd f.ra.toNat)) := by
  have ht : cvtTarget f = some dst := hd
  have hc := computesR (i := .cvt l f) h (legal := cvtLegal f) (by simp [cvtLegal, hi, type_of_code hs, ht]) rfl
  simpa only [theTy_of_code hs, ht, Option.getD_some, aOf] using hc

theorem truncLegal_eq (hs : Ty.ofCode f.ty.toNat = some src) (hd : Ty.ofCode f.rb.toNat = some dst) (hi : f.i = false) :
    truncLegal f = (src.isReal && dst.isInt) := by
  have ht : cvtTarget f = some dst := hd
  simp [truncLegal, hi, RFmt.tyIs, type_of_code hs, ht]

theorem computes_trunc (h : ExecutesR s l f k c) (hs : Ty.ofCode f.ty.toNat = some src) (hd : Ty.ofCode f.rb.toNat = some dst)
    (hi : f.i = false) (hr : src.isReal = true) (hint : dst.isInt = true) :
    Computes (.trunc l f) s l k c (if f.i then 8 else 4) f.rd.toNat
      (convert src dst true (trapMode (laneProg s l) c) c.cf (c.rd f.ra.toNat)) := by
  have ht : cvtTarget f = some dst := hd
  have hc := computesR (i := .trunc l f) h (legal := truncLegal f) (by rw [truncLegal_eq hs hd hi, hr, hint]; rfl) rfl
  simpa only [theTy_of_code hs, ht, Option.getD_some, aOf] using hc

/-- A conversion whose exact result is `x`, as the obligation says it. -/
theorem Computes.converts {i : Instr} {len rd : Nat} {x : Int}
    (h : Computes i s l k c len rd (fitInt dst (trapMode (laneProg s l) c) c.cf x false)) :
    (trapMode (laneProg s l) c = false ∨ max (loOf dst) (min (hiOf dst) x) = x →
      ∃ cf, Delivers i s l k c len rd (regForm dst (ofSigned dst.width (max (loOf dst) (min (hiOf dst) x)))) cf ∧
        ClampFlags dst x c.cf cf) ∧
    (trapMode (laneProg s l) c = true → max (loOf dst) (min (hiOf dst) x) ≠ x → queueFull (s.lane l) = false →
      Excepts i s l k c 0x45) := by
  refine ⟨fun hx => h.clamps.1 (hx.imp_right fun he => ?_), fun htrap hx => h.clamps.2 htrap ((clamp_ne_iff dst x).1 hx)⟩
  have := loOf_le_hiOf dst
  omega

end

/-- Settles O6: each conversion is fitted to its target type. -/
theorem conversionsRoundAndClamp : Obligations.ConversionsRoundAndClamp := by
  intro s l k c f src dst h hs hd hi a trap goes
  have hc := computes_cvt h hs hd hi
  have ht := computes_trunc h hs hd hi
  refine ⟨fun hr hint => ⟨fun n m e hv => ?_, fun neg hv => ?_, fun hv hq => ?_⟩, fun hr hv hq => hc.excepts (convert_nan hr hv) hq,
    fun hr hint => ?_, fun hreal bits hbits => ?_, fun hb => ?_, fun hn hq => ?_⟩
  · have hne : realOf src a ≠ .nan := by simp [hv]
    have ht := ht hr hint
    rw [convert_real_int hr hint hne, show realOf src (c.rd f.ra.toNat) = _ from hv] at hc ht
    exact ⟨hc.converts, ht.converts⟩
  · have hne : realOf src a ≠ .nan := by simp [hv]
    have ht := ht hr hint
    rw [convert_real_int hr hint hne, show realOf src (c.rd f.ra.toNat) = _ from hv] at hc ht
    exact ⟨hc.converts, ht.converts⟩
  · exact (ht hr hint).excepts (convert_nan hr hv) hq
  · rw [convert_int_int hr hint] at hc
    exact hc.converts
  · rcases hbits with ⟨hr, hne, hv⟩ | ⟨hr, hv⟩
    · rw [convert_real_real hr hreal hne, show toFmt (fmtOf dst) (realOf src (c.rd f.ra.toNat)) = _ from hv] at hc
      obtain ⟨cf, he, _⟩ := fitReal_val dst (trapMode (laneProg s l) c) c.cf bits
      exact ⟨cf, hc.delivers he⟩
    · rw [convert_int_real hr hreal, show intToReal (fmtOf dst) (convSource src (c.rd f.ra.toNat)) = _ from hv] at hc
      obtain ⟨cf, he, _⟩ := fitReal_val dst (trapMode (laneProg s l) c) c.cf bits
      exact ⟨cf, hc.delivers he⟩
  · subst hb
    exact ⟨fun n m e hr hv => hc.delivers (convert_fin_bool hr hv), fun neg hr hv => hc.delivers (convert_inf_bool hr hv),
      fun hr => hc.delivers (convert_int_bool hr)⟩
  · refine computeR_illegal (i := .trunc l f) h (legal := truncLegal f) ?_ rfl hq
    rw [truncLegal_eq hs hd hi]
    rcases hn with hn | hn <;> simp [hn]

end Sys2Proof.Machine
end

section
/-! CMP (R147). -/

namespace Sys2Proof.Machine

open Sys2Proof

/-- Two values of a type are equal exactly when their low width bits are. -/
theorem intOf_inj (t : Ty) (x y : W64) : intOf t x = intOf t y ↔ rawOf t x = rawOf t y := by
  have hx : rawOf t x < 2 ^ t.width := Nat.mod_lt _ (Nat.two_pow_pos _)
  have hy : rawOf t y < 2 ^ t.width := Nat.mod_lt _ (Nat.two_pow_pos _)
  unfold intOf
  split
  · unfold toSigned
    rw [Nat.mod_eq_of_lt hx, Nat.mod_eq_of_lt hy]
    split <;> split <;> omega
  · omega

/-- The difference of two values within the width is zero exactly when they are equal. -/
theorem ofSigned_sub_eq_zero (t : Ty) (x y : W64) :
    ofSigned t.width (toSigned t.width (rawOf t x) - toSigned t.width (rawOf t y)) % 2 ^ t.width = 0 ↔ rawOf t x = rawOf t y := by
  have hx : rawOf t x < 2 ^ t.width := Nat.mod_lt _ (Nat.two_pow_pos _)
  have hy : rawOf t y < 2 ^ t.width := Nat.mod_lt _ (Nat.two_pow_pos _)
  rw [Nat.mod_eq_of_lt (ofSigned_lt ..)]
  unfold ofSigned toSigned
  rw [Nat.mod_eq_of_lt hx, Nat.mod_eq_of_lt hy]
  generalize rawOf t x = m at hx ⊢
  generalize rawOf t y = n at hy ⊢
  cases t <;> simp only [Ty.width] at hx hy ⊢ <;> omega

theorem cmpRes_eq (cf : Byte) (p : Bool) : cmpRes cf p = .res (BitVec.ofNat 64 p.toNat) (setT cf p) := by cases p <;> rfl

theorem compareInt_relation (t : Ty) {fn : Nat} (cf : Byte) (x y : W64) {p : Bool}
    (hp : relation fn (some (compare (intOf t x) (intOf t y))) = p) :
    ∃ cf' : Byte, compareInt t fn cf x y = .res (BitVec.ofNat 64 p.toNat) cf' ∧ cf'.getLsbD 6 = p ∧
      cf'.getLsbD 0 = decide (rawOf t x = rawOf t y) ∧ cf'.getLsbD 2 = decide (rawOf t x < rawOf t y) ∧
      cf'.getLsbD 4 = cf.getLsbD 4 ∧ cf'.getLsbD 5 = cf.getLsbD 5 := by
  unfold compareInt
  simp only [hp]
  refine ⟨_, cmpRes_eq .., ?_⟩
  simp only [setT_getLsbD _ _ (show 6 < 8 by decide), setT_getLsbD _ _ (show 0 < 8 by decide), setT_getLsbD _ _ (show 2 < 8 by decide),
    setT_getLsbD _ _ (show 4 < 8 by decide), setT_getLsbD _ _ (show 5 < 8 by decide), setArith_Z, setArith_C, setArith_U, setArith_S,
    ofSigned_sub_eq_zero]
  simp

theorem compareReal_relation (t : Ty) {fn : Nat} (cf : Byte) (x y : W64) {p : Bool}
    (hp : relation fn (cmpReal (realOf t x) (realOf t y)) = p) :
    ∃ cf' : Byte, compareReal t fn cf x y = .res (BitVec.ofNat 64 p.toNat) cf' ∧ cf'.getLsbD 6 = p ∧
      cf'.getLsbD 0 = decide (cmpReal (realOf t x) (realOf t y) = some .eq) ∧
      cf'.getLsbD 1 = decide (cmpReal (realOf t x) (realOf t y) = some .lt) ∧
      cf'.getLsbD 4 = decide (cmpReal (realOf t x) (realOf t y) = none) ∧ cf'.getLsbD 2 = false ∧ cf'.getLsbD 3 = false := by
  unfold compareReal
  simp only [hp]
  refine ⟨_, cmpRes_eq .., ?_⟩
  simp [-BitVec.getLsbD_eq_getElem, setT, setBit_getLsbD, cfT, cfZ, cfN, cfU, cfV, cfC]
  cases cmpReal (realOf t x) (realOf t y) <;> rfl

theorem relation_int (t : Ty) (x y : W64) {fn : Nat} {p : Bool}
    (h : (fn, p) ∈ [(0, decide (intOf t x = intOf t y)), (1, decide (intOf t x ≠ intOf t y)), (2, decide (intOf t x < intOf t y)),
        (3, decide (intOf t x ≤ intOf t y)), (4, decide (intOf t y < intOf t x)), (5, decide (intOf t y ≤ intOf t x))]) :
    fn < 6 ∧ relation fn (some (compare (intOf t x) (intOf t y))) = p := by
  generalize intOf t x = a at h ⊢
  generalize intOf t y = b at h ⊢
  simp only [List.mem_cons, Prod.mk.injEq, List.not_mem_nil, or_false] at h
  rcases Int.lt_trichotomy a b with hab | rfl | hab
  · rw [Int.compare_eq_lt.2 hab]
    rcases h with h | h | h | h | h | h <;> obtain ⟨rfl, rfl⟩ := h <;> simp [relation] <;> omega
  · rw [Int.compare_eq_eq.2 rfl]
    rcases h with h | h | h | h | h | h <;> obtain ⟨rfl, rfl⟩ := h <;> simp [relation]
  · rw [Int.compare_eq_gt.2 hab]
    rcases h with h | h | h | h | h | h <;> obtain ⟨rfl, rfl⟩ := h <;> simp [relation] <;> omega

theorem relation_real {o : Option Ordering} {fn : Nat} {p : Bool}
    (h : (fn, p) ∈ [(0, decide (o = some .eq)), (1, decide (o ≠ some .eq)), (2, decide (o = some .lt)),
        (3, decide (o = some .lt ∨ o = some .eq)), (4, decide (o = some .gt)), (5, decide (o = some .gt ∨ o = some .eq))]) :
    fn < 6 ∧ relation fn o = p := by
  simp only [List.mem_cons, Prod.mk.injEq, List.not_mem_nil, or_false] at h
  rcases h with h | h | h | h | h | h <;> obtain ⟨rfl, rfl⟩ := h <;> refine ⟨by decide, ?_⟩ <;> rcases o with _ | _ | _ | _ <;> rfl

/-- Settles O8: the relation over the order of the type, and the flags of its compare. -/
theorem cmpWritesTheRelation : Obligations.CmpWritesTheRelation := by
  intro s l k c f fn t h ht hb hx x y
  have hc (hfn : fn.toNat < 6) : Computes (.cmp l fn f) s l k c (if f.i then 8 else 4) f.rd.toNat (compareRes t fn.toNat c.cf x y) := by
    have hc := computesR (i := .cmp l fn f) h (legal := fn.toNat < 6 && (RFmt.type? f).isSome && RFmt.bOk f)
      (by simp [hfn, type_of_code ht, bOk_of_code ht hb hx]) rfl
    simpa only [bOf, aOf, theTy_of_code ht] using hc
  refine ⟨fun hr p hm => ?_, fun hr p hm => ?_⟩
  · obtain ⟨hfn, hp⟩ := relation_int t x y hm
    obtain ⟨cf, he, hf⟩ := compareInt_relation t c.cf x y hp
    exact ⟨cf, (hc hfn).delivers (by rw [compareRes, hr]; exact he), hf⟩
  · obtain ⟨hfn, hp⟩ := relation_real hm
    obtain ⟨cf, he, hf⟩ := compareReal_relation t c.cf x y hp
    exact ⟨cf, (hc hfn).delivers (by rw [compareRes, hr]; exact he), hf⟩

end Sys2Proof.Machine
end

section
/-! LOGIC and BIT (R145, R146, Table ISA-9): the bits of each result. -/

namespace Sys2Proof.Machine

open Sys2Proof

/-! ### Bits of numbers -/

theorem rawOf_lt (t : Ty) (x : W64) : rawOf t x < 2 ^ t.width := Nat.mod_lt _ (Nat.two_pow_pos _)

theorem rawOf_testBit (t : Ty) (x : W64) (j : Nat) : (rawOf t x).testBit j = (decide (j < t.width) && x.getLsbD j) := by
  rw [rawOf, Nat.testBit_mod_two_pow, BitVec.testBit_toNat]

/-- Numbers without a common bit add bit by bit. -/
theorem testBit_add_of_disjoint {x y : Nat} (h : ∀ j, x.testBit j = true → y.testBit j = false) (j : Nat) :
    (x + y).testBit j = (x.testBit j || y.testBit j) := by
  have h0 := h 0
  simp only [Nat.testBit_zero, decide_eq_true_eq, decide_eq_false_iff_not] at h0
  induction j generalizing x y with
  | zero =>
    simp only [Nat.testBit_zero, ← Bool.decide_or, decide_eq_decide]
    omega
  | succ j ih =>
    have hd : (x + y) / 2 = x / 2 + y / 2 := by omega
    have h' : ∀ j, (x / 2).testBit j = true → (y / 2).testBit j = false := fun j hj => by
      rw [Nat.testBit_div_two] at hj ⊢
      exact h (j + 1) hj
    have h0' := h' 0
    simp only [Nat.testBit_zero, decide_eq_true_eq, decide_eq_false_iff_not] at h0'
    rw [Nat.testBit_succ, hd, ih h' h0', ← Nat.testBit_succ, ← Nat.testBit_succ]

/-- A bit is cleared by setting and inverting it. -/
theorem testBit_clear (x m j : Nat) : (Nat.xor (Nat.lor x m) m).testBit j = (x.testBit j && !m.testBit j) := by
  refine (Nat.testBit_xor (Nat.lor x m) m j).trans ((congrArg (Bool.xor · (m.testBit j)) (Nat.testBit_or x m j)).trans ?_)
  cases x.testBit j <;> cases m.testBit j <;> rfl

/-- A rotation within the width moves each bit up by `k`. -/
theorem rotateLeft_testBit {w raw : Nat} (hraw : raw < 2 ^ w) {k j : Nat} (hj : j < w) :
    (rotateLeft w raw k).testBit j = raw.testBit ((j + (w - k % w)) % w) := by
  have hq : k % w < w := Nat.mod_lt _ (by omega)
  unfold rotateLeft
  generalize k % w = q at hq ⊢
  have hw : 2 ^ w = 2 ^ q * 2 ^ (w - q) := by rw [← Nat.pow_add]; congr 1; omega
  have hlow : raw / 2 ^ (w - q) < 2 ^ q := Nat.div_lt_of_lt_mul (by rwa [Nat.mul_comm, ← hw])
  rw [Nat.mul_comm raw, hw, Nat.mul_mod_mul_left, Nat.testBit_two_pow_mul_add _ hlow]
  split
  · rw [Nat.testBit_div_two_pow, Nat.mod_eq_of_lt (by omega)]
  · rw [Nat.testBit_mod_two_pow, decide_eq_true (by omega), Bool.true_and,
      show j + (w - q) = (j - q) + w by omega, Nat.add_mod_right, Nat.mod_eq_of_lt (by omega)]

theorem toSigned_toInt {w raw : Nat} (hraw : raw < 2 ^ w) (hw : 0 < w) : toSigned w raw = (BitVec.ofNat w raw).toInt := by
  obtain ⟨v, rfl⟩ : ∃ v, w = v + 1 := ⟨w - 1, by omega⟩
  rw [BitVec.toInt_eq_toNat_cond, BitVec.toNat_ofNat, toSigned, Nat.mod_eq_of_lt hraw, Nat.add_sub_cancel]
  rw [Nat.pow_succ] at hraw ⊢
  split <;> split <;> omega

/-- A division of the signed value fills with the sign. -/
theorem sar_testBit {w raw : Nat} (hraw : raw < 2 ^ w) {n j : Nat} (hj : j < w) :
    (ofSigned w (toSigned w raw / 2 ^ (min w n))).testBit j = raw.testBit (min (j + n) (w - 1)) := by
  have hw : 0 < w := by omega
  have he : ofSigned w (toSigned w raw / 2 ^ (min w n)) = ((BitVec.ofNat w raw).sshiftRight (min w n)).toNat := by
    rw [toSigned_toInt hraw hw, BitVec.sshiftRight_eq, BitVec.toNat_ofInt, Int.shiftRight_eq_div_pow, ofSigned]
    norm_cast
  rw [he, BitVec.testBit_toNat, BitVec.getLsbD_sshiftRight, BitVec.msb_eq_getLsbD_last]
  have hb (i : Nat) (hi : i < w) : (BitVec.ofNat w raw).getLsbD i = raw.testBit i := by
    rw [BitVec.getLsbD_ofNat, decide_eq_true hi, Bool.true_and]
  rw [decide_eq_false (by omega), Bool.not_false, Bool.true_and]
  split
  · rw [hb _ (by omega)]
    congr 1
    omega
  · rw [hb _ (by omega)]
    congr 1
    omega

theorem popCount_eq (n v : Nat) : popCount n v = ((List.range n).filter fun j => v.testBit j).length := by
  induction n generalizing v with
  | zero => rfl
  | succ n ih =>
    rw [popCount, ih, List.range_succ_eq_map, List.filter_cons, List.filter_map, Nat.testBit_zero]
    have hf : ((fun j => v.testBit j) ∘ Nat.succ) = fun j => (v / 2).testBit j := funext fun j => Nat.testBit_succ ..
    rw [hf]
    have h2 := Nat.mod_two_eq_zero_or_one v
    split <;> rename_i h <;> simp at h ⊢ <;> omega

theorem popCount_le (n v : Nat) : popCount n v ≤ n := by
  rw [popCount_eq]
  exact Nat.le_trans (List.length_filter_le ..) (Nat.le_of_eq List.length_range)

theorem bitLen_le {w raw : Nat} (h : raw < 2 ^ w) : bitLen raw ≤ w := by
  unfold bitLen
  split
  · omega
  · exact (Nat.log2_lt ‹_›).2 h

theorem testBit_above_bitLen {raw j : Nat} (h : bitLen raw ≤ j) : raw.testBit j = false := by
  unfold bitLen at h
  split at h
  · simp [‹raw = 0›]
  · exact Nat.testBit_lt_two_pow (Nat.lt_of_lt_of_le Nat.lt_log2_self (Nat.pow_le_pow_right (by decide) h))

theorem testBit_bitLen {raw : Nat} (h : 0 < bitLen raw) : raw.testBit (bitLen raw - 1) = true := by
  unfold bitLen at h ⊢
  split
  · simp_all
  · exact Nat.testBit_log2 ‹_›

/-! ### Results -/

/-- A result of the group from its low width bits. -/
theorem Computes.logic {i : Instr} {s : State} {l : Lane} {k : CtxKind} {c : LaneCtx} {len rd raw : Nat} {t : Ty}
    (h : Computes i s l k c len rd (logicRes t c.cf raw)) :
    ∃ (v : W64) (cf : Byte), Delivers i s l k c len rd v cf ∧ v = regForm t v.toNat ∧ (∀ j, j < t.width → v.getLsbD j = raw.testBit j) ∧
      cf.getLsbD 0 = decide (v = 0) ∧ cf.getLsbD 1 = v.getLsbD (t.width - 1) ∧ (∀ j, 2 ≤ j → j ≤ 6 → cf.getLsbD j = c.cf.getLsbD j) := by
  obtain ⟨hz, hn⟩ := setZN_regForm t c.cf raw
  exact ⟨_, _, h.delivers rfl, (regForm_regForm t raw).symm, fun j hj => regForm_getLsbD t raw hj, hz, hn,
    fun j h2 h6 => setZN_other _ _ _ h2 h6⟩

/-- The same, where each bit of the result is known. -/
theorem Computes.logic_bits {i : Instr} {s : State} {l : Lane} {k : CtxKind} {c : LaneCtx} {len rd raw : Nat} {t : Ty} {p : Nat → Bool}
    (h : Computes i s l k c len rd (logicRes t c.cf raw)) (hp : ∀ j, j < t.width → raw.testBit j = p j) :
    ∃ (v : W64) (cf : Byte), Delivers i s l k c len rd v cf ∧ v = regForm t v.toNat ∧ (∀ j, j < t.width → v.getLsbD j = p j) ∧
      cf.getLsbD 0 = decide (v = 0) ∧ cf.getLsbD 1 = v.getLsbD (t.width - 1) ∧ (∀ j, 2 ≤ j → j ≤ 6 → cf.getLsbD j = c.cf.getLsbD j) := by
  obtain ⟨v, cf, hd, hv, hb, hf⟩ := h.logic
  exact ⟨v, cf, hd, hv, fun j hj => (hb j hj).trans (hp j hj), hf⟩

/-! ### The bits that each operation makes -/

theorem shr_testBit (t : Ty) (a : W64) (j n : Nat) :
    (if t.width ≤ n then 0 else rawOf t a / 2 ^ n).testBit j = (decide (j + n < t.width) && a.getLsbD (j + n)) := by
  split
  · rw [decide_eq_false (by omega)]
    simp
  · rw [Nat.testBit_div_two_pow, rawOf_testBit]

section
variable {t : Ty} {a : W64} {j : Nat} (hj : j < t.width)
include hj

theorem shl_testBit (n : Nat) :
    (if t.width ≤ n then 0 else rawOf t a * 2 ^ n).testBit j = (decide (n ≤ j) && a.getLsbD (j - n)) := by
  split
  · rw [decide_eq_false (by omega)]
    simp
  · rw [Nat.testBit_mul_two_pow, rawOf_testBit, decide_eq_true (show j - n < t.width by omega), Bool.true_and]

theorem rawOf_testBit_of_lt : (rawOf t a).testBit j = a.getLsbD j := by rw [rawOf_testBit, decide_eq_true hj, Bool.true_and]

theorem rol_testBit (n : Nat) :
    (rotateLeft t.width (rawOf t a) (n % t.width)).testBit j = a.getLsbD ((j + (t.width - n % t.width)) % t.width) := by
  rw [rotateLeft_testBit (rawOf_lt t a) hj, Nat.mod_mod, rawOf_testBit_of_lt (Nat.mod_lt _ (width_pos t))]

theorem ror_testBit (n : Nat) :
    (rotateLeft t.width (rawOf t a) (t.width - n % t.width)).testBit j = a.getLsbD ((j + n % t.width) % t.width) := by
  have hn : n % t.width < t.width := Nat.mod_lt _ (width_pos t)
  rw [rotateLeft_testBit (rawOf_lt t a) hj, rawOf_testBit_of_lt (Nat.mod_lt _ (width_pos t))]
  congr 1
  generalize n % t.width = r at hn ⊢
  rcases Nat.eq_zero_or_pos r with rfl | hr
  · rw [Nat.sub_zero, Nat.mod_self, Nat.sub_zero, Nat.add_mod_right, Nat.add_zero]
  · rw [Nat.mod_eq_of_lt (show t.width - r < t.width by omega), show t.width - (t.width - r) = r by omega]

/-- An operation on bit `b` of a (R146). -/
theorem bitChange_testBit (b : Nat) {f : Nat → Nat → Nat} {g : Bool → Bool → Bool} (hg : ∀ x, g x false = x)
    (hf : ∀ x m, (f x m).testBit j = g (x.testBit j) (m.testBit j)) :
    (if t.width ≤ b then rawOf t a else f (rawOf t a) (2 ^ b)).testBit j = g (a.getLsbD j) (decide (j = b)) := by
  split
  · rw [rawOf_testBit_of_lt hj, decide_eq_false (by omega), hg]
  · rw [hf, rawOf_testBit_of_lt hj, Nat.testBit_two_pow]
    simp only [eq_comm]

theorem ins_testBit (d : W64) (pos len : Nat) :
    (Nat.xor (Nat.lor (rawOf t d) ((2 ^ len - 1) * 2 ^ pos)) ((2 ^ len - 1) * 2 ^ pos) +
      Nat.land (rawOf t a * 2 ^ pos) ((2 ^ len - 1) * 2 ^ pos)).testBit j =
      if pos ≤ j ∧ j < pos + len then a.getLsbD (j - pos) else d.getLsbD j := by
  have hm (i : Nat) : ((2 ^ len - 1) * 2 ^ pos).testBit i = decide (pos ≤ i ∧ i < pos + len) := by
    rw [Nat.testBit_mul_two_pow, Nat.testBit_two_pow_sub_one, ← Bool.decide_and, decide_eq_decide]
    omega
  have ho (i : Nat) : (Nat.xor (Nat.lor (rawOf t d) ((2 ^ len - 1) * 2 ^ pos)) ((2 ^ len - 1) * 2 ^ pos)).testBit i =
      (((rawOf t d).testBit i || decide (pos ≤ i ∧ i < pos + len)) != decide (pos ≤ i ∧ i < pos + len)) := by
    rw [← hm]
    exact (Nat.testBit_xor ..).trans (congrArg (Bool.xor · _) (Nat.testBit_or ..))
  have hl (i : Nat) : (Nat.land (rawOf t a * 2 ^ pos) ((2 ^ len - 1) * 2 ^ pos)).testBit i =
      ((rawOf t a * 2 ^ pos).testBit i && decide (pos ≤ i ∧ i < pos + len)) := by
    rw [← hm]
    exact Nat.testBit_and ..
  rw [testBit_add_of_disjoint fun i hi => ?_, ho, hl, rawOf_testBit_of_lt hj, Nat.testBit_mul_two_pow]
  · split
    · rename_i h
      rw [decide_eq_true h, decide_eq_true h.1, rawOf_testBit_of_lt (show j - pos < t.width by omega)]
      simp
    · rename_i h
      rw [decide_eq_false h]
      simp
  · rw [ho] at hi
    rw [hl]
    cases hd : decide (pos ≤ i ∧ i < pos + len) <;> simp_all

end

theorem bitIns_of_pos {t : Ty} {cf : Byte} {d a b : W64} (h : ¬ b.toNat / 256 % 256 = 0) : bitIns t cf d a b = logicRes t cf
    (Nat.xor (Nat.lor (rawOf t d) ((2 ^ (b.toNat / 256 % 256) - 1) * 2 ^ (b.toNat % 256)))
        ((2 ^ (b.toNat / 256 % 256) - 1) * 2 ^ (b.toNat % 256)) +
      Nat.land (rawOf t a * 2 ^ (b.toNat % 256)) ((2 ^ (b.toNat / 256 % 256) - 1) * 2 ^ (b.toNat % 256))) := if_neg h

theorem ext_testBit (t : Ty) (a : W64) (pos len j : Nat) :
    (BitVec.ofNat 64 (rawOf t a / 2 ^ pos % 2 ^ len)).getLsbD j = (decide (j < len) && decide (pos + j < t.width) && a.getLsbD (pos + j)) := by
  rw [BitVec.getLsbD_ofNat, Nat.testBit_mod_two_pow, Nat.testBit_div_two_pow, rawOf_testBit, Nat.add_comm j pos, Bool.and_assoc]
  have := width_le t
  by_cases h : pos + j < t.width
  · rw [decide_eq_true (show j < 64 by omega), Bool.true_and]
  · simp [h]

/-- BTST sets T and rd to bit b of a, or to 0 beyond the width. -/
theorem bitTest_result (t : Ty) (cf : Byte) (a b : W64) :
    ∃ (v : W64) (cf' : Byte), bitTest t cf a b = .res v cf' ∧ v.toNat = (decide (b.toNat < t.width) && a.getLsbD b.toNat).toNat ∧
      cf'.getLsbD 6 = (decide (b.toNat < t.width) && a.getLsbD b.toNat) ∧ (∀ j, j ≤ 5 → cf'.getLsbD j = cf.getLsbD j) := by
  have hb : (decide (b.toNat < t.width) && (rawOf t a).testBit b.toNat) = (decide (b.toNat < t.width) && a.getLsbD b.toNat) := by
    rw [rawOf_testBit, ← Bool.and_assoc, Bool.and_self]
  unfold bitTest
  simp only [hb]
  refine ⟨_, _, rfl, by cases decide (b.toNat < t.width) && a.getLsbD b.toNat <;> rfl, ?_, fun j hj => ?_⟩
  · rw [setT_getLsbD _ _ (by decide)]
    rfl
  · rw [setT_getLsbD _ _ (by omega), if_neg (by omega)]

theorem popCount_rawOf (t : Ty) (a : W64) :
    popCount t.width (rawOf t a) = ((List.range t.width).filter fun j => a.getLsbD j).length := by
  rw [popCount_eq]
  congr 1
  exact List.filter_congr fun j hj => rawOf_testBit_of_lt (List.mem_range.1 hj)

/-- The bits above the highest one of a. -/
theorem clz_bits (t : Ty) (a : W64) : t.width - bitLen (rawOf t a) ≤ t.width ∧
    (∀ j, t.width - (t.width - bitLen (rawOf t a)) ≤ j → j < t.width → a.getLsbD j = false) ∧
    (t.width - bitLen (rawOf t a) < t.width → a.getLsbD (t.width - 1 - (t.width - bitLen (rawOf t a))) = true) := by
  have hle := bitLen_le (rawOf_lt t a)
  have hpos := width_pos t
  refine ⟨Nat.sub_le .., fun j hj hjw => ?_, fun hlt => ?_⟩
  · rw [← rawOf_testBit_of_lt hjw]
    exact testBit_above_bitLen (by omega)
  · rw [show t.width - 1 - (t.width - bitLen (rawOf t a)) = bitLen (rawOf t a) - 1 by omega,
      ← rawOf_testBit_of_lt (t := t) (by omega)]
    exact testBit_bitLen (by omega)

theorem width_lt_sign (t : Ty) : t.width < 2 ^ (t.width - 1) := by cases t <;> decide

/-- Settles O7: the bits of each result, from the low width bits of its operands. -/
theorem logicShiftAndBitInstructionsWorkBitByBit : Obligations.LogicShiftAndBitInstructionsWorkBitByBit := by
  refine ⟨fun s l k c f t h ht hok hb => ?_, fun s l k c f t h ht hi htime hb => ?_, fun s l k c f t h ht hi htime hb => ?_⟩
  · intro a b hx e he
    have hok' : (decide (t = .bool) || plainInteger t) = true := by simpa [plainInteger] using hok
    have hw {j : Nat} (hj : j < t.width) : j < 64 := Nat.lt_of_lt_of_le hj (width_le t)
    simp only [List.mem_append, List.mem_cons, List.not_mem_nil, or_false] at he
    rcases he with (rfl | rfl | rfl | rfl) | he
    · exact (computes_of_group (fun t _ cf _ a b => logicAnd t cf a b) rfl h ht hok' hb hx).logic_bits fun j _ => by
        rw [BitVec.testBit_toNat, BitVec.getLsbD_and]; rfl
    · exact (computes_of_group (fun t _ cf _ a b => logicOr t cf a b) rfl h ht hok' hb hx).logic_bits fun j _ => by
        rw [BitVec.testBit_toNat, BitVec.getLsbD_or]; rfl
    · exact (computes_of_group (fun t _ cf _ a b => logicXor t cf a b) rfl h ht hok' hb hx).logic_bits fun j _ => by
        rw [BitVec.testBit_toNat, BitVec.getLsbD_xor]; rfl
    · exact (computes_of_group (fun t _ cf _ a b => logicAndn t cf a b) rfl h ht hok' hb hx).logic_bits fun j hj => by
        rw [BitVec.testBit_toNat, BitVec.getLsbD_and, BitVec.getLsbD_not, decide_eq_true (hw hj), Bool.true_and]; rfl
    · split at he
      · rename_i hn
        obtain ⟨hbool, hi, hrb⟩ := hn
        obtain rfl := List.mem_singleton.1 he
        have hc := computes_of_group_a (i := .not l f) (fun t _ cf a => logicNot t cf a) rfl h ht hok' hi hrb
        simp only [logicNot, if_neg hbool] at hc
        exact hc.logic_bits fun j hj => by
          rw [BitVec.testBit_toNat, BitVec.getLsbD_not, decide_eq_true (hw hj), Bool.true_and]
      · cases he
  · intro a n w e he
    have hok : plainInteger t = true := by simp [plainInteger, hi, htime]
    have hx : t = .bool → f.i = true → f.ext.toNat < 2 := fun e => absurd e (not_bool_of_isInt hi)
    simp only [List.mem_cons, List.not_mem_nil, or_false] at he
    have drop {i : Instr} {p : Nat → Bool} (h : ∃ (v : W64) (cf : Byte), Delivers i s l k c (if f.i then 8 else 4) f.rd.toNat v cf ∧
        v = regForm t v.toNat ∧ (∀ j, j < t.width → v.getLsbD j = p j) ∧ cf.getLsbD 0 = decide (v = 0) ∧
        cf.getLsbD 1 = v.getLsbD (t.width - 1) ∧ (∀ j, 2 ≤ j → j ≤ 6 → cf.getLsbD j = c.cf.getLsbD j)) :
        ∃ (v : W64) (cf : Byte), DeliversR i s l f k c v cf ∧ v = regForm t v.toNat ∧ (∀ j, j < t.width → v.getLsbD j = p j) ∧
          cf.getLsbD 0 = decide (v = 0) ∧ (∀ j, 2 ≤ j → j ≤ 6 → cf.getLsbD j = c.cf.getLsbD j) := by
      obtain ⟨v, cf, hd, hv, hb, hz, _, ho⟩ := h
      exact ⟨v, cf, hd, hv, hb, hz, ho⟩
    rcases he with rfl | rfl | rfl | rfl | rfl
    · exact drop ((computes_of_group (fun t _ cf _ a b => logicShl t cf a b) rfl h ht hok hb hx).logic_bits fun j hj => shl_testBit hj _)
    · exact drop ((computes_of_group (fun t _ cf _ a b => logicShr t cf a b) rfl h ht hok hb hx).logic_bits fun j _ => shr_testBit t a j _)
    · exact drop ((computes_of_group (fun t _ cf _ a b => logicSar t cf a b) rfl h ht hok hb hx).logic_bits fun j hj =>
        (sar_testBit (rawOf_lt t a) hj).trans (rawOf_testBit_of_lt (by have := width_pos t; omega)))
    · exact drop ((computes_of_group (fun t _ cf _ a b => logicRol t cf a b) rfl h ht hok hb hx).logic_bits fun j hj => rol_testBit hj _)
    · exact drop ((computes_of_group (fun t _ cf _ a b => logicRor t cf a b) rfl h ht hok hb hx).logic_bits fun j hj => ror_testBit hj _)
  · intro a b d w pos len
    have hok : plainInteger t = true := by simp [plainInteger, hi, htime]
    have hx : t = .bool → f.i = true → f.ext.toNat < 2 := fun e => absurd e (not_bool_of_isInt hi)
    refine ⟨?_, fun e he => ?_, ?_, fun hf hrb => ⟨?_, ?_⟩⟩
    · have hc := computes_of_group (i := .btst l f) (fun t _ cf _ a b => bitTest t cf a b) rfl h ht hok hb hx
      obtain ⟨v, cf, hr, hv⟩ := bitTest_result t c.cf (c.rd f.ra.toNat) (operandB t f c)
      exact ⟨v, cf, hc.delivers hr, hv⟩
    · have drop {i : Instr} {p : Nat → Bool} (h : ∃ (v : W64) (cf : Byte), Delivers i s l k c (if f.i then 8 else 4) f.rd.toNat v cf ∧
          v = regForm t v.toNat ∧ (∀ j, j < t.width → v.getLsbD j = p j) ∧ cf.getLsbD 0 = decide (v = 0) ∧
          cf.getLsbD 1 = v.getLsbD (t.width - 1) ∧ (∀ j, 2 ≤ j → j ≤ 6 → cf.getLsbD j = c.cf.getLsbD j)) :
          ∃ (v : W64) (cf : Byte), DeliversR i s l f k c v cf ∧ (∀ j, j < t.width → v.getLsbD j = p j) := by
        obtain ⟨v, cf, hd, _, hb, _⟩ := h
        exact ⟨v, cf, hd, hb⟩
      simp only [List.mem_cons, List.not_mem_nil, or_false] at he
      rcases he with rfl | rfl | rfl | rfl
      · have hc := computes_of_group (i := .bset l f) (fun t _ cf _ a b => bitSet t cf a b) rfl h ht hok hb hx
        exact drop (hc.logic_bits fun j hj => (bitChange_testBit hj b (g := fun x m => x || m) (by simp) fun x m =>
          Nat.testBit_or x m j).trans (Bool.or_comm ..))
      · have hc := computes_of_group (i := .bclr l f) (fun t _ cf _ a b => bitClr t cf a b) rfl h ht hok hb hx
        exact drop (hc.logic_bits fun j hj => (bitChange_testBit hj b (g := fun x m => x && !m) (by simp) fun x m =>
          testBit_clear x m j).trans (Bool.and_comm ..))
      · have hc := computes_of_group (i := .binv l f) (fun t _ cf _ a b => bitInv t cf a b) rfl h ht hok hb hx
        exact drop (hc.logic_bits fun j hj => (bitChange_testBit hj b (g := fun x m => x != m) (by simp) fun x m =>
          Nat.testBit_xor x m j).trans (Bool.xor_comm ..))
      · have hc := computes_of_group (i := .bins l f) (fun t _ cf d a b => bitIns t cf d a b) rfl h ht hok hb hx
        by_cases hlen : (operandB t f c).toNat / 256 % 256 = 0
        · refine ⟨_, _, hc.delivers (if_pos hlen), fun j hj => (if_neg fun hin => ?_).symm⟩
          have : j < pos + 0 := hlen ▸ hin.2
          omega
        · rw [bitIns_of_pos hlen] at hc
          exact drop (hc.logic_bits fun j hj => ins_testBit hj d pos len)
    · have hc := computes_of_group (i := .bext l f) (fun t _ cf _ a b => bitExt t cf a b) rfl h ht hok hb hx
      exact ⟨_, _, hc.delivers rfl, ext_testBit t _ _ _⟩
    · have hc := computes_of_group_a (i := .popc l f) (fun t _ cf a => bitPop t cf a) rfl h ht hok hf hrb
      refine ⟨_, _, hc.delivers rfl, ?_⟩
      rw [regForm_toNat (Nat.lt_of_le_of_lt (popCount_le ..) (width_lt_sign t)), popCount_rawOf]
    · have hc := computes_of_group_a (i := .clz l f) (fun t _ cf a => bitClz t cf a) rfl h ht hok hf hrb
      refine ⟨_, _, hc.delivers rfl, ?_⟩
      rw [regForm_toNat (Nat.lt_of_le_of_lt (Nat.sub_le ..) (width_lt_sign t))]
      exact clz_bits t _

end Sys2Proof.Machine
end

section
/-! Branches follow their conditions (O11). -/

namespace Sys2Proof.Machine

open Sys2Proof

/-- The assigned conditions of Table ISA-10 with what each says of cf. -/
theorem condHolds_of_mem {n : Nat} {cf : Byte} {p : Bool}
    (h : (n, p) ∈ [(0x0, true), (0x1, cf.getLsbD 6), (0x2, !cf.getLsbD 6), (0x3, cf.getLsbD 0), (0x4, !cf.getLsbD 0),
      (0x5, cf.getLsbD 1), (0x6, !cf.getLsbD 1), (0x7, cf.getLsbD 2), (0x8, !cf.getLsbD 2), (0x9, cf.getLsbD 3),
      (0xA, !cf.getLsbD 3), (0xB, cf.getLsbD 5), (0xC, !cf.getLsbD 5), (0xD, cf.getLsbD 4), (0xE, !cf.getLsbD 4)]) :
    n < 15 ∧ condHolds n cf = p := by
  simp only [List.mem_cons, Prod.mk.injEq, List.not_mem_nil, or_false] at h
  rcases h with ⟨rfl, rfl⟩ | ⟨rfl, rfl⟩ | ⟨rfl, rfl⟩ | ⟨rfl, rfl⟩ | ⟨rfl, rfl⟩ | ⟨rfl, rfl⟩ | ⟨rfl, rfl⟩ | ⟨rfl, rfl⟩ | ⟨rfl, rfl⟩ |
    ⟨rfl, rfl⟩ | ⟨rfl, rfl⟩ | ⟨rfl, rfl⟩ | ⟨rfl, rfl⟩ | ⟨rfl, rfl⟩ | ⟨rfl, rfl⟩ <;> exact ⟨by decide, rfl⟩

/-- B with an assigned condition. -/
theorem exec_b {s : State} {l : Lane} {k : CtxKind} {c : LaneCtx} {f : BFmt} (h : Executes s l [] 4 k c) (hc : f.cond.toNat < 15) :
    exec (.b l f) s
      = .next (s.setCtx l k { c with pc := if condHolds f.cond.toNat c.cf then c.pc + f.disp.signExtend 32 * 4 else c.pc + 4 }) := by
  change execB l f s = _
  rw [execB, decide_eq_true hc, issue_runs h]
  cases condHolds f.cond.toNat c.cf <;> rfl

/-- JR with a register operand and its unused fields zero. -/
theorem exec_jr {s : State} {l : Lane} {k : CtxKind} {c : LaneCtx} {f : RFmt} (h : Executes s l [f.ra.toNat, f.rb.toNat] 4 k c)
    (hp : RFmt.plain f false true false = true) :
    exec (.jr l f) s = .next (if (c.rd f.ra.toNat).toNat % 2 ^ 32 % 4 ≠ 0 then except s l k c xIllegal
      else s.setCtx l k { c with pc := BitVec.ofNat 32 ((c.rd f.ra.toNat).toNat % 2 ^ 32) }) := by
  change execJr l f s = _
  rw [execJr, hp, len_of_register (plain_iff.mp hp).1, show RFmt.regs f = [f.ra.toNat, f.rb.toNat] from rfl, issue_runs h]
  simp only [aOf, field_low]

/-- Settles O11: B through `condHolds` for each assigned condition, JR by the low bits of its target. -/
theorem branchesFollowTheirConditions : Obligations.BranchesFollowTheirConditions := by
  unfold Obligations.BranchesFollowTheirConditions
  intro s l k c
  refine ⟨fun f p hx hm => ?_, fun f hx hty hrd hrb hi => ?_⟩
  · obtain ⟨hlt, hc⟩ := condHolds_of_mem hm
    rw [exec_b hx hlt, hc]
  · have hj := exec_jr hx (plain_iff.mpr ⟨hi, hty, .inr hrd, .inl rfl, .inr hrb⟩)
    refine ⟨fun h => ?_, fun h hq => except_excepts hq (hj.trans (congrArg _ (if_pos h)))⟩
    rw [hj, if_neg (not_not_intro h)]

end Sys2Proof.Machine
end

section
/-! Loads and references (O9). -/

namespace Sys2Proof.Machine

open Sys2Proof

/-- The type of format M is that of its code. -/
theorem mTy_of_code {f : MFmt} {t : Ty} (ht : Ty.ofCode f.ty.toNat = some t) : MFmt.theTy f = t := by simp [MFmt.theTy, ht]

/-- An access outside the image spaces reads its place, and its tag is GOOD. -/
theorem readAccess_of_place {a : Access} (h : isImage a = false) (s : State) (l : Lane) (k : CtxKind) (c : LaneCtx) (n : Nat) :
    readAccess s l k c a n = (loadPlace s l k (placeOf s (progNo s l) a) n, .good) ∧
      noteRead s l k a n = noteLoad s l k (placeOf s (progNo s l) a) n := by
  have hp : (a.stack || (decide (a.space ≠ 1) && decide (a.space ≠ 2))) = true := by
    cases hs : a.stack <;> simp_all [isImage]
  exact ⟨if_pos hp, if_pos hp⟩

/-- An access to the input image reads the task's input buffer and leaves the replay buffer alone. -/
theorem readAccess_of_input {a : Access} (hs : a.stack = false) (hsp : a.space = 1) (s : State) (l : Lane) (k : CtxKind) (c : LaneCtx)
    (n : Nat) : (readAccess s l k c a n).1 = Memory.readBytes ((s.lane l).inBuf c.buf).bytes a.off n ∧ noteRead s l k a n = s := by
  constructor
  · unfold readAccess; simp [hs, hsp]
  · unfold noteRead; simp [hs, hsp]

/-- LD of an access without an exception that holds no invalid BOOL. -/
theorem exec_ld {s : State} {l : Lane} {k : CtxKind} {c : LaneCtx} {f : MFmt} {t : Ty}
    (h : Executes s l [f.rd.toNat, f.ra.toNat] (MFmt.len f) k c) (hl : MFmt.legal f = true) (ht : Ty.ofCode f.ty.toNat = some t)
    (hx : accessExc (laneProg s l) c (formAddress c f t.size) t.size t.size false = none)
    (hb : t = .bool → fromLE (readAccess s l k c (formAddress c f t.size) t.size).1 ≤ 1) :
    exec (.ld l f) s = .next ((noteRead s l k (formAddress c f t.size) t.size).setCtx l k
      ((let r := readAccess s l k c (formAddress c f t.size) t.size
        let v := regForm t (fromLE r.1)
        let q := if isImage (formAddress c f t.size) then { c with qf := loadTag c.qf r.2 } else c
        if !isImage (formAddress c f t.size) && isEffect s l (formAddress c f t.size) then q.fetchBulk f.rd.toNat v
        else q.wr f.rd.toNat v).past (MFmt.len f))) := by
  change execLd l f s = _
  have hv : (decide (t = .bool) && decide (1 < fromLE (readAccess s l k c (formAddress c f t.size) t.size).1)) = false := by
    by_cases hbool : t = .bool
    · simp only [hbool, decide_true, Bool.true_and, decide_eq_false_iff_not, Nat.not_lt]
      exact hbool ▸ hb hbool
    · simp [hbool]
  rw [execLd, hl, issue_runs h]
  simp only [mTy_of_code ht, loadTo, hx, hv, Bool.false_eq_true, if_false]

/-- LDQ of an access to an image space without an exception. -/
theorem exec_ldq {s : State} {l : Lane} {k : CtxKind} {c : LaneCtx} {f : MFmt} {t : Ty}
    (h : Executes s l [f.rd.toNat, f.ra.toNat] (MFmt.len f) k c) (hl : MFmt.legalQ f = true) (ht : Ty.ofCode f.ty.toNat = some t)
    (hx : accessExc (laneProg s l) c (formAddress c f t.size) t.size t.size false = none)
    (hi : isImage (formAddress c f t.size) = true) :
    exec (.ldq l f) s = .next (s.setCtx l k ((c.wr f.rd.toNat
      (BitVec.ofNat 64 (readAccess s l k c (formAddress c f t.size) t.size).2.code)).past (MFmt.len f))) := by
  change execLdq l f s = _
  rw [execLdq, hl, issue_runs h]
  simp only [mTy_of_code ht, hx, hi, Bool.not_true, Bool.false_eq_true, if_false]

/-- REF of an access without an exception, outside the stack. -/
theorem exec_ref {s : State} {l : Lane} {k : CtxKind} {c : LaneCtx} {f : MFmt} {t : Ty}
    (h : Executes s l [f.rd.toNat, f.ra.toNat] (MFmt.len f) k c) (hl : MFmt.legal f = true) (ht : Ty.ofCode f.ty.toNat = some t)
    (hx : accessExc (laneProg s l) c (formAddress c f t.size) t.size t.size false = none) (hs : f.base.toNat ≠ 2) :
    exec (.ref l f) s = .next (s.setCtx l k ((c.wr f.rd.toNat (BitVec.ofNat 64
      (let a := formAddress c f t.size; refOf a.space a.inst a.off))).past (MFmt.len f))) := by
  change execRef l f s = _
  rw [execRef, hl, decide_eq_true hs, Bool.and_self, issue_runs h]
  simp only [mTy_of_code ht, refExc, hx]

/-- LOAD_DATA_RETURN delivers the oldest outstanding load. -/
theorem exec_loadDataReturn {s : State} {l : Lane} {k : CtxKind} {d : BulkLoad} {ds : List BulkLoad}
    (hk : (s.lane l).current = some k) (hd : ((s.lane l).ctx k).loads = d :: ds) :
    exec (.loadDataReturn l) s = .next (s.setCtx l k ({ (s.lane l).ctx k with loads := ds }.wr d.rd d.value)) := by
  change execLoadDataReturn l s = _
  simp only [execLoadDataReturn, hk, LaneCtx.arrive, hd]

/-- A load keeps qf.OUT and puts the tag of the access into the bits of the last load. -/
theorem loadTag_fields (qf : Byte) (t : Tag) : field (loadTag qf t) 5 4 = field qf 5 4 ∧ field (loadTag qf t) 1 0 = t.code := by
  have ho : field qf 5 4 < 4 := Nat.mod_lt _ (by decide)
  have hc (t : Tag) : t.code < 4 := by cases t <;> decide
  have ht := hc t
  have hw := hc (Tag.max (Tag.decode (field qf 3 2)) t)
  simp only [loadTag]
  generalize hW : (Tag.max (Tag.decode (field qf 3 2)) t).code = w at hw ⊢
  have hv : field qf 5 4 * 16 + w * 4 + t.code < 2 ^ 8 := by omega
  constructor <;> · rw [field, BitVec.toNat_ofNat, Nat.mod_eq_of_lt hv]; omega

/-- Settles O9: the three sources of LD by the place of the access, LDQ, REF and the return of a load. -/
theorem loadsDeliverTheRegisterForm : Obligations.LoadsDeliverTheRegisterForm := by
  unfold Obligations.LoadsDeliverTheRegisterForm
  intro s l k c
  constructor
  · intro f t h hl ht a len bytes hx
    refine ⟨fun hb => ⟨fun addr hi hp => ?_, fun key hi hp => ?_, fun hs hsp => ?_⟩, fun hi hq => exec_ldq h hq ht hx hi,
      fun hs => exec_ref h hl ht hx hs⟩
    · have hr := readAccess_of_place hi s l k c t.size
      rw [exec_ld h hl ht hx hb, hr.2, hr.1, hp]
      simp only [hi, isEffect, hp, noteLoad, loadPlace, a]
      rfl
    · have hr := readAccess_of_place hi s l k c t.size
      rw [exec_ld h hl ht hx hb, hr.2, hp]
      simp only [hi, isEffect, hp, a]
      rfl
    · have hr := readAccess_of_input hs hsp s l k c t.size
      have hi : isImage a = true := by simp [isImage, hs, hsp]
      refine ⟨loadTag c.qf (readAccess s l k c a t.size).2, ?_, loadTag_fields ..⟩
      rw [exec_ld h hl ht hx hb, hr.2]
      simp only [hr.1, hi, a]
      rfl
  · intro d ds hk hc hd
    subst hc
    exact exec_loadDataReturn hk hd

end Sys2Proof.Machine
end

section
/-! Stores (O10). -/

namespace Sys2Proof.Machine

open Sys2Proof

/-! ### Bytes of a number -/

@[simp] theorem bytesLE_length (n v : Nat) : (bytesLE n v).length = n := by
  induction n generalizing v with
  | zero => rfl
  | succ n ih => simp [bytesLE, ih]

theorem bytesLE_getElem {n v j : Nat} (h : j < (bytesLE n v).length) : (bytesLE n v)[j].toNat = v / 256 ^ j % 256 := by
  induction n generalizing v j with
  | zero => simp at h
  | succ n ih =>
    cases j with
    | zero => simp [bytesLE]
    | succ j =>
      simp only [bytesLE, List.getElem_cons_succ]
      rw [ih, Nat.div_div_eq_div_mul, Nat.pow_succ, Nat.mul_comm]

theorem bytesLE_fromLE (bs : List Byte) : bytesLE bs.length (fromLE bs) = bs := by
  induction bs with
  | nil => rfl
  | cons b bs ih =>
    have hb := b.isLt
    have hd : (b.toNat + 256 * fromLE bs) / 256 = fromLE bs := by omega
    have hm : BitVec.ofNat 8 (b.toNat + 256 * fromLE bs) = b := BitVec.eq_of_toNat_eq (by rw [BitVec.toNat_ofNat]; omega)
    rw [List.length_cons, fromLE, bytesLE, hd, hm, ih]

/-- The byte at index `j` that ST writes (R138). -/
def stByte (t : Ty) (v : W64) (j : Nat) : Nat := if t = .bool then v.toNat % 2 else v.toNat / 256 ^ j % 256

@[simp] theorem storeBytes_length (t : Ty) (v : W64) : (storeBytes t v).length = t.size := by
  by_cases h : t = .bool
  · subst h; rfl
  · simp [storeBytes, h]

theorem storeBytes_getElem {t : Ty} {v : W64} {j : Nat} (h : j < (storeBytes t v).length) :
    (storeBytes t v)[j].toNat = stByte t v j := by
  by_cases hb : t = .bool
  · subst hb
    have hj : j = 0 := Nat.lt_one_iff.mp h
    subst hj
    simp only [storeBytes, stByte, if_true, List.getElem_cons_zero, BitVec.toNat_ofNat]
    omega
  · simp only [storeBytes, stByte, hb, if_false, bytesLE_getElem]

theorem storeBytes_eq_map (t : Ty) (v : W64) : storeBytes t v = (List.range t.size).map fun j => BitVec.ofNat 8 (stByte t v j) := by
  refine List.ext_getElem (by simp) fun j h _ => ?_
  rw [List.getElem_map, List.getElem_range, ← storeBytes_getElem h, BitVec.ofNat_toNat, BitVec.setWidth_eq]

theorem two_pow_log2Size (t : Ty) : 2 ^ log2Size t.size = t.size := by cases t <;> rfl

/-! ### The output buffer -/

/-- Bytes put from an offset on: those of the range are new, the others stay. -/
theorem mapGet?_foldl_put (off y : Nat) (bs : List Byte) (n : Nat) (m : NMap Byte) :
    mapGet? y ((bs.zipIdx n).foldl (fun m p => mapPut (off + p.2) p.1 m) m)
      = if off + n ≤ y ∧ y < off + n + bs.length then bs[y - (off + n)]? else mapGet? y m := by
  induction bs generalizing n m with
  | nil =>
    rw [if_neg (by rw [List.length_nil]; omega)]
    rfl
  | cons b bs ih =>
    rw [List.zipIdx_cons, List.foldl_cons, ih, List.length_cons]
    by_cases hy : y = off + n
    · subst hy
      rw [if_neg (by omega), if_pos (by omega), Nat.sub_self, mapGet?_put_same]
      rfl
    · rw [mapGet?_put_ne hy]
      by_cases hr : off + (n + 1) ≤ y ∧ y < off + (n + 1) + bs.length
      · rw [if_pos hr, if_pos (by omega), show y - (off + n) = y - (off + (n + 1)) + 1 by omega, List.getElem?_cons_succ]
      · rw [if_neg hr, if_neg (by omega)]

theorem mapGet?_foldl_tags (k : Nat) (t : Tag) (vs : List OutValue) (m : NMap Tag) (h : ∃ v ∈ vs, v.off = k) :
    mapGet? k (vs.foldl (fun m v => mapPut v.off t m) m) = some t := by
  obtain ⟨v, hv, rfl⟩ := h
  have keep (vs : List OutValue) (m : NMap Tag) (hm : mapGet? v.off m = some t) :
      mapGet? v.off (vs.foldl (fun m v => mapPut v.off t m) m) = some t := by
    induction vs generalizing m with
    | nil => exact hm
    | cons w vs ih =>
      refine ih _ ?_
      by_cases hw : v.off = w.off
      · rw [hw, mapGet?_put_same]
      · rw [mapGet?_put_ne hw, hm]
  induction vs generalizing m with
  | nil => simp at hv
  | cons w vs ih =>
    rcases List.mem_cons.mp hv with rfl | hv
    · exact keep vs _ (mapGet?_put_same ..)
    · exact ih _ hv

/-! ### Where a store goes -/

@[simp] theorem placeOf_setLane (s : State) (l m : Lane) (x : LaneSt) (a : Access) :
    placeOf (s.setLane l x) (progNo (s.setLane l x) m) a = placeOf s (progNo s m) a := by cases l <;> rfl

/-- A store to the output image goes into the task's output buffer. -/
theorem storeTo_image {a : Access} (hs : a.stack = false) (hsp : a.space = 2) (s : State) (l : Lane) (k : CtxKind) (c : LaneCtx)
    (n : Nat) (bs : List Byte) : storeTo s l k c a n bs = s.setCtx l k (c.storeOut (laneProg s l) a.off bs) := by
  simp [storeTo, hs, hsp]

/-- A store anywhere else goes to its place. -/
theorem storeTo_place {a : Access} (h : ¬ (a.stack = false ∧ a.space = 2)) (s : State) (l : Lane) (k : CtxKind) (c : LaneCtx)
    (n : Nat) (bs : List Byte) :
    storeTo s l k c a n bs = storePlace (s.setCtx l k c) l k (partSafe (laneProg s l) c) a n bs := by
  rw [storeTo, if_neg (by simpa using h)]

theorem storePlace_own {s : State} {l : Lane} {a : Access} {addr : Nat} (hp : placeOf s (progNo s l) a = .own addr) (k : CtxKind)
    (c : LaneCtx) (safe : Bool) (n : Nat) (bs : List Byte) :
    storePlace (s.setCtx l k c) l k safe a n bs = s.setLane l (((s.lane l).setCtx k c).store addr bs) := by
  simp [storePlace, State.setCtx, hp]

/-- The record of a store to the bulk store (R217). -/
def storeRec (s : State) (k : CtxKind) (safety : Bool) (a : Access) (n : Nat) (bs : List Byte) : EffectRec :=
  { kind := 0, size := n, last := false, safety, tag := .good, addr := refOf a.space a.inst a.off, beats := [fromLE bs], ctx := k,
    at_ := s.tb3 }

theorem storePlace_bulk {s : State} {l : Lane} {a : Access} {key : Nat} (hp : placeOf s (progNo s l) a = .bulk key)
    (hq : queueFull (s.lane l) = false) (k : CtxKind) (c : LaneCtx) (safe : Bool) (n : Nat) (bs : List Byte) :
    storePlace (s.setCtx l k c) l k safe a n bs
      = s.setLane l ((s.lane l).setCtx k c |> fun x => { x with queue := x.queue ++ [storeRec s k safe a n bs] }) := by
  have hq' : queueFull ((s.lane l).setCtx k c) = false := by cases k <;> exact hq
  simp only [storePlace, State.setCtx, placeOf_setLane, hp, State.present, State.lane_setLane, State.setLane_setLane,
    present_queue hq', storeRec, State.tb3, State.setLane_time]

/-- ST of an access without an exception that finds room where it needs it. -/
theorem exec_st {s : State} {l : Lane} {k : CtxKind} {c : LaneCtx} {f : MFmt} {t : Ty}
    (h : Executes s l [f.rd.toNat, f.ra.toNat] (MFmt.len f) k c) (hl : MFmt.legal f = true) (ht : Ty.ofCode f.ty.toNat = some t)
    (hx : accessExc (laneProg s l) c (formAddress c f t.size) t.size t.size true = none)
    (hr : (!isImage (formAddress c f t.size) && isEffect s l (formAddress c f t.size) && queueFull (s.lane l)) = false) :
    exec (.st l f) s = .next (storeTo s l k (c.past (MFmt.len f)) (formAddress c f t.size) (log2Size t.size)
      (storeBytes t (c.rd f.rd.toNat))) := by
  change execSt l f s = _
  rw [execSt, hl, issue_runs h]
  simp only [mTy_of_code ht, hx, hr, Bool.false_eq_true, if_false]

/-- Settles O10: the store by the place of its access, with the bytes of `stByte`. -/
theorem storeChangesOnlyTheAddressedBytes : Obligations.StoreChangesOnlyTheAddressedBytes := by
  unfold Obligations.StoreChangesOnlyTheAddressedBytes
  intro s l k c f t h hl ht a len v byteOf hx
  let bs := storeBytes t v
  have hrun (hr : (!isImage a && isEffect s l a && queueFull (s.lane l)) = false) :
      exec (.st l f) s = .next (storeTo s l k (c.past len) a (log2Size t.size) bs) := exec_st h hl ht hx hr
  have frame (x : LaneSt) (hc : ∀ j, x.ctx j = ((s.lane l).setCtx k (c.past len)).ctx j) :
      (x.ctx k).pc = (c.past len).pc ∧ (x.ctx k).gs = c.gs ∧ (x.ctx k).cf = c.cf ∧ (x.ctx k).qf = c.qf ∧
        ∀ k', k' ≠ k → x.ctx k' = (s.lane l).ctx k' := by
    rw [hc, LaneSt.ctx_setCtx]
    exact ⟨rfl, rfl, rfl, rfl, fun k' hk => (hc k').trans (LaneSt.ctx_setCtx_ne _ hk _)⟩
  refine ⟨fun hq => ?_, fun addr hi hp => ?_, fun hs hsp => ?_, fun key hi hp hq => ?_⟩
  · rw [hrun (by simp [hq])]
    by_cases hs : a.stack = false ∧ a.space = 2
    · rw [storeTo_image hs.1 hs.2]
      refine ⟨_, rfl, ?_⟩
      rw [LaneSt.ctx_setCtx]
      exact ⟨rfl, rfl, rfl, rfl, fun k' hk => LaneSt.ctx_setCtx_ne _ hk _⟩
    · rw [storeTo_place hs]
      cases hp : placeOf s (progNo s l) a with
      | own addr => exact ⟨_, congrArg _ (storePlace_own hp ..), frame _ fun j => by cases j <;> rfl⟩
      | bulk key => exact ⟨_, congrArg _ (storePlace_bulk hp hq ..), frame _ fun j => by cases j <;> rfl⟩
  · have hn : ¬ (a.stack = false ∧ a.space = 2) := by rintro ⟨h1, h2⟩; simp [isImage, h1, h2] at hi
    rw [hrun (by simp [isEffect, hp]), storeTo_place hn, storePlace_own hp]
    refine ⟨_, rfl, rfl, fun j hj => ?_, fun y hy => ?_⟩
    · rw [store_mem, Memory.readByte_writeBytes_in (by simpa [bs] using hj)]
      exact storeBytes_getElem _
    · rw [store_mem, Memory.readByte_writeBytes_out (by simpa [bs] using hy)]
      cases k <;> rfl
  · have hi : isImage a = true := by simp [isImage, hs, hsp]
    rw [hrun (by simp [hi]), storeTo_image hs hsp]
    have hget (y : Nat) := mapGet?_foldl_put a.off y bs 0 c.out
    have hlen : bs.length = t.size := storeBytes_length ..
    simp only [Nat.add_zero, hlen] at hget
    refine ⟨_, rfl, rfl, fun j hj => ⟨bs[j], ?_, storeBytes_getElem _⟩, fun y hy => ?_, fun v hv h1 h2 => ?_⟩
    · refine (hget (a.off + j)).trans ?_
      rw [if_pos (by omega), Nat.add_sub_cancel_left, List.getElem?_eq_getElem (by omega)]
    · exact (hget y).trans (if_neg (by omega))
    · have hm : (decide (v.off < a.off + bs.length) && decide (a.off < v.off + v.ty.size)) = true := by rw [hlen]; simp [h1, h2]
      exact mapGet?_foldl_tags _ _ _ _ ⟨v, List.mem_filter.mpr ⟨hv, hm⟩, rfl⟩
  · have hn : ¬ (a.stack = false ∧ a.space = 2) := by rintro ⟨h1, h2⟩; simp [isImage, h1, h2] at hi
    rw [hrun (by simp [hq]), storeTo_place hn, storePlace_bulk hp hq]
    refine ⟨_, rfl, rfl, rfl, rfl, rfl, ?_⟩
    change bytesLE (2 ^ log2Size t.size) (fromLE bs) = _
    rw [two_pow_log2Size, ← storeBytes_length t v, bytesLE_fromLE, storeBytes_length]
    exact storeBytes_eq_map t v

end Sys2Proof.Machine
end

section
/-! Cells in the lane's own memory: timers, counters and edge detectors (O12, O14). -/

namespace Sys2Proof.Machine

open Sys2Proof

/-! ### Numbers in bytes -/

theorem b2n_eq_toNat (b : Bool) : b2n b = b.toNat := by cases b <;> rfl

theorem fromLE_bytesLE (n v : Nat) : fromLE (bytesLE n v) = v % 256 ^ n := by
  induction n generalizing v with
  | zero => simp [bytesLE, fromLE, Nat.mod_one]
  | succ n ih =>
    have hs : 256 ^ (n + 1) = 256 * 256 ^ n := Nat.pow_succ'
    rw [bytesLE, fromLE, ih, BitVec.toNat_ofNat, hs, Nat.mod_mul]

/-- A range within another one. -/
theorem readBytes_sub {m : Memory} {a o n size : Nat} (h : o + n ≤ size) :
    Memory.readBytes m (a + o) n = ((Memory.readBytes m a size).drop o).take n := by
  refine List.ext_getElem (by simp; omega) fun j h1 h2 => ?_
  have hj : j < n := by simpa using h1
  rw [List.getElem_take, List.getElem_drop, Memory.readBytes_get hj, Memory.readBytes_get (by omega), Nat.add_assoc]

theorem readBytes_getD {m : Memory} {a n j : Nat} (h : j < n) : (Memory.readBytes m a n).getD j 0 = Memory.readByte m (a + j) := by
  rw [List.getD_eq_getElem?_getD, List.getElem?_eq_getElem (by simpa using h), Option.getD_some, Memory.readBytes_get h]

/-! ### A cell written back -/

/-- The fixed part of what a cell instruction leaves: T and rd, the byte range of the cell, and the bytes beside it. -/
theorem cellOp_own {s : State} {l : Lane} {k : CtxKind} {c : LaneCtx} {f : CFmt} {addr size : Nat} {legal : Bool}
    (h : Executes s l [f.rd.toNat, f.ra.toNat, f.rb.toNat] (CFmt.len f) k c) (hl : legal = true)
    (hx : cellExc (laneProg s l) c (cellOff f) size = none)
    (hp : placeOf s (progNo s l) { stack := false, space := 0, inst := c.ib.toNat, off := cellOff f } = .own addr)
    (g : LaneCtx → List Byte → List Byte × Nat × Bool) {bs : List Byte} {v : Nat} {q : Bool}
    (hg : g c (Memory.readBytes (s.lane l).mem addr size) = (bs, v, q)) (hbs : bs.length = size) :
    ∃ x : LaneSt, cellOp s l f size legal g = .next (s.setLane l x) ∧
      x = { ((s.lane l).setCtx k (({ c with cf := setT c.cf q }.wr f.rd.toNat (BitVec.ofNat 64 v)).past (CFmt.len f)))
        with mem := x.mem, tracked := x.tracked } ∧
      Memory.readBytes x.mem addr size = bs ∧ ∀ y, y < addr ∨ addr + size ≤ y → Memory.readByte x.mem y = s.laneByte l y := by
  let d := ({ c with cf := setT c.cf q }.wr f.rd.toNat (BitVec.ofNat 64 v)).past (CFmt.len f)
  have hm : ((s.lane l).setCtx k d).mem = (s.lane l).mem := by cases k <;> rfl
  refine ⟨((s.lane l).setCtx k d).store addr bs, ?_, rfl, ?_, fun y hy => ?_⟩
  · rw [cellOp, hl, issue_runs h]
    have hr := readAccess_of_place (a := { stack := false, space := 0, inst := c.ib.toNat, off := cellOff f }) rfl s l k c size
    rw [hp] at hr
    simp only [hx, isEffect, hp, Bool.false_and, Bool.false_eq_true, if_false, hr.1, hr.2, loadPlace, noteLoad, hg, cellBack, State.setCtx,
      placeOf_setLane, State.lane_setLane, State.setLane_setLane, d]
  · rw [store_mem, hm, ← hbs, Memory.readBytes_writeBytes]
  · rw [store_mem, hm, Memory.readByte_writeBytes_out (by omega)]
    rfl

/-! ### Timer cells (Table TMR-3) -/

theorem timerBytes_length (t : TimerCell) (et : Nat) : (t.bytes et).length = 32 := by simp [TimerCell.bytes]

/-- ET, ACC and TLAST of a timer cell in memory. -/
theorem readNat_timerBytes {m : Memory} {a et : Nat} {t : TimerCell} (h : Memory.readBytes m a 32 = t.bytes et) :
    Memory.readNat m a 8 = et % 2 ^ 64 ∧ Memory.readNat m (a + 8) 8 = t.acc % 2 ^ 64 ∧ Memory.readNat m (a + 16) 8 = t.tlast % 2 ^ 64 := by
  have hsub {o : Nat} (ho : o + 8 ≤ 32) : Memory.readNat m (a + o) 8 = fromLE (((t.bytes et).drop o).take 8) := by
    rw [Memory.readNat, readBytes_sub ho, h]
  have h8 (v : Nat) : fromLE (bytesLE 8 v) = v % 2 ^ 64 := fromLE_bytesLE 8 v
  refine ⟨(hsub (o := 0) (by decide)).trans ?_, (hsub (by decide)).trans ?_, (hsub (by decide)).trans ?_⟩ <;>
    simp [TimerCell.bytes, h8, List.drop_append, List.drop_of_length_le]

theorem timerOf_acc_le (bs : List Byte) : (timerOf bs).acc ≤ accTop := by
  simp only [timerOf, accTop]
  split <;> omega

/-- The cell after one execution of a timer instruction. -/
def timerAfter (kind : TimerKind) (g : Nat) (x : Option Int) (t : Nat) (i : Bool) (pt : Nat) (c : TimerCell) : TimerCell :=
  let c' := { c with tlast := t, gen := g, inPrev := if c.seed then i else c.inPrev, seed := false }
  let d := timerInterval g x t c
  { (match kind with | .on => tonStep c' pt d i | .off => tofStep c' pt d i | .pulse => tpStep c' pt d i) with inPrev := i }

theorem timerStep_eq (kind : TimerKind) (g : Nat) (x : Option Int) (t : Nat) (i : Bool) (pt : Int) (bs : List Byte) :
    timerStep kind g x t i pt bs = let c := timerAfter kind g x t i pt.toNat (timerOf bs); (c.bytes (min c.acc pt.toNat), c.q) := rfl

theorem timerAfter_tlast (kind : TimerKind) (g : Nat) (x : Option Int) (t : Nat) (i : Bool) (pt : Nat) (c : TimerCell) :
    (timerAfter kind g x t i pt c).tlast = t := by
  cases kind <;> simp only [timerAfter, tonStep, tofStep, tpStep] <;> grind

section
variable (g : Nat) (x : Option Int) (t : Nat) (i : Bool) (pt : Nat) (c : TimerCell)

/-- TON: ACC and Q. -/
theorem timerAfter_on : let prev := if c.seed then i else c.inPrev
    (timerAfter .on g x t i pt c).acc = (if i ∧ prev then satAcc c.acc (timerInterval g x t c) else 0) ∧
      (timerAfter .on g x t i pt c).q = (i && decide (pt ≤ (timerAfter .on g x t i pt c).acc)) := by
  simp only [timerAfter, tonStep]
  grind

/-- TOF: ACC and Q. -/
theorem timerAfter_off : let prev := if c.seed then i else c.inPrev
    let sum := satAcc c.acc (timerInterval g x t c)
    (timerAfter .off g x t i pt c).acc = (if i ∨ prev then 0 else if c.run then sum else c.acc) ∧
      (timerAfter .off g x t i pt c).q
        = (if i then true else if prev then decide (0 < pt) else if c.run then decide (sum < pt) else c.q) := by
  simp only [timerAfter, tofStep]
  grind

/-- TP: ACC and Q, by whether a pulse runs or begins. -/
theorem timerAfter_pulse : let prev := if c.seed then i else c.inPrev
    let sum := satAcc c.acc (timerInterval g x t c)
    (timerAfter .pulse g x t i pt c).q = (if c.run then decide (sum < pt) else i && !prev && decide (0 < pt)) ∧
      (timerAfter .pulse g x t i pt c).acc
        = (if c.run then (if !decide (sum < pt) ∧ !i then 0 else sum) else if i && prev then c.acc else 0) := by
  simp only [timerAfter, tpStep]
  grind

end

/-- Settles O12: the cell after the step, by the instruction's row of R173, and its bytes written back. -/
theorem timersMeasureTickConsistentTime : Obligations.TimersMeasureTickConsistentTime := by
  unfold Obligations.TimersMeasureTickConsistentTime
  intro s l k c f i addr q acc h hx hp hrow
  have hrow' : ∃ kind, exec i s = timerOp s l f kind ∧ acc ≤ accTop ∧
      (let cell := timerAfter kind s.voter.gen s.voter.xlate c.time ((c.rd f.ra.toNat).getLsbD 0) (c.rd f.rb.toNat).toInt.toNat
        (timerOf (Memory.readBytes (s.lane l).mem addr 32))
       cell.acc = acc ∧ cell.q = q) := by
    have hold := timerOf_acc_le (Memory.readBytes (s.lane l).mem addr 32)
    simp only at hrow ⊢
    generalize timerOf (Memory.readBytes (s.lane l).mem addr 32) = old at *
    have hon := timerAfter_on s.voter.gen s.voter.xlate c.time ((c.rd f.ra.toNat).getLsbD 0) (c.rd f.rb.toNat).toInt.toNat old
    have hoff := timerAfter_off s.voter.gen s.voter.xlate c.time ((c.rd f.ra.toNat).getLsbD 0) (c.rd f.rb.toNat).toInt.toNat old
    have hpul := timerAfter_pulse s.voter.gen s.voter.xlate c.time ((c.rd f.ra.toNat).getLsbD 0) (c.rd f.rb.toNat).toInt.toNat old
    simp only [satAcc, accTop] at hold hon hoff hpul ⊢
    generalize (if old.seed = true then (c.rd f.ra.toNat).getLsbD 0 else old.inPrev) = prev at *
    rcases hrow with ⟨rfl, h⟩ | ⟨rfl, h⟩ | ⟨rfl, h⟩ | ⟨rfl, h⟩ | ⟨rfl, h⟩
    · exact ⟨.on, rfl, by grind⟩
    · exact ⟨.off, rfl, by grind⟩
    all_goals exact ⟨.pulse, rfl, by grind⟩
  obtain ⟨kind, hi, hle, hacc, hq⟩ := hrow'
  have htop : accTop < 2 ^ 64 := by decide
  obtain ⟨x, hex, hc, hb, hout⟩ := cellOp_own (legal := true) h rfl hx hp
    (fun c bs => let r := timerStep kind s.voter.gen s.voter.xlate c.time (bitAt (c.rd f.ra.toNat) 0) (c.rd f.rb.toNat).toInt bs
      (r.1, b2n r.2, r.2)) (by rw [timerStep_eq]) (timerBytes_length ..)
  obtain ⟨het, hac, htl⟩ := readNat_timerBytes hb
  simp only [bitAt, hacc] at het hac
  refine ⟨x, hi.trans hex, ?_, ?_, ?_, ?_, hout⟩
  · rw [b2n_eq_toNat] at hc
    exact hq ▸ hc
  · exact het.trans (Nat.mod_eq_of_lt (by omega))
  · exact hac.trans (Nat.mod_eq_of_lt (by omega))
  · rw [htl, timerAfter_tlast]

end Sys2Proof.Machine
end

section
/-! Counters and edge detectors (O14). -/

namespace Sys2Proof.Machine

open Sys2Proof

theorem testBit_mod_16 (w : W64) {j : Nat} (h : j < 4) : (w.toNat % 16).testBit j = w.getLsbD j := by
  rw [show 16 = 2 ^ 4 from rfl, Nat.testBit_mod_two_pow, decide_eq_true h, Bool.true_and]
  rfl

/-- CV after a counter instruction, by the instruction's inputs (R177). -/
def countAfter (kind : CounterKind) (a : Nat) (pv : Int) (bs : List Byte) : Int :=
  let ctrl := (bs.getD 8 0).toNat
  let lim := rangeLimits (bs.getD 9 0).toNat
  let cu := decide (kind ≠ .down) && a.testBit 0
  let cd := decide (kind ≠ .up) && a.testBit 1
  countStep (toSigned 64 (fromLE (bs.take 8))) lim.1 lim.2 pv (decide (kind ≠ .down) && a.testBit 2) (decide (kind ≠ .up) && a.testBit 3)
    (cu && !(if ctrl.testBit 7 then cu else ctrl.testBit 0)) (cd && !(if ctrl.testBit 7 then cd else ctrl.testBit 1))

/-- A counter cell of 16 bytes after the step: CV in its first 8 bytes, and the outputs of the kind. -/
theorem counterStep_spec (kind : CounterKind) (a : Nat) (pv : Int) (bs : List Byte) :
    let r := counterStep kind a pv bs
    r.1.length = 16 ∧ r.1.take 8 = bytesLE 8 (ofSigned 64 (countAfter kind a pv bs)) ∧
      (kind ≠ .down → r.2.1 = decide (pv ≤ countAfter kind a pv bs)) ∧ (kind ≠ .up → r.2.2 = decide (countAfter kind a pv bs ≤ 0)) := by
  refine ⟨?_, ?_, fun hk => ?_, fun hk => ?_⟩
  · simp [counterStep]
  · simp [counterStep, countAfter]
  · simp [counterStep, countAfter, hk]
  · simp [counterStep, countAfter, hk]

theorem edgeStep_spec (rising clk : Bool) (bs : List Byte) :
    (edgeStep rising clk bs).1.length = 8 ∧ (edgeStep rising clk bs).2 =
      (let prev := if (bs.getD 0 0).getLsbD 7 then clk else (bs.getD 0 0).getLsbD 0
       if rising then clk && !prev else prev && !clk) := ⟨rfl, rfl⟩

section
variable {s : State} {l : Lane} {k : CtxKind} {c : LaneCtx} {f : CFmt} {addr : Nat}

/-- A counter instruction on a cell in the lane's own memory, where `g` gives the value for rd. -/
theorem counter_cell (h : Executes s l [f.rd.toNat, f.ra.toNat, f.rb.toNat] (CFmt.len f) k c)
    (hx : cellExc (laneProg s l) c (cellOff f) 16 = none)
    (hp : placeOf s (progNo s l) { stack := false, space := 0, inst := c.ib.toNat, off := cellOff f } = .own addr) (kind : CounterKind)
    (g : LaneCtx → List Byte → List Byte × Nat × Bool) {cv : Int} {v : Nat}
    (hcv : cv = countAfter kind ((c.rd f.ra.toNat).toNat % 16) (c.rd f.rb.toNat).toInt (Memory.readBytes (s.lane l).mem addr 16))
    (hg : g c (Memory.readBytes (s.lane l).mem addr 16)
      = ((counterOp c f kind (Memory.readBytes (s.lane l).mem addr 16)).1, v, decide (v % 2 = 1))) :
    ∃ x : LaneSt, cellOp s l f 16 true g = .next (s.setLane l x) ∧
      x = { ((s.lane l).setCtx k (({ c with cf := setT c.cf (decide (v % 2 = 1)) }.wr f.rd.toNat (BitVec.ofNat 64 v)).past
        (CFmt.len f))) with mem := x.mem, tracked := x.tracked } ∧
      Memory.readNat x.mem addr 8 = ofSigned 64 cv ∧
      (∀ y, y < addr ∨ addr + 16 ≤ y → Memory.readByte x.mem y = s.laneByte l y) := by
  obtain ⟨hlen, hval, -, -⟩ := counterStep_spec kind ((c.rd f.ra.toNat).toNat % 16) (c.rd f.rb.toNat).toInt
    (Memory.readBytes (s.lane l).mem addr 16)
  obtain ⟨x, hex, hc, hb, hout⟩ := cellOp_own h rfl hx hp g hg hlen
  refine ⟨x, hex, hc, ?_, hout⟩
  have hsub := readBytes_sub (m := x.mem) (a := addr) (o := 0) (n := 8) (size := 16) (by decide)
  rw [hb, List.drop_zero, counterOp, hval, Nat.add_zero, ← hcv] at hsub
  rw [Memory.readNat, hsub, fromLE_bytesLE]
  exact Nat.mod_eq_of_lt (ofSigned_lt 64 _)

/-- An edge detector on a cell in the lane's own memory. -/
theorem edge_cell (h : Executes s l [f.rd.toNat, f.ra.toNat, f.rb.toNat] (CFmt.len f) k c) (hrb : f.rb = 0)
    (hx : cellExc (laneProg s l) c (cellOff f) 8 = none)
    (hp : placeOf s (progNo s l) { stack := false, space := 0, inst := c.ib.toNat, off := cellOff f } = .own addr) (rising : Bool)
    {q : Bool} (hq : q = (edgeStep rising ((c.rd f.ra.toNat).getLsbD 0) (Memory.readBytes (s.lane l).mem addr 8)).2) :
    ∃ x : LaneSt,
      (cellOp s l f 8 (f.rb = 0) fun c bs => let r := edgeStep rising (bitAt (c.rd f.ra.toNat) 0) bs; (r.1, b2n r.2, r.2))
        = .next (s.setLane l x) ∧
      x = { ((s.lane l).setCtx k (({ c with cf := setT c.cf q }.wr f.rd.toNat (BitVec.ofNat 64 q.toNat)).past (CFmt.len f)))
        with mem := x.mem, tracked := x.tracked } ∧
      (∀ y, y < addr ∨ addr + 8 ≤ y → Memory.readByte x.mem y = s.laneByte l y) := by
  obtain ⟨x, hex, hc, -, hout⟩ := cellOp_own h (decide_eq_true hrb) hx hp
    (fun c bs => let r := edgeStep rising (bitAt (c.rd f.ra.toNat) 0) bs; (r.1, b2n r.2, r.2)) rfl rfl
  refine ⟨x, hex, ?_, hout⟩
  rw [b2n_eq_toNat] at hc
  exact hq ▸ hc

end

/-- Settles O14: the cell of the counters and edge detectors in the lane's own memory. -/
theorem countersAndEdgesFollowTheirInputs : Obligations.CountersAndEdgesFollowTheirInputs := by
  unfold Obligations.CountersAndEdgesFollowTheirInputs
  intro s l k c f addr size h hx hp m a
  refine ⟨fun i kind v cv hs hrow => ?_, fun i q hs hrb hrow => ?_⟩
  · subst hs
    have hold : Memory.readNat m addr 8 = fromLE ((Memory.readBytes m addr 16).take 8) := by
      rw [Memory.readNat]; exact congrArg _ (readBytes_sub (o := 0) (size := 16) (by decide))
    have hcv : cv = countAfter kind (a.toNat % 16) (c.rd f.rb.toNat).toInt (Memory.readBytes m addr 16) := by
      rw [hrow.1, countAfter, countStep, ← hold, readBytes_getD (j := 8) (by decide), readBytes_getD (j := 9) (by decide)]
      simp only [testBit_mod_16 a (j := 0) (by decide), testBit_mod_16 a (j := 1) (by decide), testBit_mod_16 a (j := 2) (by decide),
        testBit_mod_16 a (j := 3) (by decide), BitVec.testBit_toNat]
      cases kind <;> simp [m]
    obtain ⟨-, -, hqu, hqd⟩ := counterStep_spec kind (a.toNat % 16) (c.rd f.rb.toNat).toInt (Memory.readBytes m addr 16)
    have hodd (b : Bool) : decide (b.toNat % 2 = 1) = b := by cases b <;> rfl
    have hodd2 (b d : Bool) : decide ((b.toNat + 2 * d.toNat) % 2 = 1) = b := by cases b <;> cases d <;> rfl
    rw [← hcv] at hqu hqd
    have hrows := hrow.2
    simp only [List.mem_cons, Prod.mk.injEq, List.not_mem_nil, or_false] at hrows
    rcases hrows with ⟨rfl, rfl, rfl⟩ | ⟨rfl, rfl, rfl⟩ | ⟨rfl, rfl, rfl⟩
    · refine counter_cell h hx hp .up (fun c bs => let r := counterOp c f .up bs; (r.1, b2n r.2.1, r.2.1)) hcv ?_
      rw [hodd, ← hqu (by decide), ← b2n_eq_toNat]
      rfl
    · refine counter_cell h hx hp .down (fun c bs => let r := counterOp c f .down bs; (r.1, b2n r.2.2, r.2.2)) hcv ?_
      rw [hodd, ← hqd (by decide), ← b2n_eq_toNat]
      rfl
    · refine counter_cell h hx hp .both (fun c bs => let r := counterOp c f .both bs; (r.1, b2n r.2.1 + 2 * b2n r.2.2, r.2.1)) hcv ?_
      rw [hodd2, ← hqu (by decide), ← hqd (by decide), ← b2n_eq_toNat, ← b2n_eq_toNat]
      rfl
  · subst hs
    have hb0 : (Memory.readBytes m addr 8).getD 0 0 = Memory.readByte m addr := readBytes_getD (j := 0) (by decide)
    simp only [List.mem_cons, Prod.mk.injEq, List.not_mem_nil, or_false] at hrow
    rcases hrow with ⟨rfl, hq⟩ | ⟨rfl, hq⟩
    · exact edge_cell h hrb hx hp true (by rw [hq, (edgeStep_spec ..).2, hb0]; rfl)
    · exact edge_cell h hrb hx hp false (by rw [hq, (edgeStep_spec ..).2, hb0]; rfl)

end Sys2Proof.Machine
end

section
/-! Function-block calls and the stack (O13). -/

namespace Sys2Proof.Machine

open Sys2Proof

/-- FBCALL by index with its unused fields zero. -/
theorem exec_fbcall {s : State} {l : Lane} {k : CtxKind} {c : LaneCtx} {f : FFmt} (h : Executes s l [f.ra.toNat] 8 k c) (hz : f.z = 0)
    (hri : f.ri = false) (hra : f.ra = 0) : exec (.fbcall l f) s = .next (fbcall s l k c f.idx.toNat f.ext.toNat) := by
  change execFbcall l f s = _
  rw [execFbcall, show (decide (f.z = 0) && if f.ri = true then decide (f.idx = 0) else decide (f.ra = 0)) = true by simp [hz, hri, hra],
    issue_runs h]
  simp only [hri, Bool.false_eq_true, if_false]

/-- An FBCALL that fails no check of the instance pushes its frame unless a composite unit stands still. -/
theorem fbcall_eq {s : State} {l : Lane} {c : LaneCtx} {target sig : Nat} {d : InstDecl} (hd : progInst (laneProg s l) target = some d)
    (hs : sigOf (laneProg s l) d = sig) (hp : callPartition (laneProg s l) c d = false) (k : CtxKind) :
    fbcall s l k c target sig =
      if (match compositeState s d with | some .run => false | some _ => true | none => false) then
        s.setCtx l k ({ c with cf := setT c.cf false }.past 8)
      else if 64 ≤ c.depth then except s l k c xCallDepth
      else if c.sp.toNat < (shareOf (laneProg s l) c.share).1 + 16 then except s l k c xStackOverflow
      else s.setLane l (((s.lane l).store (stackAddr (laneProg s l) (c.sp - 16).toNat) (frameOf c (c.pc + 8))).setCtx k
        { c with sp := c.sp - 16, ib := BitVec.ofNat 16 target, cf := 0, qf := 0, depth := c.depth + 1,
                 pc := BitVec.ofNat 32 (typeEntry (laneProg s l) target) }) := by
  simp only [fbcall, hd, hs, hp, ne_eq, not_true_eq_false, if_false, Bool.false_eq_true] <;> rfl

/-- Return pc, ib, cf and qf of a frame in memory (R93). -/
theorem readNat_frame {m : Memory} {a : Nat} {c : LaneCtx} {ret : W32} (h : Memory.readBytes m a 16 = frameOf c ret) :
    Memory.readNat m a 4 = ret.toNat ∧ Memory.readNat m (a + 4) 2 = c.ib.toNat ∧ Memory.readByte m (a + 8) = c.cf ∧
      Memory.readByte m (a + 9) = c.qf := by
  have hsub {o n : Nat} (ho : o + n ≤ 16) : Memory.readNat m (a + o) n = fromLE (((frameOf c ret).drop o).take n) := by
    rw [Memory.readNat, readBytes_sub ho, h]
  have hret : fromLE (bytesLE 4 ret.toNat) = ret.toNat := (fromLE_bytesLE 4 _).trans (Nat.mod_eq_of_lt ret.isLt)
  have hib : fromLE (bytesLE 2 c.ib.toNat) = c.ib.toNat := (fromLE_bytesLE 2 _).trans (Nat.mod_eq_of_lt c.ib.isLt)
  refine ⟨(hsub (o := 0) (by decide)).trans hret, (hsub (o := 4) (n := 2) (by decide)).trans hib, ?_, ?_⟩ <;>
    · rw [← readBytes_getD (n := 16) (by decide), h]; rfl

theorem readNat_one (m : Memory) (a : Nat) : Memory.readNat m a 1 = (Memory.readByte m a).toNat := by
  simp [Memory.readNat, Memory.readBytes, fromLE]

/-- FBRET below the stack top, of a frame that names an instance. -/
theorem fbret_eq {s : State} {l : Lane} {c : LaneCtx} (hsp : c.sp.toNat ≠ (shareOf (laneProg s l) c.share).2)
    (hi : (progInst (laneProg s l) (Memory.readNat (s.lane l).mem (stackAddr (laneProg s l) c.sp.toNat + 4) 2)).isSome = true)
    (k : CtxKind) : fbret s l k c =
      let base := stackAddr (laneProg s l) c.sp.toNat
      let m := (s.lane l).mem
      s.setCtx l k { c with
        pc := BitVec.ofNat 32 (Memory.readNat m base 4), ib := BitVec.ofNat 16 (Memory.readNat m (base + 4) 2),
        cf := setT (BitVec.ofNat 8 ((Memory.readByte m (base + 8)).toNat % 128)) true,
        qf := BitVec.ofNat 8 ((Memory.readByte m (base + 9)).toNat % 64), sp := c.sp + 16, depth := c.depth - 1 } := by
  have hn : (progInst (laneProg s l) (Memory.readNat (s.lane l).mem (stackAddr (laneProg s l) c.sp.toNat + 4) 2)).isNone = false := by
    rw [← Option.not_isSome, hi]; rfl
  simp only [fbret, hsp, if_false, hn, Bool.false_eq_true, readNat_one, Nat.add_zero]

/-- ENTER and LEAVE by the new sp. -/
theorem exec_moveSp {s : State} {l : Lane} {k : CtxKind} {c : LaneCtx} {f : IFmt} {i : Instr} {sp : Int} (h : Executes s l [] 4 k c)
    (hrd : f.rd = 0) (hra : f.ra = 0)
    (hi : (i, sp) ∈ [(Instr.enter l f, (c.sp.toNat : Int) - 16 * f.imm.toNat), (.leave l f, (c.sp.toNat : Int) + 16 * f.imm.toNat)]) :
    exec i s = .next (moveSp s l k c sp) := by
  have hl : (decide (f.rd = 0) && decide (f.ra = 0)) = true := by simp [hrd, hra]
  simp only [List.mem_cons, Prod.mk.injEq, List.not_mem_nil, or_false] at hi
  rcases hi with ⟨rfl, rfl⟩ | ⟨rfl, rfl⟩
  · change execEnter l f s = _
    rw [execEnter, hl, issue_runs h]
  · change execLeave l f s = _
    rw [execLeave, hl, issue_runs h]

/-- Settles O13: the checks of FBCALL in turn, the frame in the stack's memory, and sp against the share. -/
theorem callsReturnsAndStackMovesKeepTheShare : Obligations.CallsReturnsAndStackMovesKeepTheShare := by
  unfold Obligations.CallsReturnsAndStackMovesKeepTheShare
  refine ⟨fun s l k c => ⟨fun f d h hz hri hra hd hs hp => ⟨fun st hst hne => ?_, fun hst hdep hsp => ?_⟩,
    fun f h hty hrd hra hrb hi hsp hin => ?_⟩, fun s l k c f i sp h hrd hra hi => ?_⟩
  · rw [exec_fbcall h hz hri hra, fbcall_eq hd hs hp, hst, if_pos]
    cases st with
    | run => exact absurd rfl hne
    | _ => rfl
  · have hrun : (match compositeState s d with | some .run => false | some _ => true | none => false) = false := by
      rcases hst with hst | hst <;> rw [hst]
    have hex := exec_fbcall h hz hri hra
    rw [fbcall_eq hd hs hp, if_neg (by rw [hrun]; exact Bool.false_ne_true), if_neg (by omega), if_neg (by omega)] at hex
    refine ⟨_, hex, ?_, ?_⟩
    · rw [BitVec.ofNat_toNat, BitVec.setWidth_eq]
      cases k <;> rfl
    · have hm (x : LaneSt) (e : LaneCtx) : (x.setCtx k e).mem = x.mem := by cases k <;> rfl
      simp only [hm, store_mem]
      have hf := readNat_frame (c := c) (ret := c.pc + 8)
        (Memory.readBytes_writeBytes (s.lane l).mem (stackAddr (laneProg s l) (c.sp - 16).toNat) (frameOf c (c.pc + 8)))
      obtain ⟨h1, h2, h3, h4⟩ := hf
      exact ⟨h1, h2, h3, h4, fun y hy => Memory.readByte_writeBytes_out hy⟩
  · have hl : RFmt.plain f false false false = true := plain_iff.mpr ⟨hi, hty, .inr hrd, .inr hra, .inr hrb⟩
    change execFbret l f s = _
    rw [execFbret, hl, len_of_register hi, issue_runs h]
    exact congrArg _ (fbret_eq hsp hin k)
  · have hm := exec_moveSp h hrd hra hi
    refine ⟨fun hin => ?_, fun hout hq => except_excepts (space := 0) (addr := 0) hq (hm.trans (congrArg _ (if_pos ?_)))⟩
    · rw [hm, moveSp, if_neg (by simp; omega)]
    · simp; omega

end Sys2Proof.Machine
end

section
/-! Quality and system instructions that go on at the next word (O15). -/

namespace Sys2Proof.Machine

open Sys2Proof

/-- An instruction without operands that runs: its body on the settled context. -/
theorem issue_plain {s : State} {l : Lane} {k : CtxKind} {c : LaneCtx} {f : RFmt} {regs : List Nat} {rd ra rb : Bool}
    (h : Executes s l regs 4 k c) (hp : RFmt.plain f rd ra rb = true) (body : CtxKind → LaneCtx → State) :
    issue s l (RFmt.len f) regs (RFmt.plain f rd ra rb) body = body k c := by
  rw [hp, len_of_register (plain_iff.mp hp).1, issue_runs h]

/-- Nothing is under way for a lane whose queue is empty and for a bridge without writes. -/
theorem fenceClear_of_empty {s : State} {l : Lane} (hq : (s.lane l).queue = []) (hsp : (s.lane l).spill = []) (hp : s.hlk.posted = [])
    (hw : ∀ r ∈ s.hlk.queue, r.write = none) (k : CtxKind) : fenceClear s l k = true := by
  have hwq : writeQueued s l k = false := by
    simp only [writeQueued, List.any_eq_false, Bool.and_eq_true, not_and]
    exact fun r hr h => by simp [hw r hr] at h
  simp [fenceClear, unvoted, writePosted, hq, hsp, hp, hwq]

/-- Settles O15: each instruction's body on the settled context. -/
theorem qualityAndSystemInstructionsGoOn : Obligations.QualityAndSystemInstructionsGoOn := by
  unfold Obligations.QualityAndSystemInstructionsGoOn
  intro s l k c f hty hi
  have hlen := len_of_register hi
  refine ⟨fun h hrd hrb => ?_, fun h hrb => ?_, fun h => ?_, fun h hrd hrb ht hph => ?_, fun h hrd hra hrb => ?_⟩
  · change execQout l f s = _
    rw [execQout, issue_plain (regs := RFmt.regs f) h (plain_iff.mpr ⟨hi, hty, .inr hrd, .inl rfl, .inr hrb⟩), hlen]
    simp [aOf, field]
  · intro t
    refine (computeR_result h (plain_iff.mpr ⟨hi, hty, .inl rfl, .inl rfl, .inr hrb⟩) ?_ :
      execQtst l f s = _)
    simp [field, aOf, b2n_eq_toNat, t]
  · refine (computeR_result h (plain_iff.mpr ⟨hi, hty, .inl rfl, .inl rfl, .inl rfl⟩) ?_ : execQmax l f s = _)
    simp [field, aOf]
  · change execTwait l f s = _
    rw [execTwait, issue_plain h (plain_iff.mpr ⟨hi, hty, .inr hrd, .inl rfl, .inr hrb⟩)]
    have hp : twaitPassed s (s.tick.time + (c.rd f.ra.toNat).toNat) = true := by simp [twaitPassed, State.tb3, ht, hph]
    simp only [aOf, hp, if_true]
    rfl
  · have hp : RFmt.plain f false false false = true := plain_iff.mpr ⟨hi, hty, .inr hrd, .inr hra, .inr hrb⟩
    refine ⟨?_, ?_, fun hk => ?_, fun hq hsp hpo hw => ?_⟩
    · change execQclr l f s = _
      rw [execQclr, issue_plain h hp, hlen]
      simp [field]
    · change execNop l f s = _
      rw [execNop, issue_plain h hp, hlen]
    · change execYield l f s = _
      rw [execYield, issue_plain h hp, hlen]
      exact congrArg _ (if_neg hk)
    · change execFence l f s = _
      rw [execFence, issue_plain h hp, fenceClear_of_empty hq hsp hpo hw k]
      rfl

end Sys2Proof.Machine
end

section
/-! Message instructions (O16). -/

namespace Sys2Proof.Machine

open Sys2Proof

section
variable {s : State} {l : Lane} {k : CtxKind} {c : LaneCtx} {f : RFmt} {m : MsgDecl}

/-- MSEND of a transmit object whose payload may be read. -/
theorem exec_msend (h : Executes s l (f.rd.toNat :: [f.ra.toNat, f.rb.toNat]) 4 k c) (hty : f.ty = 0) (hi : f.i = false)
    (ho : objectOf (laneProg s l) (c.rd f.ra.toNat) = some m) (htx : m.tx = true)
    (hs : m.safety = true → partSafe (laneProg s l) c = true)
    (hx : accessExc (laneProg s l) c (refAccess (c.rd f.rb.toNat) 0) m.len (payloadAlign m.len) false = none) :
    exec (.msend l f) s = .next (
      if m.sendMax ≤ sendsOf c m.index then
        s.setCtx l k (({ c with cf := setT c.cf false }.wr f.rd.toNat (BitVec.ofNat 64 m.sendMax)).past 4)
      else
        let a := refAccess (c.rd f.rb.toNat) 0
        let msg : SentMsg :=
          { object := m.index, data := (readAccess s l k c a m.len).1, tag := Tag.decode (field c.qf 5 4) }
        let n := sendsOf c m.index + 1
        (noteRead s l k a m.len).setCtx l k
          (({ c with cf := setT c.cf true, sends := mapPut m.index n c.sends, msgs := c.msgs ++ [msg] }.wr f.rd.toNat
            (BitVec.ofNat 64 n)).past 4)) := by
  have hsafe : (m.safety && !partSafe (laneProg s l) c) = false := by
    cases hm : m.safety with
    | false => rfl
    | true => simp [hs hm]
  change execMsend l f s = _
  rw [execMsend, issue_plain (regs := f.rd.toNat :: RFmt.regs f) h (plain_iff.mpr ⟨hi, hty, .inl rfl, .inl rfl, .inl rfl⟩),
    len_of_register hi]
  simp only [aOf, ho, htx, Bool.not_true, Bool.false_eq_true, if_false, hsafe, hx, firstExc]

/-- MRECV of a receive object whose payload may be stored. -/
theorem exec_mrecv (h : Executes s l (f.rd.toNat :: [f.ra.toNat, f.rb.toNat]) 4 k c) (hty : f.ty = 0) (hi : f.i = false)
    (ho : objectOf (laneProg s l) (c.rd f.ra.toNat) = some m) (htx : m.tx = false)
    (hs : partSafe (laneProg s l) c = true → m.safety = true ∨ m.safeRead = true)
    (hx : recvExc (laneProg s l) c (refAccess (c.rd f.rb.toNat) 0) m.len (payloadAlign m.len) = none)
    (hr : isEffect s l (refAccess (c.rd f.rb.toNat) 0) = false ∨
      (mapGetD ((s.lane l).inBuf c.buf).areas m.index {}).msgs[(c.rd f.ra.toNat).toNat / 2 ^ 16 % 2 ^ 16]? = none) :
    exec (.mrecv l f) s = .next (
      match (mapGetD ((s.lane l).inBuf c.buf).areas m.index {}).msgs[(c.rd f.ra.toNat).toNat / 2 ^ 16 % 2 ^ 16]? with
      | none => s.setCtx l k (({ c with cf := setT c.cf false }.wr f.rd.toNat 0).past 4)
      | some (bs, tag) =>
        awaitRoom (storePayload (s.setCtx l k
          (({ c with cf := setT c.cf true, qf := loadTag c.qf tag }.wr f.rd.toNat (BitVec.ofNat 64 m.len)).past 4))
          l k (partSafe (laneProg s l) c) (refAccess (c.rd f.rb.toNat) 0) bs) l k) := by
  have hsafe : (!m.safety && !m.safeRead && partSafe (laneProg s l) c) = false := by
    cases hp : partSafe (laneProg s l) c with
    | false => simp
    | true => rcases hs hp with hm | hm <;> simp [hm]
  have hfield : field (c.rd f.ra.toNat) 31 16 = (c.rd f.ra.toNat).toNat / 2 ^ 16 % 2 ^ 16 := rfl
  change execMrecv l f s = _
  rw [execMrecv, issue_plain (regs := f.rd.toNat :: RFmt.regs f) h (plain_iff.mpr ⟨hi, hty, .inl rfl, .inl rfl, .inl rfl⟩),
    len_of_register hi]
  simp only [aOf, ho, htx, Bool.false_eq_true, if_false, hsafe, hx, firstExc, hfield]
  generalize (mapGetD ((s.lane l).inBuf c.buf).areas m.index {}).msgs[(c.rd f.ra.toNat).toNat / 2 ^ 16 % 2 ^ 16]? = got at *
  cases got with
  | none => rfl
  | some g =>
    rcases hr with hr | hr
    · simp [hr]
    · cases hr

/-- MSTAT of an object whose status may be read. -/
theorem exec_mstat (h : Executes s l (f.rd.toNat :: [f.ra.toNat, f.rb.toNat]) 4 k c) (hty : f.ty = 0) (hi : f.i = false) (hrb : f.rb = 0)
    (ho : objectOf (laneProg s l) (c.rd f.ra.toNat) = some m)
    (hs : m.tx = true ∨ (partSafe (laneProg s l) c = true → m.safety = true ∨ m.safeRead = true)) :
    exec (.mstat l f) s = .next (s.setCtx l k ((c.wr f.rd.toNat (BitVec.ofNat 64
      (mstatWord c m (mapGetD ((s.lane l).inBuf c.buf).areas m.index {})))).past 4)) := by
  have hsafe : (!m.tx && !m.safety && !m.safeRead && partSafe (laneProg s l) c) = false := by
    rcases hs with hm | hm
    · simp [hm]
    · cases hp : partSafe (laneProg s l) c with
      | false => simp
      | true => rcases hm hp with hm | hm <;> simp [hm]
  change execMstat l f s = _
  rw [execMstat, issue_plain (regs := f.rd.toNat :: RFmt.regs f) h (plain_iff.mpr ⟨hi, hty, .inl rfl, .inl rfl, .inr hrb⟩),
    len_of_register hi]
  simp only [aOf, ho, hsafe, Bool.false_eq_true, if_false]

/-- A payload of 8 bytes goes to the lane's own memory as one word. -/
theorem storePayload_own_word {a : Access} {addr : Nat} (hp : placeOf s (progNo s l) a = .own addr) {bs : List Byte} (hbs : bs.length = 8)
    (k : CtxKind) (c : LaneCtx) (safe : Bool) :
    storePayload (s.setCtx l k c) l k safe a bs = s.setLane l (((s.lane l).setCtx k c).store addr bs) := by
  have hpieces : pieces (bs.length + 1) bs.length = [(8, 8)] := by rw [hbs]; rfl
  have hall : (bs.drop 0).take 8 = bs := by rw [List.drop_zero, ← hbs, List.take_length]
  rw [storePayload, hpieces]
  simp only [List.foldl_cons, List.foldl_nil, hall, Nat.add_zero]
  exact storePlace_own hp ..

end

/-- Settles O16: the three instructions on the object that ra names. -/
theorem messageInstructionsUseTheirObject : Obligations.MessageInstructionsUseTheirObject := by
  unfold Obligations.MessageInstructionsUseTheirObject
  intro s l k c f m h hty hi p a n ho
  refine ⟨fun htx hs hx => ?_, fun htx hs hx => ?_, fun hrb hs => ?_⟩
  · have hsend := exec_msend h hty hi ho htx hs hx
    refine ⟨fun hn => ?_, fun hn => hsend.trans (congrArg _ (if_pos hn))⟩
    rw [if_neg (show ¬ m.sendMax ≤ sendsOf c m.index from Nat.not_le.mpr hn)] at hsend
    exact ⟨{ object := m.index, data := (readAccess s l k c a m.len).1, tag := Tag.decode (field c.qf 5 4) }, rfl, rfl, rfl, hsend⟩
  · intro msgs
    refine ⟨fun hm => ?_, fun bs tag addr hm hbs hlen hsp hp hspill => ?_⟩
    · rw [exec_mrecv h hty hi ho htx hs hx (.inr hm)]
      simp only [msgs] at hm
      rw [hm]
    · have heff : isEffect s l a = false := by simp [isEffect, hp]
      have hrecv := exec_mrecv h hty hi ho htx hs hx (.inl heff)
      simp only [msgs] at hm
      rw [hm] at hrecv
      have hstore := storePayload_own_word hp hbs
      simp only [a] at hstore
      simp only [hstore] at hrecv
      have hspill' (d : LaneCtx) : (((s.lane l).setCtx k d).store addr bs).spill = [] := by cases k <;> exact hspill
      rw [awaitRoom, State.lane_setLane, hspill', List.isEmpty_nil, if_pos rfl] at hrecv
      have hmem (d : LaneCtx) : (((s.lane l).setCtx k d).store addr bs).mem = Memory.writeBytes (s.lane l).mem addr bs := by
        cases k <;> rfl
      refine ⟨_, hrecv, ?_, rfl, fun y hy => ?_⟩
      · rw [hmem, ← hbs, Memory.readBytes_writeBytes]
      · rw [hmem, Memory.readByte_writeBytes_out (by omega)]
        rfl
  · rw [exec_mstat h hty hi hrb ho hs]
    simp only [mstatWord, b2n_eq_toNat]
    rfl

end Sys2Proof.Machine
end

section
/-! Effects that enter the queue (O17). -/

namespace Sys2Proof.Machine

open Sys2Proof

/-- A record presented where the queue has room, and the context that goes on. -/
theorem present_setCtx {s : State} {l : Lane} (hq : queueFull (s.lane l) = false) (k : CtxKind) (c : LaneCtx) (r : EffectRec) :
    (s.present l r).setCtx l k c
      = s.setLane l ((s.lane l).setCtx k c |> fun x => { x with queue := x.queue ++ [{ r with at_ := s.tb3 }] }) := by
  simp only [State.present, present_queue hq, State.setCtx, State.lane_setLane, State.setLane_setLane]
  cases k <;> rfl

/-- Records presented one after another, as long as the queue has room for all of them. -/
theorem foldl_present {s : State} {l : Lane} (rs : List EffectRec) (hsp : (s.lane l).spill = [])
    (hroom : (s.lane l).queue.length + rs.length ≤ 32) :
    rs.foldl (fun s r => s.present l r) s
      = s.setLane l { s.lane l with queue := (s.lane l).queue ++ rs.map fun r => { r with at_ := s.tb3 } } := by
  induction rs generalizing s with
  | nil =>
    simp only [List.foldl_nil, List.map_nil, List.append_nil]
    exact (State.setLane_lane s l).symm
  | cons r rs ih =>
    simp only [List.length_cons] at hroom
    have hq : queueFull (s.lane l) = false := by simp [queueFull, hsp]; omega
    have hp : s.present l r = s.setLane l { s.lane l with queue := (s.lane l).queue ++ [{ r with at_ := s.tb3 }] } := by
      rw [State.present, present_queue hq]
    rw [List.foldl_cons, hp, ih (by simpa using hsp) (by simp; omega)]
    simp [State.tb3]

/-- An emission that finds room: the buffers are empty and the records stand in the queue. -/
theorem emit_queue {s : State} {l : Lane} {k : CtxKind} {c : LaneCtx} (hsp : (s.lane l).spill = [])
    (hroom : (s.lane l).queue.length + (emission s l k c).length ≤ 32) :
    emit s l k c = s.setLane l
      ((s.lane l).setCtx k { c with out := [], outTags := [], msgs := [], wait := .none } |> fun x =>
        { x with queue := x.queue ++ (emission s l k c).map (fun r => { r with at_ := s.tb3 }) }) := by
  have he : (s.lane l).spill.isEmpty = true := by rw [hsp]; rfl
  simp only [emit, foldl_present _ hsp hroom, State.setCtx, State.lane_setLane, State.setLane_setLane, he, if_true]
  cases k <;> rfl

/-- The record of UWR (R163). -/
def uwrRec (p : Program) (k : CtxKind) (c : LaneCtx) (addr value : Nat) : EffectRec :=
  { kind := 3, size := 2, last := false, safety := partSafe p c, tag := .good, addr, beats := [value], ctx := k }

/-- The record of VSYNC (R161). -/
def vsyncRec (p : Program) (k : CtxKind) (c : LaneCtx) (value : Nat) : EffectRec :=
  { kind := 5, size := 3, last := false, safety := partSafe p c, tag := .good, addr := c.pc.toNat, beats := [value], ctx := k }

/-- Settles O17: each record at the end of the queue, which has room. -/
theorem effectsEnterTheQueue : Obligations.EffectsEnterTheQueue := by
  unfold Obligations.EffectsEnterTheQueue
  intro s l k c hq
  refine ⟨fun f h hty hi hrd => ⟨?_, fun hrb => ?_⟩, fun f h hrd hra => ?_, fun f h hty hi hrd hra hrb hroom => ?_⟩
  · intro addr
    have hex : exec (.uwr l f) s = .next (if addr < 0xF0000000 then except s l k c xSpaceBound 7 addr
        else (s.present l (uwrRec (laneProg s l) k c addr ((c.rd f.rb.toNat).toNat % 2 ^ 32))).setCtx l k
          { c.past 4 with wait := if inComposite addr then .composite else .none }) := by
      change execUwr l f s = _
      rw [execUwr, issue_plain (regs := RFmt.regs f) h (plain_iff.mpr ⟨hi, hty, .inr hrd, .inl rfl, .inl rfl⟩), len_of_register hi]
      simp only [hq, Bool.false_eq_true, if_false, bOf, hi]
      rfl
    refine ⟨fun ha => ?_, fun ha => except_excepts hq (hex.trans (congrArg _ (if_pos ha)))⟩
    rw [if_neg (Nat.not_lt.mpr ha), present_setCtx hq] at hex
    exact ⟨_, hex, rfl, rfl, rfl, rfl, rfl, rfl⟩
  · have hex : exec (.vsync l f) s = .next ((s.present l (vsyncRec (laneProg s l) k c (c.rd f.ra.toNat).toNat)).setCtx l k
        (c.past 4)) := by
      change execVsync l f s = _
      rw [execVsync, issue_plain (regs := RFmt.regs f) h (plain_iff.mpr ⟨hi, hty, .inr hrd, .inl rfl, .inr hrb⟩), len_of_register hi]
      simp only [hq, Bool.false_eq_true, if_false]
      rfl
    rw [present_setCtx hq] at hex
    exact ⟨_, hex, rfl, rfl, rfl, rfl, rfl, rfl⟩
  · refine except_excepts (space := 0) (addr := f.imm.toNat) hq ?_
    change execTrap l f s = _
    rw [execTrap, show (decide (f.rd = 0) && decide (f.ra = 0)) = true by simp [hrd, hra], issue_runs h]
    rfl
  · have hsp : (s.lane l).spill = [] := by simpa [queueFull] using (Bool.or_eq_false_iff.mp hq).2
    change execCmt l f s = _
    rw [execCmt, issue_plain h (plain_iff.mpr ⟨hi, hty, .inr hrd, .inr hra, .inr hrb⟩), len_of_register hi]
    exact congrArg _ (emit_queue hsp hroom)

end Sys2Proof.Machine
end

section
/-! The address of a unit's register (Table UNIT-7). -/

namespace Sys2Proof.Machine

open Sys2Proof

/-- The unit of a 64 KiB page of control space below the cards' windows, by the offset in the page. -/
def unitOfPage (p off : Nat) : Option (UnitId × Nat) :=
  match p with
  | 0xF000 => some (.sys, off) | 0xF001 => some (.tick, off) | 0xF002 => some (.place, off)
  | 0xF003 =>
    if 0x8000 ≤ off && off < 0xB000 then (Lane.ofNat? ((off - 0x8000) / 0x1000)).map fun l => (.lane l, off % 0x1000)
    else some (.voter, off)
  | 0xF004 => some (.pair, off) | 0xF005 => some (.flt, off) | 0xF006 => some (.safe, off)
  | 0xF020 =>
    if 0x4000 ≤ off && off < 0x8000 then (fin? 4 ((off - 0x4000) / 0x1000)).map fun x => (.eth x, off % 0x1000)
    else if 0x8000 ≤ off && off < 0xC000 then (fin? 4 ((off - 0x8000) / 0x1000)).map fun x => (.ser x, off % 0x1000)
    else if 0xC000 ≤ off && off < 0xD000 then some (.svc, off % 0x1000)
    else some (.net, off)
  | 0xF030 => some (.time, off)
  | 0xF040 =>
    if 0x4000 ≤ off && off < 0x8000 then (fin? 4 ((off - 0x4000) / 0x1000)).map fun n => (.link n, off % 0x1000)
    else some (.hlk, off)
  | 0xF050 => some (.clk, off) | 0xF060 => some (.evr, off) | 0xF070 => some (.lcs, off) | 0xF080 => some (.pwr, off)
  | p => if 0xF010 ≤ p && p < 0xF016 then (fin? 6 (p - 0xF010)).map fun n => (.can n, off) else none

theorem unitOfAddr_page {a p off : Nat} (ha : a = p * 0x10000 + off) (ho : off < 0x10000) (hp : 0xF000 ≤ p) (hp' : p < 0xF100) :
    unitOfAddr a = unitOfPage p off := by
  have hd : a / 0x10000 = p := by omega
  have hm : a % 0x10000 = off := by omega
  rw [unitOfAddr, if_neg (by simp; omega), if_neg (by omega), if_neg (by omega), if_neg (by omega), hd, hm]
  rfl

/-- A register of a plain unit lies in the unit's window. -/
theorem unitOfAddr_base {u : UnitId} (h : plainUnit u = true) {off : Nat} (ho : off < 0x1000) :
    unitOfAddr (baseOf u + off) = some (u, off) := by
  have page {p q : Nat} (hb : baseOf u + off = p * 0x10000 + q) (hq : q < 0x10000) (hp : 0xF000 ≤ p) (hp' : p < 0xF100) :=
    unitOfAddr_page hb hq hp hp'
  cases u with
  | sys | net | lane | card | pairUnit | partner | composite => simp [plainUnit] at h
  | can n =>
    rw [page (p := 0xF010 + n) (q := off) (by simp only [baseOf]; omega) (by omega) (by omega) (by omega)]
    obtain ⟨m, hm⟩ := n
    have hn : m = 0 ∨ m = 1 ∨ m = 2 ∨ m = 3 ∨ m = 4 ∨ m = 5 := by omega
    rcases hn with rfl | rfl | rfl | rfl | rfl | rfl <;> simp [unitOfPage, fin?]
  | eth x =>
    rw [page (p := 0xF020) (q := 0x4000 + x * 0x1000 + off) (by simp only [baseOf]; omega) (by omega) (by decide) (by decide), unitOfPage]
    have hd : (0x4000 + x * 0x1000 + off - 0x4000) / 0x1000 = x := by omega
    have hm : (0x4000 + x * 0x1000 + off) % 0x1000 = off := by omega
    rw [if_pos (by simp; omega), hd, hm]
    simp [fin?]
  | ser x =>
    rw [page (p := 0xF020) (q := 0x8000 + x * 0x1000 + off) (by simp only [baseOf]; omega) (by omega) (by decide) (by decide), unitOfPage]
    have hd : (0x8000 + x * 0x1000 + off - 0x8000) / 0x1000 = x := by omega
    have hm : (0x8000 + x * 0x1000 + off) % 0x1000 = off := by omega
    rw [if_neg (by simp; omega), if_pos (by simp; omega), hd, hm]
    simp [fin?]
  | svc =>
    rw [page (p := 0xF020) (q := 0xC000 + off) (by simp only [baseOf]; omega) (by omega) (by decide) (by decide), unitOfPage]
    rw [if_neg (by simp; omega), if_neg (by simp), if_pos (by simp; omega), show (0xC000 + off) % 0x1000 = off by omega]
  | link n =>
    rw [page (p := 0xF040) (q := 0x4000 + n * 0x1000 + off) (by simp only [baseOf]; omega) (by omega) (by decide) (by decide), unitOfPage]
    have hd : (0x4000 + n * 0x1000 + off - 0x4000) / 0x1000 = n := by omega
    have hm : (0x4000 + n * 0x1000 + off) % 0x1000 = off := by omega
    rw [if_pos (by simp; omega), hd, hm]
    simp [fin?]
  | voter =>
    rw [page (p := 0xF003) (q := off) rfl (by omega) (by decide) (by decide), unitOfPage, if_neg (by simp; omega)]
  | hlk =>
    rw [page (p := 0xF040) (q := off) rfl (by omega) (by decide) (by decide), unitOfPage, if_neg (by simp; omega)]
  | tick => exact page (p := 0xF001) rfl (by omega) (by decide) (by decide)
  | place => exact page (p := 0xF002) rfl (by omega) (by decide) (by decide)
  | pair => exact page (p := 0xF004) rfl (by omega) (by decide) (by decide)
  | flt => exact page (p := 0xF005) rfl (by omega) (by decide) (by decide)
  | safe => exact page (p := 0xF006) rfl (by omega) (by decide) (by decide)
  | time => exact page (p := 0xF030) rfl (by omega) (by decide) (by decide)
  | clk => exact page (p := 0xF050) rfl (by omega) (by decide) (by decide)
  | evr => exact page (p := 0xF060) rfl (by omega) (by decide) (by decide)
  | lcs => exact page (p := 0xF070) rfl (by omega) (by decide) (by decide)
  | pwr => exact page (p := 0xF080) rfl (by omega) (by decide) (by decide)

end Sys2Proof.Machine
end

section
/-! Waits that end with their outcome (O18). -/

namespace Sys2Proof.Machine

open Sys2Proof

theorem ctx_of_waitingCtx {s : State} {l : Lane} {k : CtxKind} {c : LaneCtx} (h : waitingCtx s l = some (k, c)) :
    (s.lane l).ctx k = c := by
  simp only [waitingCtx] at h
  grind

theorem execFenceCompletion_eq {s : State} {l : Lane} {k : CtxKind} {c : LaneCtx} (h : waitingCtx s l = some (k, c))
    (hc : c.wait = .fence) (hq : (s.lane l).queue = []) (hsp : (s.lane l).spill = []) (hw : ∀ r ∈ s.hlk.queue, r.write = none) :
    execFenceCompletion l s = .next ((postedDone s).setCtx l k c.fenceEnd) := by
  have hwq : writeQueued s l k = false := by
    simp only [writeQueued, List.any_eq_false, Bool.and_eq_true, not_and]
    exact fun r hr h => by simp [hw r hr] at h
  simp [execFenceCompletion, fenceDone, h, hc, unvoted, hq, hsp, hwq]

theorem execTwaitCompletion_eq {s : State} {l : Lane} {k : CtxKind} {c : LaneCtx} {t target : Nat}
    (h : waitingCtx s l = some (k, c)) (hc : c.wait = .twait target) (ht : target ≤ t) (hg : target < guardInstant s) :
    execTwaitCompletion l t s = .next ((s.at_ t).setCtx l k (c.twaitEnd true)) := by
  have h' : waitingCtx (s.at_ t) l = some (k, c) := h
  have hg' : target < guardInstant (s.at_ t) := hg
  have ht' : target ≤ (s.at_ t).tb3 := Nat.le_trans ht (Nat.le_max_right ..)
  simp [execTwaitCompletion, twaitDone, h', hc, ht', hg']

theorem execUrdCompletion_eq {s : State} {l : Lane} {k : CtxKind} {c : LaneCtx} {rd addr v : Nat} {ok : Bool}
    (h : waitingCtx s l = some (k, c)) (hc : c.wait = .urd rd addr (some (v, ok))) :
    execUrdCompletion l s = .next (s.setCtx l k (c.urdEnd rd v ok)) := by
  have hk := ctx_of_waitingCtx h
  simp [execUrdCompletion, urdDone, h, hc, hk]

/-! ### A URD -/

section
variable {s : State} {l : Lane} {k : CtxKind} {c : LaneCtx} {f : RFmt}

/-- URD with its unused fields zero. -/
theorem exec_urd (h : Executes s l [f.rd.toNat, f.ra.toNat] 4 k c) (hty : f.ty = 0) (hi : f.i = false) (hrb : f.rb = 0) :
    exec (.urd l f) s = .next (let addr := (c.rd f.ra.toNat).toNat % 2 ^ 32
      if addr < 0xF0000000 then except s l k c xSpaceBound 7 addr
      else tryRead (s.setCtx l k { c with wait := .urd f.rd.toNat addr none }) l k addr) := by
  change execUrd l f s = _
  rw [execUrd, issue_plain h (plain_iff.mpr ⟨hi, hty, .inl rfl, .inl rfl, .inr hrb⟩)]
  rfl

/-- Nothing of the context is under way and it has asked no card. -/
theorem quiet_of_empty (hq : (s.lane l).queue = []) (hsp : (s.lane l).spill = []) (hh : s.hlk.queue = []) (hp : s.hlk.posted = [])
    (hr : s.hlk.heldRead = none) (k : CtxKind) (addr : Nat) : uwrPending s l k = false ∧ asked s l k addr = false := by
  constructor
  · simp [uwrPending, uwrWaits, writeQueued, writePosted, hq, hsp, hh, hp]
  · simp [asked, hh, hr]

/-- A read of a control block other than its result window has no effect. -/
theorem readEffect_ucb {u : UnitId} {off : Nat} (ho : off < 0x20) (h4 : off % 4 = 0) (hne : off ≠ 0x18) (s : State) (bank : Nat) :
    readEffect s u bank off = s := by
  have hoff : off = 0 ∨ off = 4 ∨ off = 8 ∨ off = 0xC ∨ off = 0x10 ∨ off = 0x14 ∨ off = 0x1C := by omega
  rcases hoff with rfl | rfl | rfl | rfl | rfl | rfl | rfl <;> cases u <;> rfl

theorem baseOf_aligned (u : UnitId) : baseOf u % 0x1000 = 0 ∧ 0xF0000000 ≤ baseOf u := by
  cases u with
  | lane l => cases l <;> decide
  | can | eth | ser | link | card | composite => simp only [baseOf]; omega
  | _ => decide

/-- A unit that is neither a card nor a composite is always in the tree. -/
theorem inTree_of_plain {u : UnitId} (hu : plainUnit u = true) (s : State) : inTree s u = true := by
  cases u with
  | card | composite => cases hu
  | _ => rfl

/-- A program reads the control block of a plain unit at once. -/
theorem programRead_ucb {u : UnitId} (hu : plainUnit u = true) {off : Nat} (ho : off < 0x20) (h4 : off % 4 = 0) (hne : off ≠ 0x18)
    (s : State) (w : Writer) (l : Lane) (k : CtxKind) :
    programRead s w l k (baseOf u + off) = (some ((ucbRead s u off).toNat, true), s) := by
  have ha := unitOfAddr_base hu (off := off) (by omega)
  have hb : (baseOf u + off) % 4 = 0 := by have := (baseOf_aligned u).1; omega
  have hr : readRegister s w (baseOf u + off) = (((ucbRead s u off).toNat, true), s) := by
    simp [readRegister, hb, ha, inTree_of_plain hu, accessError, ho, readEffect_ucb ho h4 hne]
  rw [programRead, ha, hr]
  cases u with
  | card => cases hu
  | _ => rfl

/-- A read that arrives for the context that waits for it: its value, kept for the lanes of the voted set that come later. -/
theorem readArrived_eq (s : State) (l : Lane) (k : CtxKind) (c : LaneCtx) (rd addr v : Nat) (ok : Bool) :
    readArrived (s.setCtx l k { c with wait := .urd rd addr none }) l k addr v ok
      = leaveReplay (s.setCtx l k { c with wait := .urd rd addr (some (v, ok)) }) l k 0 addr v ok := by
  simp [readArrived, State.setCtx]

/-- What a read leaves for the other lanes names its address and value, and not the reader. -/
theorem leaveReplay_eq {s : State} (hs : s.voter.replay = []) (l : Lane) (k : CtxKind) (len addr v : Nat) (ok : Bool) :
    ∃ rs : List Replay, leaveReplay s l k len addr v ok = { s with voter := { s.voter with replay := rs } } ∧
      ∀ x ∈ rs, x.ctx = k ∧ x.addr = addr ∧ x.value = v ∧ l ∉ x.left := by
  unfold leaveReplay
  extract_lets left
  have hleft : l ∉ left := by simp only [left]; split <;> simp
  by_cases h : left.isEmpty = true
  · exact ⟨[], by rw [if_pos h, ← hs], by simp⟩
  · exact ⟨_, if_neg h, by simp [hs, hleft]⟩

end

/-- Settles O18: what each completion finds, and the URD by what the replay buffer holds. -/
theorem waitsEndWithTheirOutcome : Obligations.WaitsEndWithTheirOutcome := by
  unfold Obligations.WaitsEndWithTheirOutcome
  refine ⟨fun s l k c h => ⟨fun hc hq hsp hw => execFenceCompletion_eq h hc hq hsp hw,
    fun t target hc ht hg => execTwaitCompletion_eq h hc ht hg, fun rd addr v ok hc => execUrdCompletion_eq h hc⟩,
    fun s l k c f r h hty hi hrb => ?_⟩
  intro addr
  have hex := exec_urd h hty hi hrb
  refine ⟨fun ha hq => except_excepts hq (hex.trans (congrArg _ (if_pos ha))), fun u off hu ho h4 hne ha hrep hq hsp hh hp hr => ?_,
    fun ha hrole hrep hk hl hra hleft => ?_⟩
  · have hge : ¬ addr < 0xF0000000 := by have := (baseOf_aligned u).2; omega
    let s' := s.setCtx l k { c with wait := .urd f.rd.toNat addr none }
    have hnone : replayFor s' l k 0 addr = none := by simp [replayFor, s', hrep]
    have hquiet := quiet_of_empty (s := s') (l := l) (by simpa [s'] using hq) (by simpa [s'] using hsp)
      (by simpa [s'] using hh) (by simpa [s'] using hp) (by simpa [s'] using hr) k addr
    have hucb : ucbRead s' u off = ucbRead s u off := by cases l <;> rfl
    have hread : tryRead s' l k addr
        = leaveReplay (s.setCtx l k { c with wait := .urd f.rd.toNat addr (some ((ucbRead s u off).toNat, true)) }) l k 0 addr
          (ucbRead s u off).toNat true := by
      simp only [tryRead, hnone, hquiet.1, hquiet.2, Bool.or_self, Bool.false_eq_true, if_false]
      rw [ha, programRead_ucb hu ho h4 hne, hucb, ← ha]
      exact readArrived_eq ..
    obtain ⟨rs, hrs, hmem⟩ := leaveReplay_eq (s := s.setCtx l k { c with wait := .urd f.rd.toNat addr (some ((ucbRead s u off).toNat, true)) })
      (by simpa using hrep) l k 0 addr (ucbRead s u off).toNat true
    rw [if_neg hge] at hex
    refine ⟨_, hex, ?_⟩
    rw [hread, hrs]
    refine ⟨?_, ?_, hmem⟩
    · cases l <;> rfl
    · cases l <;> rfl
  · rw [if_neg (Nat.not_lt.mpr ha)] at hex
    let s' := s.setCtx l k { c with wait := .urd f.rd.toNat addr none }
    have hfind : replayFor s' l k 0 addr = some r := by simp [replayFor, hrole, s', hrep, hk, hl, hra, hleft]
    have hread : tryRead s' l k addr
        = (takeReplay s' l k 0 addr).setCtx l k { c with wait := .urd f.rd.toNat addr (some (r.value, r.ok)) } := by
      rw [tryRead, hfind, State.ctx_setCtx]
    refine ⟨_, hex, ?_⟩
    rw [hread, State.ctx_setCtx]
    exact ⟨rfl, rfl⟩

end Sys2Proof.Machine
end

section
/-! Common commands (O19): a port whose link carries the last clock takes the module into reset. -/

namespace Sys2Proof.Machine

open Sys2Proof

/-- A running module whose FRC and TCXO have failed and whose recovered reference comes from ETH0; that port stands in QUIESCED with a
result that nobody has read. -/
def lastClockOnEth : State :=
  let s := State.reset.setUcb (.eth 0) fun b =>
    { b with state := .quiesced, gateOpen := true, result := { valid := true, fresh := true, lost := false, value := 0 } }
  { s with clk := { s.clk with refInUse := 1, failed := 5 }, pwr := { s.pwr with inReset := false } }

/-- GATE_OFF of that port takes the last reference away: the module resets (R449, R452), and the unread result is gone with it. -/
theorem gateOff_lastClockOnEth : ∃ t, exec (.gateOff .safety (.eth 0) 0) lastClockOnEth = .next t ∧
    (t.ucb (.eth 0)).result.lost = false := ⟨_, rfl, rfl⟩

/-- Refutes O19: GATE_OFF of a port that carries the last clock resets the module, so that the command's own result does not show the
unread one as LOST. -/
theorem not_commonCommandsMoveTheUnit : ¬ Obligations.CommonCommandsMoveTheUnit := by
  unfold Obligations.CommonCommandsMoveTheUnit
  intro h
  obtain ⟨-, hquiesced, -⟩ := h lastClockOnEth .safety (.eth 0) rfl rfl rfl
  obtain ⟨-, -, hgate, -⟩ := hquiesced rfl
  obtain ⟨t, ht, -, -, -, -, hresult⟩ := hgate rfl
  obtain ⟨t', ht', hlost⟩ := gateOff_lastClockOnEth
  obtain rfl : t = t' := Host.Outcome.next.inj (ht.symm.trans ht')
  rw [hresult] at hlost
  exact absurd hlost (by decide)

end Sys2Proof.Machine
end

section
/-! A frame as an equation: the state that an operation gives is the one before with the named parts replaced. -/

namespace Sys2Proof.Machine

open Sys2Proof

/-- A part taken from a list's owner, or kept. -/
def Part.pick {α : Type} (ps : List Part) (p : Part) (old new : α) : α := if p ∈ ps then new else old

/-- The state with the named parts of another. -/
def State.withParts (s : State) (ps : List Part) (t : State) : State :=
  { pending := Part.pick ps .pending s.pending t.pending, freeCount := Part.pick ps .freeCount s.freeCount t.freeCount,
    regs := Part.pick ps .regs s.regs t.regs, regsPending := Part.pick ps .regsPending s.regsPending t.regsPending,
    ucbs := Part.pick ps .ucbs s.ucbs t.ucbs, flt := Part.pick ps .flt s.flt t.flt, evr := Part.pick ps .evr s.evr t.evr,
    tick := Part.pick ps .tick s.tick t.tick, time := Part.pick ps .time s.time t.time, clk := Part.pick ps .clk s.clk t.clk,
    lcs := Part.pick ps .lcs s.lcs t.lcs, upd := Part.pick ps .upd s.upd t.upd, pwr := Part.pick ps .pwr s.pwr t.pwr,
    safe := Part.pick ps .safe s.safe t.safe, cans := Part.pick ps .cans s.cans t.cans, net := Part.pick ps .net s.net t.net,
    hlk := Part.pick ps .hlk s.hlk t.hlk, laneA := Part.pick ps .laneA s.laneA t.laneA, laneB := Part.pick ps .laneB s.laneB t.laneB,
    laneC := Part.pick ps .laneC s.laneC t.laneC, voter := Part.pick ps .voter s.voter t.voter,
    place := Part.pick ps .place s.place t.place, pair := Part.pick ps .pair s.pair t.pair, prog := Part.pick ps .prog s.prog t.prog,
    bulk := Part.pick ps .bulk s.bulk t.bulk }

theorem Part.pick_eq {α : Type} {ps : List Part} {p : Part} {old new : α} (h : p ∉ ps → new = old) : Part.pick ps p old new = new := by
  unfold Part.pick
  split
  · rfl
  · rename_i hp; exact (h hp).symm

/-- A framed operation gives the old state with the named parts of the new one. -/
theorem SameBut.eq_withParts {ps : List Part} {s t : State} (h : SameBut ps s t) : t = s.withParts ps t := by
  unfold State.withParts
  rw [Part.pick_eq (h.same .pending), Part.pick_eq (h.same .freeCount), Part.pick_eq (h.same .regs), Part.pick_eq (h.same .regsPending),
    Part.pick_eq (h.same .ucbs), Part.pick_eq (h.same .flt), Part.pick_eq (h.same .evr), Part.pick_eq (h.same .tick),
    Part.pick_eq (h.same .time), Part.pick_eq (h.same .clk), Part.pick_eq (h.same .lcs), Part.pick_eq (h.same .upd),
    Part.pick_eq (h.same .pwr), Part.pick_eq (h.same .safe), Part.pick_eq (h.same .cans), Part.pick_eq (h.same .net),
    Part.pick_eq (h.same .hlk), Part.pick_eq (h.same .laneA), Part.pick_eq (h.same .laneB), Part.pick_eq (h.same .laneC),
    Part.pick_eq (h.same .voter), Part.pick_eq (h.same .place), Part.pick_eq (h.same .pair), Part.pick_eq (h.same .prog),
    Part.pick_eq (h.same .bulk)]

/-- An operation on the control blocks alone. -/
theorem SameBut.eq_ucbs {s t : State} (h : SameBut [.ucbs] s t) : t = { s with ucbs := t.ucbs } := h.eq_withParts

end Sys2Proof.Machine
end

section
/-! Refused commands (O20). -/

namespace Sys2Proof.Machine

open Sys2Proof

theorem isGroup_of_plain {u : UnitId} (hu : plainUnit u = true) : isGroup u = false := by
  cases u with
  | sys | net => cases hu
  | _ => rfl

theorem followsMembers_of_plain {u : UnitId} (hu : plainUnit u = true) : followsMembers u = false := by
  cases u with
  | sys | net | pairUnit | card => cases hu
  | _ => rfl

/-- A plain unit shows the state of its own control block. -/
theorem stateOf_of_plain {u : UnitId} (hu : plainUnit u = true) (s : State) : s.stateOf u = (s.ucb u).state := by
  cases u with
  | sys | net | pairUnit | partner | card | composite => cases hu
  | _ => rfl

/-- The checks of a command to a plain unit are those of that unit alone. -/
theorem commandCheck_of_plain {u : UnitId} (hu : plainUnit u = true) (s : State) (w : Writer) (code arg : Nat) :
    commandCheck s w u code arg = (oneCheck s w u code arg, none) := by
  unfold commandCheck
  rw [isGroup_of_plain hu]
  cases u with
  | composite => cases hu
  | _ => cases oneCheck s w _ code arg <;> rfl

/-- A command written to a plain unit runs if it passes its checks, and is refused by the unit itself if not. -/
theorem ucbCommand_of_plain {u : UnitId} (hu : plainUnit u = true) {code : Nat} (hc : code ≠ 0) (s : State) (w : Writer) (arg : Nat) :
    ucbCommand s w u code arg = match oneCheck s w u code arg with
      | .ok => if code < 0x80 then runCommon s w u code arg else runSpecific s w u code arg
      | st => refuse s u code st none := by
  have hcc := commandCheck_of_plain hu s w code arg
  unfold ucbCommand
  rw [inTree_of_plain hu, if_neg hc]
  cases u with
  | card => cases hu
  | _ => simp only [Bool.not_true, Bool.false_eq_true, if_false, hcc]; cases oneCheck s w _ code arg <;> rfl

theorem ucb_of_ucbs {s t : State} (h : t.ucbs = s.ucbs) (u : UnitId) : t.ucb u = s.ucb u := by rw [State.ucb, State.ucb, h]

/-- A refusal changes UCB_STATUS, and for ILLEGAL_STATE the count and the recorder (R31, R34). -/
theorem refuse_spec (s : State) (u : UnitId) (code : Nat) (st : Status) :
    let t := refuse s u code st none
    t = { s with ucbs := t.ucbs, evr := t.evr } ∧ (∀ v, v ≠ u → t.ucb v = s.ucb v) ∧
      t.ucb u = { s.ucb u with code := st, cmd := code,
                               refused := if st = .illegalState then min 0xFFFF ((s.ucb u).refused + 1) else (s.ucb u).refused } := by
  let body := s.setUcb u fun b => { b with code := st, cmd := code, refused := if st = .illegalState then satUp 0xFFFF b.refused else b.refused }
  have hsat : satUp 0xFFFF (s.ucb u).refused = min 0xFFFF ((s.ucb u).refused + 1) := by unfold satUp; split <;> omega
  have hbody : body.ucb u = { s.ucb u with code := st, cmd := code,
                                           refused := if st = .illegalState then min 0xFFFF ((s.ucb u).refused + 1) else (s.ucb u).refused } := by
    simp only [body, State.ucb_setUcb, hsat]
  have hrec : SameBut [.evr] body (refuse s u code st none) :=
    SameBut.ite (offerLimited_same ..) (SameBut.refl _ _)
  have hu (v : UnitId) : (refuse s u code st none).ucb v = body.ucb v := ucb_of_ucbs (hrec.same .ucbs (by decide)) v
  have hall : SameBut [.ucbs, .evr] s (refuse s u code st none) := ((setUcb_same ..).mono (by decide)).trans (hrec.mono (by decide))
  exact ⟨hall.eq_withParts, fun v hv => (hu v).trans (State.ucb_setUcb_ne s hv _), (hu u).trans hbody⟩

/-- Settles O20: the check that turns the command away, in the order of R31, and what a refusal does. -/
theorem refusedCommandsHaveNoEffect : Obligations.RefusedCommandsHaveNoEffect := by
  unfold Obligations.RefusedCommandsHaveNoEffect
  intro s w u arg i code hu hi b argOk st hst
  have hexec : exec i s = .next (ucbCommand s w u code arg.toNat) ∧ 1 ≤ code ∧ code ≤ 7 := by
    simp only [List.mem_cons, Prod.mk.injEq, List.not_mem_nil, or_false] at hi
    rcases hi with ⟨rfl, rfl⟩ | ⟨rfl, rfl⟩ | ⟨rfl, rfl⟩ | ⟨rfl, rfl⟩ | ⟨rfl, rfl⟩ | ⟨rfl, rfl⟩ | ⟨rfl, rfl⟩ <;>
      exact ⟨rfl, by decide, by decide⟩
  obtain ⟨hexec, h1, h7⟩ := hexec
  have hlcs : (decide (u = .lcs) && decide (code = 0x81)) = false := by simp; omega
  have hcode : codeArgOk s u code arg.toNat = argOk := by simp [codeArgOk, argOk, h7]
  have hok (he : entitled s w u code arg.toNat = true) (ht : (s.ucb u).token = none) (hb : (s.ucb u).busy = false) :
      firstChecks s w u code arg.toNat = .ok := by simp [firstChecks, he, ht, hb]
  have hcheck : oneCheck s w u code arg.toNat = st ∧ st ≠ .ok := by
    rcases hst with ⟨he, rfl⟩ | ⟨he, hw, ht, rfl⟩ | ⟨he, ht, hb, hn, rfl⟩ | ⟨he, ht, hb, ha, rfl⟩ | ⟨he, ht, hb, ha, hm, hs, rfl⟩
    · simp [oneCheck, firstChecks, he]
    · simp [oneCheck, firstChecks, he, hw, hlcs, show (s.ucb u).token.isSome = true from ht]
    · have hn' : (decide (code = 7) && decide ((s.ucb u).state = .test)) = false := by simpa using not_and.mp hn
      simp [oneCheck, firstChecks, he, hlcs, show (s.ucb u).token = none from ht, show (s.ucb u).busy = true from hb, hn']
    · simp [oneCheck, hok he ht hb, hcode, ha]
    · have hill : stateCheck (s.ucb u).state code = .illegalState := by
        simp only [List.mem_cons, Prod.mk.injEq, List.not_mem_nil, or_false] at hs
        rcases hs with ⟨h, rfl⟩ | ⟨h, rfl⟩ | ⟨h, rfl⟩ | ⟨h, rfl⟩ | ⟨h, rfl⟩ | ⟨h, rfl⟩ | ⟨h, rfl⟩ | ⟨h, rfl⟩ | ⟨h, rfl⟩ | ⟨h, rfl⟩ |
          ⟨h, rfl⟩ | ⟨h, rfl⟩ | ⟨h, rfl⟩ | ⟨h, rfl⟩ | ⟨h, rfl⟩ | ⟨h, rfl⟩ | ⟨h, rfl⟩ | ⟨h, rfl⟩ <;>
          rw [show (s.ucb u).state = _ from h] <;> rfl
      simp [oneCheck, hok he ht hb, hcode, ha, stateOf_of_plain hu, hill]
  refine ⟨_, hexec, ?_⟩
  have hrun : ucbCommand s w u code arg.toNat = refuse s u code st none := by
    rw [ucbCommand_of_plain hu (by omega), hcheck.1]
    cases st with
    | ok => exact absurd rfl hcheck.2
    | _ => rfl
  rw [hrun]
  exact refuse_spec s u code st

end Sys2Proof.Machine
end

section
/-! Ends of commands (O21): a self-test that fails on the port that carries the last clock. -/

namespace Sys2Proof.Machine

open Sys2Proof

/-- A running module whose FRC and TCXO have failed and whose recovered reference comes from ETH0; that port runs its self-test. -/
def lastClockInTest : State :=
  let s := State.reset.setUcb (.eth 0) fun b =>
    { b with state := .test, gateOpen := true, busy := true, code := .ok, cmd := 5, running := some { code := 5, arg := 1, writer := .safety } }
  { s with clk := { s.clk with refInUse := 1, failed := 5 }, pwr := { s.pwr with inReset := false } }

/-- The failed self-test takes the last reference away: the module resets (R449, R452), and the port stands in OFF. -/
theorem selfTestEnd_lastClockInTest : ∃ t, exec (.selfTestEnd (.eth 0) false) lastClockInTest = .next t ∧ (t.ucb (.eth 0)).state = .off :=
  ⟨_, rfl, rfl⟩

/-- Refutes O21: a self-test that fails on the port that carries the last clock resets the module, and the unit is not left in FAULT. -/
theorem not_commandsEndWithTheirOutcome : ¬ Obligations.CommandsEndWithTheirOutcome := by
  unfold Obligations.CommandsEndWithTheirOutcome
  intro h
  obtain ⟨-, htest, -⟩ := h lastClockInTest (.eth 0) { code := 5, arg := 1, writer := .safety } rfl
  obtain ⟨-, t, ht, hfault, -⟩ := htest rfl rfl rfl
  obtain ⟨t', ht', hoff⟩ := selfTestEnd_lastClockInTest
  obtain rfl : t = t' := Host.Outcome.next.inj (ht.symm.trans ht')
  rw [hfault] at hoff
  cases hoff

end Sys2Proof.Machine
end

section
/-! Register writes (O22). -/

namespace Sys2Proof.Machine

open Sys2Proof

theorem failAccess_same (s : State) (w : Writer) (addr kind : Nat) : SameBut [.ucbs] s (failAccess s w addr kind) := by
  unfold failAccess errorResponse
  split
  · exact (raise_same ..).trans (raise_same ..)
  · exact raise_same ..

/-- The address of a register of a plain unit, as a word. -/
theorem toNat_address (u : UnitId) {off : Nat} (ho : off < 0x1000) : (BitVec.ofNat 32 (baseOf u + off)).toNat = baseOf u + off := by
  have hb : baseOf u ≤ 0xFFFFE000 := by
    cases u with
    | lane l => cases l <;> decide
    | can | eth | ser | link | card | composite => simp only [baseOf]; omega
    | _ => decide
  rw [BitVec.toNat_ofNat]
  omega

theorem baseOf_add_mod (u : UnitId) (off : Nat) : (baseOf u + off) % 4 = off % 4 := by have := (baseOf_aligned u).1; omega

section
variable {s : State} {w : Writer} {by_ : NearBy} {u : UnitId} {a off : Nat} {d : RegDef} {v : W32}

/-- A word written to a register of a unit that is no card, once the address is known. -/
theorem writeRegister_at (ha : unitOfAddr a = some (u, off)) (h4 : a % 4 = 0) (ht : inTree s u = true)
    (hc : ∀ slot sub, u ≠ .card slot sub) (ho : 0x20 ≤ off) : writeRegister s w by_ a v 4 =
      match regAt s u off with
      | none => (false, failAccess s w a 0xF1)
      | some d =>
        if !(w = .module || mayCommand s w u) then (false, failAccess s w a 0xF3)
        else
          match accessError s u off with
          | some k => (false, if k = 0 then s else failAccess s w a k)
          | none => deliverWrite s u (bankOf w) off d v := by
  unfold writeRegister
  rw [if_neg (by simp [h4]), ha]
  cases u with
  | card slot sub => exact absurd rfl (hc slot sub)
  | _ =>
    simp only [ht, Bool.not_true, Bool.false_eq_true, if_false, if_neg (show ¬ off = 8 by omega), if_neg (show ¬ off < 0x20 by omega)] <;> rfl

/-- A unit that is open and does not drain gives no access error at a register that it presents. -/
theorem accessError_of_open (hr : regAt s u off = some d) (hopen : unitOpen s u = true) (hd : (s.ucb u).draining = false) :
    accessError s u off = none := by
  simp [accessError, hr, hopen, hd]

/-- A write that passes every check is delivered. -/
theorem writeRegister_open (ha : unitOfAddr a = some (u, off)) (h4 : a % 4 = 0) (ht : inTree s u = true)
    (hc : ∀ slot sub, u ≠ .card slot sub) (ho : 0x20 ≤ off) (hr : regAt s u off = some d) (hmay : mayCommand s w u = true)
    (hopen : unitOpen s u = true) (hd : (s.ucb u).draining = false) :
    writeRegister s w by_ a v 4 = deliverWrite s u (bankOf w) off d v := by
  rw [writeRegister_at ha h4 ht hc ho, hr]
  simp [hmay, accessError_of_open hr hopen hd]

/-- A write to a setting stores it, except at a cancel and in the clock mirror. -/
theorem deliverWrite_setting (hcan : ∀ n, u = .can n → off ≠ 0x128) (hclk : u = .clk → off < 0x800) (hset : d.rw ||| d.rws ≠ 0)
    (bank : Nat) : deliverWrite s u bank off d v = (true, storeSetting s u bank off d v) := by
  cases u with
  | can n => simp only [deliverWrite, if_neg (hcan n rfl), if_neg hset]
  | clk => simp only [deliverWrite, if_neg (Nat.not_le.mpr (hclk rfl)), if_neg hset]
  | _ => exact if_neg hset

/-- Only the selecting registers start something. -/
theorem selected?_of_other (h : (u, off) ∉ [(UnitId.tick, 0x104), (.place, 0x118), (.net, 0x10C), (.hlk, 0x120), (.time, 0x100), (.flt, 0x180)])
    (hcan : ∀ n, u = .can n → off ≠ 0x13C) (bank : Nat) : selected? s u bank off v = s := by
  unfold selected?
  split
  case h_2 n => exact absurd rfl (hcan n rfl)
  case h_7 => rfl
  all_goals simp at h

theorem not_card_of_plain (hu : plainUnit u = true) (slot : Fin 32) (sub : Fin 17) : u ≠ .card slot sub := by
  rintro rfl
  cases hu

end

/-- Settles O22. -/
theorem registerWritesReachTheirSetting : Obligations.RegisterWritesReachTheirSetting := by
  unfold Obligations.RegisterWritesReachTheirSetting
  intro s w u off d v hu hlo hhi h4 hr addr obj masked
  have haddr : addr.toNat = baseOf u + off := toNat_address u (by omega)
  have ha : unitOfAddr addr.toNat = some (u, off) := haddr ▸ unitOfAddr_base hu (by omega)
  have hal : addr.toNat % 4 = 0 := by rw [haddr, baseOf_add_mod, h4]
  have hat := writeRegister_at (s := s) (w := w) (by_ := .writer) (v := v) ha hal (inTree_of_plain hu s) (not_card_of_plain hu) (by omega)
  refine ⟨fun hmay hopen hd hok hsel hcan hset => ?_, fun size hbad => ?_, fun a size hbad => ?_⟩
  · have hcan1 (n : Fin 6) (h : u = .can n) : off ≠ 0x13C := ((hcan n).resolve_left (not_not_intro h)).1
    have hcan2 (n : Fin 6) (h : u = .can n) : off ≠ 0x128 := ((hcan n).resolve_left (not_not_intro h)).2
    have htick : (decide (u = .tick) && decide (off = 0x104)) = false := by
      refine Bool.eq_false_iff.2 fun h => ?_
      simp only [Bool.and_eq_true, decide_eq_true_eq] at h
      exact hsel (by simp [h.1, h.2])
    have hrun : exec (.registerWrite w addr v 4) s
        = .next (if d.rws ≠ 0 then s.setRegPending u off obj masked else s.setReg u off obj masked) := by
      change Host.Outcome.next (writeRegister s w .writer addr.toNat v 4).2 = _
      rw [writeRegister_open ha hal (inTree_of_plain hu s) (not_card_of_plain hu) (by omega) hr hmay hopen hd,
        deliverWrite_setting hcan2 (fun _ => hhi) hset]
      unfold storeSetting
      simp only [show settingOk s u off (objOf s u (bankOf w) off) (v &&& (d.rw ||| d.rws)) = true from hok, Bool.not_true,
        Bool.false_eq_true, if_false, htick, selected?_of_other hsel hcan1]
      rfl
    refine ⟨_, hrun, ?_⟩
    by_cases hrws : d.rws = 0
    · rw [if_neg (not_not_intro hrws)]
      exact ⟨rfl, fun _ => ⟨by simp, rfl⟩, fun h => absurd hrws h⟩
    · rw [if_pos hrws]
      exact ⟨rfl, fun h => absurd h hrws, fun _ => ⟨rfl, by simp⟩⟩
  · refine ⟨_, rfl, SameBut.eq_ucbs ?_⟩
    by_cases hs : size = 4
    · subst hs
      rw [hat, hr]
      by_cases hmay : (decide (w = .module) || mayCommand s w u) = true
      · have hclosed : unitOpen s u = false := by
          rcases hbad with h | h | h
          · exact absurd rfl h
          · simp [h.1, h.2] at hmay
          · exact h
        have herr : accessError s u off = if (s.ucb u).draining then some 0 else some 0xF2 := by
          simp [accessError, hr, hclosed, show ¬ off < 0x20 by omega]
        simp only [hmay, Bool.not_true, Bool.false_eq_true, if_false, herr]
        cases (s.ucb u).draining
        · exact failAccess_same ..
        · exact SameBut.refl _ s
      · simp only [Bool.not_eq_true] at hmay
        simp only [hmay, Bool.not_false, if_true]
        exact failAccess_same ..
    · rw [writeRegister, if_pos (by simp [hs])]
      exact failAccess_same ..
  · refine ⟨_, rfl, SameBut.eq_ucbs ?_⟩
    by_cases hs : size ≠ 4 ∨ a.toNat % 4 ≠ 0
    · rw [writeRegister, if_pos (by simpa using hs)]
      exact failAccess_same ..
    · obtain ⟨hs4, hal4⟩ := not_or.mp hs
      rw [Decidable.not_not] at hs4 hal4
      subst hs4
      rcases hbad with h | h | h | ⟨u', off', h, hu', ho', hr'⟩
      · exact absurd rfl h
      · exact absurd hal4 h
      · simp [writeRegister, hal4, h]
        exact failAccess_same ..
      · rw [writeRegister_at h hal4 (inTree_of_plain hu' s) (not_card_of_plain hu') ho', hr']
        exact failAccess_same ..

end Sys2Proof.Machine
end

section
/-! Selections and their fetches (O23). -/

namespace Sys2Proof.Machine

open Sys2Proof

/-- A write to a selecting register of an open unit takes the selection and starts what the register names. -/
theorem writeRegister_selection {s : State} {w : Writer} {u : UnitId} {off bank : Nat} {m v : W32} (ha : unitOfAddr (baseOf u + off) = some (u, off))
    (h4 : off % 4 = 0) (ht : inTree s u = true) (hc : ∀ slot sub, u ≠ .card slot sub) (ho : 0x20 ≤ off)
    (hr : ∃ d, regAt s u off = some d ∧ d.rw = m ∧ d.rws = 0) (hm : m ≠ 0) (hb : objOf s u (bankOf w) off = bank)
    (hopen : mayCommand s w u = true ∧ unitOpen s u = true ∧ (s.ucb u).draining = false)
    (hcan : ∀ n, u = .can n → off ≠ 0x128) (hclk : u = .clk → off < 0x800) (htick : u ≠ .tick)
    (hok : settingOk s u off bank (v &&& m) = true) :
    (writeRegister s w .writer (baseOf u + off) v 4).2 = selected? (s.setReg u off bank (v &&& m)) u (bankOf w) off (v &&& m) := by
  obtain ⟨d, hd, rfl, hrws⟩ := hr
  obtain ⟨hmay, hgate, hdrain⟩ := hopen
  have hmask : d.rw ||| d.rws = d.rw := by rw [hrws]; exact BitVec.or_zero
  have hset : d.rw ||| d.rws ≠ 0 := by rwa [hmask]
  rw [writeRegister_open ha (by rw [baseOf_add_mod, h4]) ht hc ho hd hmay hgate hdrain, deliverWrite_setting hcan hclk hset]
  have hrws' : ¬ d.rws ≠ 0 := not_not_intro hrws
  simp only [storeSetting, hb, hmask, hok, Bool.not_true, Bool.false_eq_true, if_false, htick, decide_false, Bool.false_and, if_neg hrws']

/-- A fetch that begins is busy, and its window holds no result yet. -/
theorem fetchOf_begin (bank sel : Nat) (f : Fetch) (m : NMap Fetch) :
    (fetchOf (mapPut bank (f.begin_ sel) m) bank).busy = true ∧ (fetchOf (mapPut bank (f.begin_ sel) m) bank).result.valid = false := by
  simp [fetchOf, Fetch.begin_, ResultWindow.start]

/-- A fetch that is done is not busy, and its window holds a fresh result. -/
theorem fetchOf_done (bank value : Nat) (ws : List W32) (f : Fetch) (m : NMap Fetch) :
    (fetchOf (mapPut bank (f.done value ws) m) bank).busy = false ∧ (fetchOf (mapPut bank (f.done value ws) m) bank).result.valid = true ∧
      (fetchOf (mapPut bank (f.done value ws) m) bank).result.fresh = true := by
  simp [fetchOf, Fetch.done, ResultWindow.deliver]

theorem mapGet?_copyHistory (s : State) (bank i : Nat) : mapGet? bank (copyHistory s bank i).flt.histCopy = s.flt.history[i]? := by
  unfold copyHistory
  cases s.flt.history[i]? <;> simp

/-- The read of a result window that holds a result takes its freshness. -/
theorem consume_valid {r : ResultWindow} (h : r.valid = true) : r.consume = { r with fresh := false } := if_pos h

/-- A read that meets no error takes its effect on the register's unit. -/
theorem readRegister_effect {s : State} {u : UnitId} {a off : Nat} (ha : unitOfAddr a = some (u, off)) (h4 : a % 4 = 0)
    (ht : inTree s u = true) (he : accessError s u off = none) (hr : off < 0x20 ∨ (regAt s u off).isSome = true) (w : Writer) :
    (readRegister s w a).2 = readEffect s u (bankOf w) off := by
  simp only [readRegister, h4, ha, ht, he, ne_eq, not_true_eq_false, if_false, Bool.not_true, Bool.false_eq_true]
  by_cases ho : off < 0x20
  · rw [if_pos ho]
  · obtain ⟨d, hd⟩ := Option.isSome_iff_exists.mp (hr.resolve_left ho)
    rw [if_neg ho, hd]

/-- Settles O23: each selecting register, each fetch, and the read of a window. -/
theorem selectionsStartTheirFetch : Obligations.SelectionsStartTheirFetch := by
  unfold Obligations.SelectionsStartTheirFetch
  intro s w v bank open_
  refine ⟨fun ho hv => ?_, fun n ho => ?_, fun ho hv => ?_, fun ho hv => ?_, fun ho hv => ?_, fun ho => ?_, fun l => ⟨?_, ?_, ?_, ?_⟩,
    fun hd hop hval => ?_, fun u hu hval => ?_⟩
  · have hall : v &&& 0xFFFFFFFF = v := BitVec.and_allOnes
    have hw := writeRegister_selection (s := s) (w := w) (u := .place) (off := 0x118) (bank := bank) (m := 0xFFFFFFFF) (v := v) rfl rfl rfl (by simp)
      (by decide) ⟨_, rfl, rfl, rfl⟩ (by decide) rfl ho (by simp) (by simp) (by simp) (by rw [hall]; exact hv)
    rw [hall] at hw
    exact ⟨_, congrArg Host.Outcome.next hw, rfl, State.reg_setReg .., fetchOf_begin ..⟩
  · have hw := writeRegister_selection (s := s) (w := w) (u := .can n) (off := 0x13C) (bank := bank) (m := 0x3FF) (v := v)
      (unitOfAddr_base rfl (by decide)) rfl rfl (by simp) (by decide) ⟨_, rfl, rfl, rfl⟩ (by decide) rfl ho (by simp) (by simp) (by simp) rfl
    refine ⟨_, congrArg Host.Outcome.next hw, rfl, State.reg_setReg .., ?_⟩
    simp only [selected?, State.can_setCan]
    exact fetchOf_begin ..
  · have hw := writeRegister_selection (s := s) (w := w) (u := .net) (off := 0x10C) (bank := bank) (m := 0x3FFF) (v := v) rfl rfl rfl (by simp)
      (by decide) ⟨_, rfl, rfl, rfl⟩ (by decide) rfl ho (by simp) (by simp) (by simp) hv
    exact ⟨_, congrArg Host.Outcome.next hw, rfl, State.reg_setReg .., fetchOf_begin ..⟩
  · have hw := writeRegister_selection (s := s) (w := w) (u := .hlk) (off := 0x120) (bank := bank) (m := 0x3F3F) (v := v) rfl rfl rfl (by simp)
      (by decide) ⟨_, rfl, rfl, rfl⟩ (by decide) rfl ho (by simp) (by simp) (by simp) hv
    exact ⟨_, congrArg Host.Outcome.next hw, rfl, State.reg_setReg .., fetchOf_begin ..⟩
  · have hw := writeRegister_selection (s := s) (w := w) (u := .time) (off := 0x100) (bank := bank) (m := 0x7) (v := v) rfl rfl rfl (by simp)
      (by decide) ⟨_, rfl, rfl, rfl⟩ (by decide) rfl ho (by simp) (by simp) (by simp) hv
    exact ⟨_, congrArg Host.Outcome.next hw, rfl, State.reg_setReg ..⟩
  · have hw := writeRegister_selection (s := s) (w := w) (u := .flt) (off := 0x180) (bank := bank) (m := 0xF) (v := v) rfl rfl rfl (by simp)
      (by decide) ⟨_, rfl, rfl, rfl⟩ (by decide) rfl ho (by simp) (by simp) (by simp) rfl
    exact ⟨_, congrArg Host.Outcome.next hw, rfl, State.reg_setReg .., mapGet?_copyHistory ..⟩
  · intro hb
    refine ⟨placeFetchDone s l.idx, rfl, ?_⟩
    simp only [placeFetchDone, hb, Bool.not_true, Bool.false_eq_true, if_false]
    exact ⟨trivial, fetchOf_done ..⟩
  · intro hb
    refine ⟨hlkFetchDone s l.idx, rfl, ?_⟩
    simp only [hlkFetchDone, hb, Bool.not_true, Bool.false_eq_true, if_false]
    exact ⟨trivial, (fetchOf_done ..).1, (fetchOf_done ..).2.1⟩
  · intro hb
    refine ⟨netFetchDone s l.idx, rfl, ?_⟩
    simp only [netFetchDone, hb, Bool.not_true, Bool.false_eq_true, if_false]
    exact ⟨trivial, (fetchOf_done ..).1, (fetchOf_done ..).2.1⟩
  · intro n hb
    have hrun : exec (.fetchComplete (.can n) l) s = .next (canFetchDone s n l.idx) := congrArg Host.Outcome.next (if_pos hb)
    refine ⟨_, hrun, ?_⟩
    simp only [canFetchDone, hb, Bool.not_true, Bool.false_eq_true, if_false, State.can_setCan]
    exact ⟨rfl, fun m hm => State.can_setCan_ne _ hm _, (fetchOf_done ..).1, (fetchOf_done ..).2.1⟩
  · have hr : regAt s .voter 0x130 = some (roRegs 0x108 12 4) := rfl
    have hread := readRegister_effect (s := s) (u := .voter) (a := 0xF0030130) rfl rfl rfl (accessError_of_open hr hop hd) (.inr (by rw [hr]; rfl)) w
    refine ⟨_, congrArg Host.Outcome.next hread, ?_⟩
    simp [readEffect, consume_valid hval]
  · have haddr := toNat_address u (off := 0x18) (by decide)
    have hread := readRegister_effect (unitOfAddr_base hu (off := 0x18) (by decide)) (by rw [baseOf_add_mod]) (inTree_of_plain hu s)
      (if_pos (by decide)) (.inl (by decide)) w
    rw [← haddr] at hread
    refine ⟨_, congrArg Host.Outcome.next hread, ?_⟩
    simp [readEffect, State.setUcb, consume_valid hval]

end Sys2Proof.Machine
end

section
/-! Indirect accesses: cancels, the clock mirror and diagnostics (O24). -/

namespace Sys2Proof.Machine

open Sys2Proof

/-- A report is seen in the control block of its unit. -/
theorem Reports.of_ucb {s t t' : State} {u : UnitId} {k a : Nat} (h : Reports s t u k a) (ht : t'.ucb u = t.ucb u) :
    Reports s t' u k a := by
  unfold Reports
  rw [ht]
  exact h

section
variable {s : State} {w : Writer} {v : W32}

/-- The mirror's registers (Table CLK-6). -/
theorem regAt_mirror {off : Nat} (h : off = 0x804 ∨ off = 0x808) (s : State) : regAt s .clk off = some (roRegs 0x800 7 4) := by
  unfold regAt findReg
  rcases h with rfl | rfl <;> cases s.clk.compat <;> rfl

/-- A write to the clock mirror by a writer that may set CLK. -/
theorem exec_c71MirrorWrite {off : BitVec 12} (ho : off.toNat = 0x804 ∨ off.toNat = 0x808)
    (hmay : mayCommand s w .clk = true) (hopen : unitOpen s .clk = true) (hd : (s.ucb .clk).draining = false) :
    exec (.c71MirrorWrite w off v) s = .next (mirrorWrite s off.toNat v) := by
  have h4 : off.toNat % 4 = 0 := by omega
  change Host.Outcome.next (writeRegister s w .writer (baseOf .clk + off.toNat) v 4).2 = _
  rw [writeRegister_open (unitOfAddr_base rfl (by omega)) (by rw [baseOf_add_mod, h4]) rfl (by simp) (by omega) (regAt_mirror ho s) hmay hopen hd]
  exact congrArg (fun x : Bool × State => Host.Outcome.next x.2) (if_pos (by omega))

/-- A write to CANn_TX_CANCEL by a writer that may set the channel. -/
theorem exec_cannTxCancel {n : Fin 6} (hmay : mayCommand s w (.can n) = true) (hopen : unitOpen s (.can n) = true)
    (hd : (s.ucb (.can n)).draining = false) : exec (.cannTxCancel w n v) s = .next (cancelWrite s n (bankOf w) v).2 := by
  change Host.Outcome.next (writeRegister s w .writer (baseOf (.can n) + 0x128) v 4).2 = _
  rw [writeRegister_open (unitOfAddr_base rfl (by decide)) (by rw [baseOf_add_mod]) rfl (by simp) (by decide) rfl hmay hopen hd]
  rfl

/-- A cancel while no frame is on the bus: the object's frames are gone and CANn_CRES holds the outcome. -/
theorem canCancel_idle {n : Fin 6} (hc : (s.can n).cancel = none) (hs : (s.can n).sending = none) (key : Nat) :
    canCancel s n key = some (s.setCan n (
      let c := s.can n
      let k := (c.txBufs.flatMap fun b => b.2.filter fun f => f.object = key).length + (c.txQueue.filter fun f => f.object = key).length
      { c with
        txBufs := c.txBufs.map fun b => (b.1, b.2.filter fun f => f.object ≠ key), txQueue := c.txQueue.filter fun f => f.object ≠ key,
        cancelled := min 255 (c.cancelled + k), cres := c.cres.start.deliver (cresValue (if k = 0 then 0 else 1) k key) })) := by
  simp only [canCancel, hc, Option.isSome_none, Bool.false_eq_true, if_false, CanState.removeObject, hs, List.length_append]

end

/-! ### Diagnostics -/

theorem diagFault_same (s : State) (r : DiagRead) : SameBut [.ucbs] s (diagFault s r) := by
  have habsent (u : UnitId) (a : Nat) : SameBut [.ucbs] s (absentAccess s .svc u a) := by
    unfold absentAccess
    split
    · exact raise_same ..
    · exact failAccess_same ..
  unfold diagFault
  split
  · exact SameBut.refl _ s
  · refine SameBut.ite (failAccess_same ..) ?_
    split
    · exact failAccess_same ..
    · exact SameBut.ite (habsent ..) (SameBut.ite (SameBut.refl _ s) (failAccess_same ..))
    · refine SameBut.ite (habsent ..) ?_
      split
      · exact SameBut.ite (SameBut.refl _ s) (failAccess_same ..)
      · exact SameBut.refl _ s

/-- An access that has an answer meets no fault. -/
theorem diagFault_of_answer {s : State} {r : DiagRead} (h : (diagValue s r).isSome = true) : diagFault s r = s := by
  cases r with
  | record => rfl
  | register addr =>
    cases hu : unitOfAddr addr.toNat with
    | none => simp [diagValue, hu] at h
    | some x =>
      obtain ⟨u, off⟩ := x
      have hpass : ¬ (decide (addr.toNat % 4 ≠ 0) || !inTree s u || (accessError s u off).isSome) = true := by
        intro hbad
        simp only [diagValue, hu, if_pos hbad, Option.isSome_none, Bool.false_eq_true] at h
      simp only [Bool.not_eq_true, Bool.or_eq_false_iff, decide_eq_false_iff_not, Decidable.not_not, Bool.not_eq_false', Option.isSome_eq_false_iff,
        Option.isNone_iff_eq_none] at hpass
      obtain ⟨⟨h4, ht⟩, he⟩ := hpass
      unfold diagFault
      simp only [hu]
      rw [if_neg (not_not_intro h4)]
      cases u with
      | card slot sub =>
        have hoff : (decide (off < 0x20) || decide (0x100 ≤ off)) = true := by
          refine Decidable.byContradiction fun hne => ?_
          simp only [Bool.or_eq_true, decide_eq_true_eq, not_or, Nat.not_lt, Nat.not_le] at hne
          simp [accessError, Nat.not_lt.mpr hne.1, regAt, hne.2] at he
        simp only [ht, Bool.not_true, Bool.false_eq_true, if_false, hoff, if_true]
      | _ => simp only [ht, he, Bool.not_true, Bool.false_eq_true, if_false]

/-- A misaligned diagnostics read is reported by the unit whose window it meets. -/
theorem diagFault_misaligned {s : State} {a : W32} (h4 : a.toNat % 4 ≠ 0) (hl : reporter s a.toNat ≠ .lcs) :
    diagValue s (.register a) = none ∧ Reports s (diagFault s (.register a)) (reporter s a.toNat) 0xF0 a.toNat := by
  constructor
  · have hbad (u : UnitId) (off : Nat) : (decide (a.toNat % 4 ≠ 0) || !inTree s u || (accessError s u off).isSome) = true := by simp [h4]
    simp only [diagValue, hbad, if_true]
    cases unitOfAddr a.toNat <;> rfl
  · rw [diagFault, if_pos h4]
    exact Reports.of_ucb (raise_reports s (reporter s a.toNat) 0xF0 a.toNat) (ucb_raise_ne _ hl _ _)

/-- Settles O24. -/
theorem indirectAccessesReachTheirRegister : Obligations.IndirectAccessesReachTheirRegister := by
  unfold Obligations.IndirectAccessesReachTheirRegister
  intro s w v
  refine ⟨fun hmay hopen hd => ⟨fun hv hok => ?_, fun hv => ?_⟩, fun r => ⟨fun h => ?_, fun h => ?_⟩, fun n hmay hopen hd hc hs hv => ?_⟩
  · have hsrc : (s.regNext .clk 0x104 &&& 0xFFFFFFF0) ||| BitVec.ofNat 32 0 = s.regNext .clk 0x104 &&& 0xFFFFFFF0 := BitVec.or_zero
    have hm : mirrorWrite s 0x804 v = s.setRegPending .clk 0x104 0 (s.regNext .clk 0x104 &&& 0xFFFFFFF0) := by
      simp only [mirrorWrite, hv, hsrc, storeClk, hok, if_true]
    exact ⟨_, (exec_c71MirrorWrite (.inl rfl) hmay hopen hd).trans (congrArg _ hm), rfl, by simp⟩
  · have hm : mirrorWrite s 0x808 v = s.setReg .clk 0x808 0 (v &&& 0x8000FFFF) := if_pos hv
    exact ⟨_, (exec_c71MirrorWrite (.inr rfl) hmay hopen hd).trans (congrArg _ hm), rfl, by simp⟩
  · change Host.Outcome.next (diagRead s r) = _
    simp [diagRead, h]
  · refine ⟨{ diagFault s r with lcs := { s.lcs with answer := diagValue s r } }, ?_, ?_, ?_, ?_⟩
    · change Host.Outcome.next (diagRead s r) = _
      rw [diagRead, h]
      rfl
    · have hf := (diagFault_same s r).eq_ucbs
      generalize diagFault s r = t at hf ⊢
      rw [hf]
    · intro hsome
      rw [diagFault_of_answer hsome]
    · rintro a rfl h4 hl
      obtain ⟨hn, hrep⟩ := diagFault_misaligned h4 hl
      exact ⟨hn, Reports.of_ucb hrep rfl⟩
  · intro key k
    have hkey : key % 8192 = v.toNat % 8192 := by simp only [key, objKey]; omega
    have hrun := exec_cannTxCancel (v := v) hmay hopen hd
    simp only [cancelWrite, hv, if_true, canCancel_idle hc hs] at hrun
    refine ⟨_, hrun, rfl, fun m hm => State.can_setCan_ne _ hm _, ?_⟩
    rw [State.can_setCan]
    refine ⟨rfl, ?_, rfl, ?_⟩
    · simp only [ResultWindow.deliver, cresValue]
      exact congrArg (_ + ·) hkey
    · intro b hb f hf
      obtain ⟨b', -, rfl⟩ := List.mem_map.mp hb
      exact of_decide_eq_true (List.mem_filter.mp hf).2

end Sys2Proof.Machine
end

section
/-! Reception of CAN frames (O25). -/

namespace Sys2Proof.Machine

open Sys2Proof

theorem satUp_eq_min (top n : Nat) : satUp top n = min top (n + 1) := by
  unfold satUp
  split <;> omega

/-- A step on one channel: only channels and control blocks change, and no other channel does. -/
structure OnCan (n : Fin 6) (s t : State) : Prop where
  /-- The rest of the machine stays. -/
  same : SameBut [.cans, .ucbs] s t
  /-- The other channels stay. -/
  others : ∀ m, m ≠ n → t.can m = s.can m

theorem OnCan.trans {n : Fin 6} {s t r : State} (h : OnCan n s t) (g : OnCan n t r) : OnCan n s r :=
  ⟨h.same.trans g.same, fun m hm => (g.others m hm).trans (h.others m hm)⟩

theorem onCan_setCan (s : State) (n : Fin 6) (c : CanState) : OnCan n s (s.setCan n c) :=
  ⟨⟨fun p hp => by cases p <;> first | rfl | simp at hp⟩, fun _ hm => State.can_setCan_ne _ hm _⟩

@[simp] theorem can_raise (s : State) (u : UnitId) (k a : Nat) (n : Fin 6) : (raise s u k a).can n = s.can n := by
  unfold State.can
  rw [show (raise s u k a).cans = s.cans from (raise_same s u k a).same .cans (by decide)]

theorem onCan_raise (s : State) (u : UnitId) (k a : Nat) (n : Fin 6) : OnCan n s (raise s u k a) :=
  ⟨(raise_same s u k a).mono (by simp), fun m _ => can_raise s u k a m⟩

/-- The frame of a step on one channel after the instant that its event carries. -/
theorem OnCan.eq_at {n : Fin 6} {s t : State} {now : Nat} (h : OnCan n (s.at_ now) t) :
    t = { s with time := s.timeAt now, cans := t.cans, ucbs := t.ucbs } :=
  h.same.eq_withParts

/-! ### Rings and queues -/

/-- An object's ring after a frame: a full one loses its oldest, but not while it stands frozen for the latch (R357). -/
def ringAfter (s : State) (depth : Nat) (ring : List FrameCell) (cell : FrameCell) : List FrameCell :=
  if shadowed s cell.got || decide (ring.length < depth) then ring ++ [cell] else ring.drop 1 ++ [cell]

/-- The depth of an object's ring, and the length of its frames. -/
def objDepth (s : State) (key : Nat) : Nat := ((msgDecl s key).map (·.rxDepth)).getD 1
def objLen (s : State) (key : Nat) : Nat := ((msgDecl s key).map (·.len)).getD 0

theorem objDepth_of_decl {s : State} {key : Nat} {d : MsgDecl} (h : msgDecl s key = some d) : objDepth s key = d.rxDepth := by
  simp [objDepth, h]

theorem objLen_of_decl {s : State} {key : Nat} {d : MsgDecl} (h : msgDecl s key = some d) : objLen s key = d.len := by
  simp [objLen, h]

/-- The channel with an object's ring replaced, OVERRUN marked when the ring was full. -/
def CanState.withRing (c : CanState) (key : Nat) (ring : List FrameCell) (full : Bool) : CanState :=
  { c with rxBufs := mapPut key ring c.rxBufs, overrun := if full then satUp 255 c.overrun else c.overrun,
           marked := if full then mark c.marked key else c.marked }

/-- A staged frame changes the object's ring and the marks of a ring that was full. -/
theorem canStage_eq (s : State) (n : Fin 6) (key : Nat) (f : FrameCell) :
    ∃ full, canStage s n key f =
      s.setCan n ((s.can n).withRing key (ringAfter s (objDepth s key) (mapGetD (s.can n).rxBufs key []) f) full) := by
  unfold canStage ringPush ringAfter objDepth
  generalize ((msgDecl s key).map (·.rxDepth)).getD 1 = depth
  by_cases hs : shadowed s f.got = true
  · exact ⟨false, by simp [hs, CanState.withRing]⟩
  · by_cases hl : (mapGetD (s.can n).rxBufs key []).length < depth
    · exact ⟨false, by simp [hs, hl, CanState.withRing]⟩
    · exact ⟨true, by simp [hs, hl, CanState.withRing]⟩

/-- A frame for a receive queue enters it, or is dropped and reported: the channel's frame counters stay. -/
theorem canQueue_onCan (s : State) (n : Fin 6) (safety : Bool) (key : Nat) (f : FrameCell) :
    OnCan n s (canQueue s n safety key f) ∧ ((canQueue s n safety key f).can n).rec_ = (s.can n).rec_ ∧
      ((canQueue s n safety key f).can n).rxOk = (s.can n).rxOk := by
  cases safety with
  | true =>
    simp only [canQueue, if_true]
    split
    · exact ⟨onCan_setCan .., by simp⟩
    · exact ⟨(onCan_setCan ..).trans (onCan_raise ..), by simp⟩
  | false =>
    simp only [canQueue, Bool.false_eq_true, if_false]
    split
    · exact ⟨onCan_setCan .., by simp⟩
    · exact ⟨(onCan_setCan ..).trans (onCan_raise ..), by simp⟩

theorem canQueue_safety {s : State} {n : Fin 6} {key : Nat} {f : FrameCell} (h : (s.can n).queueS.length < 64) :
    canQueue s n true key f = s.setCan n { s.can n with queueS := (s.can n).queueS ++ [f] } := by
  simp [canQueue, h]

theorem canQueue_other {s : State} {n : Fin 6} {key : Nat} {f : FrameCell} (h : (s.can n).queueN.length < 64) :
    canQueue s n false key f = s.setCan n { s.can n with queueN := (s.can n).queueN ++ [f] } := by
  simp [canQueue, h]

/-! ### The matched frame -/

/-- The frame cell that a channel stores. -/
def cellOf (s : State) (e : FilterEntry) (f : CanFrame) (t : Nat) : FrameCell :=
  { ext := f.ext, fd := f.fd, brs := f.brs, esi := f.esi, object := e.object, ident := f.ident, stamp := t, csn := 0, data := f.data,
    got := s.tb3 }

/-- The channel with a hit of an entry counted. -/
def CanState.hit (c : CanState) (e : FilterEntry) : CanState :=
  { c with filter := c.filter.map fun x => if x = e then { x with hits := (x.hits + 1) % 2 ^ 32 } else x }

/-- Where a frame of the object's length goes. -/
def canPlace (s : State) (n : Fin 6) (e : FilterEntry) (cell : FrameCell) : State :=
  match e.dest with
  | 0 => canStage s n e.object cell
  | 1 => canQueue s n true e.object cell
  | _ => canQueue s n false e.object cell

theorem canAccept_bad {s : State} {n : Fin 6} {e : FilterEntry} {f : CanFrame} {t : Nat} (hl : f.data.length ≠ objLen s e.object) :
    canAccept s n e f t = s.setCan n { (s.can n).hit e with badLen := satUp 255 (s.can n).badLen } :=
  if_pos hl

theorem canAccept_good {s : State} {n : Fin 6} {e : FilterEntry} {f : CanFrame} {t : Nat} (hl : f.data.length = objLen s e.object) :
    canAccept s n e f t =
      canPlace (s.setCan n { (s.can n).hit e with rxOk := ((s.can n).rxOk + 1) % 65536 }) n e (cellOf s e f t) :=
  if_neg (not_not_intro hl)

theorem canPlace_onCan (s : State) (n : Fin 6) (e : FilterEntry) (cell : FrameCell) :
    OnCan n s (canPlace s n e cell) ∧ ((canPlace s n e cell).can n).rec_ = (s.can n).rec_ ∧
      ((canPlace s n e cell).can n).rxOk = (s.can n).rxOk := by
  unfold canPlace
  split
  · obtain ⟨full, hq⟩ := canStage_eq s n e.object cell
    rw [hq]
    exact ⟨onCan_setCan .., by simp [CanState.withRing]⟩
  · exact canQueue_onCan ..
  · exact canQueue_onCan ..

/-! ### A valid frame of an error active channel -/

/-- The channel after a valid frame that it takes part in: REC has fallen by one and it is error active. -/
def CanState.heard (c : CanState) : CanState := { c with rec_ := c.rec_ - 1, state := 0 }

/-- What follows for the frame itself. -/
def canSort (s : State) (n : Fin 6) (f : CanFrame) (t : Nat) : State :=
  if f.remote then s.setCan n { s.can n with remote := satUp 255 (s.can n).remote }
  else
    match (s.can n).filter.find? fun e => e.admits f with
    | none => s.setCan n { s.can n with noMatch := ((s.can n).noMatch + 1) % 65536 }
    | some e => canAccept s n e f t

theorem canErrState_active {s : State} {n : Fin 6} {c : CanState} (hb : canBusOff c = false) (ht : c.tec < 128) (hr : c.rec_ < 128) :
    canErrState s n c = s.setCan n { c with state := 0 } := by
  simp [canErrState, hb, Nat.not_le.mpr ht, Nat.not_le.mpr hr]

theorem canReceive_active {s : State} {n : Fin 6} {f : CanFrame} {now : Nat} (hrun : canRun s n = true) (hm : canMode s n = 0)
    (hb : canBusOff (s.can n) = false) (h0 : (s.can n).act ≠ 0) (h2 : (s.can n).act ≠ 2) (hfd : f.fd = true → canFd s n = true)
    (ht : (s.can n).tec < 128) (hr : (s.can n).rec_ < 128) :
    canReceive s n f now = canSort ((s.at_ now).setCan n (s.can n).heard) n f now := by
  have hc : (s.at_ now).can n = s.can n := rfl
  have hm' : canMode (s.at_ now) n = 0 := hm
  have hrun' : canRun (s.at_ now) n = true := hrun
  have hfd' : (f.fd && !canFd (s.at_ now) n) = false := by
    have h : canFd (s.at_ now) n = canFd s n := rfl
    cases hf : f.fd <;> simp_all
  have hrec : recDown (s.at_ now) (s.can n) = (s.at_ now, { s.can n with rec_ := (s.can n).rec_ - 1 }) := by
    simp [recDown, Nat.not_lt.mpr (Nat.le_of_lt_succ hr)]
  have herr : canErrState (s.at_ now) n { s.can n with rec_ := (s.can n).rec_ - 1 } = (s.at_ now).setCan n (s.can n).heard :=
    canErrState_active (by exact hb) ht (Nat.lt_of_le_of_lt (Nat.sub_le ..) hr)
  simp only [canReceive, hc, hrun', hb, h0, hfd', Bool.not_true, Bool.or_self, decide_false, Bool.false_eq_true, if_false, hm', if_true, hrec,
    h2, herr]
  rfl

theorem canSort_remote {s : State} {n : Fin 6} {f : CanFrame} {t : Nat} (h : f.remote = true) :
    canSort s n f t = s.setCan n { s.can n with remote := satUp 255 (s.can n).remote } := by
  simp [canSort, h]

theorem canSort_noMatch {s : State} {n : Fin 6} {f : CanFrame} {t : Nat} (h : f.remote = false)
    (hf : (s.can n).filter.find? (fun e => e.admits f) = none) :
    canSort s n f t = s.setCan n { s.can n with noMatch := ((s.can n).noMatch + 1) % 65536 } := by
  simp only [canSort, h, Bool.false_eq_true, if_false, hf]

theorem canSort_match {s : State} {n : Fin 6} {f : CanFrame} {t : Nat} {e : FilterEntry} (h : f.remote = false)
    (hf : (s.can n).filter.find? (fun e => e.admits f) = some e) : canSort s n f t = canAccept s n e f t := by
  simp only [canSort, h, Bool.false_eq_true, if_false, hf]

/-- What a matched frame of the object's length leaves: the frame is counted and stands where the entry's destination says. -/
theorem canAccept_stored {s : State} {n : Fin 6} {e : FilterEntry} {f : CanFrame} {t : Nat} (hl : f.data.length = objLen s e.object) :
    let c := s.can n
    let c' := (canAccept s n e f t).can n
    let cell := cellOf s e f t
    OnCan n s (canAccept s n e f t) ∧ c'.rec_ = c.rec_ ∧ c'.rxOk = (c.rxOk + 1) % 65536 ∧
      (e.dest = 0 → mapGetD c'.rxBufs e.object [] = ringAfter s (objDepth s e.object) (mapGetD c.rxBufs e.object []) cell) ∧
      (e.dest = 1 → c.queueS.length < 64 → c'.queueS = c.queueS ++ [cell]) ∧
      (e.dest = 2 → c.queueN.length < 64 → c'.queueN = c.queueN ++ [cell]) := by
  rw [canAccept_good hl]
  obtain ⟨hon, hrec, hok⟩ := canPlace_onCan (s.setCan n { (s.can n).hit e with rxOk := ((s.can n).rxOk + 1) % 65536 }) n e (cellOf s e f t)
  refine ⟨(onCan_setCan ..).trans hon, hrec.trans (by simp [CanState.hit]), hok.trans (by simp), fun h => ?_, fun h hq => ?_, fun h hq => ?_⟩
  · obtain ⟨full, hst⟩ := canStage_eq (s.setCan n { (s.can n).hit e with rxOk := ((s.can n).rxOk + 1) % 65536 }) n e.object (cellOf s e f t)
    simp only [canPlace, h, hst]
    simp [CanState.withRing, CanState.hit]
    rfl
  · simp only [canPlace, h]
    rw [canQueue_safety (by simpa [CanState.hit] using hq)]
    simp [CanState.hit]
  · simp only [canPlace, h]
    rw [canQueue_other (by simpa [CanState.hit] using hq)]
    simp [CanState.hit]

theorem canSort_onCan (s : State) (n : Fin 6) (f : CanFrame) (t : Nat) :
    OnCan n s (canSort s n f t) ∧ ((canSort s n f t).can n).rec_ = (s.can n).rec_ := by
  cases hr : f.remote with
  | true =>
    rw [canSort_remote hr]
    exact ⟨onCan_setCan .., by simp⟩
  | false =>
    cases hf : (s.can n).filter.find? (fun e => e.admits f) with
    | none =>
      rw [canSort_noMatch hr hf]
      exact ⟨onCan_setCan .., by simp⟩
    | some e =>
      rw [canSort_match hr hf]
      by_cases hl : f.data.length = objLen s e.object
      · exact ⟨(canAccept_stored hl).1, (canAccept_stored hl).2.1⟩
      · rw [canAccept_bad hl]
        exact ⟨onCan_setCan .., by simp [CanState.hit]⟩

/-! ### The drain of the receive queues -/

/-- A drained frame goes into the ring of its object, the other queue stays. -/
theorem canDrain_spec {s : State} {n : Fin 6} {cell : FrameCell} {q : List FrameCell} {d : MsgDecl}
    (hd : msgDecl s cell.object = some d)
    (hq : (s.can n).queueS = cell :: q ∨ ((s.can n).queueS = [] ∧ (s.can n).queueN = cell :: q)) :
    let c := s.can n
    let t := canDrain s n
    t = { s with cans := t.cans } ∧ (∀ m, m ≠ n → t.can m = s.can m) ∧
      (if c.queueS = [] then (t.can n).queueN = q else (t.can n).queueS = q ∧ (t.can n).queueN = c.queueN) ∧
      mapGetD (t.can n).rxBufs cell.object [] = ringAfter s d.rxDepth (mapGetD c.rxBufs cell.object []) cell := by
  intro c t
  obtain ⟨c1, hc1, hbufs, hqs⟩ : ∃ c1 : CanState, canDrain s n = canStage (s.setCan n c1) n cell.object cell ∧ c1.rxBufs = c.rxBufs ∧
      (if c.queueS = [] then c1.queueN = q else c1.queueS = q ∧ c1.queueN = c.queueN) := by
    rcases hq with h | ⟨h, h'⟩
    · exact ⟨{ s.can n with queueS := q }, by simp [canDrain, h], rfl, by simp [c, h]⟩
    · exact ⟨{ s.can n with queueN := q }, by simp [canDrain, h, h'], rfl, by simp [c, h]⟩
  obtain ⟨full, hst⟩ := canStage_eq (s.setCan n c1) n cell.object cell
  rw [State.can_setCan, show objDepth (s.setCan n c1) cell.object = d.rxDepth from objDepth_of_decl hd, hbufs] at hst
  have ht : t = (s.setCan n c1).setCan n (c1.withRing cell.object
      (ringAfter s d.rxDepth (mapGetD c.rxBufs cell.object []) cell) full) := hc1.trans hst
  have hcan : t.can n = c1.withRing cell.object (ringAfter s d.rxDepth (mapGetD c.rxBufs cell.object []) cell) full := by
    rw [ht, State.can_setCan]
  refine ⟨by rw [ht]; rfl, fun m hm => ?_, ?_, ?_⟩
  · rw [ht, State.can_setCan_ne _ hm, State.can_setCan_ne _ hm]
  · rw [hcan]
    exact hqs
  · rw [hcan]
    exact mapGetD_put_same ..

/-- Settles O25: a valid frame is sorted by `canSort`, a drained one goes into its ring. -/
theorem canFramesGoWhereTheFilterSays : Obligations.CanFramesGoWhereTheFilterSays := by
  unfold Obligations.CanFramesGoWhereTheFilterSays
  intro s n f now c
  refine ⟨fun hrun hm hb h0 h2 hfd ht hr => ?_, fun cell q d hd hq => ⟨canDrain s n, rfl, canDrain_spec hd hq⟩⟩
  have heq := canReceive_active (now := now) hrun hm hb h0 h2 hfd ht hr
  let s1 := (s.at_ now).setCan n c.heard
  have hc1 : s1.can n = c.heard := State.can_setCan ..
  obtain ⟨hon, hrec⟩ := canSort_onCan s1 n f now
  have hall : OnCan n (s.at_ now) (canSort s1 n f now) := (onCan_setCan ..).trans hon
  refine ⟨canSort s1 n f now, congrArg Host.Outcome.next heq, hall.eq_at, hall.others, by rw [hrec, hc1]; rfl, fun hremote => ?_,
    fun hremote hf => ?_, fun e d hremote hf hd => ⟨fun hl => ?_, fun hl => ⟨cellOf s1 e f now, rfl, rfl, rfl, rfl, ?_, ?_⟩⟩⟩
  · rw [canSort_remote hremote, State.can_setCan, hc1, satUp_eq_min]
    exact ⟨rfl, rfl⟩
  · rw [canSort_noMatch hremote (by rw [hc1]; exact hf), State.can_setCan, hc1]
    exact ⟨rfl, rfl⟩
  · have hlen : f.data.length ≠ objLen s1 e.object := fun h => hl (h.trans (objLen_of_decl (s := s1) hd))
    rw [canSort_match hremote (by rw [hc1]; exact hf), canAccept_bad hlen, State.can_setCan, hc1, satUp_eq_min]
    exact ⟨rfl, rfl⟩
  · rw [hall.eq_at]
    rfl
  · have hlen : f.data.length = objLen s1 e.object := hl.trans (objLen_of_decl (s := s1) hd).symm
    rw [canSort_match hremote (by rw [hc1]; exact hf)]
    obtain ⟨-, -, hok, h0, h1, h2⟩ := canAccept_stored (n := n) (t := now) hlen
    rw [hc1] at hok h0 h1 h2
    rw [show objDepth s1 e.object = d.rxDepth from objDepth_of_decl hd] at h0
    exact ⟨hok, h0, h1, h2⟩

end Sys2Proof.Machine
end

section
/-! Transmission of CAN frames (O26). -/

namespace Sys2Proof.Machine

open Sys2Proof

/-! ### The choice of the next frame -/

theorem bestTx_isSome_of_cons (x : Nat × FrameCell) (l : List (Nat × FrameCell)) : ∃ y, bestTx (x :: l) = some y := by
  unfold bestTx
  split
  · exact ⟨_, rfl⟩
  · split <;> exact ⟨_, rfl⟩

/-- The choice is a candidate, and none has a lower arbitration key. -/
theorem bestTx_spec {l : List (Nat × FrameCell)} {x : Nat × FrameCell} (h : bestTx l = some x) :
    x ∈ l ∧ ∀ y ∈ l, arbKey x.2 ≤ arbKey y.2 := by
  induction l generalizing x with
  | nil => simp [bestTx] at h
  | cons a l ih =>
    unfold bestTx at h
    split at h
    · rename_i hn
      obtain rfl : a = x := by simpa using h
      have hl : l = [] := by
        cases l with
        | nil => rfl
        | cons b l =>
          obtain ⟨y, hy⟩ := bestTx_isSome_of_cons b l
          simp [hy] at hn
      simp [hl]
    · rename_i y hy
      obtain ⟨hmem, hmin⟩ := ih hy
      split at h
      · rename_i hlt
        obtain rfl : y = x := by simpa using h
        refine ⟨List.mem_cons_of_mem _ hmem, fun z hz => ?_⟩
        rcases List.mem_cons.mp hz with rfl | hz
        · exact Nat.le_of_lt hlt
        · exact hmin z hz
      · rename_i hlt
        obtain rfl : a = x := by simpa using h
        refine ⟨List.mem_cons_self, fun z hz => ?_⟩
        rcases List.mem_cons.mp hz with rfl | hz
        · exact Nat.le_refl _
        · exact Nat.le_trans (Nat.not_lt.mp hlt) (hmin z hz)

theorem txChoice_spec {c : CanState} {p : Nat} {f : FrameCell} (h : txChoice c = some (p, f)) :
    c.refDue = some f ∧ p = 33 ∨
      c.refDue = none ∧ (p, f) ∈ txCandidates c ∧ (∀ y ∈ txCandidates c, arbKey f ≤ arbKey y.2) := by
  unfold txChoice at h
  split at h
  · rename_i g hg
    simp only [Option.some.injEq, Prod.mk.injEq] at h
    exact .inl ⟨h.2 ▸ hg, h.1.symm⟩
  · rename_i hg
    exact .inr ⟨hg, bestTx_spec h⟩

theorem canChoose_of_choice {s : State} {n : Fin 6} {now p : Nat} {f : FrameCell} (hrun : canRun s n = true)
    (hd : (s.ucb (.can n)).draining = false) (hm : canMode s n = 0) (hb : canBusOff (s.can n) = false) (ha : (s.can n).act = 1)
    (hs : (s.can n).sending = none) (hc : txChoice (s.can n) = some (p, f)) :
    canChoose s n now = (s.at_ now).setCan n { (s.can n).take p with
      sending := some { place := p, cell := { f with stamp := now, esi := (s.can n).state = 1 } }, act := 3 } := by
  have hcan : (s.at_ now).can n = s.can n := rfl
  have hd' : ((s.at_ now).ucb (.can n)).draining = false := hd
  have hm' : canMode (s.at_ now) n = 0 := hm
  have hrun' : canRun (s.at_ now) n = true := hrun
  simp only [canChoose, hcan, hd', hm', hrun', hb, ha, hs, hc]
  rfl

/-! ### The end of a frame -/

theorem canSent_spec {s : State} {n : Fin 6} {now : Nat} {x : Sending} (hs : (s.can n).sending = some x) (hp : x.place < 33)
    (hc : (s.can n).cancel = none) (hb : canBusOff (s.can n) = false) (ht : (s.can n).tec < 128) (hr : (s.can n).rec_ < 128)
    (h10c : bitAt (s.reg (.can n) 0x10C) 31 = false) (hh : (s.can n).cfgHeld = none) :
    canSent s n now = (s.at_ now).setCan n { s.can n with
      sending := none, txOk := ((s.can n).txOk + 1) % 65536, tec := (s.can n).tec - 1, loopDly := (s.can n).loopDly % 128, act := 1,
      state := 0 } := by
  have hcan : (s.at_ now).can n = s.can n := rfl
  have hreg : (s.at_ now).reg (.can n) 0x10C = s.reg (.can n) 0x10C := rfl
  have hp' : x.place ≠ 33 := by omega
  have hh' : (s.can n).cfgHeld.isSome = false := by rw [hh]; rfl
  simp only [canSent, hcan, hs, hreg, h10c, Bool.false_and, Bool.false_eq_true, if_false, hp', CanState.frameEnd, hh']
  rw [canErrState_active ?bus ?sent ?received]
  case bus => exact hb
  case sent => exact Nat.lt_of_le_of_lt (Nat.sub_le ..) ht
  case received => exact hr
  simp [canCancelLate, hc]

/-- A frame of the queue that ends without success goes back to the queue's front. -/
theorem canAbandon_queue {c : CanState} {x : Sending} (hs : c.sending = some x) (hp : x.place = 32) (hw : x.withdrawn = .no) :
    canAbandon c = { c with txQueue := x.cell :: c.txQueue, sending := none } := by
  simp [canAbandon, hs, CanState.putBack, hp, hw]

theorem frameEnd_kept (c : CanState) (idle : Nat) : (c.frameEnd idle).txQueue = c.txQueue ∧ (c.frameEnd idle).tec = c.tec ∧
    (c.frameEnd idle).lec = c.lec ∧ (c.frameEnd idle).state = c.state := by
  unfold CanState.frameEnd
  split <;> exact ⟨rfl, rfl, rfl, rfl⟩

@[simp] theorem can_offer (s : State) (k : Nat) (u : UnitId) (d : List Byte) (n : Fin 6) : (offer s k u d).can n = s.can n := by
  unfold State.can
  rw [show (offer s k u d).cans = s.cans from (offer_same s k u d).same .cans (by decide)]

theorem setCan_same (s : State) (n : Fin 6) (c : CanState) : SameBut [.cans] s (s.setCan n c) :=
  ⟨fun p hp => by cases p <;> first | rfl | simp at hp⟩

/-- The error state follows the counters and leaves the channel's counters and buffers. -/
theorem canErrState_can (s : State) (n : Fin 6) (c : CanState) : ∃ st p, (canErrState s n c).can n = { c with state := st, passive := p } := by
  unfold canErrState
  split
  · exact ⟨c.state, c.passive, by simp⟩
  · simp only
    split
    · exact ⟨1, satUp 255 c.passive, by simp⟩
    · exact ⟨_, c.passive, by simp; rfl⟩

/-- The channel after an error that its sender has seen, before the counters decide its error state. -/
def CanState.failed (c : CanState) (lec : Nat) : CanState :=
  let e := (canAbandon { c with lec := lec }).frameEnd 1
  { e with tec := min 256 (e.tec + 8) }

theorem failed_queue {c : CanState} {x : Sending} (lec : Nat) (hs : c.sending = some x) (hp : x.place = 32) (hw : x.withdrawn = .no) :
    (c.failed lec).txQueue = x.cell :: c.txQueue ∧ (c.failed lec).lec = lec ∧ (c.failed lec).tec = min 256 (c.tec + 8) ∧
      (c.failed lec).state = c.state := by
  have h : canAbandon { c with lec := lec } = { c with lec := lec, txQueue := x.cell :: c.txQueue, sending := none } :=
    canAbandon_queue (c := { c with lec := lec }) hs hp hw
  obtain ⟨h1, h2, h3, h4⟩ := frameEnd_kept { c with lec := lec, txQueue := x.cell :: c.txQueue, sending := none } 1
  unfold CanState.failed
  rw [h]
  exact ⟨h1, h3, congrArg (fun v => min 256 (v + 8)) h2, h4⟩

theorem canError_sender {s : State} {n : Fin 6} {lec : Nat} (hm : canMode s n = 0) (hl : ¬(lec = 6 ∧ (s.can n).state = 1)) :
    canError s n lec false true 0 =
      if 255 < ((s.can n).failed lec).tec then canEnterBusOff s n ((s.can n).failed lec) else canErrState s n ((s.can n).failed lec) := by
  have hl' : (decide (lec = 6) && decide ((s.can n).state = 1)) = false := by simpa using hl
  simp only [canError, hm, ne_eq, not_true_eq_false, if_false, if_true, Bool.false_eq_true, hl']
  rfl

theorem mem_lost_lose (s : State) (r : Resource) : r ∈ (s.lose r).place.lost := by
  unfold State.lose
  dsimp only
  split
  · assumption
  · simp

/-- Bus-off is reported and the port is lost to placement. -/
theorem canEnterBusOff_spec (s : State) (n : Fin 6) (c : CanState) : let t := canEnterBusOff s n c
    canBusOff (t.can n) = true ∧ Resource.port (.can n) ∈ t.place.lost ∧ Reports s t (.can n) 1 (baseOf (.can n)) := by
  refine ⟨?_, mem_lost_lose .., fun hm => raise_reports (s.setCan n _) (.can n) 1 (baseOf (.can n)) hm⟩
  have h : ∀ (t : State) (r : Resource), (t.lose r).can n = t.can n := fun _ _ => rfl
  unfold canEnterBusOff
  rw [h, can_raise, State.can_setCan]
  cases bitAt (s.reg (.can n) 0x100) 8 <;> rfl

theorem canRecovered_eq {s : State} {n : Fin 6} (h3 : (s.can n).state = 3) (hr : (s.ucb (.can n)).state = .run) :
    canRecovered s n = (s.setCan n { s.can n with
      state := 0, tec := 0, rec_ := 0, recov := 128, act := 1, recovered := satUp 255 (s.can n).recovered }).healthy (.port (.can n)) := by
  simp [canRecovered, h3, hr]

/-- Settles O26: the choice by `bestTx_spec`, the end of a frame by the counters that it moves. -/
theorem canFramesAreSentByPriority : Obligations.CanFramesAreSentByPriority := by
  unfold Obligations.CanFramesAreSentByPriority
  intro s n now c
  refine ⟨fun p f hrun hd hm hb ha hs hc => ?_, fun x hs hp hcc hb ht hr h10c hh => ?_, fun x hs hp hw hrun hb => ⟨?_, fun hm lec hl =>
    ⟨fun hle => ?_, fun hlt => ?_⟩⟩, fun h3 hr => ?_, fun hrun ha hb => ?_⟩
  · refine ⟨_, congrArg Host.Outcome.next (canChoose_of_choice hrun hd hm hb ha hs hc), rfl, ?_, ?_, txChoice_spec hc⟩
    · rw [State.can_setCan]
    · rw [State.can_setCan]
      exact ⟨_, rfl, rfl, rfl⟩
  · refine ⟨_, congrArg Host.Outcome.next (canSent_spec hs hp hcc hb ht hr h10c hh), rfl, ?_⟩
    rw [State.can_setCan]
    exact ⟨rfl, rfl, rfl, rfl⟩
  · have he : canFrameError s n .arbitration = s.setCan n { canAbandon c with act := 2 } := by
      simp [canFrameError, hrun, hb, c, hs]
    refine ⟨_, congrArg Host.Outcome.next he, rfl, ?_⟩
    rw [State.can_setCan, canAbandon_queue hs hp hw]
    exact ⟨rfl, rfl, rfl, rfl⟩
  · have he : canFrameError s n (.send lec false) = canError s n lec false true 0 := by
      simp [canFrameError, hrun, hb, c, hs]
    obtain ⟨hq, hlec, htec, -⟩ := failed_queue lec.val hs hp hw
    refine ⟨_, congrArg Host.Outcome.next he, ?_⟩
    rw [canError_sender hm (fun h => hl ⟨Fin.ext h.1, h.2⟩), if_neg (show ¬ 255 < (c.failed lec.val).tec by omega)]
    obtain ⟨st, p, hcan⟩ := canErrState_can s n (c.failed lec)
    rw [hcan]
    exact ⟨htec.trans (by omega), hlec, hq⟩
  · have he : canFrameError s n (.send lec false) = canError s n lec false true 0 := by
      simp [canFrameError, hrun, hb, c, hs]
    obtain ⟨-, -, htec, -⟩ := failed_queue lec.val hs hp hw
    refine ⟨_, congrArg Host.Outcome.next he, ?_⟩
    rw [canError_sender hm (fun h => hl ⟨Fin.ext h.1, h.2⟩), if_pos (show 255 < (c.failed lec.val).tec by omega)]
    exact canEnterBusOff_spec ..
  · refine ⟨_, congrArg Host.Outcome.next (canRecovered_eq h3 hr), ?_⟩
    have hcan : ∀ (t : State) (r : Resource), (t.healthy r).can n = t.can n := fun t r => by unfold State.healthy; split <;> rfl
    refine ⟨SameBut.eq_withParts (ps := [.cans, .place])
      (((setCan_same s n _).mono (by simp)).trans ((healthy_same _ _).mono (by simp))), ?_⟩
    rw [hcan, State.can_setCan]
    exact ⟨rfl, rfl, rfl, satUp_eq_min ..⟩
  · refine congrArg Host.Outcome.next ?_
    simp [hrun, c, ha, hb]

end Sys2Proof.Machine
end

section
/-! CAN time (O27). -/

namespace Sys2Proof.Machine

open Sys2Proof

/-! ### What the time bases' masters change -/

/-- A step of the time bases: the channels, TB3, the handed measurements and the control blocks but TICK's stay. -/
structure BaseStep (s t : State) : Prop where
  /-- The rest of the machine stays. -/
  same : SameBut [.ucbs, .time, .tick, .freeCount] s t
  /-- TB3 stays. -/
  now : t.time.now = s.time.now
  /-- The measurements handed over stay. -/
  handed : t.time.handed = s.time.handed
  /-- The control blocks of other units than TICK stay. -/
  ucb : ∀ u, u ≠ .tick → t.ucb u = s.ucb u

theorem BaseStep.refl (s : State) : BaseStep s s := ⟨SameBut.refl _ s, rfl, rfl, fun _ _ => rfl⟩

theorem BaseStep.trans {s t r : State} (h : BaseStep s t) (g : BaseStep t r) : BaseStep s r :=
  ⟨h.same.trans g.same, g.now.trans h.now, g.handed.trans h.handed, fun u hu => (g.ucb u hu).trans (h.ucb u hu)⟩

theorem BaseStep.cans {s t : State} (h : BaseStep s t) : t.cans = s.cans := h.same.same .cans (by decide)

theorem BaseStep.can {s t : State} (h : BaseStep s t) (n : Fin 6) : t.can n = s.can n := by
  unfold State.can
  rw [h.cans]

theorem baseStep_setTb (s : State) (i : Nat) (b : TimeBase) : BaseStep s (s.setTb i b) := by
  unfold State.setTb
  split <;> exact ⟨⟨fun p hp => by cases p <;> first | rfl | simp at hp⟩, rfl, rfl, fun _ _ => rfl⟩

theorem baseStep_tick (s : State) (k : TickState) : BaseStep s { s with tick := k } :=
  ⟨⟨fun p hp => by cases p <;> first | rfl | simp at hp⟩, rfl, rfl, fun _ _ => rfl⟩

theorem baseStep_raiseOpen (s : State) (k : Nat) : BaseStep s (raiseOpen s .tick k) := by
  have h := raiseOpen_same s .tick k
  have ht : (raiseOpen s .tick k).time = s.time := h.same .time (by decide)
  exact ⟨h.mono (by simp), congrArg TimeState.now ht, congrArg TimeState.handed ht, fun u hu => ucb_raise_ne s.free.2 hu k s.free.1⟩

theorem baseStep_followTb0 (s : State) : BaseStep s (followTb0 s) := by
  unfold followTb0
  split
  · exact (baseStep_tick s _).trans (baseStep_raiseOpen _ 6)
  · exact baseStep_tick s _
  · exact baseStep_tick s _
  · exact baseStep_tick s _
  · exact BaseStep.refl s

theorem baseStep_followRate (s : State) (t : Nat) : BaseStep s (followRate s t) := by
  unfold followRate
  split
  · exact baseStep_setTb s 4 _
  · exact BaseStep.refl s

theorem baseStep_tb0Locks (s : State) : BaseStep s (tb0Locks s) := by
  unfold tb0Locks
  split
  · exact baseStep_tick s _
  · exact BaseStep.refl s

theorem baseStep_putTb (s : State) (i t : Nat) (b : TimeBase) : BaseStep s (putTb s i t b) := by
  have hf := ((baseStep_setTb s i b).trans (baseStep_followRate _ t)).trans (baseStep_followTb0 _)
  simp only [putTb]
  split
  · split
    · exact hf.trans (baseStep_tb0Locks _)
    · exact hf
  · exact baseStep_setTb s i b

theorem baseStep_tbAlone (s : State) (i t : Nat) : BaseStep s (tbAlone s i t) := by
  simp only [tbAlone]
  split
  · split
    · exact baseStep_setTb ..
    · exact baseStep_putTb ..
  · split
    · exact baseStep_setTb ..
    · exact baseStep_putTb ..
    · exact baseStep_setTb ..
    · exact baseStep_putTb ..

theorem baseStep_foldl {α : Type} {g : State → α → State} (h : ∀ s a, BaseStep s (g s a)) (l : List α) (s : State) :
    BaseStep s (l.foldl g s) := by
  induction l generalizing s with
  | nil => exact BaseStep.refl s
  | cons a l ih => exact (h s a).trans (ih _)

theorem baseStep_remaster (s : State) : BaseStep s (remaster s) := by
  refine baseStep_foldl (fun s i => ?_) _ s
  split
  · exact baseStep_tbAlone ..
  · exact BaseStep.refl s

/-! ### The reference that a slave takes -/

/-- The reference follows the one seen last. -/
def refFollows (c : CanState) (f : CanFrame) : Bool :=
  match c.tmLast with
  | some l => (l.cycle + 1) % 64 = field (f.data.headD 0) 5 0
  | none => false

/-- The reference comes from another master than the one followed. -/
def refChanges (c : CanState) (f : CanFrame) : Bool :=
  (c.tmLast.isSome || 0 < c.tmHeard || c.tmState = 3) && c.tmMaster ≠ f.ident % 8

/-- The offset that a follow-up gives the reference before it. -/
def refOffset (c : CanState) (f : CanFrame) : Int :=
  match c.tmLast with
  | some l => nearZero ((fromLE (f.data.drop 1) : Int) - l.tb2)
  | none => 0

/-- The follow-up measures. -/
def refMeasures (c : CanState) (f : CanFrame) : Bool := bitAt (f.data.headD 0) 6 && refFollows c f

/-- The channel that has taken a reference at an instant of TB3 with a stamp of TB2. -/
def CanState.takeRef (c : CanState) (f : CanFrame) (t stamp : Nat) : CanState :=
  { c with tmState := 2, tmMaster := f.ident % 8, tmCycle := field (f.data.headD 0) 5 0, tmSof := stamp, tmHeard := t,
           sending := c.sending.map fun x => if x.place = 33 then { x with withdrawn := .superseded } else x,
           tmLast := some { cycle := field (f.data.headD 0) 5 0, tb2 := stamp, at_ := t }, refDue := none,
           tmMissed := if c.tmLast.isSome && !refFollows c f then satUp 255 c.tmMissed else c.tmMissed,
           tmChanges := if refChanges c f then satUp 255 c.tmChanges else c.tmChanges,
           tmOfs := if refMeasures c f then refOffset c f else c.tmOfs }

/-- The state before a measurement goes to TIME. -/
def tmSeen (s : State) (n : Fin 6) (f : CanFrame) (t : Nat) : State :=
  let s1 := s.setCan n ((s.can n).takeRef f t (tb2At s t))
  if refChanges (s.can n) f then raise s1 (.can n) 6 (baseOf (.can n)) else s1

/-- A measurement joins those handed to TIME. -/
def State.handOver (s : State) (h : Handed) : State := { s with time := { s.time with handed := s.time.handed ++ [h] } }

theorem tmTake_eq (s : State) (n : Fin 6) (f : CanFrame) (t : Nat) : tmTake s n f t =
    if refMeasures (s.can n) f then
      (tmSeen s n f t).handOver { tb := 2, src := n.val, offset := refOffset (s.can n) f, disc := bitAt (f.data.headD 0) 7, at_ := t }
    else tmSeen s n f t := rfl

theorem tmSeen_can (s : State) (n : Fin 6) (f : CanFrame) (t : Nat) : (tmSeen s n f t).can n = (s.can n).takeRef f t (tb2At s t) := by
  simp only [tmSeen]
  split <;> simp

theorem tmSeen_time (s : State) (n : Fin 6) (f : CanFrame) (t : Nat) : (tmSeen s n f t).time = s.time := by
  simp only [tmSeen]
  split
  · exact (raise_same _ _ _ _).same .time (by decide)
  · rfl

theorem tmTake_can (s : State) (n : Fin 6) (f : CanFrame) (t : Nat) : (tmTake s n f t).can n = (s.can n).takeRef f t (tb2At s t) := by
  rw [tmTake_eq]
  split <;> exact tmSeen_can s n f t

theorem tmTake_now (s : State) (n : Fin 6) (f : CanFrame) (t : Nat) : (tmTake s n f t).time.now = s.time.now := by
  have h := congrArg TimeState.now (tmSeen_time s n f t)
  rw [tmTake_eq]
  split <;> exact h

theorem tmTake_handed (s : State) (n : Fin 6) (f : CanFrame) (t : Nat) : (tmTake s n f t).time.handed =
    if refMeasures (s.can n) f then
      s.time.handed ++ [{ tb := 2, src := n.val, offset := refOffset (s.can n) f, disc := bitAt (f.data.headD 0) 7, at_ := t }]
    else s.time.handed := by
  rw [tmTake_eq]
  split
  · simp only [State.handOver, tmSeen_time]
  · rw [tmSeen_time]

theorem tmTake_reports {s : State} {n : Fin 6} {f : CanFrame} {t : Nat} (h : refChanges (s.can n) f = true) :
    Reports s (tmTake s n f t) (.can n) 6 (baseOf (.can n)) := by
  have hu : (tmTake s n f t).ucb (.can n) =
      (raise (s.setCan n ((s.can n).takeRef f t (tb2At s t))) (.can n) 6 (baseOf (.can n))).ucb (.can n) := by
    rw [tmTake_eq]
    simp only [tmSeen, h, if_true]
    split <;> rfl
  exact Reports.of_ucb (raise_reports (s.setCan n _) (.can n) 6 (baseOf (.can n))) hu

theorem nearZero_spec (v : Int) : (nearZero v - v) % 2 ^ 56 = 0 ∧ -2 ^ 55 ≤ nearZero v ∧ nearZero v < 2 ^ 55 := by
  simp only [nearZero]
  split <;> omega

theorem refFollows_of_last {c : CanState} {f : CanFrame} {l : RefSeen} (h : c.tmLast = some l) :
    refFollows c f = decide ((l.cycle + 1) % 64 = (f.data.headD 0).toNat % 64) := by
  simp [refFollows, h, field]

theorem tmReference_taken {s : State} {n : Fin 6} {f : CanFrame} {now : Nat} (hrole : tmRole s n ≠ 0) (hrun : canRun s n = true)
    (hb : canBusOff (s.can n) = false) (href : isReference s n f = true) (hst : (s.can n).tmState ≠ 3 ∨ f.ident % 8 < tmRank s n) :
    tmReference s n f now = tmTake (s.at_ now) n f now := by
  have hcan : (s.at_ now).can n = s.can n := rfl
  have hrole' : tmRole (s.at_ now) n ≠ 0 := hrole
  have hrun' : canRun (s.at_ now) n = true := hrun
  have href' : isReference (s.at_ now) n f = true := href
  have hst' : (decide ((s.can n).tmState = 3) && decide (tmRank (s.at_ now) n ≤ f.ident % 8)) = false := by
    have hr : tmRank (s.at_ now) n = tmRank s n := rfl
    rcases hst with h | h
    · simp [h]
    · simp [hr, Nat.not_le.mpr h]
  simp only [tmReference, hrole', hrun', hcan, hb, href', hst']
  simp

/-- Settles O27: a taken reference by `tmTake_eq`, and what the bases' masters then change by `baseStep_remaster`. -/
theorem canTimeFollowsItsMaster : Obligations.CanTimeFollowsItsMaster := by
  unfold Obligations.CanTimeFollowsItsMaster
  intro s n f now c stamp
  refine ⟨fun hrole hrun hb href hst => ?_, fun hrole hst => ?_, fun hrole hrun hb hst => ?_⟩
  · have hm := baseStep_remaster (tmTake (s.at_ now) n f now)
    have hcan : (remaster (tmTake (s.at_ now) n f now)).can n = c.takeRef f now stamp := (hm.can n).trans (tmTake_can ..)
    have hhand := hm.handed.trans (tmTake_handed ..)
    refine ⟨_, congrArg (fun t => Host.Outcome.next (remaster t)) (tmReference_taken hrole hrun hb href hst), ?_, ?_, ?_, ?_, ?_,
      hm.now.trans (tmTake_now ..), fun hl hne => ?_, fun l hl h6 hnext => ?_, fun hl => ?_⟩
    · rw [hcan]; rfl
    · rw [hcan]; rfl
    · rw [hcan]; simp [CanState.takeRef, field]
    · rw [hcan]; rfl
    · rw [hcan]; rfl
    · have hch : refChanges c f = true := by simp [refChanges, hl, hne]
      exact Reports.of_ucb (tmTake_reports (s := s.at_ now) hch) (hm.ucb (.can n) (by simp))
    · have hmeas : refMeasures c f = true := by
        rw [refMeasures, refFollows_of_last hl, decide_eq_true hnext]
        simpa [bitAt] using h6
      have hofs : refOffset c f = nearZero ((fromLE (f.data.drop 1) : Int) - l.tb2) := by rw [refOffset, hl]
      obtain ⟨hmod, hlo, hhi⟩ := nearZero_spec ((fromLE (f.data.drop 1) : Int) - l.tb2)
      rw [← hofs] at hmod hlo hhi
      refine ⟨refOffset c f, hmod, hlo, hhi, ?_, hhand.trans (if_pos hmeas)⟩
      rw [hcan]
      exact if_pos hmeas
    · have hmeas : refMeasures c f = false := by simp [refMeasures, refFollows, hl]
      exact hhand.trans (if_neg (by rw [Bool.not_eq_true]; exact hmeas))
  · have he : tmLostAt s n = raise (s.setCan n { c with tmState := 1, tmLast := none }) (.can n) 5 (baseOf (.can n)) := by
      simp [tmLostAt, hrole, c, hst]
    refine ⟨_, congrArg Host.Outcome.next he, ((onCan_setCan s n _).trans (onCan_raise ..)).same.eq_withParts, by simp,
      raise_reports (s.setCan n _) (.can n) 5 (baseOf (.can n))⟩
  · have hgo : (tmRole s n = 2 && canRun s n && !canBusOff (s.can n) && (s.can n).tmState ≠ 3) = true := by
      simp only [hrole, hrun, hb, c, decide_true, Bool.and_self, Bool.not_false, Bool.true_and]
      exact decide_eq_true hst
    obtain ⟨c', hst', hmaster, he⟩ : ∃ c' : CanState, c'.tmState = 3 ∧ c'.tmMaster = tmRank s n ∧
        tmBecome s n = raise (s.setCan n c') (.can n) 6 (baseOf (.can n)) :=
      ⟨{ c with tmState := 3, tmMaster := tmRank s n, tmFirst := true, tmSent := none, tmChanges := satUp 255 c.tmChanges }, rfl, rfl, 
        if_pos hgo⟩
    have hon : OnCan n s (tmBecome s n) := by
      rw [he]
      exact (onCan_setCan ..).trans (onCan_raise ..)
    have hm := baseStep_remaster (tmBecome s n)
    have hcan : (remaster (tmBecome s n)).can n = c' := by rw [hm.can, he, can_raise, State.can_setCan]
    refine ⟨_, rfl, ((hon.same.mono (qs := [.cans, .ucbs, .time, .tick, .freeCount]) (by simp)).trans
      (hm.same.mono (by simp))).eq_withParts, fun m hne => (hm.can m).trans (hon.others m hne), by rw [hcan, hst'],
      by rw [hcan, hmaster], Reports.of_ucb (raise_reports (s.setCan n c') (.can n) 6 (baseOf (.can n))) ?_⟩
    exact (hm.ucb (.can n) (by simp)).trans (by rw [he])

end Sys2Proof.Machine
end

section
/-! Reports that bring the safe state, and commands that have passed their checks. -/

namespace Sys2Proof.Machine

open Sys2Proof

/-! ### The messages of a control block -/

/-- The messages that a unit holds are the same in two states. -/
def SameMail (s t : State) (u : UnitId) : Prop := (t.ucb u).held = (s.ucb u).held ∧ (t.ucb u).waiting = (s.ucb u).waiting

theorem SameMail.trans {s t r : State} {u : UnitId} (h : SameMail s t u) (g : SameMail t r u) : SameMail s r u :=
  ⟨g.1.trans h.1, g.2.trans h.2⟩

theorem SameMail.of_ucb {s t : State} {u : UnitId} (h : t.ucb u = s.ucb u) : SameMail s t u :=
  ⟨congrArg Ucb.held h, congrArg Ucb.waiting h⟩

theorem SameMail.of_same {s t : State} {ps : List Part} (h : SameBut ps s t) (hp : Part.ucbs ∉ ps) (u : UnitId) : SameMail s t u :=
  .of_ucb (by unfold State.ucb; rw [show t.ucbs = s.ucbs from h.same .ucbs hp])

theorem SameMail.of_setUcb {s : State} {v : UnitId} {f : Ucb → Ucb} (hh : ∀ b, (f b).held = b.held) (hw : ∀ b, (f b).waiting = b.waiting)
    (u : UnitId) : SameMail s (s.setUcb v f) u := by
  rw [SameMail, State.ucb_setUcb_if]
  split
  · rename_i h
    subst h
    exact ⟨hh _, hw _⟩
  · exact ⟨rfl, rfl⟩

/-- What leaves the messages of a unit leaves its report. -/
theorem Reports.of_mail {s t r : State} {u : UnitId} {k a : Nat} (h : Reports s t u k a) (hm : SameMail t r u) : Reports s r u k a := by
  unfold Reports
  rw [hm.1, hm.2]
  exact h

theorem finish_mail (s : State) (v : UnitId) (c : Status) (d : Nat) (u : UnitId) : SameMail s (s.finish v c d) u :=
  .of_setUcb (fun b => by cases b.running <;> rfl) (fun b => by cases b.running <;> rfl) u

theorem releaseTokens_mail (s : State) (a : Activity) (u : UnitId) : SameMail s (releaseTokens s a) u := by
  have h := ucb_releaseTokens_token s a u
  exact ⟨by rw [h], by rw [h]⟩

theorem failRunning_mail (s : State) (a : Activity) (u : UnitId) : SameMail s (failRunning s a) u := by
  unfold failRunning
  split
  · split
    · exact finish_mail ..
    · exact .of_ucb rfl
  · exact .of_ucb rfl

/-- The end of a brake test or of a re-timing sends no message. -/
theorem endFieldActivity_mail (s : State) {a : Activity} (h : a = .brakeTest ∨ a = .offPulseRetime) (u : UnitId) :
    SameMail s (endActivity s a) u := by
  rw [endActivity_eq]
  split
  · exact .of_ucb rfl
  · refine ((failRunning_mail s a u).trans (releaseTokens_mail _ a u)).trans ?_
    rcases h with rfl | rfl <;> exact .of_ucb rfl

theorem enterSafeBody_mail (s : State) (cause : SafeCause) (u : UnitId) : SameMail s (enterSafeBody s cause) u :=
  (SameMail.of_same (markSafe_same s cause) (by decide) u).trans <| (SameMail.of_same (driveSafe_same _) (by decide) u).trans <|
    (SameMail.of_same (commitSafe_same _ _) (by decide) u).trans <| (SameMail.of_same (openSupplies_same _) (by decide) u).trans <|
    (SameMail.of_same (discardEmissions_same _) (by decide) u).trans <| (SameMail.of_same (clearRunning_same _) (by decide) u).trans <|
    (endFieldActivity_mail _ (.inl rfl) u).trans (endFieldActivity_mail _ (.inr rfl) u)

/-- Entry to the safe state sends no message but, perhaps, one of the recorder. -/
theorem enterSafe_mail (s : State) (cause : SafeCause) {u : UnitId} (h : u ≠ .evr) : SameMail s (enterSafe s cause) u := by
  rw [enterSafe_eq]
  split
  · exact (enterSafeBody_mail s cause u).trans ((SameMail.of_same (noteSafe_same _) (by decide) u).trans (.of_ucb (ucb_offer _ h ..)))
  · exact enterSafeBody_mail s cause u

theorem raiseSafe_reports (s : State) {u : UnitId} (h : u ≠ .evr) (k a : Nat) : Reports s (raiseSafe s u k a) u k a :=
  (raise_reports s u k a).of_mail (enterSafe_mail _ _ h)

/-! ### Commands that have passed their checks -/

/-- A unit-specific command to a single unit that has passed every check runs. -/
theorem ucbCommand_of_legal {s : State} {w : Writer} {u : UnitId} {code arg : Nat} (hu : plainUnit u = true) (h : Legal s w u code arg)
    (hc : 0x80 ≤ code) : ucbCommand s w u code arg = runSpecific s w u code arg := by
  have hl : commandCheck s w u code arg = (.ok, none) := h
  unfold ucbCommand
  rw [inTree_of_plain hu, if_neg (show code ≠ 0 by omega)]
  cases u with
  | card slot sub => exact absurd hu (by simp [plainUnit])
  | _ =>
    simp only [Bool.not_true, Bool.false_eq_true, if_false, hl]
    exact if_neg (by omega)

theorem Busy.of_tokens {s t : State} {u : UnitId} {w : Writer} {code arg : Nat} (h : Busy s t u w code arg) (a : Activity) (v : UnitId) :
    Busy s (takeTokens t a v) u w code arg := by
  unfold Busy
  rw [ucb_takeTokens]
  split <;> exact h

theorem Busy.of_ucb {s t r : State} {u : UnitId} {w : Writer} {code arg : Nat} (h : Busy s t u w code arg) (hu : r.ucb u = t.ucb u) :
    Busy s r u w code arg := by
  unfold Busy
  rw [hu]
  exact h

theorem Ended.of_ucb {s t r : State} {u : UnitId} {code : Nat} {st : Status} {d : Nat} (h : Ended s t u code st d)
    (hu : r.ucb u = t.ucb u) : Ended s r u code st d := by
  unfold Ended
  rw [hu]
  exact h

/-- The release of tokens leaves the outcome of a command. -/
theorem Ended.of_release {s t : State} {u : UnitId} {code : Nat} {st : Status} {d : Nat} (h : Ended s t u code st d) (a : Activity) :
    Ended s (releaseTokens t a) u code st d := by
  unfold Ended
  rw [ucb_releaseTokens_token]
  exact h

theorem token_takeTokens {s : State} {a : Activity} {h v : UnitId} (hv : v ∈ footprint a) :
    ((takeTokens s a h).ucb v).token = some (a, handleOf h) := by
  rw [ucb_takeTokens, if_pos hv]

end Sys2Proof.Machine
end

section
/-! Off-pulse testing (O28). -/

namespace Sys2Proof.Machine

open Sys2Proof

/-! ### Channels, banks and their switches -/

@[simp] theorem State.bk_setBk (s : State) (x : Fin 2) (b : Brake) : (s.setBk x b).bk x = b := by
  unfold State.setBk State.bk
  split <;> rfl

theorem State.bk_setBk_ne (s : State) {x y : Fin 2} (h : y ≠ x) (b : Brake) : (s.setBk x b).bk y = s.bk y := by
  unfold State.setBk State.bk
  by_cases hx : x = 0 <;> by_cases hy : y = 0 <;> simp_all
  omega

theorem State.setBk_same (s : State) (x : Fin 2) (b : Brake) : SameBut [.safe] s (s.setBk x b) := by
  unfold State.setBk
  split <;> exact ⟨fun p hp => by cases p <;> first | rfl | simp at hp⟩

@[simp] theorem State.dout_setBk (s : State) (x : Fin 2) (b : Brake) (m : Nat) : (s.setBk x b).dout m = s.dout m := by
  unfold State.setBk
  split <;> rfl

@[simp] theorem State.bk_setDout (s : State) (m : Nat) (d : DoState) (x : Fin 2) : (s.setDout m d).bk x = s.bk x := rfl

/-- What a step of one channel leaves of SAFE/FIO: the switches, the pulse and its round, and the test. -/
structure SwitchesSame (s t : State) : Prop where
  /-- The rest of the machine stays. -/
  same : SameBut [.safe] s t
  /-- The switch of the DO bank stays. -/
  openA : t.safe.openA = s.safe.openA
  /-- The switch of the brake bank stays. -/
  openB : t.safe.openB = s.safe.openB
  /-- Whether the DO bank's switch is held open stays. -/
  heldA : t.safe.heldA = s.safe.heldA
  /-- Whether the brake bank's switch is held open stays. -/
  heldB : t.safe.heldB = s.safe.heldB
  /-- The running pulse stays. -/
  pulse : t.safe.pulse = s.safe.pulse
  /-- The slot of the round stays. -/
  slot : t.safe.slot = s.safe.slot

theorem SwitchesSame.trans {s t r : State} (h : SwitchesSame s t) (g : SwitchesSame t r) : SwitchesSame s r :=
  ⟨h.same.trans g.same, g.openA.trans h.openA, g.openB.trans h.openB, g.heldA.trans h.heldA, g.heldB.trans h.heldB,
    g.pulse.trans h.pulse, g.slot.trans h.slot⟩

theorem switches_setBk (s : State) (x : Fin 2) (b : Brake) : SwitchesSame s (s.setBk x b) := by
  unfold State.setBk
  split <;> exact ⟨⟨fun p hp => by cases p <;> first | rfl | simp at hp⟩, rfl, rfl, rfl, rfl, rfl, rfl⟩

theorem switches_setDout (s : State) (m : Nat) (d : DoState) : SwitchesSame s (s.setDout m d) :=
  ⟨setDout_same s m d, rfl, rfl, rfl, rfl, rfl, rfl⟩

theorem switches_drive (s : State) (ch : OutCh) (on : Bool) : SwitchesSame s (drive s ch on) := by
  cases ch with
  | bk x => exact switches_setBk ..
  | dout m => exact switches_setDout ..

theorem switches_setReadback (s : State) (ch : OutCh) (high : Bool) : SwitchesSame s (setReadback s ch high) := by
  cases ch with
  | bk x => exact switches_setBk ..
  | dout m => exact switches_setDout ..

theorem switches_foldl {α : Type} {g : State → α → State} (h : ∀ s a, SwitchesSame s (g s a)) (l : List α) (s : State) :
    SwitchesSame s (l.foldl g s) := by
  induction l generalizing s with
  | nil => exact ⟨SameBut.refl _ s, rfl, rfl, rfl, rfl, rfl, rfl⟩
  | cons a l ih => exact (h s a).trans (ih _)

theorem switches_bankOff (s : State) (brakes : Bool) : SwitchesSame s (bankOff s brakes) := by
  cases brakes with
  | true => exact ⟨⟨fun p hp => by cases p <;> first | rfl | simp at hp⟩, rfl, rfl, rfl, rfl, rfl, rfl⟩
  | false => exact switches_foldl (fun s m => switches_drive s (.dout m) false) _ s

/-- The switch of a channel's bank is open. -/
def bankOpen (s : State) (brakes : Bool) : Bool := if brakes then s.safe.openB else s.safe.openA

/-- The switch of a bank is held open until module reset. -/
def bankHeld (s : State) (brakes : Bool) : Bool := if brakes then s.safe.heldB else s.safe.heldA

theorem SwitchesSame.bankOpen {s t : State} (h : SwitchesSame s t) (b : Bool) : bankOpen t b = Machine.bankOpen s b := by
  unfold Machine.bankOpen
  rw [h.openA, h.openB]

theorem SwitchesSame.bankHeld {s t : State} (h : SwitchesSame s t) (b : Bool) : bankHeld t b = Machine.bankHeld s b := by
  unfold Machine.bankHeld
  rw [h.heldA, h.heldB]

/-! ### What is energised and what is commanded -/

theorem energised_drive_ne (s : State) {ch y : OutCh} (h : y ≠ ch) (on : Bool) : energised (drive s ch on) y = energised s y := by
  cases ch with
  | bk x => cases y with
    | bk z => exact congrArg Brake.drv (State.bk_setBk_ne s (fun e => h (by rw [e])) _)
    | dout m => exact congrArg DoState.drv (State.dout_setBk ..)
  | dout m => cases y with
    | bk z => rfl
    | dout k => exact congrArg DoState.drv (State.dout_setDout_ne s (fun e => h (by rw [Fin.ext e])) _)

theorem commanded_drive (s : State) (ch y : OutCh) (on : Bool) : commanded (drive s ch on) y = commanded s y := by
  cases ch with
  | bk x => cases y with
    | bk z =>
      by_cases h : z = x
      · subst h; simp [commanded, drive, driveBrake]
      · exact congrArg Brake.cmd (State.bk_setBk_ne s h _)
    | dout m => exact congrArg DoState.cmd (State.dout_setBk ..)
  | dout m => cases y with
    | bk z => rfl
    | dout k =>
      by_cases h : k.val = m.val
      · simp [commanded, drive, driveDo, h]
      · exact congrArg DoState.cmd (State.dout_setDout_ne s h _)

/-- A channel is driven as it is told only where its bank's switch is closed. -/
theorem energised_drive_off (s : State) (ch : OutCh) (on : Bool) (h : on = false ∨ bankOpen s (isBrakeCh ch) = true) :
    energised (drive s ch on) ch = false := by
  cases ch with
  | bk x => rcases h with rfl | h <;> simp_all [energised, drive, driveBrake, bankOpen, isBrakeCh]
  | dout m => rcases h with rfl | h <;> simp_all [energised, drive, driveDo, bankOpen, isBrakeCh]

theorem energised_setReadback (s : State) (ch y : OutCh) (high : Bool) : energised (setReadback s ch high) y = energised s y := by
  cases ch with
  | bk x => cases y with
    | bk z =>
      by_cases h : z = x
      · subst h; simp [energised, setReadback]
      · exact congrArg Brake.drv (State.bk_setBk_ne s h _)
    | dout m => exact congrArg DoState.drv (State.dout_setBk ..)
  | dout m => cases y with
    | bk z => rfl
    | dout k =>
      by_cases h : k.val = m.val
      · simp [energised, setReadback, h]
      · exact congrArg DoState.drv (State.dout_setDout_ne s h _)

theorem energised_drives_off (ms : List (Fin 8)) (s : State) (y : OutCh) :
    energised (ms.foldl (fun s m => driveDo s m false) s) y =
      (energised s y && !decide (∃ m ∈ ms, y = .dout m)) := by
  induction ms generalizing s with
  | nil => simp
  | cons m ms ih =>
    rw [List.foldl_cons, ih]
    by_cases h : y = .dout m
    · subst h
      have h0 : energised (driveDo s m false) (.dout m) = false := energised_drive_off s (.dout m) false (.inl rfl)
      simp [h0]
    · have h0 : energised (driveDo s m false) y = energised s y := energised_drive_ne s h false
      simp [h0, h]

/-- A bank switched off takes its channels with it and no other. -/
theorem energised_bankOff (s : State) (brakes : Bool) (y : OutCh) :
    energised (bankOff s brakes) y = (energised s y && (isBrakeCh y != brakes)) := by
  cases brakes with
  | true =>
    cases y with
    | bk x =>
      simp only [isBrakeCh, bne_self_eq_false, Bool.and_false]
      change ((bankOff s true).bk x).drv = false
      unfold State.bk
      split <;> rfl
    | dout m => simp [bankOff, energised, isBrakeCh, brakesOff, State.dout]
  | false =>
    have h := energised_drives_off (List.finRange 8) s y
    simp only [bankOff, Bool.false_eq_true, if_false]
    rw [h]
    cases y <;> simp [isBrakeCh]

/-! ### A bank held open -/

theorem energised_holdOpen (s : State) (brakes : Bool) (y : OutCh) :
    energised (holdOpen s brakes) y = (energised s y && (isBrakeCh y != brakes)) := by
  unfold holdOpen
  rw [energised_bankOff]
  cases brakes <;> cases y <;> rfl

theorem holdOpen_same (s : State) (brakes : Bool) : SameBut [.safe] s (holdOpen s brakes) := by
  refine SameBut.trans ?_ (switches_bankOff _ brakes).same
  exact SameBut.ite ⟨fun p hp => by cases p <;> first | rfl | simp at hp⟩ ⟨fun p hp => by cases p <;> first | rfl | simp at hp⟩

theorem bankOpen_holdOpen (s : State) (brakes b : Bool) : bankOpen (holdOpen s brakes) b = (bankOpen s b || (b == brakes)) := by
  unfold holdOpen
  rw [(switches_bankOff _ brakes).bankOpen]
  cases brakes <;> cases b <;> simp [bankOpen]

theorem bankHeld_holdOpen (s : State) (brakes b : Bool) : bankHeld (holdOpen s brakes) b = (bankHeld s b || (b == brakes)) := by
  unfold holdOpen
  rw [(switches_bankOff _ brakes).bankHeld]
  cases brakes <;> cases b <;> simp [bankHeld]

theorem pulse_holdOpen (s : State) (brakes : Bool) : (holdOpen s brakes).safe.pulse = s.safe.pulse := by
  unfold holdOpen
  rw [(switches_bankOff _ brakes).pulse]
  cases brakes <;> rfl

theorem energised_congr {s t : State} (h : t.safe = s.safe) (y : OutCh) : energised t y = energised s y := by
  cases y with
  | bk x => simp only [energised, State.bk, h]
  | dout m => simp only [energised, State.dout, h]

theorem commanded_congr {s t : State} (h : t.safe = s.safe) (y : OutCh) : commanded t y = commanded s y := by
  cases y with
  | bk x => simp only [commanded, State.bk, h]
  | dout m => simp only [commanded, State.dout, h]

theorem safe_raise (s : State) (u : UnitId) (k a : Nat) : (raise s u k a).safe = s.safe := (raise_same s u k a).same .safe (by decide)

theorem Ended.of_before {s t r : State} {u : UnitId} {code : Nat} {st : Status} {d : Nat} (h : Ended t r u code st d)
    (hu : t.ucb u = s.ucb u) : Ended s r u code st d := by
  unfold Ended at h ⊢
  rw [← hu]
  exact h

/-! ### Slots -/

/-- The slot number moves on. -/
def State.atSlot (s : State) (i : Nat) : State := { s with safe := { s.safe with slot := i } }

/-- A channel's pulse runs. -/
def State.pulsing (s : State) (ch : OutCh) : State := { s with safe := { s.safe with pulse := some ch, lastPulsed := ch.code } }

theorem offPulse_eq {s : State} {ch : OutCh} (h : s.safe.slot % 10 ≠ 0) (hch : slotOrder.getD (s.safe.slot % 10) (.bk 0) = ch) :
    offPulse s =
      if scheduled s ch && energised s ch && safeRun s && !(isBrakeCh ch && s.safe.btest.isSome) then
        (drive (s.atSlot (s.safe.slot % 10 + 1)) ch false).pulsing ch
      else s.atSlot (s.safe.slot % 10 + 1) := by
  unfold offPulse
  simp only [if_neg h, hch]
  cases ch <;> rfl

/-- The start of the round comes first at slot 0, and the rest touches SAFE/FIO's channels alone. -/
theorem offPulse_first {s : State} (h : s.safe.slot % 10 = 0) :
    (offPulse s).ucbs = (roundStart s).ucbs ∧ (offPulse s).safe.pw = (roundStart s).safe.pw ∧
      (offPulse s).safe.pwNext = (roundStart s).safe.pwNext := by
  have hd : ∀ (t : State) (ch : OutCh), (drive t ch false).safe.pw = t.safe.pw ∧ (drive t ch false).safe.pwNext = t.safe.pwNext := by
    intro t ch
    cases ch with
    | bk x =>
      simp only [drive, driveBrake, State.setBk]
      split <;> exact ⟨rfl, rfl⟩
    | dout m => exact ⟨rfl, rfl⟩
  unfold offPulse
  simp only [if_pos h]
  split
  · exact ⟨(switches_drive ..).same.same .ucbs (by decide), (hd ..).1, (hd ..).2⟩
  · exact ⟨rfl, rfl, rfl⟩

theorem roundStart_retimed {s : State} {w : Nat} {r : Running} (hw : s.safe.pwNext = some w) (hr : (s.ucb .safe).running = some r) :
    (roundStart s).safe.pw = w ∧ (roundStart s).safe.pwNext = none ∧ Ended s (roundStart s) .safe r.code .ok 0 := by
  obtain ⟨x, hx, hxu⟩ : ∃ x : State, roundStart s = releaseTokens
      ((State.finish { x with safe := { x.safe with pw := w, pwNext := none } } .safe .ok 0)) .offPulseRetime ∧ x.ucbs = s.ucbs := by
    unfold roundStart
    split
    · exact ⟨{ s with safe := { s.safe with rounds := satUp 0xFFFF s.safe.rounds } }, by simp [hw], rfl⟩
    · exact ⟨s, by simp [hw], rfl⟩
  have hsafe : (roundStart s).safe = { x.safe with pw := w, pwNext := none } := by
    rw [hx]
    exact ((finish_same ..).trans (releaseTokens_same ..)).same .safe (by decide)
  have hu : ∀ u, State.ucb { x with safe := { x.safe with pw := w, pwNext := none } } u = s.ucb u := fun u => by
    unfold State.ucb; exact congrArg (fun m => mapGetD m _ _) hxu
  refine ⟨by rw [hsafe], by rw [hsafe], ?_⟩
  rw [hx]
  refine Ended.of_release (Ended.of_before (finish_ended (by rw [hu]; exact hr) .ok 0) (hu _)) _

/-! ### The evaluation of a pulse -/

/-- The evaluated pulse ends. -/
def State.pulseEnd (s : State) (ch : OutCh) : State :=
  { s with safe := { s.safe with pulse := none, skipRuns := mapErase ch.code s.safe.skipRuns } }

/-- The end of an evaluation: the pulse ends and the channel follows its command. -/
def evalEnd (s : State) (ch : OutCh) : State := drive (s.pulseEnd ch) ch (commanded (s.pulseEnd ch) ch)

theorem evalEnd_same (s : State) (ch : OutCh) : SameBut [.safe] s (evalEnd s ch) :=
  SameBut.trans ⟨fun p hp => by cases p <;> first | rfl | simp at hp⟩ (switches_drive ..).same

theorem evalEnd_bank (s : State) (ch : OutCh) (b : Bool) :
    bankOpen (evalEnd s ch) b = bankOpen s b ∧ bankHeld (evalEnd s ch) b = bankHeld s b :=
  ⟨(switches_drive ..).bankOpen b, (switches_drive ..).bankHeld b⟩

theorem evalEnd_off {s : State} {ch : OutCh} (h : bankOpen s (isBrakeCh ch) = true) (y : OutCh) (hy : y = ch ∨ energised s y = false) :
    energised (evalEnd s ch) y = false := by
  by_cases hc : y = ch
  · subst hc
    exact energised_drive_off _ _ _ (.inr h)
  · rw [evalEnd, energised_drive_ne _ hc]
    rcases hy with rfl | hy
    · exact absurd rfl hc
    · cases y <;> exact hy

theorem offPulseEvaluate_clean {s : State} {ch : OutCh} {low : List OutCh} (hp : s.safe.pulse = some ch)
    (h : ∀ y ∈ low, y = ch ∨ energised s y = false) : offPulseEvaluate s false low = evalEnd s ch := by
  have hl : low.filter (fun y => y ≠ ch && energised s y) = [] := by
    rw [List.filter_eq_nil_iff]
    intro y hy
    rcases h y hy with rfl | h <;> simp_all
  simp only [offPulseEvaluate, hp, hl, List.foldl_nil, Bool.false_eq_true, if_false]
  rfl

theorem offPulseEvaluate_own {s : State} {ch : OutCh} (hp : s.safe.pulse = some ch) :
    offPulseEvaluate s true [] = setReadback (evalEnd (extFeed s ch) ch) ch true := by
  simp only [offPulseEvaluate, hp, List.filter_nil, List.foldl_nil, if_true]
  rfl

theorem offPulseEvaluate_cross {s : State} {ch y : OutCh} (hp : s.safe.pulse = some ch) (hy : y ≠ ch) (he : energised s y = true) :
    offPulseEvaluate s false [y] = evalEnd (crossFeed s ch y) ch := by
  have hl : [y].filter (fun y => y ≠ ch && energised s y) = [y] := by simp [hy, he]
  simp only [offPulseEvaluate, hp, hl, List.foldl_cons, List.foldl_nil, Bool.false_eq_true, if_false]
  rfl

/-! ### The banks that a finding opens -/

theorem extFeed_spec (s : State) (ch : OutCh) :
    SameBut [.safe, .ucbs] s (extFeed s ch) ∧ Reports s (extFeed s ch) .safe 1 ch.code ∧ bankOpen (extFeed s ch) (isBrakeCh ch) = true ∧
      bankHeld (extFeed s ch) (isBrakeCh ch) = true ∧ (∀ y, isBrakeCh y = isBrakeCh ch → energised (extFeed s ch) y = false) := by
  refine ⟨((raise_same ..).mono (by decide)).trans ((holdOpen_same ..).mono (by decide)),
    (raise_reports s .safe 1 ch.code).of_mail (.of_same (holdOpen_same ..) (by decide) _), ?_, ?_, fun y hy => ?_⟩
  · rw [extFeed, bankOpen_holdOpen]; simp
  · rw [extFeed, bankHeld_holdOpen]; simp
  · rw [extFeed, energised_holdOpen, hy]; simp

theorem crossFeed_spec (s : State) (ch y : OutCh) :
    SameBut [.safe, .ucbs] s (crossFeed s ch y) ∧ Reports s (crossFeed s ch y) .safe 3 (ch.code * 256 + y.code) ∧
      bankOpen (crossFeed s ch y) (isBrakeCh ch) = true ∧ bankHeld (crossFeed s ch y) (isBrakeCh y) = true ∧
      energised (crossFeed s ch y) y = false := by
  refine ⟨((raise_same ..).mono (by decide)).trans (((holdOpen_same ..).trans (holdOpen_same ..)).mono (by decide)),
    (raise_reports s .safe 3 (ch.code * 256 + y.code)).of_mail (.of_same ((holdOpen_same ..).trans (holdOpen_same ..)) (by decide) _),
    ?_, ?_, ?_⟩
  · rw [crossFeed, bankOpen_holdOpen, bankOpen_holdOpen]; simp
  · rw [crossFeed, bankHeld_holdOpen]; simp
  · rw [crossFeed, energised_holdOpen]; simp

/-- The clean evaluation gives a channel its commanded state where nothing bounds it (R318). -/
theorem evalEnd_drives (s : State) (ch : OutCh) :
    (∀ x, ch = .bk x → ((evalEnd s ch).bk x).drv = ((s.bk x).cmd && !s.safe.openB && safeRun s)) ∧
      (∀ m, ch = .dout m → ((evalEnd s ch).dout m).drv = ((s.dout m).cmd && !(s.dout m).latched && !s.safe.openA && safeRun s)) := by
  constructor
  · rintro x rfl
    exact congrArg Brake.drv (State.bk_setBk ..)
  · rintro m rfl
    exact congrArg DoState.drv (State.dout_setDout ..)

theorem readbackCheck_high {s : State} {ch : OutCh} (hs : scheduled s ch = true) (hp : s.safe.pulse = none) (hc : commanded s ch = false) :
    readbackCheck s ch true = setReadback (extFeed s ch) ch true := by
  simp [readbackCheck, hs, hp, hc]

theorem readbackCheck_low {s : State} {ch : OutCh} (hs : scheduled s ch = true) (hp : s.safe.pulse = none) (he : energised s ch = true) :
    readbackCheck s ch false = setReadback (raise s .safe 4 ch.code) ch false := by
  simp [readbackCheck, hs, hp, he]

theorem setReadback_raise (s : State) (ch : OutCh) (high : Bool) (k a : Nat) : setReadback (raise s .safe k a) ch high =
    { setReadback s ch high with ucbs := (setReadback (raise s .safe k a) ch high).ucbs } := by
  have h := (raise_same s .safe k a).eq_ucbs
  generalize raise s .safe k a = r at h ⊢
  rw [h]
  cases ch with
  | bk x =>
    simp only [setReadback, State.setBk]
    split <;> rfl
  | dout m => rfl

theorem setReadback_mail (s : State) (ch : OutCh) (high : Bool) : SameMail s (setReadback s ch high) .safe :=
  .of_same (switches_setReadback ..).same (by decide) _

/-- Settles O28: the slot by `offPulse_eq`, the evaluation by the bank that `extFeed` and `crossFeed` hold open. -/
theorem offPulsesTestEveryScheduledOutput : Obligations.OffPulsesTestEveryScheduledOutput := by
  unfold Obligations.OffPulsesTestEveryScheduledOutput
  intro s
  refine ⟨fun ch => ?_,
    fun ch low hp => ⟨fun hlow => ?_, ?_, fun y hy he => ?_⟩,
    fun ch => ⟨fun ho => ?_, fun hs hp => ⟨fun hc => ?_, fun he => ?_⟩, fun h8 => ?_⟩, fun w arg hl => ?_⟩
  · intro i hch
    refine ⟨fun hi hs he hr hb => ?_, fun hi hoff => ?_, fun w r hi hw hrun => ?_⟩
    · have hgo : (scheduled s ch && energised s ch && safeRun s && !(isBrakeCh ch && s.safe.btest.isSome)) = true := by
        cases hbr : isBrakeCh ch with
        | false => simp [hs, he, hr]
        | true => simp [hs, he, hr, hb hbr]
      have heq : offPulse s = (drive (s.atSlot (i + 1)) ch false).pulsing ch := by
        rw [offPulse_eq hi hch]
        exact if_pos hgo
      have hdr := switches_drive (s.atSlot (i + 1)) ch false
      refine ⟨_, congrArg Host.Outcome.next heq, ?_, hdr.slot, rfl, ?_, ?_, fun y hy => ?_⟩
      · exact SameBut.eq_withParts (ps := [.safe]) (SameBut.trans (SameBut.trans (t := s.atSlot (i + 1))
          ⟨fun p hp => by cases p <;> first | rfl | simp at hp⟩ hdr.same) ⟨fun p hp => by cases p <;> first | rfl | simp at hp⟩)
      · have h := energised_drive_off (s.atSlot (i + 1)) ch false (.inl rfl)
        cases ch <;> exact h
      · have h := commanded_drive (s.atSlot (i + 1)) ch ch false
        cases ch <;> exact h
      · have h := energised_drive_ne (s.atSlot (i + 1)) hy false
        cases y <;> exact h
    · have hstop : (scheduled s ch && energised s ch && safeRun s && !(isBrakeCh ch && s.safe.btest.isSome)) = false := by
        rcases hoff with h | h <;> simp [h]
      refine congrArg Host.Outcome.next ?_
      rw [offPulse_eq hi hch]
      exact if_neg (by rw [hstop]; simp)
    · obtain ⟨hu, hpw, hnext⟩ := offPulse_first hi
      obtain ⟨h1, h2, h3⟩ := roundStart_retimed hw hrun
      exact ⟨_, rfl, hpw.trans h1, hnext.trans h2, h3.of_ucb (by unfold State.ucb; rw [hu])⟩
  · refine ⟨_, congrArg Host.Outcome.next (offPulseEvaluate_clean hp hlow), (evalEnd_same s ch).eq_withParts, (switches_drive ..).pulse,
      evalEnd_drives s ch⟩
  · obtain ⟨hsame, hrep, hopen, hheld, hoff⟩ := extFeed_spec s ch
    have hback := switches_setReadback (evalEnd (extFeed s ch) ch) ch true
    have hoff' : ∀ y, isBrakeCh y = isBrakeCh ch → energised (setReadback (evalEnd (extFeed s ch) ch) ch true) y = false := fun y hy => by
      rw [energised_setReadback]
      exact evalEnd_off hopen y (.inr (hoff y hy))
    have ho := (hback.bankOpen _).trans ((evalEnd_bank _ ch _).1.trans hopen)
    have hh := (hback.bankHeld _).trans ((evalEnd_bank _ ch _).2.trans hheld)
    refine ⟨_, congrArg Host.Outcome.next (offPulseEvaluate_own hp),
      (hsame.trans (((evalEnd_same _ ch).trans hback.same).mono (by decide))).eq_withParts,
      hrep.of_mail (.of_same ((evalEnd_same _ ch).trans hback.same) (by decide) _), ?_⟩
    cases hb : isBrakeCh ch with
    | true =>
      rw [hb] at ho hh
      exact ⟨ho, hh, hoff' (.bk 0) hb.symm, hoff' (.bk 1) hb.symm⟩
    | false =>
      rw [hb] at ho hh
      exact ⟨ho, hh, fun m => hoff' (.dout m) hb.symm⟩
  · obtain ⟨hsame, hrep, hopen, hheld, hoff⟩ := crossFeed_spec s ch y
    have hh := (evalEnd_bank _ ch _).2.trans hheld
    refine ⟨_, congrArg Host.Outcome.next (offPulseEvaluate_cross hp hy he),
      (hsame.trans ((evalEnd_same _ ch).mono (by decide))).eq_withParts, hrep.of_mail (.of_same (evalEnd_same _ ch) (by decide) _),
      evalEnd_off hopen ch (.inl rfl), evalEnd_off hopen y (.inr hoff), ?_⟩
    cases hb : isBrakeCh y <;> rw [hb] at hh <;> exact hh
  · obtain ⟨hsafe, hbraked⟩ := raiseSafe_safe s .safe 2 ch.code
    exact ⟨_, congrArg Host.Outcome.next (if_pos ho), hsafe, hbraked, raiseSafe_reports s (by simp) 2 ch.code⟩
  · obtain ⟨hsame, hrep, -, -, hoff⟩ := extFeed_spec s ch
    refine ⟨_, congrArg Host.Outcome.next (readbackCheck_high hs hp hc),
      (hsame.trans ((switches_setReadback ..).same.mono (by decide))).eq_withParts, ?_, hrep.of_mail (setReadback_mail ..)⟩
    rw [energised_setReadback]
    exact hoff ch rfl
  · exact ⟨_, congrArg Host.Outcome.next (readbackCheck_low hs hp he), setReadback_raise ..,
      (raise_reports s .safe 4 ch.code).of_mail (setReadback_mail ..)⟩
  · exact ⟨_, congrArg Host.Outcome.next (if_pos h8), (raise_same _ .safe 6 ch.code).eq_ucbs,
      raise_reports { s with safe := { s.safe with skipRuns := mapErase ch.code s.safe.skipRuns } } .safe 6 ch.code⟩
  · refine ⟨_, congrArg Host.Outcome.next (ucbCommand_of_legal rfl hl (by decide)), ?_, ?_, ?_⟩
    · have h := ((begin_same s .safe w 0x81 arg.toNat).trans (takeTokens_same _ .offPulseRetime .safe)).eq_ucbs
      simp only [runSpecific]
      rw [h]
      rfl
    · exact ((begin_busy s .safe w 0x81 arg.toNat).of_tokens .offPulseRetime .safe).of_ucb rfl
    · exact token_takeTokens (s := s.begin_ .safe w 0x81 arg.toNat) (a := .offPulseRetime) (h := .safe) (by decide)

end Sys2Proof.Machine
end

section
/-! The brake test (O30). -/

namespace Sys2Proof.Machine

open Sys2Proof

/-- A step that changes the output channels of SAFE/FIO alone. -/
def ChannelsOnly (s t : State) : Prop := ∃ d b0 b1, t = { s with safe := { s.safe with douts := d, bk0 := b0, bk1 := b1 } }

theorem ChannelsOnly.trans {s t r : State} (h : ChannelsOnly s t) (g : ChannelsOnly t r) : ChannelsOnly s r := by
  obtain ⟨d, b0, b1, rfl⟩ := h
  obtain ⟨d', b0', b1', rfl⟩ := g
  exact ⟨d', b0', b1', rfl⟩

theorem channelsOnly_refl (s : State) : ChannelsOnly s s := ⟨_, _, _, rfl⟩

theorem channelsOnly_setBk (s : State) (x : Fin 2) (b : Brake) : ChannelsOnly s (s.setBk x b) := by
  unfold State.setBk
  split
  · exact ⟨s.safe.douts, b, s.safe.bk1, rfl⟩
  · exact ⟨s.safe.douts, s.safe.bk0, b, rfl⟩

theorem channelsOnly_foldl {α : Type} {g : State → α → State} (h : ∀ s a, ChannelsOnly s (g s a)) (l : List α) (s : State) :
    ChannelsOnly s (l.foldl g s) := by
  induction l generalizing s with
  | nil => exact channelsOnly_refl s
  | cons a l ih => exact (h s a).trans (ih _)

theorem channelsOnly_bankOff (s : State) (brakes : Bool) : ChannelsOnly s (bankOff s brakes) := by
  cases brakes with
  | true => exact ⟨_, _, _, rfl⟩
  | false => exact channelsOnly_foldl (fun s (m : Fin 8) => ⟨mapPut m.val _ s.safe.douts, s.safe.bk0, s.safe.bk1, rfl⟩) _ s

theorem channelsOnly_recordTime (s : State) (phase ms : Nat) : ChannelsOnly s (recordTime s phase ms) := by
  unfold recordTime
  split
  · exact channelsOnly_setBk ..
  · exact channelsOnly_setBk ..
  · exact channelsOnly_setBk ..
  · exact channelsOnly_setBk ..
  · exact channelsOnly_refl s

theorem ChannelsOnly.same {s t : State} (h : ChannelsOnly s t) : SameBut [.safe] s t := by
  obtain ⟨d, b0, b1, rfl⟩ := h
  exact ⟨fun p hp => by cases p <;> first | rfl | simp at hp⟩

/-- The switches as a phase sets them. -/
def State.withSwitches (s : State) (a b : Bool) : State := { s with safe := { s.safe with openA := a, openB := b } }

/-- A phase's change sets the switches and drives channels. -/
theorem phaseChange_spec (s : State) (t : BrakeTest) (phase : Nat) : ∃ a b, ChannelsOnly (s.withSwitches a b) (phaseChange s t phase) := by
  have keep : ChannelsOnly (s.withSwitches s.safe.openA s.safe.openB) s := channelsOnly_refl s
  unfold phaseChange
  split
  · refine ⟨s.safe.openA || t.startUp, true, ?_⟩
    dsimp only
    split
    · exact (channelsOnly_bankOff _ false).trans (channelsOnly_bankOff _ true)
    · exact channelsOnly_bankOff _ true
  · exact ⟨if t.startUp then s.safe.heldA else s.safe.openA, s.safe.heldB, channelsOnly_refl _⟩
  · exact ⟨_, _, keep.trans (channelsOnly_setBk ..)⟩
  · exact ⟨_, _, keep.trans (channelsOnly_setBk ..)⟩
  · exact ⟨_, _, keep.trans (channelsOnly_setBk ..)⟩
  · exact ⟨_, _, keep.trans (channelsOnly_setBk ..)⟩
  · exact ⟨_, _, keep⟩

theorem bankOff_brakes (s : State) (x : Fin 2) : ((bankOff s true).bk x).drv = false := by
  have h := energised_bankOff s true (.bk x)
  simpa [isBrakeCh, energised] using h

/-- The changes of the phases that open or close the brake bank's switch, or drive a brake. -/
theorem phaseChange_one (s : State) (t : BrakeTest) : (phaseChange s t 1).safe.openB = true ∧ ((phaseChange s t 1).bk 0).drv = false ∧
    ((phaseChange s t 1).bk 1).drv = false := by
  refine ⟨?_, bankOff_brakes _ 0, bankOff_brakes _ 1⟩
  simp only [phaseChange]
  rw [(switches_bankOff _ true).openB]
  split
  · exact (switches_bankOff _ false).openB
  · rfl

/-! ### The end of a test -/

/-- SAFE_BTEST holds the outcome and no test runs. -/
def State.btestOver (s : State) (t : BrakeTest) (pass : Bool) (failStep : Nat) : State :=
  { s with safe := { s.safe with btest := none, btestWin := s.safe.btestWin.deliver (btestValue pass failStep t.elec) } }

/-- A full test that passed is the last one. -/
def State.btestPassed (s : State) (t : BrakeTest) : State :=
  if !t.elec then { s with safe := { s.safe with lastTest := some (s.tb3 : Int), due := false, dueSaid := false } } else s

theorem endBrakeTest_pass (s : State) (t : BrakeTest) : endBrakeTest s t true 0 =
    let x := (brakesOff (s.btestOver t true 0)).btestPassed t
    let y := if t.startUp then { x with pwr := { x.pwr with step := 9 } } else x
    releaseTokens (y.finish .safe .ok 0) .brakeTest := by
  unfold endBrakeTest State.btestPassed
  simp
  rfl

theorem endBrakeTest_fail (s : State) (t : BrakeTest) (failStep : Nat) : endBrakeTest s t false failStep =
    let x := brakesOff (s.btestOver t false failStep)
    let y := if t.startUp then stopStart x 8 1 else raise x .safe 10 0x81
    releaseTokens (y.finish .safe .ok 0) .brakeTest := by
  unfold endBrakeTest
  simp
  rfl

theorem endActivity_trial (s : State) (a : Activity) : (endActivity s a).upd.trial = s.upd.trial := by
  have fin : (releaseTokens (failRunning s a) a).upd = s.upd :=
    ((failRunning_same s a).trans (releaseTokens_same _ a)).same .upd (by decide)
  have keep (us : List UnitId) (t : State) : (us.foldl leaveMaint t).upd = t.upd :=
    (SameBut.foldl (ps := [.ucbs]) leaveMaint_same us t).same .upd (by decide)
  have drop (t : State) : (dropRejoin t).upd = t.upd := (dropRejoin_same t).same .upd (by decide)
  rw [endActivity_eq]
  split
  · rfl
  · cases a
    case splitJoin =>
      simp only [dropActivity, keep, drop, fin]
    case foxglove =>
      simp only [dropActivity, keep, fin]
    all_goals simp [dropActivity, fin]

theorem harmless_trial (s : State) : (harmless s).upd.trial = s.upd.trial := by
  have keep (ms : List (Fin 8)) (t : State) : (ms.foldl (fun s (m : Fin 8) =>
      s.setDout m { s.dout m with cmd := false, drv := false, rb := false }) t).upd = t.upd :=
    (SameBut.foldl (ps := [.safe]) (fun s (m : Fin 8) => setDout_same s m.val { s.dout m with cmd := false, drv := false, rb := false }) ms t).same .upd (by decide)
  unfold harmless
  dsimp only
  rw [endActivity_trial, endActivity_trial]
  exact congrArg UpdState.trial (keep ..)

/-- A start that is not on trial stops with its step and its reason (R23). -/
theorem stopStart_pwr {s : State} (h : s.upd.trial = false) (step reason : Nat) :
    (stopStart s step reason).pwr.failed = step ∧ (stopStart s step reason).pwr.reason = reason := by
  have ht := harmless_trial s
  unfold stopStart
  dsimp only
  rw [if_neg (by rw [ht, h]; simp)]
  exact ⟨rfl, rfl⟩

/-! ### What a step of the test gives -/

theorem btestPassed_eq (s : State) (t : BrakeTest) :
    ∃ l d e, s.btestPassed t = { s with safe := { s.safe with lastTest := l, due := d, dueSaid := e } } ∧
      (t.elec = false → l = some (s.tb3 : Int)) := by
  unfold State.btestPassed
  cases t.elec
  · exact ⟨_, _, _, rfl, fun _ => rfl⟩
  · exact ⟨_, _, _, rfl, by simp⟩

/-- A passed test (Table SAF-2): its outcome, both brakes off, and the end of what asked for it. -/
theorem endBrakeTest_passed (s : State) (b : BrakeTest) : let t := endBrakeTest s b true 0
    t.safe.btest = none ∧ t.safe.btestWin.valid = true ∧ t.safe.btestWin.value = btestValue true 0 b.elec ∧ (t.bk 0).drv = false ∧
      (t.bk 1).drv = false ∧ (b.elec = false → t.safe.lastTest = some (s.tb3 : Int)) ∧ (b.startUp = true → t.pwr.step = 9) ∧
      (∀ r, b.startUp = false → (s.ucb .safe).running = some r → Ended s t .safe r.code .ok 0) := by
  obtain ⟨l, d, e, hx, hl⟩ := btestPassed_eq (brakesOff (s.btestOver b true 0)) b
  have heq := endBrakeTest_pass s b
  dsimp only at heq ⊢
  rw [hx] at heq
  have hsame := fun y : State => (finish_same y .safe .ok 0).trans (releaseTokens_same _ .brakeTest)
  have hsafe : (endBrakeTest s b true 0).safe = { (brakesOff (s.btestOver b true 0)).safe with lastTest := l, due := d, dueSaid := e } := by
    rw [heq, show _ = _ from (hsame _).same .safe (by decide)]
    split <;> rfl
  have hdrv : ∀ x, ((endBrakeTest s b true 0).bk x).drv = false := fun x => by
    unfold State.bk
    rw [hsafe]
    split <;> rfl
  refine ⟨by rw [hsafe]; rfl, by rw [hsafe]; rfl, by rw [hsafe]; rfl, hdrv 0, hdrv 1, fun he => by rw [hsafe]; exact hl he, fun hs => ?_,
    fun r hs hr => ?_⟩
  · rw [heq, show _ = _ from (hsame _).same .pwr (by decide), if_pos hs]
  · rw [heq, if_neg (by rw [hs]; simp)]
    generalize hy : ({ brakesOff (s.btestOver b true 0) with
      safe := { (brakesOff (s.btestOver b true 0)).safe with lastTest := l, due := d, dueSaid := e } } : State) = y
    have hu : y.ucb .safe = s.ucb .safe := by rw [← hy]; rfl
    exact Ended.of_release (Ended.of_before (finish_ended (by rw [hu]; exact hr) .ok 0) hu) _

/-- A failed test ends with its step and both brakes off, and is reported; at start-up it stops step 8. -/
theorem endBrakeTest_failed (s : State) (b : BrakeTest) (k : Nat) : let t := endBrakeTest s b false k
    (b.startUp = false → t.safe.btest = none ∧ t.safe.btestWin.value = btestValue false k b.elec ∧ (t.bk 0).drv = false ∧
      (t.bk 1).drv = false ∧ Reports s t .safe 10 0x81) ∧
    (b.startUp = true → s.upd.trial = false → t.pwr.failed = 8 ∧ t.pwr.reason = 1) := by
  have heq := endBrakeTest_fail s b k
  dsimp only at heq ⊢
  have hsame := fun y : State => (finish_same y .safe .ok 0).trans (releaseTokens_same _ .brakeTest)
  constructor
  · intro hs
    rw [if_neg (by rw [hs]; simp)] at heq
    have hsafe : (endBrakeTest s b false k).safe = (brakesOff (s.btestOver b false k)).safe := by
      rw [heq, show _ = _ from (hsame _).same .safe (by decide)]
      exact safe_raise ..
    have hdrv : ∀ x, ((endBrakeTest s b false k).bk x).drv = false := fun x => by
      unfold State.bk
      rw [hsafe]
      split <;> rfl
    refine ⟨by rw [hsafe]; rfl, by rw [hsafe]; rfl, hdrv 0, hdrv 1, ?_⟩
    rw [heq]
    exact (raise_reports (brakesOff (s.btestOver b false k)) .safe 10 0x81).of_mail ((finish_mail ..).trans (releaseTokens_mail ..))
  · intro hs htrial
    have hstop := stopStart_pwr (s := brakesOff (s.btestOver b false k)) htrial 8 1
    rw [heq, show _ = _ from (hsame _).same .pwr (by decide), if_pos hs]
    exact hstop

/-- The running phase is judged with the times that it measured. -/
theorem brakeTestStep_of_test {s : State} {b : BrakeTest} (h : s.safe.btest = some b) (o : BrakeObs) :
    ∃ x, ChannelsOnly s x ∧
      (phasePasses s b.phase o = true → (5 ≤ b.phase → o.otherMoved = false) → brakeTestStep s o =
        if b.phase = lastPhase b then endBrakeTest x b true 0
        else { phaseChange x b (b.phase + 1) with
          safe := { (phaseChange x b (b.phase + 1)).safe with btest := some { b with phase := b.phase + 1 } } }) ∧
      (5 ≤ b.phase → o.otherMoved = false → o.passed = false →
        brakeTestStep s o = endBrakeTest x b false (stepOfPhase b.phase)) := by
  refine ⟨if o.passed then recordTime s b.phase o.ms else s, ?_, fun hp ho => ?_, fun h5 ho hf => ?_⟩
  · split
    · exact channelsOnly_recordTime ..
    · exact channelsOnly_refl s
  · have hp' : phasePasses (if o.passed then recordTime s b.phase o.ms else s) b.phase o = true := by
      split
      · obtain ⟨d, b0, b1, hr⟩ := channelsOnly_recordTime s b.phase o.ms
        rw [hr]
        exact hp
      · exact hp
    have hmoved : (decide (5 ≤ b.phase) && o.otherMoved) = false := by
      by_cases h5 : 5 ≤ b.phase
      · simp [ho h5]
      · simp [h5]
    simp only [brakeTestStep, h, hmoved, hp', Bool.not_true, Bool.false_eq_true, if_false]
  · have hp' : phasePasses s b.phase o = false := by
      unfold phasePasses
      split
      · omega
      all_goals simp [hf]
    have h12 : (b.phase = 1 ∨ b.phase = 2) = False := by simp; omega
    simp only [brakeTestStep, h, hf, ho, Bool.and_false, Bool.false_eq_true, if_false, hp', Bool.not_false, if_true, Bool.false_and,
      decide_eq_true_eq, h12, Bool.or_eq_true]

/-- The next phase with its change (Table SAF-2), from a state whose channels have recorded the times of the one before. -/
theorem nextPhase_spec (s : State) (b : BrakeTest) (d : NMap DoState) (b0 b1 : Brake) :
    let x : State := { s with safe := { s.safe with douts := d, bk0 := b0, bk1 := b1 } }
    let y := phaseChange x b (b.phase + 1)
    let t : State := { y with safe := { y.safe with btest := some { b with phase := b.phase + 1 } } }
    t = { s with safe := t.safe } ∧ t.safe.btest = some { b with phase := b.phase + 1 } ∧ t.safe.btestWin = s.safe.btestWin ∧
      (b.phase = 0 → t.safe.openB = true ∧ (t.bk 0).drv = false ∧ (t.bk 1).drv = false) ∧
      (b.phase = 1 → t.safe.openB = s.safe.heldB) ∧ (b.phase = 4 → (t.bk 0).drv = !s.safe.openB) ∧
      (b.phase = 5 → (t.bk 0).drv = false) ∧ (b.phase = 6 → (t.bk 1).drv = !s.safe.openB) := by
  intro x y t
  obtain ⟨oa, ob, d', b0', b1', hy⟩ := phaseChange_spec x b (b.phase + 1)
  have hy' : y = _ := hy
  have hbk : ∀ z, t.bk z = y.bk z := fun _ => rfl
  refine ⟨?_, rfl, ?_, fun h => ?_, fun h => ?_, fun h => ?_, fun h => ?_, fun h => ?_⟩
  · simp only [t, hy']; rfl
  · simp only [t, hy']; rfl
  · rw [hbk, hbk]
    simp only [t, y, h]
    exact phaseChange_one x b
  · simp only [t, y, h]; rfl
  · rw [hbk]; simp only [y, h]; rfl
  · rw [hbk]; simp only [y, h]; rfl
  · rw [hbk]; simp only [y, h]; rfl

/-- Settles O30: a step by `brakeTestStep_of_test`, the end of a test by its two outcomes. -/
theorem brakeTestRunsInPhases : Obligations.BrakeTestRunsInPhases := by
  unfold Obligations.BrakeTestRunsInPhases
  intro s
  refine ⟨fun w hl => ?_, fun b o hb => ?_, fun hr hs hd => ?_⟩
  · refine ⟨_, congrArg Host.Outcome.next (ucbCommand_of_legal rfl hl (by decide)), ?_, ?_, rfl, rfl, ?_, ?_⟩
    · exact SameBut.eq_withParts (ps := [.safe, .ucbs]) ((((begin_same s .safe w 0x80 0).trans
        (takeTokens_same _ .brakeTest .safe)).mono (by decide)).trans ⟨fun p hp => by cases p <;> first | rfl | simp at hp⟩)
    · exact ((begin_busy s .safe w 0x80 0).of_tokens .brakeTest .safe).of_ucb rfl
    · exact token_takeTokens (s := s.begin_ .safe w 0x80 0) (a := .brakeTest) (h := .safe) (v := .safe) (by decide)
    · exact token_takeTokens (s := s.begin_ .safe w 0x80 0) (a := .brakeTest) (h := .safe) (v := .pair) (by decide)
  · obtain ⟨x, ⟨d, b0, b1, rfl⟩, hpass, hfail⟩ := brakeTestStep_of_test hb o
    refine ⟨fun hp ho => ⟨fun hlast => ?_, fun hlast => ?_⟩, fun h5 ho hf => ?_⟩
    · exact ⟨_, congrArg Host.Outcome.next ((hpass hp ho).trans (if_neg hlast)), nextPhase_spec s b d b0 b1⟩
    · exact ⟨_, congrArg Host.Outcome.next ((hpass hp ho).trans (if_pos hlast)), endBrakeTest_passed ..⟩
    · exact ⟨_, congrArg Host.Outcome.next (hfail h5 ho hf), endBrakeTest_failed ..⟩
  · refine ⟨_, congrArg Host.Outcome.next (if_pos (by simp [hr, hs, hd])), (raise_same _ .safe 11 0x81).eq_ucbs,
      raise_reports { s with safe := { s.safe with due := true, dueSaid := true } } .safe 11 0x81⟩

end Sys2Proof.Machine
end

section
/-! Digital inputs (O31). -/

namespace Sys2Proof.Machine

open Sys2Proof

@[simp] theorem State.di_setDi (s : State) (ch : Nat) (d : DiState) : (s.setDi ch d).di ch = d := mapGetD_put_same ..

theorem di_setDi_ne (s : State) {ch k : Fin 18} (h : k ≠ ch) (d : DiState) : (s.setDi ch d).di k = s.di k :=
  mapGetD_put_ne (fun e => h (Fin.ext e)) ..

theorem safeRun_setDi (s : State) (ch : Nat) (d : DiState) : safeRun (s.setDi ch d) = safeRun s := rfl

/-- A channel whose cause of BAD has ended takes its level without an edge, unless another keeps it BAD. -/
theorem diSettle_setDi (s : State) (ch : Nat) (d : DiState) : diSettle (s.setDi ch d) ch =
    if d.brk || d.overvolt || d.settling || !safeRun s then s.setDi ch d else (s.setDi ch d).setDi ch { d with accepted := d.raw } := by
  unfold diSettle diBad
  rw [State.di_setDi, safeRun_setDi]

theorem diSettle_spec (s : State) (ch : Nat) (d : DiState) : let t := diSettle (s.setDi ch d) ch
    t = { s with safe := { s.safe with di := t.safe.di } } ∧
      t.di ch = if d.brk || d.overvolt || d.settling || !safeRun s then d else { d with accepted := d.raw } := by
  intro t
  have ht := diSettle_setDi s ch d
  split at ht
  · rename_i hb
    exact ⟨by simp only [t, ht]; rfl, by simp only [t, ht, State.di_setDi, if_pos hb]⟩
  · rename_i hb
    exact ⟨by simp only [t, ht]; rfl, by simp only [t, ht, State.di_setDi, if_neg hb]⟩

/-- An input's change that is reported. -/
theorem raise_setDi_spec (s : State) (ch k a : Nat) (d : DiState) : let t := raise (s.setDi ch d) .safe k a
    t = { s with safe := { s.safe with di := t.safe.di }, ucbs := t.ucbs } ∧ t.di ch = d ∧ Reports s t .safe k a := by
  intro t
  have hs : t.safe = (s.setDi ch d).safe := safe_raise ..
  have hu := (raise_same (s.setDi ch d) .safe k a).eq_ucbs
  refine ⟨?_, ?_, raise_reports (s.setDi ch d) .safe k a⟩
  · rw [hs]; exact hu
  · unfold State.di; rw [hs]; exact State.di_setDi s ch d

/-- Settles O31: an accepted edge by cases, what sets BAD by `raise_setDi_spec`, what ends it by `diSettle_spec`. -/
theorem inputsFollowTheirFilteredLevel : Obligations.InputsFollowTheirFilteredLevel := by
  unfold Obligations.InputsFollowTheirFilteredLevel
  intro s ch d
  refine ⟨fun level began => ?_, fun hb hbrk => ?_, fun hr ho => ?_, fun e he => ?_⟩
  · by_cases hgo : (diBad s ch || decide (d.accepted = level)) = true
    · have ht : diEdge s ch level began = s.setDi ch { d with raw := level } := if_pos hgo
      refine ⟨_, congrArg Host.Outcome.next ht, rfl, fun k hk => di_setDi_ne s hk _, ?_⟩
      rw [State.di_setDi]
      refine ⟨rfl, fun hb ha => ?_, fun _ => ⟨rfl, rfl⟩⟩
      simp [hb, ha] at hgo
    · obtain ⟨d', ht, hraw, hacc, hst, hed⟩ : ∃ d' : DiState, diEdge s ch level began = s.setDi ch d' ∧ d'.raw = level ∧
          d'.accepted = level ∧ d'.stamp = began / 1000 * 1000 ∧ d'.edges = (d.edges + 1) % 256 := ⟨_, if_neg hgo, rfl, rfl, rfl, rfl⟩
      refine ⟨_, congrArg Host.Outcome.next ht, rfl, fun k hk => di_setDi_ne s hk _, ?_⟩
      rw [State.di_setDi]
      refine ⟨hraw, fun _ _ => ⟨hacc, hst, hed⟩, fun hor => ?_⟩
      rcases hor with h | h <;> simp [h] at hgo
  · obtain ⟨hfr, hdi, hrep⟩ := raise_setDi_spec s ch 0x10 (diStat ch) { d with brk := true }
    refine ⟨_, congrArg Host.Outcome.next (if_pos (by simp [hb, d] at hbrk ⊢; exact hbrk)), hfr, hdi, ?_, hrep⟩
    unfold diBad
    rw [hdi]
    rfl
  · obtain ⟨hfr, hdi, hrep⟩ := raise_setDi_spec s ch 0x11 (diStat ch) { d with overvolt := true }
    have heq : diOvervolt s ch true = raise (s.setDi ch { d with overvolt := true }) .safe 0x11 (diStat ch) := by
      simp only [d] at ho
      simp [diOvervolt, hr, ho, d]
    refine ⟨_, congrArg Host.Outcome.next heq, hfr, hdi, ?_, hrep⟩
    unfold diBad
    rw [hdi]
    simp
  · simp only [List.mem_cons, List.not_mem_nil, or_false] at he
    rcases he with rfl | rfl | rfl
    · exact ⟨_, rfl, diSettle_spec ..⟩
    · exact ⟨_, rfl, diSettle_spec ..⟩
    · exact ⟨_, rfl, diSettle_spec ..⟩

end Sys2Proof.Machine
end

section
/-! Digital outputs and field supplies (O32). -/

namespace Sys2Proof.Machine

open Sys2Proof

theorem dout_raise (s : State) (u : UnitId) (k a m : Nat) : (raise s u k a).dout m = s.dout m := by
  unfold State.dout
  rw [safe_raise]

/-- An output's change that is reported. -/
theorem raise_setDout_spec (s : State) (m : Fin 8) (k a : Nat) (d : DoState) : let t := raise (s.setDout m d) .safe k a
    t = { s with safe := { s.safe with douts := t.safe.douts }, ucbs := t.ucbs } ∧ t.dout m = d ∧
      (∀ j : Fin 8, j ≠ m → t.dout j = s.dout j) ∧ Reports s t .safe k a := by
  intro t
  have hs : t.safe = (s.setDout m d).safe := safe_raise ..
  have hu := (raise_same (s.setDout m d) .safe k a).eq_ucbs
  refine ⟨?_, ?_, fun j hj => ?_, raise_reports (s.setDout m d) .safe k a⟩
  · rw [hs]; exact hu
  · rw [dout_raise]; exact State.dout_setDout ..
  · rw [dout_raise]; exact State.dout_setDout_ne s (fun e => hj (Fin.ext e)) d

/-- The output that a trip leaves: off and latched. -/
def DoState.tripped (d : DoState) (temp : Bool) : DoState :=
  { d with latched := true, zeroSeen := false, drv := false, rb := false, overload := d.overload || !temp,
           overtemp := d.overtemp || temp, hot := d.hot || temp }

theorem doTrip_eq {s : State} {m : Fin 8} (h : (s.dout m).drv = true) (temp : Bool) : doTrip s m temp =
    raise (s.setDout m ((s.dout m).tripped temp)) .safe (if temp then 0x13 else 0x12) (doStat m) := by
  simp [doTrip, h, DoState.tripped]

/-- A supply's condition that is reported. -/
theorem raise_supply (s : State) (f : SafeState) (k : Nat) : let t := raise { s with safe := f } .safe k supplyAddr
    t = { s with safe := t.safe, ucbs := t.ucbs } ∧ t.safe = f ∧ Reports s t .safe k supplyAddr := by
  intro t
  have hs : t.safe = f := safe_raise ..
  refine ⟨?_, hs, raise_reports { s with safe := f } .safe k supplyAddr⟩
  rw [hs]
  exact (raise_same { s with safe := f } .safe k supplyAddr).eq_ucbs

/-- Settles O32: what is reported by `raise_setDout_spec` and `raise_supply`, what clears by its write. -/
theorem outputsAndSuppliesReportTheirFaults : Obligations.OutputsAndSuppliesReportTheirFaults := by
  unfold Obligations.OutputsAndSuppliesReportTheirFaults
  intro s m d stat
  refine ⟨fun hd => ⟨?_, ?_⟩, fun hen hd ho hp hi => ?_, fun hs hc ho hf => ?_, fun e he => ?_, fun brakes => ⟨?_, ?_, ?_⟩⟩
  · obtain ⟨hfr, hm, hne, hrep⟩ := raise_setDout_spec s m 0x12 (doStat m) (d.tripped false)
    refine ⟨_, congrArg Host.Outcome.next (doTrip_eq hd false), hfr, ?_⟩
    rw [show (if false = true then 0x13 else 0x12) = 0x12 from rfl, hm]
    exact ⟨rfl, rfl, by simp [DoState.tripped], by simp [DoState.tripped], hne, hrep⟩
  · obtain ⟨hfr, hm, hne, hrep⟩ := raise_setDout_spec s m 0x13 (doStat m) (d.tripped true)
    refine ⟨_, congrArg Host.Outcome.next (doTrip_eq hd true), hfr, ?_⟩
    rw [show (if true = true then 0x13 else 0x12) = 0x13 from rfl, hm]
    exact ⟨rfl, rfl, by simp [DoState.tripped], by simp [DoState.tripped], hne, hrep⟩
  · obtain ⟨hfr, hm, -, hrep⟩ := raise_setDout_spec s m 0x14 (doStat m) { d with isOpen := true }
    exact ⟨_, congrArg Host.Outcome.next (if_pos (by simp only [d] at hd hi; simp [hen, hd, ho, hp, hi])), hfr, hm, hrep⟩
  · obtain ⟨hfr, hm, -, hrep⟩ := raise_setDout_spec s m 0x15 (doStat m) { d with feed := true, rb := true }
    exact ⟨_, congrArg Host.Outcome.next (if_pos (by simp only [d] at hc hf; simp [hs, hc, ho, hf])), hfr, hm, hrep⟩
  · simp only [List.mem_cons, List.not_mem_nil, or_false] at he
    rcases he with rfl | rfl
    · exact ⟨_, rfl, rfl, State.dout_setDout .., fun k hk => State.dout_setDout_ne s (fun e => hk (Fin.ext e)) _⟩
    · exact ⟨_, rfl, rfl, State.dout_setDout .., fun k hk => State.dout_setDout_ne s (fun e => hk (Fin.ext e)) _⟩
  · obtain ⟨hfr, hs, hrep⟩ := raise_supply s (if brakes then { s.safe with lpbLow := true } else { s.safe with lpaLow := true }) 0x16
    refine ⟨_, rfl, hfr, ?_, hrep⟩
    rw [hs]
    cases brakes <;> rfl
  · obtain ⟨hfr, hs, hrep⟩ := raise_supply s (if brakes then { s.safe with lpbHigh := true } else { s.safe with lpaHigh := true }) 0x17
    refine ⟨_, rfl, hfr, ?_, hrep⟩
    rw [hs]
    cases brakes <;> rfl
  · refine ⟨_, rfl, rfl, ?_⟩
    cases brakes <;> rfl

end Sys2Proof.Machine
end

section
/-! Ethernet links and the time that they carry (O33). -/

namespace Sys2Proof.Machine

open Sys2Proof

theorem setEth_same (s : State) (x : Fin 4) (e : EthState) : SameBut [.net] s (s.setEth x e) :=
  ⟨fun p hp => by cases p <;> first | rfl | simp at hp⟩

theorem eth_congr {s t : State} (h : t.net = s.net) (y : Fin 4) : t.eth y = s.eth y := by
  unfold State.eth
  rw [h]

/-! ### A link that comes up or goes down -/

theorem ethUp_eq {s : State} {x : Fin 4} {speed : Nat} (hs : s.clk.linkStop = false) (hu : (s.ucb (.eth x)).state ≠ .off)
    (h1 : speed ≠ 1) : ethUp s x speed =
      (s.setEth x { s.eth x with link := true, speed := speed, ptp := if ptpOn s x then 1 else 0 }).healthy (.port (.eth x)) := by
  unfold ethUp
  simp only [hs, hu, h1, decide_false, Bool.or_self, Bool.false_eq_true, if_false]

/-- A lost resource that is healthy counts toward its return (R204). -/
theorem returning_healthy {s : State} {r : Resource} (h : r ∈ s.place.lost) : ∃ k, (r, k) ∈ (s.healthy r).place.returning := by
  unfold State.healthy
  split
  · exact ⟨0, by simp⟩
  · rename_i hn
    simp only [h, decide_true, Bool.true_and, Bool.not_eq_true', Bool.not_eq_false, List.any_eq_true, decide_eq_true_eq] at hn
    obtain ⟨⟨r', k⟩, hmem, rfl⟩ := hn
    exact ⟨k, hmem⟩

/-- The port whose link is down. -/
def EthState.down (e : EthState) (ptp : Nat) : EthState := { e with link := false, speed := 0, ptp := ptp, txq := [] }

/-- A link that goes down, before the port is lost. -/
def ethDropped (s : State) (x : Fin 4) : State :=
  let t := s.setEth x ((s.eth x).down (if ptpOn s x then 1 else 0))
  if ethRole s x ≠ 0 then raise t (.eth x) 1 (baseOf (.eth x)) else t

theorem ethDown_eq {s : State} {x : Fin 4} (h : (s.eth x).link = true) : ethDown s x = (ethDropped s x).lose (.port (.eth x)) := by
  unfold ethDown
  simp only [h, Bool.not_true, Bool.false_eq_true, if_false]
  rfl

theorem ethDropped_net (s : State) (x : Fin 4) :
    (ethDropped s x).net = (s.setEth x ((s.eth x).down (if ptpOn s x then 1 else 0))).net := by
  unfold ethDropped
  dsimp only
  split
  · exact (raise_same _ _ _ _).same .net (by decide)
  · rfl

theorem ethDropped_reports {s : State} {x : Fin 4} (h : ethRole s x ≠ 0) :
    Reports s (ethDropped s x) (.eth x) 1 (baseOf (.eth x)) := by
  unfold ethDropped
  dsimp only
  rw [if_pos h]
  exact raise_reports (s.setEth x _) (.eth x) 1 (baseOf (.eth x))

theorem clkMark_same (s : State) (c : ClockId) : SameBut [.clk] s (clkMark s c) :=
  ⟨fun p hp => by cases p <;> first | rfl | simp at hp⟩

theorem setClk_same (s : State) (k : ClkState) : SameBut [.clk] s { s with clk := k } :=
  ⟨fun p hp => by cases p <;> first | rfl | simp at hp⟩

theorem endClkChange_same (s : State) (c : Status) : SameBut [.clk, .ucbs] s (endClkChange s c) :=
  ((releaseTokens_same s .clockChange).mono (by decide)).trans ((setClk_same _ _).mono (by decide))

theorem endClkChange_mail (s : State) (c : Status) (u : UnitId) : SameMail s (endClkChange s c) u :=
  (releaseTokens_mail s .clockChange u).trans (.of_ucb rfl)

theorem testBit_clkMark_recovered (s : State) : (clkMark s .recovered).clk.failed.testBit 2 = s.clk.failed.testBit 2 := by
  change (s.clk.failed ||| 2 ^ 4).testBit 2 = _
  rw [Nat.testBit_or, show Nat.testBit (2 ^ 4) 2 = false from by decide, Bool.or_false]

/-- The PLLs have fallen back to the TCXO (R449). -/
def State.fellBack (s : State) : State :=
  let m := clkMark s .recovered
  { m with clk := { m.clk with refInUse := 0, fallenBack := true, qualified := false, fallbackCount := satUp 255 m.clk.fallbackCount } }

/-- A running change has ended FAULTED. -/
def clkChangeDropped (s : State) : State := if s.clk.change.isSome then endClkChange s .faulted else s

theorem refFallback_eq (s : State) : refFallback s =
    if s.clk.refInUse = 0 || 8 ≤ s.clk.refInUse then { s with clk := { s.clk with qualified := false } } else
      let t := raise (clkChangeDropped s.fellBack) .clk 4 clkMon
      if t.clk.failed.testBit 2 then tcxoRefFailed t else t := rfl

theorem fellBack_same (s : State) : SameBut [.clk] s s.fellBack := (clkMark_same s .recovered).trans (setClk_same _ _)

theorem clkChangeDropped_spec (s : State) : SameBut [.clk, .ucbs] s (clkChangeDropped s) ∧
    (clkChangeDropped s).clk.failed = s.clk.failed ∧ ∀ u, SameMail s (clkChangeDropped s) u := by
  unfold clkChangeDropped
  split
  · refine ⟨endClkChange_same .., ?_, endClkChange_mail s .faulted⟩
    have h : (releaseTokens s .clockChange).clk = s.clk := (releaseTokens_same s .clockChange).same .clk (by decide)
    change (releaseTokens s .clockChange).clk.failed = s.clk.failed
    rw [h]
  · exact ⟨SameBut.refl _ s, rfl, fun _ => .of_ucb rfl⟩

/-- With a sound TCXO a fall-back touches CLK alone. -/
theorem refFallback_spec {s : State} (h : s.clk.failed.testBit 2 = false) :
    SameBut [.clk, .ucbs] s (refFallback s) ∧ ∀ u, u ≠ .clk → SameMail s (refFallback s) u := by
  rw [refFallback_eq]
  split
  · exact ⟨(setClk_same _ _).mono (by decide), fun _ _ => .of_ucb rfl⟩
  · obtain ⟨hd, hf, hm⟩ := clkChangeDropped_spec s.fellBack
    have hraise := raise_same (clkChangeDropped s.fellBack) .clk 4 clkMon
    have h2 : (raise (clkChangeDropped s.fellBack) .clk 4 clkMon).clk.failed.testBit 2 = false := by
      rw [show (raise (clkChangeDropped s.fellBack) .clk 4 clkMon).clk = _ from hraise.same .clk (by decide), hf]
      exact (testBit_clkMark_recovered s).trans h
    simp only [h2, Bool.false_eq_true, if_false]
    exact ⟨(((fellBack_same s).mono (by decide)).trans hd).trans (hraise.mono (by decide)), fun u hu =>
      ((SameMail.of_same (fellBack_same s) (by decide) u).trans (hm u)).trans (.of_ucb (ucb_raise_ne _ hu 4 clkMon))⟩

theorem streamDown_spec {s : State} (h : s.clk.failed.testBit 2 = false) (src : Nat) :
    SameBut [.clk, .ucbs] s (streamDown s src) ∧ ∀ u, u ≠ .clk → SameMail s (streamDown s src) u := by
  unfold streamDown
  split
  · exact refFallback_spec h
  · exact ⟨SameBut.refl _ s, fun _ _ => .of_ucb rfl⟩

/-- A link that goes down while the TCXO is sound (R379). -/
theorem ethLink_down {s : State} {x : Fin 4} (hl : (s.eth x).link = true) (h2 : s.clk.failed.testBit 2 = false) (speed : Nat) :
    let t := ethLink s x false speed
    (t.eth x).link = false ∧ (t.eth x).txq = [] ∧ (∀ y, y ≠ x → t.eth y = s.eth y) ∧ Resource.port (.eth x) ∈ t.place.lost ∧
      (ethRole s x ≠ 0 → Reports s t (.eth x) 1 (baseOf (.eth x))) := by
  intro t
  have hclk : (ethDown s x).clk = s.clk := by
    rw [ethDown_eq hl]
    change (ethDropped s x).clk = s.clk
    unfold ethDropped
    dsimp only
    split
    · exact (raise_same _ _ _ _).same .clk (by decide)
    · rfl
  obtain ⟨hsame, hmail⟩ := streamDown_spec (s := ethDown s x) (by rw [hclk]; exact h2) (1 + x)
  have hnet : t.net = (s.setEth x ((s.eth x).down (if ptpOn s x then 1 else 0))).net := by
    rw [show t.net = (ethDown s x).net from hsame.same .net (by decide), ethDown_eq hl]
    exact ethDropped_net s x
  have hplace : t.place = ((ethDropped s x).lose (.port (.eth x))).place := by
    rw [show t.place = (ethDown s x).place from hsame.same .place (by decide), ethDown_eq hl]
  refine ⟨?_, ?_, fun y hy => ?_, ?_, fun hr => ?_⟩
  · rw [eth_congr hnet, State.eth_setEth]; rfl
  · rw [eth_congr hnet, State.eth_setEth]; rfl
  · rw [eth_congr hnet, State.eth_setEth_ne _ hy]
  · rw [hplace]; exact mem_lost_lose ..
  · refine Reports.of_mail (t := ethDown s x) ?_ (hmail _ (by simp))
    rw [ethDown_eq hl]
    exact ethDropped_reports hr

/-! ### PTP -/

theorem sync_eq {s : State} {x : Fin 4} {offset : Int} {domain now : Nat} (hs : ethSilent s x = false) (hp : ptpOn s x = true)
    (hd : domain = s.regField (.eth x) 0x104 31 24) : sync s x offset domain now =
      ((s.at_ now).setEth x { s.eth x with lastSync := now, ptp := if (s.tb (ptpBase s x)).stepped then 3 else 2 }).handOver
        { tb := ptpBase s x, src := x.val, offset := offset + pathDelay s x, disc := false, at_ := now } := by
  have hs' : ethSilent (s.at_ now) x = false := hs
  have hp' : ptpOn (s.at_ now) x = true := hp
  have hd' : domain = (s.at_ now).regField (.eth x) 0x104 31 24 := hd
  have htb : ((s.at_ now).tb (ptpBase (s.at_ now) x)).stepped = (s.tb (ptpBase s x)).stepped := by
    have hb : ptpBase (s.at_ now) x = ptpBase s x := rfl
    rw [hb]
    unfold ptpBase
    split <;> rfl
  have hdom : (domain ≠ (s.at_ now).regField (.eth x) 0x104 31 24) = False := by simp [hd']
  have hpd : ∀ p, pathDelay ((s.at_ now).setEth x { (s.at_ now).eth x with lastSync := now, ptp := p }) x = pathDelay s x := fun p => by
    unfold pathDelay
    rw [State.eth_setEth]
    rfl
  unfold sync
  simp only [hs', hp', hdom, htb, hpd, Bool.not_true, Bool.or_self, decide_false, Bool.false_eq_true, if_false]
  rfl

/-! ### The bases' masters -/

theorem tb_setTb_ne (s : State) {i j : Nat} (hj : j < 3) (h : i ≠ j) (hi : i < 5) (b : TimeBase) : (s.setTb i b).tb j = s.tb j := by
  match i, j, hj, hi with
  | 0, 1, _, _ | 0, 2, _, _ | 1, 0, _, _ | 1, 2, _, _ | 2, 0, _, _ | 2, 1, _, _ | 3, 0, _, _ | 3, 1, _, _ | 3, 2, _, _
  | 4, 0, _, _ | 4, 1, _, _ | 4, 2, _, _ => rfl
  | 0, 0, _, _ | 1, 1, _, _ | 2, 2, _, _ => exact absurd rfl h

@[simp] theorem tb_setTb (s : State) {i : Nat} (hi : i < 3) (b : TimeBase) : (s.setTb i b).tb i = b := by
  match i, hi with
  | 0, _ | 1, _ | 2, _ => rfl

theorem tb_of_time {s t : State} (h : t.time = s.time) {i : Nat} (hi : i < 3) : t.tb i = s.tb i := by
  match i, hi with
  | 0, _ | 1, _ | 2, _ => simp only [State.tb, h]

theorem tb_followRate (s : State) (t : Nat) {i : Nat} (hi : i < 3) : (followRate s t).tb i = s.tb i := by
  unfold followRate
  split
  · exact tb_setTb_ne s hi (i := 4) (by omega) (by omega) _
  · rfl

theorem time_followTb0 (s : State) : (followTb0 s).time = s.time := by
  unfold followTb0
  split
  · exact (raiseOpen_same _ _ _).same .time (by decide)
  all_goals rfl

theorem time_tb0Locks (s : State) : (tb0Locks s).time = s.time := by
  unfold tb0Locks
  split <;> rfl

/-- A changed base is stored, and the other bases but TB4 stay. -/
theorem tb_putTb (s : State) {i j : Nat} (hj : j < 3) (t : Nat) (b : TimeBase) :
    (putTb s i t b).tb j = (s.setTb i b).tb j := by
  simp only [putTb]
  split
  · have h : (followTb0 (followRate (s.setTb i b) t)).tb j = (s.setTb i b).tb j :=
      (tb_of_time (time_followTb0 _) hj).trans (tb_followRate _ t hj)
    split
    · exact (tb_of_time (time_tb0Locks _) hj).trans h
    · exact h
  · rfl

theorem tb_tbAlone_ne (s : State) {i j : Nat} (hi : i < 3) (hj : j < 3) (h : i ≠ j) (t : Nat) : (tbAlone s i t).tb j = s.tb j := by
  have hset := fun b => tb_setTb_ne s hj h (by omega) b
  have hput := fun b => (tb_putTb s hj t b).trans (hset b)
  simp only [tbAlone]
  split
  · split
    · exact hset _
    · exact hput _
  · split
    · exact hset _
    · exact hput _
    · exact hset _
    · exact hput _

theorem use_state (b : TimeBase) (src : Option Nat) : (b.use src).state = b.state := by
  unfold TimeBase.use
  split <;> rfl

/-- A base without a current source enters MASTER where one of its sources is master (R401). -/
theorem tbAlone_master {s : State} {i : Nat} (hi : i < 3) (h : tbMastered s i = true) (t : Nat) : ((tbAlone s i t).tb i).state = .master := by
  simp only [tbAlone, h, if_true]
  split
  · rename_i hm
    rw [tb_setTb _ hi]
    exact hm
  · rw [tb_putTb s hi, tb_setTb _ hi]
    rfl

/-- A setting stays with the settings and the clock set-up. -/
theorem reg_congr {s t : State} (h : t.regs = s.regs) (hc : t.clk = s.clk) (u : UnitId) (off : Nat) : t.reg u off = s.reg u off := by
  unfold State.reg
  rw [h, show resetValue t u off = resetValue s u off by unfold resetValue; rw [hc]]

/-- What decides a base's masters stays while bases change. -/
theorem tbMastered_congr {s t : State} (h : BaseStep s t) (i : Nat) : tbMastered t i = tbMastered s i := by
  have hregs : t.regs = s.regs := h.same.same .regs (by decide)
  have hnet : t.net = s.net := h.same.same .net (by decide)
  have hpair : t.pair = s.pair := h.same.same .pair (by decide)
  have heth : ∀ x, t.eth x = s.eth x := fun x => eth_congr hnet x
  have hcan : ∀ n, t.can n = s.can n := h.can
  have hreg : ∀ u off, t.reg u off = s.reg u off := reg_congr hregs (h.same.same .clk (by decide))
  have hel : ∀ src, eligible t i src = eligible s i src := fun src => by
    unfold eligible tbCfg ethRole ptpOn tmRole programHeld State.regField
    simp only [hreg, hpair]
  unfold tbMastered
  simp only [hel, heth, hcan]

/-- One base of the round of `remaster`. -/
def remasterOne (s : State) (i : Nat) : State := if (s.tb i).current.isEmpty then tbAlone s i s.tb3 else s

theorem baseStep_remasterOne (s : State) (i : Nat) : BaseStep s (remasterOne s i) := by
  unfold remasterOne
  split
  · exact baseStep_tbAlone ..
  · exact BaseStep.refl s

theorem tb_remasterOne_ne (s : State) {i j : Nat} (hi : i < 3) (hj : j < 3) (h : i ≠ j) : (remasterOne s i).tb j = s.tb j := by
  unfold remasterOne
  split
  · exact tb_tbAlone_ne s hi hj h _
  · rfl

theorem remaster_eq (s : State) : remaster s = remasterOne (remasterOne (remasterOne s 0) 1) 2 := rfl

theorem remasterOne_master {s : State} {i : Nat} (hi : i < 3) (h : tbMastered s i = true) (hc : (s.tb i).current = []) :
    ((remasterOne s i).tb i).state = .master := by
  unfold remasterOne
  rw [if_pos (by rw [hc]; rfl)]
  exact tbAlone_master hi h _

/-- TB0 or TB1 without a current source enters MASTER with a master among its sources (R401). -/
theorem remaster_master {s : State} {i : Nat} (hi : i < 2) (h : tbMastered s i = true) (hc : (s.tb i).current = []) :
    ((remaster s).tb i).state = .master := by
  rw [remaster_eq, tb_remasterOne_ne _ (by omega) (by omega) (by omega)]
  obtain rfl | rfl : i = 0 ∨ i = 1 := by omega
  · rw [tb_remasterOne_ne _ (by omega) (by omega) (by omega)]
    exact remasterOne_master (by omega) h hc
  · have hc' : ((remasterOne s 0).tb 1).current = [] := by
      rw [tb_remasterOne_ne s (by omega) (by omega) (by omega)]
      exact hc
    exact remasterOne_master (by omega) ((tbMastered_congr (baseStep_remasterOne s 0) 1).trans h) hc'

/-- A master port masters the base that it is an eligible source of. -/
theorem tbMastered_of_port {s : State} {i : Nat} {x : Fin 4} (hi : i < 2) (he : eligible s i x = true) (hp : (s.eth x).ptp = 4) :
    tbMastered s i = true := by
  unfold tbMastered
  rw [List.any_eq_true]
  refine ⟨x.val, List.mem_range.mpr (by omega), ?_⟩
  rw [he, Bool.true_and]
  obtain rfl | rfl : i = 0 ∨ i = 1 := by omega
  · simp only [fin?_val, hp, decide_true]
  · simp only [fin?_val, hp, decide_true]

theorem bestMaster_eq {s : State} {x : Fin 4} (hs : ethSilent s x = false) (hp : ptpOn s x = true)
    (hm : bitAt (s.reg (.eth x) 0x104) 1 = true) (hr : s.pair.role ≠ .standby) :
    bestMaster s x true = remaster (s.setEth x { s.eth x with ptp := 4 }) := by
  simp [bestMaster, hs, hp, hm, hr]

theorem svcSession_open {s : State} (peer : Nat) : svcSession s true peer =
    offer { s with net := { s.net with svcSessions := s.net.svcSessions + 1, svcLink := true } } 0x102 .lcs
      (bytesLE 4 peer ++ bytesLE 1 1) := by
  simp [svcSession, b2n]

/-- Settles O33: the link by its two changes, Sync and its base by `sync_eq` and `remaster_master`. -/
theorem ethernetLinksCarryTime : Obligations.EthernetLinksCarryTime := by
  unfold Obligations.EthernetLinksCarryTime
  intro s x e
  refine ⟨fun speed hs hu h1 => ?_, fun speed hl h2 => ⟨_, rfl, ethLink_down hl h2 speed.toNat⟩,
    fun hsil hptp => ⟨fun offset domain now hd => ?_, fun ns hr => ?_, fun hm hr => ?_⟩, fun peer hr => ?_⟩
  · have h1' : speed.toNat ≠ 1 := fun h => h1 (BitVec.eq_of_toNat_eq h)
    let t0 := s.setEth x { e with link := true, speed := speed.toNat, ptp := if ptpOn s x then 1 else 0 }
    have hnet : (t0.healthy (.port (.eth x))).net = t0.net := (healthy_same ..).same .net (by decide)
    have hframe : t0.healthy (.port (.eth x)) = { s with
        net := { s.net with eth := (t0.healthy (.port (.eth x))).net.eth }, place := (t0.healthy (.port (.eth x))).place } := by
      rw [hnet]
      exact (healthy_same t0 (.port (.eth x))).eq_withParts
    refine ⟨_, congrArg Host.Outcome.next (ethUp_eq hs hu h1'), hframe, ?_, ?_, fun y hy => ?_,
      fun hlost => returning_healthy (s := t0) hlost⟩
    · rw [eth_congr hnet, State.eth_setEth]
    · rw [eth_congr hnet, State.eth_setEth]
    · rw [eth_congr hnet, State.eth_setEth_ne _ hy]
  · refine ⟨_, congrArg Host.Outcome.next (sync_eq hsil hptp hd), rfl, rfl, ?_⟩
    exact State.eth_setEth ..
  · refine congrArg Host.Outcome.next ?_
    simp [hsil, hptp, hr, e]
  · have hb := baseStep_remaster (s.setEth x { e with ptp := 4 })
    have hnet : (remaster (s.setEth x { e with ptp := 4 })).net = (s.setEth x { e with ptp := 4 }).net := hb.same.same .net (by decide)
    refine ⟨_, congrArg Host.Outcome.next (bestMaster_eq hsil hptp hm hr), hnet, ?_⟩
    intro i hel hcur
    have hi : i < 2 := by simp only [i]; split <;> omega
    exact remaster_master hi (tbMastered_of_port (s := s.setEth x { e with ptp := 4 }) hi hel (by rw [State.eth_setEth]))
      ((congrArg TimeBase.current (tb_of_time rfl (by omega))).trans hcur)
  · have ho : SameBut [.evr] { s with net := { s.net with svcSessions := s.net.svcSessions + 1, svcLink := true } }
        (svcSession s true peer.toNat) := by
      rw [svcSession_open]
      exact offerLimited_same ..
    have hnet : (svcSession s true peer.toNat).net = { s.net with svcSessions := s.net.svcSessions + 1, svcLink := true } :=
      ho.same .net (by decide)
    refine ⟨_, congrArg Host.Outcome.next (if_neg (by rw [hr]; simp)), ?_, hnet⟩
    rw [hnet]
    exact ho.eq_withParts

end Sys2Proof.Machine
end

section
/-! Telegrams and inaugurations (O34). -/

namespace Sys2Proof.Machine

open Sys2Proof

section
variable {s : State} {x : Fin 4} {m : Telegram}

/-- The subscribe slot that a telegram on a port names. -/
def slotFor (s : State) (x : Fin 4) (m : Telegram) : Option (Nat × Nat × TelegramDecl × Nat) :=
  (telegramsOn s x).find? fun d => !d.2.2.1.publish && decide (d.2.2.2 = m.slot)

theorem telegram_badFrame (hs : ethSilent s x = false) (hf : m.frameOk = false) :
    telegram s x m = s.setEth x { s.eth x with fcs := satUp 255 (s.eth x).fcs } := by
  simp [telegram, hs, hf]

theorem telegram_noSlot (hs : ethSilent s x = false) (hf : m.frameOk = true) (h : slotFor s x m = none) : telegram s x m = reject s x := by
  unfold slotFor at h
  simp only [telegram, hs, hf, Bool.not_true, Bool.false_eq_true, if_false, h]

theorem telegram_refused {key p k : Nat} {d : TelegramDecl} (hs : ethSilent s x = false) (hf : m.frameOk = true)
    (h : slotFor s x m = some (key, p, d, k)) (hok : telegramOk s key d m = false) : telegram s x m = reject s x := by
  unfold slotFor at h
  simp only [telegram, hs, hf, Bool.not_true, Bool.false_eq_true, if_false, h, hok]

/-- What a slot holds of an accepted telegram. -/
def slotOf (s : State) (key : Nat) (m : Telegram) : TelegramSeen :=
  { seq := m.seq, tick := s.tick.n, data := m.data, at_ := s.tb3,
    before := (mapGet? key s.net.slots).bind fun x => if x.at_ = s.tb3 then x.before else some x.data }

/-- A telegram's slot is filled. -/
def State.fillSlot (s : State) (key : Nat) (l : TelegramSeen) : State := { s with net := { s.net with slots := mapPut key l s.net.slots } }

theorem telegram_accepted {key p k : Nat} {d : TelegramDecl} (hs : ethSilent s x = false) (hf : m.frameOk = true)
    (h : slotFor s x m = some (key, p, d, k)) (hok : telegramOk s key d m = true) : telegram s x m =
      (s.setEth x { s.eth x with accepted := ((s.eth x).accepted + 1) % 65536 }).fillSlot key (slotOf s key m) := by
  unfold slotFor at h
  simp only [telegram, hs, hf, Bool.not_true, Bool.false_eq_true, if_false, h, hok, if_true]
  rfl

/-- A failed test of R385 refuses the telegram. -/
theorem telegramOk_refuses {key : Nat} {d : TelegramDecl} (h : m.fcsOk = false ∨ m.comId ≠ d.comId ∨ m.src ≠ d.ip ∨ m.data.length ≠ d.len ∨
    (m.etb ≠ 0 ∧ m.etb ≠ s.net.etbTopo) ∨ (m.optrn ≠ 0 ∧ m.optrn ≠ s.net.opTrnTopo) ∨
    (∃ l, mapGet? key s.net.slots = some l ∧ m.seq ≤ l.seq ∧ s.tick.n < l.tick + 3 * d.cycle)) : telegramOk s key d m = false := by
  unfold telegramOk
  rcases h with h | h | h | h | ⟨h, h'⟩ | ⟨h, h'⟩ | ⟨l, hl, hseq, hold⟩
  · simp [h]
  · simp [h]
  · simp [h]
  · simp [h]
  · simp [h, h']
  · simp [h, h']
  · simp [hl, Nat.not_lt.mpr hseq, Nat.not_le.mpr hold]

theorem telegramOk_passes {key : Nat} {d : TelegramDecl} (h1 : m.fcsOk = true) (h2 : m.comId = d.comId) (h3 : m.src = d.ip)
    (h4 : m.data.length = d.len) (h5 : m.etb = 0 ∨ m.etb = s.net.etbTopo) (h6 : m.optrn = 0 ∨ m.optrn = s.net.opTrnTopo)
    (h7 : ∀ l, mapGet? key s.net.slots = some l → l.seq < m.seq) : telegramOk s key d m = true := by
  have hslot : (match mapGet? key s.net.slots with
      | none => true
      | some l => decide (l.seq < m.seq) || decide (l.tick + 3 * d.cycle ≤ s.tick.n)) = true := by
    cases hk : mapGet? key s.net.slots with
    | none => rfl
    | some l => simp [h7 l hk]
  unfold telegramOk
  dsimp only
  refine Bool.and_eq_true_iff.mpr ⟨?_, hslot⟩
  simp [h1, h2, h3, h4, h5, h6]

theorem reject_eq (s : State) (x : Fin 4) : reject s x = s.setEth x { s.eth x with rejected := min 255 ((s.eth x).rejected + 1) } := by
  rw [reject, satUp_eq_min]

end

theorem inaugurate_new {s : State} {x : Fin 4} {i : Inauguration} (hr : ethRole s x = 1) (hs : ethSilent s x = false)
    (hd : s.net.inaugDue = none) (hi : i.etb ≠ s.net.etbTopo) : inaugurate s i = { s with net := { s.net with inaugDue := some i } } := by
  have hany : ((List.finRange 4).any fun x => decide (ethRole s x = 1) && !ethSilent s x) = true :=
    List.any_eq_true.mpr ⟨x, List.mem_finRange x, by simp [hr, hs]⟩
  unfold inaugurate
  simp only [hany, hd]
  simp [hi]

/-- Settles O34: every test of R385 by `telegramOk_refuses` and `telegramOk_passes`. -/
theorem telegramsAreTestedBeforeTheirSlot : Obligations.TelegramsAreTestedBeforeTheirSlot := by
  unfold Obligations.TelegramsAreTestedBeforeTheirSlot
  intro s x m e found
  refine ⟨fun hs hf => ?_, fun hs hf => ⟨fun hnone => ?_, fun key p d k hfound => ⟨fun hbad => ?_, fun h1 h2 h3 h4 h5 h6 h7 => ?_⟩⟩,
    fun i hr hs hd hi => congrArg Host.Outcome.next (inaugurate_new hr hs hd hi)⟩
  · refine congrArg Host.Outcome.next ((telegram_badFrame hs hf).trans ?_)
    rw [satUp_eq_min]
  · exact congrArg Host.Outcome.next ((telegram_noSlot hs hf hnone).trans (reject_eq s x))
  · exact congrArg Host.Outcome.next ((telegram_refused hs hf hfound (telegramOk_refuses hbad)).trans (reject_eq s x))
  · refine ⟨_, congrArg Host.Outcome.next (telegram_accepted hs hf hfound (telegramOk_passes h1 h2 h3 h4 h5 h6 h7)), rfl, ?_,
      ⟨slotOf s key m, mapGet?_put_same .., rfl, rfl, rfl, rfl⟩, fun j hj => mapGet?_put_ne hj ..⟩
    exact congrArg EthState.accepted (State.eth_setEth s x _)

end Sys2Proof.Machine
end

section
/-! Serial polls (O35). -/

namespace Sys2Proof.Machine

open Sys2Proof

section
variable {s : State} {x : Fin 4} {q : PollItem} {qs : List PollItem}

/-- The exchange in progress ends and the list goes on. -/
theorem serEnd_next (h : (s.ser x).polls = q :: qs) (hq : qs ≠ []) : serEnd s x = s.setSer x { s.ser x with running := false, polls := qs } := by
  simp [serEnd, h, hq]

/-- A failed exchange is repeated while attempts are left. -/
theorem serFail_repeats (h : (s.ser x).polls = q :: qs) (hr : 0 < q.retries) :
    serFail s x = s.setSer x { s.ser x with running := false, polls := { q with retries := q.retries - 1 } :: qs } := by
  simp only [serFail, h]
  exact if_neg (by omega)

theorem serFail_goesOn (h : (s.ser x).polls = q :: qs) (hr : q.retries = 0) (hq : qs ≠ []) :
    serFail s x = s.setSer x { s.ser x with running := false, polls := qs } := by
  simp only [serFail, h, hr, if_true]
  exact serEnd_next h hq

theorem serReply_bad (hrun : serRun s x = true) (hh : programHeld s = false) (hp : (s.ser x).running = true) (h : (s.ser x).polls = q :: qs)
    {r : SerialReply} (hr : r.ok = false) :
    serReply s x r = serFail (s.setSer x { s.ser x with errors := satUp 255 (s.ser x).errors }) x := by
  simp [serReply, hrun, hh, hp, h, hr]

theorem serReply_good (hrun : serRun s x = true) (hh : programHeld s = false) (hp : (s.ser x).running = true) (h : (s.ser x).polls = q :: qs)
    {r : SerialReply} {k : Nat} (hr : r.ok = true) (ha : (msgDecl s q.object).map (·.address) = some r.address)
    (hk : answerOf s q.object = some k) : serReply s x r = serEnd (serStage s x k r.data) x := by
  simp [serReply, hrun, hh, hp, h, hr, ha, hk]

theorem serTimeout_running (hrun : serRun s x = true) (hp : (s.ser x).running = true) :
    serTimeout s x = serFail (s.setSer x { s.ser x with timeouts := satUp 255 (s.ser x).timeouts }) x := by
  simp [serTimeout, hrun, hp]

end

theorem setSer_setSer_ser (s : State) (x : Fin 4) (p p' : SerState) : ((s.setSer x p).setSer x p').ser x = p' := by simp

theorem setSer_setSer_frame (s : State) (x : Fin 4) (p p' : SerState) :
    (s.setSer x p).setSer x p' = { s with net := { s.net with ser := ((s.setSer x p).setSer x p').net.ser } } := rfl

/-- The port that has staged a response (R390). -/
theorem serStage_eq (s : State) (x : Fin 4) (k : Nat) (data : List Byte) : ∃ p : SerState, serStage s x k data = s.setSer x p ∧
    p.polls = (s.ser x).polls ∧ p.okCount = ((s.ser x).okCount + 1) % 65536 ∧ (mapGetD p.rx k []).getLast? = some (s.tb3, data) :=
  ⟨_, rfl, rfl, rfl, by simp⟩

/-- Settles O35: a poll, its response and its failure by the lemmas above. -/
theorem serialPollsRunInTurn : Obligations.SerialPollsRunInTurn := by
  unfold Obligations.SerialPollsRunInTurn
  intro s x q qs p hrun hh hq
  refine ⟨fun ha hr hd => ?_, fun r k hr hok haddr hk hqs => ?_, fun hr => ⟨fun hret => ?_, fun hret hqs => ?_, fun r hok hret => ?_⟩⟩
  · refine congrArg Host.Outcome.next (if_pos ?_)
    simp only [p] at ha hr hq
    simp [hrun, hd, ha, hr, hq, hh]
  · obtain ⟨p', hst, hpolls, hok', hlast⟩ := serStage_eq s x k r.data
    have hp' : ((s.setSer x p').ser x).polls = q :: qs := by rw [State.ser_setSer, hpolls]; exact hq
    have heq : serReply s x r = (s.setSer x p').setSer x { p' with running := false, polls := qs } := by
      rw [serReply_good hrun hh hr hq hok haddr hk, hst, serEnd_next hp' hqs, State.ser_setSer]
    refine ⟨_, congrArg Host.Outcome.next heq, setSer_setSer_frame .., fun y hy => ?_, ?_⟩
    · rw [State.ser_setSer_ne _ hy, State.ser_setSer_ne _ hy]
    · rw [setSer_setSer_ser]
      exact ⟨rfl, rfl, hok', hlast⟩
  · have hp' : ((s.setSer x { p with timeouts := satUp 255 p.timeouts }).ser x).polls = q :: qs := by rw [State.ser_setSer]; exact hq
    have heq := (serTimeout_running hrun hr).trans (serFail_repeats hp' hret)
    refine ⟨_, congrArg Host.Outcome.next heq, setSer_setSer_frame .., ?_⟩
    rw [setSer_setSer_ser, State.ser_setSer, satUp_eq_min]
  · have hp' : ((s.setSer x { p with timeouts := satUp 255 p.timeouts }).ser x).polls = q :: qs := by rw [State.ser_setSer]; exact hq
    have heq := (serTimeout_running hrun hr).trans (serFail_goesOn hp' hret hqs)
    refine ⟨_, congrArg Host.Outcome.next heq, ?_⟩
    change _ = _
    rw [setSer_setSer_ser, State.ser_setSer, satUp_eq_min]
  · have hp' : ((s.setSer x { p with errors := satUp 255 p.errors }).ser x).polls = q :: qs := by rw [State.ser_setSer]; exact hq
    have heq := (serReply_bad hrun hh hr hq hok).trans (serFail_repeats hp' hret)
    refine ⟨_, congrArg Host.Outcome.next heq, ?_⟩
    change _ = _
    rw [setSer_setSer_ser, State.ser_setSer, satUp_eq_min]

end Sys2Proof.Machine
end

section
/-! Time bases and their sources (O36): a base that runs backward past zero steps to another time than its reading and the offset. -/

namespace Sys2Proof.Machine

open Sys2Proof

/-- A base that acquires TIM0 and whose rate, far outside SLEW, has taken it below zero one nanosecond after its anchor. -/
def backwardBase : TimeBase := { r := -2 ^ 41, state := .acquiring, source := some 4, lastAt := [(4, -2 ^ 41)] }

/-- A measurement of TIM0 that is 2 ns ahead of the reading. -/
def aheadBy2 : Handed := { tb := 0, src := 4, offset := 2, disc := false, at_ := 1 }

/-- The module whose TB0 is that base, with TIM0 as its source and the measurement handed over. -/
def backwardTb0 : State :=
  { State.reset with time := { handed := [aheadBy2], tb0 := backwardBase }, regs := [(regKey (baseOf .time + 0x200) 0, 0x10000000)] }

/-- The step goes from the base's value of −1 ns, which reads as 0, to 1 ns. -/
theorem measurement_backwardTb0 : ∃ t, exec .measurement backwardTb0 = .next t ∧ (t.tb 0).ns 1 = 1 := ⟨_, rfl, rfl⟩

/-- Refutes O36: a base whose value is below zero reads 0, and its step to the source's time is short of the reading plus the offset. -/
theorem not_timeBasesFollowTheirSource : ¬ Obligations.TimeBasesFollowTheirSource := by
  unfold Obligations.TimeBasesFollowTheirSource
  intro h
  obtain ⟨hmeasure, -⟩ := h backwardTb0
  obtain ⟨-, heligible⟩ := hmeasure aheadBy2 [] rfl (by decide) (by decide)
  obtain ⟨t, ht, -, -, -, hvalid⟩ := heligible rfl
  obtain ⟨-, hacquiring, -⟩ := hvalid rfl rfl (by decide)
  obtain ⟨-, -, -, hns⟩ := hacquiring rfl rfl (by decide)
  obtain ⟨t', ht', hreads⟩ := measurement_backwardTb0
  obtain rfl : t = t' := Host.Outcome.next.inj (ht.symm.trans ht')
  exact absurd (hreads.symm.trans hns) (by decide)

end Sys2Proof.Machine
end

section
/-! SET, pulse generators and capture channels (O37). -/

namespace Sys2Proof.Machine

open Sys2Proof

/-- What the checks on a unit-specific command to a single unit have found (R31). -/
theorem legal_specific {s : State} {w : Writer} {u : UnitId} {code arg : Nat} (hu : plainUnit u = true) (h : Legal s w u code arg)
    (hc : 0x80 ≤ code) : firstChecks s w u code arg = .ok ∧ specificArgOk s u code arg = true ∧
      stateCheck (s.stateOf u) code = .ok ∧ readyCheck s u code arg = .ok := by
  have h1 : oneCheck s w u code arg = .ok := by
    have h' := (commandCheck_of_plain hu s w code arg).symm.trans h
    exact congrArg Prod.fst h'
  have harg : codeArgOk s u code arg = specificArgOk s u code arg := by
    unfold codeArgOk
    rw [if_neg (by omega), if_neg (by omega)]
    simp [hc]
  unfold oneCheck at h1
  rw [harg] at h1
  split at h1
  · rename_i hf
    split at h1
    · exact absurd h1 (by simp)
    · rename_i ha
      split at h1
      · rename_i hst
        exact ⟨hf, by simpa using ha, hst, h1⟩
      · rename_i hne
        exact absurd h1 (hne ·)
  · rename_i hne
    exact absurd h1 (hne ·)

/-! ### SET -/

theorem setCheck_of_legal {s : State} {w : Writer} {arg : Nat} (h : Legal s w .time 0x80 arg) : setCheck s arg = .ok := by
  obtain ⟨-, -, -, hr⟩ := legal_specific rfl h (by decide)
  refine Decidable.byContradiction fun hn => ?_
  simp [readyCheck, hn] at hr

theorem setTb_same (s : State) (i : Nat) (b : TimeBase) : SameBut [.time] s (s.setTb i b) := by
  unfold State.setTb
  split <;> exact ⟨fun p hp => by cases p <;> first | rfl | simp at hp⟩

/-- SET names a base that it may set (R405). -/
theorem base_of_setCheck {s : State} {arg : Nat} (h : setCheck s arg = .ok) : arg % 8 = 0 ∨ arg % 8 = 1 ∨ arg % 8 = 2 ∨ arg % 8 = 4 := by
  have hbad : ¬ (arg % 8 = 3 ∨ 5 ≤ arg % 8) := by
    intro hb
    unfold setCheck at h
    rw [if_pos (by rcases hb with hb | hb <;> simp [hb])] at h
    exact absurd h (by decide)
  omega

/-- A base's state of steering alone does not move it. -/
theorem ns_setReq (b : TimeBase) (r : Option SetReq) (t : Nat) : TimeBase.ns { b with setReq := r } t = b.ns t := rfl

theorem setTb_setReq_spec (s : State) {i : Nat} (hi : i = 0 ∨ i = 1 ∨ i = 2 ∨ i = 4) (r : SetReq) :
    let t := s.setTb i { s.tb i with setReq := some r }
    (t.tb i).setReq = some r ∧ (∀ j ∈ [0, 1, 2, 4], j ≠ i → t.tb j = s.tb j) ∧ (∀ j now, (t.tb j).ns now = (s.tb j).ns now) := by
  have hns : ∀ j now, ((s.setTb i { s.tb i with setReq := some r }).tb j).ns now = (s.tb j).ns now := by
    rcases hi with rfl | rfl | rfl | rfl
    all_goals
      intro j now
      match j with
      | 0 | 1 | 2 | 3 | _ + 4 => rfl
  refine ⟨?_, fun j hj hne => ?_, hns⟩
  · rcases hi with rfl | rfl | rfl | rfl <;> rfl
  · simp only [List.mem_cons, List.not_mem_nil, or_false] at hj
    rcases hi with rfl | rfl | rfl | rfl <;> rcases hj with rfl | rfl | rfl | rfl <;> first | rfl | exact absurd rfl hne

/-! ### Pulse generators -/

theorem tb_at {s : State} {i : Nat} (h : i ≠ 3) (t : Nat) : (s.at_ t).tb i = s.tb i := by
  match i, h with
  | 0, _ | 1, _ | 2, _ | _ + 4, _ => rfl
  | 3, h => exact absurd rfl h

@[simp] theorem State.pg_setPg (s : State) (k : Fin 2) (g : PulseGen) : (s.setPg k g).pg k = g := by
  unfold State.setPg State.pg
  split <;> rfl

theorem pulse_eq {s : State} {k : Fin 2} {now n : Nat} (hn : (s.pg k).next = some n) (hb : pgTb s k ≠ 3)
    (hle : n ≤ (s.tb (pgTb s k)).ns now) : pulse s k now = (s.at_ now).setPg k { s.pg k with
      next := if pgPeriodic s k then some (n + pgPeriod s k) else none, highUntil := now + pgWidth s k,
      pulses := ((s.pg k).pulses + 1) % 32768 } := by
  have hpg : (s.at_ now).pg k = s.pg k := rfl
  have htb : (s.at_ now).tb (pgTb (s.at_ now) k) = s.tb (pgTb s k) := tb_at hb now
  unfold pulse
  simp only [hpg, hn, htb]
  exact if_neg (Nat.not_lt.mpr hle)

theorem setPg_frame (s : State) (k : Nat) (g : PulseGen) : s.setPg k g = { s with time := (s.setPg k g).time } := by
  unfold State.setPg
  split <;> rfl

/-! ### Capture -/

theorem edgeBit (w : W32) (rising : Bool) (h : bitAt w (if rising then 4 else 5) = true) :
    (if rising then field w 5 4 % 2 = 1 else 2 ≤ field w 5 4) := by
  have hbit : ∀ i, bitAt w i = decide (w.toNat / 2 ^ i % 2 = 1) := fun i => by
    rw [bitAt, BitVec.getLsbD, Nat.testBit_eq_decide_div_mod_eq]
  cases rising with
  | true =>
    simp only [if_true] at h ⊢
    rw [hbit, decide_eq_true_eq] at h
    simp only [field]
    omega
  | false =>
    simp only [Bool.false_eq_true, if_false] at h ⊢
    rw [hbit, decide_eq_true_eq] at h
    simp only [field]
    omega

/-- The stamp of a capture. -/
def stampOf (b : TimeBase) (t : Nat) : Stamp :=
  { sec := b.ns t / second, ns := b.ns t % second, epoch := b.epoch, bad := b.state = .none || b.state = .acquiring, at_ := t }

/-- The capture channel that has stamped an edge. -/
def Capture.seen (c : Capture) (st : Stamp) : Capture := { c with events := (c.events + 1) % 65536, lastSec := st.sec, lastNs := st.ns }

theorem capture_eq {s : State} {k : Fin 4} {src : Fin 3} {rising : Bool} {now : Nat}
    (h31 : bitAt (s.reg .time (0x400 + 0x10 * k.val)) 31 = true) (hsrc : field (s.reg .time (0x400 + 0x10 * k.val)) 9 8 = src.val)
    (he : bitAt (s.reg .time (0x400 + 0x10 * k.val)) (if rising then 4 else 5) = true)
    (h3 : field (s.reg .time (0x400 + 0x10 * k.val)) 2 0 ≠ 3) :
    let st := stampOf (s.tb (field (s.reg .time (0x400 + 0x10 * k.val)) 2 0)) now
    let c := (s.cap k).seen st
    capture s k src rising now =
      if c.stamps.length < 8 then (s.at_ now).setCap k { c with stamps := c.stamps ++ [st] }
      else raise ((s.at_ now).setCap k { c with stamps := c.stamps.drop 1 ++ [st], dropped := satUp 0xFFFF c.dropped,
                                                latchDropped := satUp 255 c.latchDropped }) .time 6 (capStatReg k) := by
  intro st c
  have hreg : (s.at_ now).reg .time (0x400 + 0x10 * k.val) = s.reg .time (0x400 + 0x10 * k.val) := rfl
  have htb := tb_at (s := s) h3 now
  have hgo : (!bitAt (s.reg .time (0x400 + 0x10 * k.val)) 31 || decide (field (s.reg .time (0x400 + 0x10 * k.val)) 9 8 ≠ src.val)
      || !decide (if rising then field (s.reg .time (0x400 + 0x10 * k.val)) 5 4 % 2 = 1
        else 2 ≤ field (s.reg .time (0x400 + 0x10 * k.val)) 5 4)) = false := by
    rw [h31, hsrc, decide_eq_true (edgeBit _ rising he)]
    simp
  unfold capture
  simp only [hreg, htb]
  refine (if_neg ?_).trans rfl
  cases rising
  · simpa [Nat.lt_iff_add_one_le] using hgo
  · simpa using hgo

theorem State.cap_setCap (s : State) (k : Nat) (c : Capture) : (s.setCap k c).cap k = c := mapGetD_put_same ..

/-- Settles O37: SET by the base that its check admits, the generator and the capture channel by their equations. -/
theorem setsPulsesAndCaptures : Obligations.SetsPulsesAndCaptures := by
  unfold Obligations.SetsPulsesAndCaptures
  intro s
  refine ⟨fun w arg hl => ?_, fun k now n hn hb hle => ?_, fun k src rising now => ?_⟩
  · obtain ⟨hreq, hother, hns⟩ := setTb_setReq_spec (s.begin_ .time w 0x80 arg.toNat) (base_of_setCheck (setCheck_of_legal hl))
      (if arg.toNat / 8 % 2 = 1 then .source
        else .value ((s.reg .time 0x120).toNat + (s.reg .time 0x124).toNat * 2 ^ 32) (s.reg .time 0x128).toNat)
    refine ⟨_, congrArg Host.Outcome.next (ucbCommand_of_legal rfl hl (by decide)), ?_, ?_, hreq, hother, hns⟩
    · exact (((begin_same s .time w 0x80 arg.toNat).mono (qs := [.time, .ucbs]) (by decide)).trans
        ((setTb_same ..).mono (by decide))).eq_withParts
    · exact (begin_busy s .time w 0x80 arg.toNat).of_ucb ((baseStep_setTb _ _ _).ucb .time (by simp))
  · exact ⟨_, congrArg Host.Outcome.next (pulse_eq hn hb hle), (setPg_frame ..).trans rfl, State.pg_setPg ..⟩
  · intro cfg h31 hsrc he h3 b
    let c := (s.cap k).seen (stampOf b now)
    refine ⟨stampOf b now, rfl, rfl, rfl, _, congrArg Host.Outcome.next (capture_eq h31 hsrc he h3), ?_⟩
    rw [show (s.cap k).seen (stampOf b now) = c from rfl]
    split
    · rename_i hlen
      refine ⟨rfl, ?_, fun _ => ⟨?_, rfl⟩, fun h8 => absurd hlen (Nat.not_lt.mpr h8)⟩
      · rw [State.cap_setCap]; rfl
      · rw [State.cap_setCap]; rfl
    · rename_i hlen
      have htime := fun c' => (raise_same ((s.at_ now).setCap k c') .time 6 (capStatReg k)).same .time (by decide)
      have hcap : ∀ c', (raise ((s.at_ now).setCap k c') .time 6 (capStatReg k)).cap k = c' := fun c' => by
        unfold State.cap
        rw [show (raise ((s.at_ now).setCap k c') .time 6 (capStatReg k)).time = _ from htime c']
        exact State.cap_setCap ..
      have hframe := fun c' =>
        ((raise_same ((s.at_ now).setCap k c') .time 6 (capStatReg k)).mono (qs := [.time, .ucbs]) (by decide)).eq_withParts
      refine ⟨hframe _, by rw [hcap]; rfl, fun h8 => absurd h8 hlen, fun _ => ⟨by rw [hcap]; rfl,
        raise_reports ((s.at_ now).setCap k _) .time 6 (capStatReg k)⟩⟩

end Sys2Proof.Machine
end

section
/-! Clock failures and reference changes (O38). -/

namespace Sys2Proof.Machine

open Sys2Proof

/-- A report is judged by the masks and the messages that stood before. -/
theorem Reports.of_before {s t r : State} {u : UnitId} {k a : Nat} (h : Reports t r u k a) (hm : masked t u = masked s u)
    (hb : SameMail s t u) : Reports s r u k a := by
  unfold Reports at h ⊢
  rw [← hm, ← hb.1, ← hb.2]
  exact h

/-! ### A clock that is marked failed -/

theorem failed_clkMark {s : State} {c : ClockId} {b : Nat} (hb : clkMonBit c = some b) : (clkMark s c).clk.failed = s.clk.failed ||| 2 ^ b := by
  unfold clkMark
  rw [hb]
  rfl

theorem testBit_clkMark {s : State} {c : ClockId} {b : Nat} (hb : clkMonBit c = some b) : (clkMark s c).clk.failed.testBit b = true := by
  rw [failed_clkMark hb, Nat.testBit_or, Nat.testBit_two_pow_self, Bool.or_true]

/-- A mark with its message changes CLK alone. -/
theorem raise_clkMark_spec (s : State) {c : ClockId} {b : Nat} (hb : clkMonBit c = some b) (k : Nat) :
    let t := raise (clkMark s c) .clk k clkMon
    t = { s with clk := t.clk, ucbs := t.ucbs } ∧ t.clk.failed.testBit b = true ∧ Reports s t .clk k clkMon := by
  intro t
  have hr := raise_same (clkMark s c) .clk k clkMon
  have hclk : t.clk = (clkMark s c).clk := hr.same .clk (by decide)
  refine ⟨((clkMark_same s c).mono (qs := [.clk, .ucbs]) (by decide)).trans (hr.mono (by decide)) |>.eq_withParts, ?_,
    (raise_reports (clkMark s c) .clk k clkMon)⟩
  rw [hclk]
  exact testBit_clkMark hb

/-! ### Forced switches -/

/-- What a forced switch reaches of CLK stays while the activities end. -/
structure ClkKept (s t : State) : Prop where
  /-- The core domain's clock stays. -/
  core : t.clk.coreFrc = s.clk.coreFrc
  /-- The system domain's clock stays. -/
  system : t.clk.sysFrc = s.clk.sysFrc
  /-- The marks stay. -/
  failed : t.clk.failed = s.clk.failed
  /-- The reference stays. -/
  ref : t.clk.refInUse = s.clk.refInUse

theorem ClkKept.of_clk {s t : State} (h : t.clk = s.clk) : ClkKept s t := ⟨by rw [h], by rw [h], by rw [h], by rw [h]⟩

theorem ClkKept.trans {s t r : State} (h : ClkKept s t) (g : ClkKept t r) : ClkKept s r :=
  ⟨g.core.trans h.core, g.system.trans h.system, g.failed.trans h.failed, g.ref.trans h.ref⟩

theorem clkKept_endActivity (s : State) (a : Activity) : ClkKept s (endActivity s a) := by
  have fin : (releaseTokens (failRunning s a) a).clk = s.clk :=
    ((failRunning_same s a).trans (releaseTokens_same _ a)).same .clk (by decide)
  have keep (us : List UnitId) (t : State) : (us.foldl leaveMaint t).clk = t.clk :=
    (SameBut.foldl (ps := [.ucbs]) leaveMaint_same us t).same .clk (by decide)
  have drop (t : State) : (dropRejoin t).clk = t.clk := (dropRejoin_same t).same .clk (by decide)
  rw [endActivity_eq]
  split
  · exact ClkKept.of_clk rfl
  · refine (ClkKept.of_clk fin).trans ?_
    cases a
    case splitJoin => exact ClkKept.of_clk ((keep ..).trans (drop _))
    case foxglove => exact ClkKept.of_clk (keep ..)
    case clockChange => exact ⟨rfl, rfl, rfl, rfl⟩
    all_goals exact ClkKept.of_clk rfl

theorem forcedSwitch_spec (s : State) (core system : Bool) : let t := forcedSwitch s core system
    t.clk.coreFrc = (s.clk.coreFrc || core) ∧ t.clk.sysFrc = (s.clk.sysFrc || system) ∧ t.clk.failed = s.clk.failed := by
  intro t
  have h : ClkKept _ t := ((clkKept_endActivity _ .clockChange).trans (clkKept_endActivity _ .splitJoin)).trans
    (clkKept_endActivity _ .foxglove)
  exact ⟨h.core, h.system, h.failed⟩

/-- The clock event brings the safe state and leaves CLK. -/
theorem clkFailMessage_spec (s : State) : (clkFailMessage s).safe.safe = true ∧ (clkFailMessage s).braked = true ∧
    (clkFailMessage s).clk = s.clk := by
  obtain ⟨hsafe, hbraked, -⟩ := enterSafe_safe (s.setUcb .clk fun b =>
    b.send s.tb3 { source := handleOf .clk, kind := 1, cls := 14, level := 4, address := clkMon }) ⟨handleOf .clk, 1, 14, 1⟩
  exact ⟨hsafe, hbraked, (enterSafe_same _ _).same .clk (by decide)⟩

theorem inReset_enterReset {s : State} (h : s.pwr.inReset = false) (c : ResetCause) : (enterReset s c).pwr.inReset = true := by
  unfold enterReset
  simp only [h, Bool.false_eq_true, if_false]
  split
  · rw [fallBack_pwr]
  · rfl

/-- The domains that the failure of a clock in use switches to FRC. -/
def failTarget (s : State) (c : ClockId) : State :=
  match c with
  | .corePll => forcedSwitch (clkMark s c) true false
  | .systemPll => forcedSwitch (clkMark s c) false true
  | _ =>
    let t := forcedSwitch (clkMark s .tcxo) (!s.clk.coreFrc) (!s.clk.sysFrc)
    { t with clk := { t.clk with refInUse := 8, outLow := t.clk.outLow || outFailed t } }

/-- The monitor of a clock in use (R452, R453): a forced switch with the clock event, or a reset. -/
theorem clkFail_inUse {s : State} {c : ClockId} (h : (c = .tcxo ∧ s.clk.refInUse = 0 ∧ s.clk.failed.testBit 2 = false) ∨
    (c = .corePll ∧ s.clk.coreFrc = false) ∨ (c = .systemPll ∧ s.clk.sysFrc = false)) (ha : monitorArmed s c = true) :
    clkFail s c = if s.clk.failed.testBit 0 then enterReset s .clock else clkFailMessage (failTarget s c) := by
  unfold clkFail
  rcases h with ⟨rfl, href, h2⟩ | ⟨rfl, hf⟩ | ⟨rfl, hf⟩
  · simp only [ha, href, h2, Bool.not_true, Bool.false_eq_true, if_false, if_true]
    rfl
  · simp only [ha, hf, Bool.not_true, Bool.false_eq_true, if_false]
    rfl
  · simp only [ha, hf, Bool.not_true, Bool.false_eq_true, if_false]
    rfl

theorem failTarget_spec {s : State} {c : ClockId} (h : c = .tcxo ∨ c = .corePll ∨ c = .systemPll) : let t := failTarget s c
    (c ≠ .systemPll → t.clk.coreFrc = true) ∧ (c ≠ .corePll → t.clk.sysFrc = true) ∧
      (c = .tcxo → t.clk.refInUse = 8 ∧ t.clk.failed.testBit 2 = true) := by
  rcases h with rfl | rfl | rfl
  · obtain ⟨hcore, hsys, hfailed⟩ := forcedSwitch_spec (clkMark s .tcxo) (!s.clk.coreFrc) (!s.clk.sysFrc)
    refine ⟨fun _ => hcore.trans (Bool.or_not_self _), fun _ => hsys.trans (Bool.or_not_self _), fun _ => ⟨rfl, ?_⟩⟩
    exact (congrArg (Nat.testBit · 2) hfailed).trans (testBit_clkMark rfl)
  · obtain ⟨hcore, -, -⟩ := forcedSwitch_spec (clkMark s .corePll) true false
    exact ⟨fun _ => hcore.trans (Bool.or_true _), fun hne => absurd rfl hne, fun hne => absurd hne (by decide)⟩
  · obtain ⟨-, hsys, -⟩ := forcedSwitch_spec (clkMark s .systemPll) false true
    exact ⟨fun hne => absurd rfl hne, fun _ => hsys.trans (Bool.or_true _), fun hne => absurd hne (by decide)⟩

/-! ### Reference changes -/

theorem tokens_clockChange (s : State) : ∀ u ∈ [UnitId.clk, .time, .tick],
    ((takeTokens s .clockChange .clk).ucb u).token = some (.clockChange, 0x50) := by
  intro u hu
  exact token_takeTokens (h := .clk) hu

theorem takeTokens_clk (s : State) (a : Activity) (u : UnitId) : (takeTokens s a u).clk = s.clk := (takeTokens_same s a u).same .clk (by decide)

/-- A due change that has taken its tokens. -/
def changeBegun (s : State) (c : ClkChange) : State :=
  let t := takeTokens s .clockChange .clk
  { t with clk := { t.clk with due := none, swres := t.clk.swres.start, change := some { c with slewing := false } } }

theorem clkChange_begins {s : State} {c : ClkChange} (hd : s.clk.due = some c) (hc : s.clk.change = none)
    (hf : tokensFree s .clockChange = true) : clkChange s =
      if clkQualified (changeBegun s c) c.target then slewTo (changeBegun s c) c else changeBegun s c := by
  unfold clkChange
  simp only [hd, hc, hf, Option.isSome_none, Bool.not_true, Bool.or_self, Bool.false_eq_true, if_false]
  rfl

theorem changeBegun_spec (s : State) (c : ClkChange) : SameBut [.clk, .ucbs] s (changeBegun s c) ∧ (changeBegun s c).clk.due = none ∧
    (changeBegun s c).clk.swres.valid = false ∧ ∀ u ∈ [UnitId.clk, .time, .tick], ((changeBegun s c).ucb u).token = some (.clockChange, 0x50) :=
  ⟨((takeTokens_same s .clockChange .clk).mono (by decide)).trans ((setClk_same _ _).mono (by decide)), rfl, rfl, tokens_clockChange s⟩

/-- The end of a change: its tokens go and its result is there. -/
theorem endClkChange_spec (s : State) (code : Status) : let t := endClkChange s code
    t = { s with clk := t.clk, ucbs := t.ucbs } ∧ t.clk = { s.clk with
      change := none, swres := s.clk.swres.deliver (swresValue code s.clk.refInUse) } := by
  have h : (releaseTokens s .clockChange).clk = s.clk := (releaseTokens_same s .clockChange).same .clk (by decide)
  exact ⟨(endClkChange_same s code).eq_withParts, congrArg (fun k : ClkState =>
    { k with change := none, swres := k.swres.deliver (swresValue code k.refInUse) }) h⟩

/-- Settles O38: the clocks in use by `clkFail_inUse`, a change by its begin and its end. -/
theorem clocksFailOverAndChange : Obligations.ClocksFailOverAndChange := by
  unfold Obligations.ClocksFailOverAndChange
  intro s
  refine ⟨fun ha h0 => ?_, fun c b hm ha => ?_, fun h2 => ?_, fun c hc ha => ⟨fun h0 => ?_, fun h0 hr => ?_⟩,
    fun hp => ⟨fun c hc ht h2 => ?_, fun hc hfb hau hdue h2 => ?_⟩, fun c hd hc hf => ?_,
    fun c hc => ⟨fun hs => ?_, fun hs => ?_⟩⟩
  · refine ⟨_, congrArg Host.Outcome.next (?_ : clkFail s .frc = _), raise_clkMark_spec s (c := .frc) rfl 2⟩
    simp [clkFail, ha, h0]
  · simp only [List.mem_cons, Prod.mk.injEq, List.not_mem_nil, or_false] at hm
    rcases hm with ⟨rfl, rfl⟩ | ⟨rfl, rfl⟩
    · refine ⟨_, congrArg Host.Outcome.next (?_ : clkFail s .src = _), raise_clkMark_spec s (c := .src) rfl 3⟩
      simp [clkFail, ha]
    · refine ⟨_, congrArg Host.Outcome.next (?_ : clkFail s .xo32k = _), raise_clkMark_spec s (c := .xo32k) rfl 3⟩
      simp [clkFail, ha]
  · exact congrArg Host.Outcome.next (if_pos (by simp [h2]))
  · obtain ⟨hsafe, hbraked, hclk⟩ := clkFailMessage_spec (failTarget s c)
    refine ⟨_, congrArg Host.Outcome.next ((clkFail_inUse hc ha).trans (if_neg (by rw [h0]; simp))), hsafe, hbraked, ?_⟩
    rw [hclk]
    exact failTarget_spec (hc.imp (·.1) (Or.imp (·.1) (·.1)))
  · exact ⟨_, congrArg Host.Outcome.next ((clkFail_inUse hc ha).trans (if_pos h0)), inReset_enterReset hr .clock⟩
  · refine ⟨_, congrArg Host.Outcome.next (?_ : refQualified s = slewTo { s with clk := { s.clk with
      qualified := true, failed := Nat.land s.clk.failed 0xEF } } c), rfl, rfl, rfl, rfl⟩
    unfold refQualified
    rw [if_neg (by simp [hp, h2])]
    simp only [hc]
    exact if_pos ht
  · refine ⟨_, congrArg Host.Outcome.next (?_ : refQualified s = { s with clk := { s.clk with
      qualified := true, failed := Nat.land s.clk.failed 0xEF, due := some { target := clkPreferred s, slewing := false, back := true } } }),
      rfl, rfl⟩
    unfold refQualified
    rw [if_neg (by simp [hp, h2])]
    simp only [hc]
    refine (if_pos ?_).trans rfl
    rw [Bool.and_eq_true, Bool.and_eq_true]
    exact ⟨⟨hfb, hau⟩, by rw [hdue]; rfl⟩
  · obtain ⟨hsame, hdue, hvalid, htok⟩ := changeBegun_spec s c
    refine ⟨_, congrArg Host.Outcome.next (clkChange_begins hd hc hf), ?_⟩
    split
    · exact ⟨(hsame.trans ((setClk_same _ _).mono (by decide))).eq_withParts, hdue, hvalid, ⟨_, rfl, rfl⟩, htok⟩
    · exact ⟨hsame.eq_withParts, hdue, hvalid, ⟨_, rfl, rfl⟩, htok⟩
  · obtain ⟨hfr, hclk⟩ := endClkChange_spec s .timeout
    have hr := raise_same (endClkChange s .timeout) .clk 5 clkMon
    have hclk' : (raise (endClkChange s .timeout) .clk 5 clkMon).clk = _ := (hr.same .clk (by decide)).trans hclk
    refine ⟨_, congrArg Host.Outcome.next (?_ : refUnqualified s = raise (endClkChange s .timeout) .clk 5 clkMon),
      ((endClkChange_same s .timeout).trans (hr.mono (by decide))).eq_withParts, by rw [hclk'], by rw [hclk'], by rw [hclk']; rfl,
      by rw [hclk']; rfl,
      (raise_reports (endClkChange s .timeout) .clk 5 clkMon).of_before rfl (endClkChange_mail ..)⟩
    simp [refUnqualified, hc, hs]
  · let x : State := { s with clk := { s.clk with
      refInUse := c.target, fallenBack := false, changeCount := satUp 255 s.clk.changeCount,
      returnedCount := if c.back then satUp 255 s.clk.returnedCount else s.clk.returnedCount } }
    obtain ⟨hfr, hclk⟩ := endClkChange_spec x .ok
    refine ⟨_, congrArg Host.Outcome.next (?_ : slewDone s = endClkChange x .ok), hfr, by rw [hclk], by rw [hclk],
      by rw [hclk], by rw [hclk]; rfl, ?_⟩
    · simp [slewDone, hc, hs, x]
    · rw [hclk]
      simp [ResultWindow.deliver, swresValue, Status.code, x]

end Sys2Proof.Machine
end

section
/-! The recorder's write turns, buckets and limited offers (R462, R464, R466 to R468). -/

namespace Sys2Proof.Machine

open Sys2Proof

/-! ### A write turn -/

/-- The oldest queued record goes to its slot of the store. -/
theorem writeTurn_queued {e : EvrState} {r : EvrRecord} {q : List EvrRecord} (hs : e.scanned = true) (hq : e.queue = r :: q) :
    writeTurn e = { e with queue := q, store := mapPut (r.seq % 65536) r.words e.store } := by
  simp [writeTurn, hs, hq]

/-- With an empty queue the first due rewrite is made, or dropped where its record has left the slot. -/
theorem writeTurn_rewrite {e : EvrState} {seq k : Nat} {rest : List (Nat × Nat)} (hs : e.scanned = true) (hq : e.queue = [])
    (hr : e.rewrites = (seq, k) :: rest) :
    (writeTurn e).rewrites = rest ∧
      ∀ j, j ≠ seq % 65536 → mapGet? j (writeTurn e).store = mapGet? j e.store := by
  refine ⟨by simp [writeTurn, hs, hq, hr], fun j hj => ?_⟩
  simp only [writeTurn, hs, hq, hr]
  simp only [Bool.not_true, Bool.false_eq_true, if_false]
  split
  · exact mapGet?_put_ne hj _ _
  · rfl

/-! ### Buckets -/

/-- EVR with another bucket for a code. -/
def State.withBucket (s : State) (code : Nat) (b : Bucket) : State := { s with evr := s.evr.setBucket code b }

@[simp] theorem bucketOf_withBucket (s : State) (code : Nat) (b : Bucket) : bucketOf (s.withBucket code b) code = b :=
  mapGetD_put_same code b _ s.evr.buckets

theorem refill_run {s : State} {code : Nat} (h : (s.ucb .evr).state = .run) :
    refill s code = s.withBucket code { bucketOf s code with tokens := min (burstOf s code) ((bucketOf s code).tokens + 1) } := by
  simp [refill, h, State.withBucket]

theorem suppress_eq (s : State) (code : Nat) :
    suppress s code = s.withBucket code { bucketOf s code with suppressed := min 0xFFFF ((bucketOf s code).suppressed + 1) } := rfl

/-- An offer that needs a token and finds none is suppressed. -/
theorem offer_suppressed {s : State} {code : Nat} (u : UnitId) (d : List Byte) (hp : privileged code = false)
    (hq : s.evr.queue.length < 96) (hb : (bucketOf s code).tokens = 0) : offer s code u d = suppress s code := by
  simp only [offer, hp, offerLimited, Bool.false_eq_true, if_false, if_neg (Nat.not_le.2 hq), if_pos hb]

/-- An offer that needs a token and finds one enters the queue. -/
theorem offer_enqueued {s : State} {code : Nat} (u : UnitId) (d : List Byte) (hp : privileged code = false)
    (hq : s.evr.queue.length < 96) (hb : (bucketOf s code).tokens ≠ 0) :
    offer s code u d = enqueue (s.withBucket code { bucketOf s code with tokens := (bucketOf s code).tokens - 1 }) code (handleOf u) d := by
  simp only [offer, hp, offerLimited, Bool.false_eq_true, if_false, if_neg (Nat.not_le.2 hq), if_neg hb, State.withBucket]

/-- The record that an offer with a token puts behind the queue. -/
theorem enqueue_limited (s : State) (code source : Nat) (d : List Byte) (n : Nat) :
    let t := enqueue (s.withBucket code { bucketOf s code with tokens := n }) code source d
    ∃ r : EvrRecord, t.evr.queue = s.evr.queue ++ [r] ∧ r.code = code ∧ r.source = source ∧ r.data = data12 d ∧ r.tb3 = s.tb3 ∧
      r.lost = (bucketOf s code).suppressed ∧ (s.evr.scanned = true → r.seq = s.evr.next ∧ t.evr.next = s.evr.next + 1) := by
  intro t
  refine ⟨_, rfl, rfl, rfl, rfl, rfl, ?_, fun h => ⟨if_pos h, if_pos h⟩⟩
  have h := congrArg Bucket.suppressed (bucketOf_withBucket s code ⟨n, (bucketOf s code).suppressed⟩)
  exact h

/-- Settles O40: a write turn by the head of the queue or of the rewrites, an offer by its bucket's tokens. -/
theorem recorderWritesInOrder : Obligations.RecorderWritesInOrder := by
  unfold Obligations.RecorderWritesInOrder
  intro s
  refine ⟨fun r q hs hq => ⟨_, rfl, rfl, ?_⟩, fun seq k rest hs hq hr => ⟨_, rfl, rfl, writeTurn_rewrite hs hq hr⟩,
    fun code hrun => ⟨_, rfl, ?_⟩, fun code u d hp hq => ⟨fun hb => ?_, fun hb => ?_⟩⟩
  · rw [writeTurn_queued hs hq]
    exact ⟨rfl, mapGet?_put_same _ _ _, fun k hk => mapGet?_put_ne hk _ _, rfl, rfl⟩
  · rw [refill_run hrun]
    exact ⟨rfl, by rw [bucketOf_withBucket], by rw [bucketOf_withBucket], rfl⟩
  · rw [offer_suppressed u d hp hq hb, suppress_eq]
    exact ⟨rfl, by rw [bucketOf_withBucket]⟩
  · rw [offer_enqueued u d hp hq hb]
    exact enqueue_limited s code (handleOf u) d _

end Sys2Proof.Machine
end

section
/-! Field service and debug access (R478, R480 to R483). -/

namespace Sys2Proof.Machine

open Sys2Proof

/-! ### Reports whose address is open, and instants that have passed -/

theorem raiseOpen_reports (s : State) (u : UnitId) (k : Nat) : ∃ a, Reports s (raiseOpen s u k) u k a :=
  ⟨s.free.1, raise_reports s.free.2 u k s.free.1⟩

theorem raiseSafeOpen_reports (s : State) {u : UnitId} (h : u ≠ .evr) (k : Nat) : ∃ a, Reports s (raiseSafeOpen s u k) u k a :=
  (raiseOpen_reports s u k).imp fun _ hr => hr.of_mail (enterSafe_mail _ _ h)

theorem State.at_past {s : State} {now : Nat} (h : now ≤ s.time.now) : s.at_ now = s := by
  simp only [State.at_, Nat.max_eq_left h]

theorem outsideReset_run {s : State} (h : s.pwr.inReset = false) (f : State → State) : outsideReset s f = f s := by
  simp [outsideReset, h]

/-! ### The life-cycle state -/

/-- The machine with another state of LCS. -/
def State.withLcs (s : State) (l : LcsState) : State := { s with lcs := l }

theorem withLcs_same (s : State) (l : LcsState) : SameBut [.lcs] s (s.withLcs l) := by
  refine ⟨fun p hp => ?_⟩
  cases p <;> first | rfl | simp at hp

theorem lifeCycle_congr {s t : State} (h : t.lcs = s.lcs) : lifeCycle t = lifeCycle s := by
  simp only [lifeCycle, h]

theorem stored_of_field {s : State} (h : lifeCycle s = .field) : s.lcs.stored = .field ∧ s.lcs.service.isSome = false := by
  unfold lifeCycle at h
  split at h
  · exact absurd h (by decide)
  · rename_i hn
    rw [h] at hn
    simpa [h] using hn

/-! ### A response to a challenge -/

/-- The challenge is used up. -/
def LcsState.answered (l : LcsState) : LcsState := { l with challenge := none }

/-- A service session opens with the grant that the response names. -/
def LcsState.serviceOpen (l : LcsState) (grant : Bool) : LcsState := { l with challenge := none, fails := 0, service := some grant }

/-- A verified response opens the session and offers its two records. -/
theorem respond_verified {s : State} {d : SignedDoc} {now : Nat} (hl : lifeCycle s = .field) (hn : now ≤ s.time.now)
    (hr : responseRefused s = false) (ho : responseOk s d = true) :
    SameBut [.ucbs, .evr] (s.withLcs (s.lcs.serviceOpen (d.purpose = 1))) (respond s d now) := by
  have h : respond s d now = offer (lcsChange (s.withLcs (s.lcs.serviceOpen (d.purpose = 1))) .field .fieldService) 0x101 .lcs
      (bytesLE 1 d.purpose ++ bytesLE 4 (keyWord (lcsChange (s.withLcs (s.lcs.serviceOpen (d.purpose = 1))) .field .fieldService).lcs.fkey)) := by
    unfold respond
    rw [State.at_past hn]
    exact (if_neg (not_not_intro hl)).trans ((if_neg (by simp [hr])).trans (if_pos ho))
  rw [h]
  exact (offer_same _ 0x100 .lcs _).trans (offer_same _ 0x101 .lcs _)

/-- A response that does not verify uses up the challenge and counts. -/
theorem respond_failed {s : State} {d : SignedDoc} {now : Nat} (hl : lifeCycle s = .field) (hn : now ≤ s.time.now)
    (hr : responseRefused s = false) (ho : responseOk s d = false) : respond s d now = authFail (s.withLcs s.lcs.answered) := by
  unfold respond
  rw [State.at_past hn]
  exact (if_neg (not_not_intro hl)).trans ((if_neg (by simp [hr])).trans (if_neg (by simp [ho])))

/-- What a failed verification leaves of LCS. -/
theorem authFail_lcs (s : State) : (authFail s).lcs = { s.lcs with
    fails := min 3 (s.lcs.fails + 1), lockoutEnd := if min 3 (s.lcs.fails + 1) = 3 then s.tb3 + 600000000000 else s.lcs.lockoutEnd } :=
  (raiseOpen_same _ .lcs 1).same .lcs (by decide)

theorem authFail_tb3 (s : State) : (authFail s).tb3 = s.tb3 :=
  congrArg TimeState.now ((raiseOpen_same _ .lcs 1).same .time (by decide))

theorem authFail_reports (s : State) : ∃ a, Reports s (authFail s) .lcs 1 a := by
  obtain ⟨a, h⟩ := raiseOpen_reports (s.withLcs { s.lcs with
    fails := min 3 (s.lcs.fails + 1), lockoutEnd := if min 3 (s.lcs.fails + 1) = 3 then s.tb3 + 600000000000 else s.lcs.lockoutEnd }) .lcs 1
  exact ⟨a, h⟩

/-- The third failure in a row starts the lockout; an earlier one leaves it. -/
theorem authFail_lockout (s : State) :
    (2 ≤ s.lcs.fails → lockoutRuns (authFail s) = true) ∧ (s.lcs.fails < 2 → (authFail s).lcs.lockoutEnd = s.lcs.lockoutEnd) := by
  refine ⟨fun h => ?_, fun h => ?_⟩
  · rw [lockoutRuns, authFail_tb3, authFail_lcs, if_pos (by omega)]
    simp
  · rw [authFail_lcs, if_neg (by omega)]

/-! ### Unlocking and intrusive access -/

theorem unlock_ok {s : State} {d : SignedDoc} (hl : lifeCycle s = .field) (hd : docOk d s.lcs.ikey = true) (hr : s.lcs.relocks ≠ 0)
    (hn : s.lcs.nextState = none) :
    unlock s d = { s with lcs := { s.lcs with nextState := some .integration, relocks := s.lcs.relocks - 1 } } := by
  simp [unlock, hl, hd, hr, hn]

theorem unlock_bad {s : State} {d : SignedDoc} (hl : lifeCycle s = .field) (hd : docOk d s.lcs.ikey = false) :
    unlock s d = raiseOpen s .lcs 1 := by
  simp [unlock, hl, hd]

/-- The first grant of a session. -/
def LcsState.granted (l : LcsState) : LcsState := { l with intrusive := true, sessions := min 255 (l.sessions + 1) }

theorem debugIntrusive_first {s : State} (ho : intrusiveOpen s = true) (hi : s.lcs.intrusive = false) :
    debugIntrusive s = (raiseSafeOpen s .lcs 2).withLcs (raiseSafeOpen s .lcs 2).lcs.granted := by
  unfold debugIntrusive
  exact if_neg (by simp [ho, hi])

/-- Settles O41: each access by its document, the challenge and the life-cycle state. -/
theorem serviceAccessNeedsItsProof : Obligations.ServiceAccessNeedsItsProof := by
  unfold Obligations.ServiceAccessNeedsItsProof
  intro s hreset
  refine ⟨fun nonce hl hk => ?_, fun d now hl hn hr => ⟨fun ho => ⟨_, congrArg Host.Outcome.next (outsideReset_run hreset _), ?_⟩,
      fun ho => ⟨_, congrArg Host.Outcome.next (outsideReset_run hreset _), ?_⟩⟩,
    fun hk => ⟨_, congrArg Host.Outcome.next (if_neg (by simp [hk, hreset])), rfl, by simp [lockoutRuns], rfl⟩,
    fun d hl => ⟨fun hd hr hn => congrArg Host.Outcome.next ((outsideReset_run hreset _).trans (unlock_ok hl hd hr hn)),
      fun hd => ⟨_, congrArg Host.Outcome.next ((outsideReset_run hreset _).trans (unlock_bad hl hd)), ?_, raiseOpen_reports s .lcs 1⟩⟩,
    fun ho hi => ⟨_, congrArg Host.Outcome.next ((outsideReset_run hreset _).trans (debugIntrusive_first ho hi)), ?_⟩⟩
  · refine congrArg Host.Outcome.next ((outsideReset_run hreset _).trans ?_)
    simp [challenge, hl, hk]
  · have hs := respond_verified hl hn hr ho
    have hlcs : (respond s d now).lcs = s.lcs.serviceOpen (d.purpose = 1) := hs.same .lcs (by decide)
    have hf : s.lcs.stored = .field := (stored_of_field hl).1
    refine ⟨?_, ?_, by rw [hlcs]; rfl, by rw [hlcs]; rfl, by rw [hlcs]; rfl⟩
    · exact SameBut.eq_withParts (((withLcs_same s _).mono (by decide)).trans (hs.mono (qs := [.lcs, .ucbs, .evr]) (by decide)))
    · simp [lifeCycle, hlcs, LcsState.serviceOpen, hf]
  · change _ ∧ _
    obtain ⟨hstored, hserv⟩ := stored_of_field hl
    rw [respond_failed hl hn hr ho]
    refine ⟨?_, by rw [authFail_lcs]; rfl, by rw [authFail_lcs]; rfl, authFail_reports (s.withLcs s.lcs.answered),
      authFail_lockout (s.withLcs s.lcs.answered)⟩
    simp [lifeCycle, authFail_lcs, State.withLcs, LcsState.answered, hstored, hserv]
  · exact (raiseOpen_same s .lcs 1).eq_withParts
  · have hs := (raiseSafeOpen_same s .lcs 2).same .lcs (by decide)
    have hc := raiseSafeOpen_safe s .lcs 2
    exact ⟨hc.1, hc.2, rfl, congrArg (fun l : LcsState => min 255 (l.sessions + 1)) hs,
      (raiseSafeOpen_reports s (by decide) 2).imp fun _ hr => hr⟩

end Sys2Proof.Machine
end

section
/-! Entry to RETURN and the erasure (R483, R484). -/

namespace Sys2Proof.Machine

open Sys2Proof

/-! ### Reset entry from a running module -/

@[simp] theorem fallBack_lcs (s : State) : (fallBack s).lcs = s.lcs := by
  simp only [fallBack]
  split <;> rfl

/-- LCS keeps through reset entry what its chapter says, a fallback or not. -/
theorem enterReset_lcs {s : State} (h : s.pwr.inReset = false) (cause : ResetCause) : (enterReset s cause).lcs = keepLcs s cause := by
  simp only [enterReset, h, Bool.false_eq_true, if_false]
  split
  · rw [fallBack_lcs]
  · rfl

theorem drainRecorder_same (s : State) : SameBut [.evr] s (drainRecorder s) := by
  refine ⟨fun p hp => ?_⟩
  cases p <;> first | rfl | simp at hp

theorem lcsChange_same (s : State) (old new : LifeCycle) : SameBut [.ucbs, .evr] s (lcsChange s old new) := offer_same s 0x100 .lcs _

/-! ### The request -/

/-- LCS once the request is accepted. -/
def LcsState.returnBegun (l : LcsState) : LcsState :=
  { l with pending := true, challenge := none, answer := some (BitVec.ofNat 32 Status.ok.code) }

section
variable {s : State} {consent : Option SignedDoc} {vendor : SignedDoc} {now : Nat} (hn : now ≤ s.time.now)
  (hm : lifeCycle s ≠ .manufacture) (hr : lifeCycle s ≠ .returned) (hp : s.lcs.pending = false) (ht : (s.ucb .lcs).token = none)
  (hh : s.pwr.hold = true)

include hn hm hr hp ht hh

/-- A request that passes the checks of state, token and hold is decided by its two documents. -/
theorem returnRequest_open : returnRequest s consent vendor now =
    if vendorOk s vendor && consentOk s consent then eraseSecrets (s.withLcs s.lcs.returnBegun) else raiseOpen s .lcs 1 := by
  unfold returnRequest
  rw [State.at_past hn]
  exact (if_neg (by simp [hm, hr, hp])).trans ((if_neg (by simp [ht])).trans (if_neg (by simp [hh])))

theorem returnRequest_granted (hv : vendorOk s vendor = true) (hc : consentOk s consent = true) :
    returnRequest s consent vendor now = eraseSecrets (s.withLcs s.lcs.returnBegun) :=
  (returnRequest_open hn hm hr hp ht hh).trans (if_pos (by simp [hv, hc]))

theorem returnRequest_refused (hv : vendorOk s vendor = false ∨ consentOk s consent = false) :
    returnRequest s consent vendor now = raiseOpen s .lcs 1 :=
  (returnRequest_open hn hm hr hp ht hh).trans (if_neg (by rcases hv with h | h <;> simp [h]))

end

/-! ### The end of the erasure -/

/-- LCS with the RETURN fuses blown. -/
def LcsState.blown (l : LcsState) : LcsState := { l with stored := .returned, erasing := false, service := none }

/-- An erasure that checks resets the module in RETURN. -/
theorem erased_checked {s : State} (he : s.lcs.erasing = true) (hr : s.pwr.inReset = false) :
    (erased s true).pwr.inReset = true ∧ (erased s true).lcs.stored = .returned := by
  let r := drainRecorder (lcsChange (s.withLcs s.lcs.blown) (lifeCycle s) .returned)
  have hs : SameBut [.ucbs, .evr] (s.withLcs s.lcs.blown) r := (lcsChange_same ..).trans ((drainRecorder_same _).mono (by decide))
  have hd : erased s true = enterReset r .lifecycle := by
    unfold erased
    exact (if_neg (by simp [he, hr])).trans (if_pos rfl)
  have hrun : r.pwr.inReset = false := (congrArg PwrState.inReset (hs.same .pwr (by decide))).trans hr
  rw [hd]
  exact ⟨enterReset_inReset hrun _, by rw [enterReset_lcs hrun]; exact congrArg LcsState.stored (hs.same .lcs (by decide))⟩

/-- One that does not stops the start at step 5. -/
theorem erased_mismatch {s : State} (he : s.lcs.erasing = true) (hr : s.pwr.inReset = false) :
    erased s false = { raiseOpen (s.withLcs { s.lcs with erasing := false }) .lcs 4 with
      pwr := { (raiseOpen (s.withLcs { s.lcs with erasing := false }) .lcs 4).pwr with failed := 5, reason := 1 } } := by
  unfold erased
  exact (if_neg (by simp [he, hr])).trans (if_neg (by decide))

/-- Settles O42: the request by its two documents, the end by the outcome of the erasure. -/
theorem returnErasesTheModule : Obligations.ReturnErasesTheModule := by
  unfold Obligations.ReturnErasesTheModule
  intro s hreset
  refine ⟨fun consent vendor now hn hm hr hp ht hh => ⟨fun hv hc => ?_, fun hv => ?_⟩, fun he => ⟨?_, ?_⟩⟩
  · exact ⟨_, congrArg Host.Outcome.next ((outsideReset_run hreset _).trans (returnRequest_granted hn hm hr hp ht hh hv hc)),
      rfl, rfl, rfl, rfl, rfl, rfl, rfl, rfl, rfl, rfl, rfl, rfl, rfl, rfl⟩
  · exact ⟨_, congrArg Host.Outcome.next ((outsideReset_run hreset _).trans (returnRequest_refused hn hm hr hp ht hh hv)),
      (raiseOpen_same s .lcs 1).eq_withParts, raiseOpen_reports s .lcs 1⟩
  · obtain ⟨hin, hst⟩ := erased_checked he hreset
    exact ⟨_, rfl, hin, hst, by simp [lifeCycle, hst]⟩
  · have hs := raiseOpen_same (s.withLcs { s.lcs with erasing := false }) .lcs 4
    obtain ⟨a, ha⟩ := raiseOpen_reports (s.withLcs { s.lcs with erasing := false }) .lcs 4
    have hst := congrArg LcsState.stored (hs.same .lcs (by decide))
    exact ⟨_, congrArg Host.Outcome.next (erased_mismatch he hreset), rfl, hst,
      (congrArg PwrState.inReset (hs.same .pwr (by decide))).trans hreset, a, ha⟩

end Sys2Proof.Machine
end

section
/-! Packages, the end of an APPLY and the end of a trial (R490, R491, R493, R497). -/

namespace Sys2Proof.Machine

open Sys2Proof

/-! ### The slots -/

theorem activeSlot_setInactive (u : UpdState) (x : ImageSlot) : activeSlot (u.setInactive x) = activeSlot u := by
  unfold activeSlot UpdState.setInactive
  cases u.slotB <;> simp

theorem inactiveSlot_setInactive (u : UpdState) (x : ImageSlot) : inactiveSlot (u.setInactive x) = x := by
  unfold inactiveSlot UpdState.setInactive
  cases u.slotB <;> simp

/-! ### What a report leaves of a control block, and the outcome of a command -/

/-- A report leaves the command that a unit runs and its result. -/
theorem ucb_raise_work (s : State) (u v : UnitId) (k a : Nat) :
    ((raise s u k a).ucb v).running = (s.ucb v).running ∧ ((raise s u k a).ucb v).result = (s.ucb v).result := by
  simp only [raise, raiseAs]
  split
  · exact ⟨rfl, rfl⟩
  · rw [State.ucb_setUcb_if]
    split
    · rename_i h
      subst h
      unfold Ucb.send
      dsimp only
      split <;> exact ⟨rfl, rfl⟩
    · exact ⟨rfl, rfl⟩

/-- A command that was running at `s` and still runs at `t`, its result untouched, ends there. -/
theorem ended_of_running {s t : State} {u : UnitId} {r : Running} (hr : (s.ucb u).running = some r)
    (hw : (t.ucb u).running = (s.ucb u).running ∧ (t.ucb u).result = (s.ucb u).result) (c : Status) (d : Nat) :
    Ended s (t.finish u c d) u r.code c d := by
  have h : Ended t (t.finish u c d) u r.code c d := finish_ended (hw.1.trans hr) c d
  unfold Ended at h ⊢
  rw [← hw.2]
  exact h

theorem releaseTokens_work (s : State) (a : Activity) (v : UnitId) :
    ((releaseTokens s a).ucb v).running = (s.ucb v).running ∧ ((releaseTokens s a).ucb v).result = (s.ucb v).result := by
  rw [ucb_releaseTokens_token]
  exact ⟨rfl, rfl⟩

/-! ### Delivery -/

/-- The machine with another state of UPD. -/
def State.withUpd (s : State) (u : UpdState) : State := { s with upd := u }

theorem deliver_accepted {s : State} {p : Package} (hl : lifeCycle s ≠ .returned) (hp : s.lcs.pending = false)
    (hr : packageReason s p = 0) (hn : runsNoProgram s = false) : deliver s p = s.withUpd { s.upd with pkg := some p } := by
  have hn' : runsNoProgram (s.withUpd { s.upd with pkg := some p }) = false := hn
  unfold deliver
  refine (if_neg (by simp [deliveryOpen, hl, hp])).trans ((if_neg (not_not_intro hr)).trans (if_neg ?_))
  rw [Bool.and_eq_true]
  exact fun h => absurd h.1 (ne_true_of_eq_false hn')

theorem deliver_rejected {s : State} {p : Package} (hl : lifeCycle s ≠ .returned) (hp : s.lcs.pending = false)
    (hr : packageReason s p ≠ 0) :
    deliver s p = raise (s.withUpd { s.upd with reason := packageReason s p }) .lcs 0x20 (packageReason s p) := by
  unfold deliver
  exact (if_neg (by simp [deliveryOpen, hl, hp])).trans (if_pos hr)

/-! ### The end of an APPLY to the module itself -/

/-- The apply is over: its tokens are free. -/
def applied (s : State) : State := (releaseTokens s .firmwareApply).withUpd { s.upd with applying := false }

theorem applied_work (s : State) (v : UnitId) :
    ((applied s).ucb v).running = (s.ucb v).running ∧ ((applied s).ucb v).result = (s.ucb v).result := releaseTokens_work s _ v

/-- UPD after an apply that fails for a reason. -/
def UpdState.applyFailed (u : UpdState) (r : Nat) : UpdState := { u with applying := false, prepared := false, reason := r }

theorem applySelf_written {s : State} {p : Package} (h : applyReason s p = 0) :
    applySelf s p true = (true, updRecord (writeImage s p) 0x110 0 p.version) := by
  unfold applySelf
  exact if_pos h

theorem applySelf_failed {s : State} {p : Package} (h : applyReason s p ≠ 0) :
    applySelf s p true = (false, raiseOpen (s.withUpd (s.upd.applyFailed (applyReason s p))) .lcs 0x21) := by
  unfold applySelf
  exact if_neg h

theorem updRecord_same (s : State) (code target v : Nat) : SameBut [.ucbs, .evr] s (updRecord s code target v) := offer_same s code .lcs _

/-- The written image stands valid in the inactive slot, which is prepared. -/
theorem writeImage_slots (s : State) (p : Package) : (writeImage s p).upd.prepared = true ∧ (writeImage s p).upd.applying = false ∧
    activeSlot (writeImage s p).upd = activeSlot s.upd ∧ (inactiveSlot (writeImage s p).upd).valid = true :=
  ⟨rfl, rfl, activeSlot_setInactive s.upd _, congrArg ImageSlot.valid (inactiveSlot_setInactive s.upd _)⟩

section
variable {s : State} {p : Package} {r : Running} (hp : s.upd.pkg = some p) (hr : (s.ucb .lcs).running = some r)
  (hc : r.code = 0x90) (ha : r.arg = 0)

include hp hr hc ha

/-- COMMAND_COMPLETE of an APPLY to the module itself ends it with the outcome of the write. -/
theorem commandComplete_applySelf : commandComplete s .lcs .ok 0 =
    (applySelf (applied s) p true).2.finish .lcs (if (applySelf (applied s) p true).1 then .ok else .faulted)
      (if (applySelf (applied s) p true).1 then p.version % 65536 else 0) := by
  have h : commandComplete s .lcs .ok 0 = applyEnd s r.arg .ok := by
    unfold commandComplete
    simp only [hr, if_pos hc]
  rw [h, ha]
  unfold applyEnd
  simp only [hp, show updTarget 0 = some .self from rfl, decide_true, applied, State.withUpd]

/-- An image that checks is written, and the command ends with its version. -/
theorem applyEnd_written (h0 : applyReason s p = 0) :
    commandComplete s .lcs .ok 0 = (updRecord (writeImage (applied s) p) 0x110 0 p.version).finish .lcs .ok (p.version % 65536) := by
  rw [commandComplete_applySelf hp hr hc ha, applySelf_written (show applyReason (applied s) p = 0 from h0)]
  rfl

/-- One that does not ends the command with its reason. -/
theorem applyEnd_failed (h0 : applyReason s p ≠ 0) : commandComplete s .lcs .ok 0 =
    (raiseOpen ((applied s).withUpd ((applied s).upd.applyFailed (applyReason s p))) .lcs 0x21).finish .lcs .faulted 0 := by
  rw [commandComplete_applySelf hp hr hc ha, applySelf_failed (show applyReason (applied s) p ≠ 0 from h0)]
  rfl

theorem applyEnd_written_ended (h0 : applyReason s p = 0) :
    (commandComplete s .lcs .ok 0).upd = (writeImage (applied s) p).upd ∧
      Ended s (commandComplete s .lcs .ok 0) .lcs 0x90 .ok (p.version % 65536) := by
  rw [applyEnd_written hp hr hc ha h0, ← hc]
  let w := writeImage (applied s) p
  have hu : (updRecord w 0x110 0 p.version).ucb .lcs = w.ucb .lcs := ucb_offer w (by decide) 0x110 .lcs _
  refine ⟨((updRecord_same ..).trans ((finish_same ..).mono (by decide))).same .upd (by decide), ended_of_running hr ?_ _ _⟩
  rw [hu]
  exact applied_work s .lcs

theorem applyEnd_failed_ended (h0 : applyReason s p ≠ 0) :
    (commandComplete s .lcs .ok 0).upd = (applied s).upd.applyFailed (applyReason s p) ∧
      Ended s (commandComplete s .lcs .ok 0) .lcs 0x90 .faulted 0 := by
  rw [applyEnd_failed hp hr hc ha h0, ← hc]
  let w := (applied s).withUpd ((applied s).upd.applyFailed (applyReason s p))
  have hw := ucb_raise_work w.free.2 .lcs .lcs 0x21 w.free.1
  have h1 := applied_work s .lcs
  exact ⟨((raiseOpen_same w .lcs 0x21).trans ((finish_same ..).mono (by decide))).same .upd (by decide),
    ended_of_running hr ⟨hw.1.trans h1.1, hw.2.trans h1.2⟩ _ _⟩

end

/-! ### The end of a trial -/

/-- UPD once the trial has expired. -/
def UpdState.expired (u : UpdState) (now : Nat) : UpdState :=
  { u with trialLeft := 0, trialRun := none, safeOnTrial := true, fallbackAt := some (now + 10000000) }

theorem trialExpired_trial {s : State} (ht : s.upd.trial = true) (hf : s.upd.fallbackAt = none) (hr : s.pwr.inReset = false) :
    trialExpired s = (raiseSafeOpen s .lcs 0x23).withUpd ((raiseSafeOpen s .lcs 0x23).upd.expired (raiseSafeOpen s .lcs 0x23).tb3) := by
  unfold trialExpired
  exact if_neg (by simp [ht, hf, hr])

/-- Settles O43: a delivery by its first failing check, an APPLY by its write, which touches the inactive slot alone. -/
theorem updatesNeverTouchTheActiveSlot : Obligations.UpdatesNeverTouchTheActiveSlot := by
  unfold Obligations.UpdatesNeverTouchTheActiveSlot
  intro s hreset
  refine ⟨fun p hl hp => ⟨fun h0 hn => ?_, fun h0 => ⟨_, congrArg Host.Outcome.next ((outsideReset_run hreset _).trans
      (deliver_rejected hl hp h0)), (raise_same _ .lcs 0x20 _).eq_ucbs,
      raise_reports (s.withUpd { s.upd with reason := packageReason s p }) .lcs 0x20 _⟩, fun hh => by simp [packageReason, hh]⟩,
    fun p r hp hr hc ha => ⟨fun h0 => ⟨_, rfl, ?_⟩, fun h0 => ⟨_, rfl, ?_⟩⟩,
    fun ht hf => ⟨_, congrArg Host.Outcome.next (trialExpired_trial ht hf hreset), ?_⟩⟩
  · exact congrArg Host.Outcome.next ((outsideReset_run hreset _).trans (deliver_accepted hl hp h0 hn))
  · obtain ⟨hu, he⟩ := applyEnd_written_ended hp hr hc ha h0
    obtain ⟨hprep, happ, hact, hval⟩ := writeImage_slots (applied s) p
    change _ ∧ _
    exact ⟨(congrArg UpdState.prepared hu).trans hprep, (congrArg UpdState.applying hu).trans happ, (congrArg activeSlot hu).trans hact,
      (congrArg (fun u => (inactiveSlot u).valid) hu).trans hval, he⟩
  · obtain ⟨hu, he⟩ := applyEnd_failed_ended hp hr hc ha h0
    have hact := congrArg activeSlot hu
    exact ⟨congrArg UpdState.prepared hu, hact, congrArg UpdState.reason hu, he⟩
  · have htb := congrArg TimeState.now ((raiseSafeOpen_same s .lcs 0x23).same .time (by decide))
    have hc := raiseSafeOpen_safe s .lcs 0x23
    exact ⟨hc.1, hc.2, congrArg (fun n => some (n + 10000000)) htb, rfl, (raiseSafeOpen_reports s (by decide) 0x23).imp fun _ h => h⟩

end Sys2Proof.Machine
end

section
/-! The input supply, the straps and the temperature (R511, R512, R517, Tables PWR-9 and PWR-10). -/

namespace Sys2Proof.Machine

open Sys2Proof

/-- The machine with another state of PWR. -/
def State.withPwr (s : State) (p : PwrState) : State := { s with pwr := p }

theorem withPwr_same (s : State) (p : PwrState) : SameBut [.pwr] s (s.withPwr p) := by
  refine ⟨fun q hq => ?_⟩
  cases q <;> first | rfl | simp at hq

theorem supplyRecord_same (s : State) (code : Nat) : SameBut [.ucbs, .evr] s (supplyRecord s code) := offer_same s code .pwr _

/-! ### The supply input -/

/-- PWR once the input is lost. -/
def PwrState.inputLost (p : PwrState) : PwrState := { p with pf := true, pfCount := min 255 (p.pfCount + 1) }

theorem pfWarn_lost {s : State} (hf : s.pwr.pf = false) (hr : s.pwr.inReset = false) :
    pfWarn s = supplyRecord (raise (s.withPwr s.pwr.inputLost) .pwr 1 pwrSupply) 0x120 := by
  have h : pfWarn s = supplyRecord (raise (s.withPwr { s.pwr with pf := true, pfCount := satUp 255 s.pwr.pfCount }) .pwr 1 pwrSupply) 0x120 := by
    unfold pfWarn
    exact if_neg (by simp [hf, hr])
  rw [h, satUp_eq_min]
  rfl

theorem powerReturn_clears {s : State} (hf : s.pwr.pf = true) (hs : s.pwr.shutdown = false) :
    powerReturn s = supplyRecord (s.withPwr { s.pwr with pf := false }) 0x121 := by
  unfold powerReturn
  exact if_neg (by simp [hf, hs])

/-- The report of a lost input, with its record. -/
theorem pfWarn_spec {s : State} (hf : s.pwr.pf = false) (hr : s.pwr.inReset = false) :
    SameBut [.pwr, .ucbs, .evr] s (pfWarn s) ∧ (pfWarn s).pwr = s.pwr.inputLost ∧ Reports s (pfWarn s) .pwr 1 pwrSupply := by
  rw [pfWarn_lost hf hr]
  let w := s.withPwr s.pwr.inputLost
  have hs : SameBut [.ucbs, .evr] w (supplyRecord (raise w .pwr 1 pwrSupply) 0x120) :=
    ((raise_same ..).mono (by decide)).trans (supplyRecord_same ..)
  have hrep : Reports w (raise w .pwr 1 pwrSupply) .pwr 1 pwrSupply := raise_reports w .pwr 1 pwrSupply
  exact ⟨((withPwr_same ..).mono (by decide)).trans (hs.mono (by decide)), hs.same .pwr (by decide),
    hrep.of_ucb (ucb_offer _ (by decide) ..)⟩

/-! ### Straps and temperature -/

theorem strapsRead_changed {s : State} {straps : BitVec 13} (hn : straps.setWidth 32 ≠ s.pwr.strap) (hc : s.pwr.strapChanged = false)
    (hr : s.pwr.inReset = false) : strapsRead s straps =
      raise (s.withPwr { s.pwr with strapNow := straps.setWidth 32, strapChanged := true }) .pwr 2 (baseOf .pwr + 0x10C) := by
  unfold strapsRead
  exact if_neg (by simp [hn, hc, hr])

/-- A report after a change of PWR alone. -/
theorem raise_withPwr_spec (s : State) (p : PwrState) (k a : Nat) :
    raise (s.withPwr p) .pwr k a = { s with pwr := (raise (s.withPwr p) .pwr k a).pwr, ucbs := (raise (s.withPwr p) .pwr k a).ucbs } ∧
      (raise (s.withPwr p) .pwr k a).pwr = p ∧ Reports s (raise (s.withPwr p) .pwr k a) .pwr k a :=
  have hs := raise_same (s.withPwr p) .pwr k a
  ⟨(((withPwr_same s p).mono (by decide)).trans (hs.mono (qs := [.pwr, .ucbs]) (by decide))).eq_withParts, hs.same .pwr (by decide),
    raise_reports (s.withPwr p) .pwr k a⟩

/-- The body of the safe state leaves PWR. -/
theorem enterSafeBody_pwr (s : State) (cause : SafeCause) : (enterSafeBody s cause).pwr = s.pwr :=
  SameBut.same (ps := [.ucbs, .safe, .prog, .voter, .pair, .hlk])
    (((markSafe_same s cause).mono (by decide)).trans <| ((driveSafe_same _).mono (by decide)).trans <|
      ((commitSafe_same _ _).mono (by decide)).trans <| ((openSupplies_same _).mono (by decide)).trans <|
      ((discardEmissions_same _).mono (by decide)).trans <| ((clearRunning_same _).mono (by decide)).trans <|
      ((endFieldActivity_same _ (.inl rfl)).mono (by decide)).trans <|
      (endFieldActivity_same _ (.inr rfl)).mono (by decide)) .pwr (by decide)

/-- Entry to the safe state leaves of PWR all but the instant at which it began. -/
theorem enterSafe_pwr (s : State) (cause : SafeCause) : (enterSafe s cause).pwr = { s.pwr with safeSince := (enterSafe s cause).pwr.safeSince } := by
  have hb := enterSafeBody_pwr s cause
  rw [enterSafe_eq]
  split
  · rw [(offer_same ..).same .pwr (by decide)]
    simp only [noteSafe, hb]
  · rw [hb]

theorem raiseSafe_temp (s : State) (u : UnitId) (k a : Nat) : (raiseSafe s u k a).pwr.temp = s.pwr.temp := by
  rw [raiseSafe, enterSafe_pwr, ← (raise_same s u k a).same .pwr (by decide)]

/-- Settles O44: each event by its threshold or its change, with the report it sends. -/
theorem supplyStrapsAndTemperature : Obligations.SupplyStrapsAndTemperature := by
  unfold Obligations.SupplyStrapsAndTemperature
  intro s
  refine ⟨fun hf hr => ?_, fun hf hs => ⟨_, congrArg Host.Outcome.next (powerReturn_clears hf hs), ?_⟩,
    fun straps hn hc hr => ⟨_, congrArg Host.Outcome.next (strapsRead_changed hn hc hr), raise_withPwr_spec s _ 2 _⟩,
    fun x hx => ⟨_, congrArg Host.Outcome.next (if_neg (Int.not_le.2 hx)), ?_⟩,
    fun x hx => ⟨_, congrArg Host.Outcome.next (if_neg (Int.not_le.2 hx)), ?_⟩⟩
  · obtain ⟨hs, hp, hrep⟩ := pfWarn_spec hf hr
    exact ⟨_, rfl, hs.eq_withParts, hp, hrep⟩
  · exact (supplyRecord_same (s.withPwr { s.pwr with pf := false }) 0x121).eq_withParts
  · obtain ⟨heq, hp, hrep⟩ := raise_withPwr_spec s { s.pwr with temp := x, tempMax := max x s.pwr.tempMax } 3 (baseOf .pwr + 0x118)
    exact ⟨heq, congrArg PwrState.temp hp, congrArg PwrState.tempMax hp, hrep⟩
  · let w := s.withPwr { s.pwr with temp := x, tempMax := max x s.pwr.tempMax }
    have hsafe := raiseSafe_safe w .pwr 4 (baseOf .pwr + 0x118)
    exact ⟨hsafe.1, hsafe.2, raiseSafe_temp w .pwr 4 _, raiseSafe_reports w (by decide) 4 _⟩

end Sys2Proof.Machine
end

section
/-! The causes of a module reset (R513 to R515, R518, R520). -/

namespace Sys2Proof.Machine

open Sys2Proof

/-! ### Reset entry without a trial -/

/-- The module in reset by a cause that is no fallback: what flash, fuses and MRAM keep, and reset values elsewhere (R513). -/
def resetFrom (s : State) (cause : ResetCause) : State :=
  { pending := s.pending, freeCount := s.freeCount, evr := { store := s.evr.store }, tick := { next := s.tick.next },
    lcs := keepLcs s cause, upd := keepUpd s, prog := { retA := s.prog.retA, retB := s.prog.retB, retValid := s.prog.retValid },
    pwr := { inReset := true, cause := cause.code, prior := 0, strap := s.pwr.strap, strapNow := s.pwr.strapNow,
             starts := s.pwr.starts, pfCount := s.pwr.pfCount, autoEnds := s.pwr.autoEnds.map (· - s.tb3) } }

theorem enterReset_eq_resetFrom {s : State} (hr : s.pwr.inReset = false) (ht : s.upd.trial = false) {cause : ResetCause}
    (hc : cause ≠ .fallback) : enterReset s cause = resetFrom s cause := by
  have hf : fallsBack s cause = false := by simp [fallsBack, hc, ht]
  unfold enterReset
  simp [hr, hf, resetFrom]

/-- A reset discards an unfinished preparation in the inactive slot and leaves the active one. -/
theorem keepUpd_active (s : State) : (keepUpd s).slotB = s.upd.slotB ∧ activeSlot (keepUpd s) = activeSlot s.upd := by
  unfold keepUpd
  by_cases h : (s.upd.prepBegun && !s.upd.prepared) = true
  · simp only [h, if_true]
    refine ⟨?_, activeSlot_setInactive s.upd _⟩
    unfold UpdState.setInactive
    split <;> rfl
  · simp only [h]
    exact ⟨rfl, rfl⟩

/-- `t` is in reset by the cause of a code: reset values, harmless pins, and what `s` kept in fuses, flash and MRAM. -/
def IsReset (s t : State) (code : Nat) : Prop :=
  t.pwr.inReset = true ∧ t.pwr.cause = code ∧ t.pwr.prior = 0 ∧ t.ucbs = [] ∧ t.regs = [] ∧ t.regsPending = [] ∧ t.safe = {} ∧
    t.laneA = {} ∧ t.laneB = {} ∧ t.laneC = {} ∧ t.bulk = [] ∧ t.lcs.stored = s.lcs.stored ∧ t.lcs.relocks = s.lcs.relocks ∧
    t.lcs.ikey = s.lcs.ikey ∧ t.prog.retA = s.prog.retA ∧ t.prog.retB = s.prog.retB ∧ t.upd.slotB = s.upd.slotB ∧
    activeSlot t.upd = activeSlot s.upd ∧ t.pending = s.pending

theorem isReset_resetFrom (s : State) (cause : ResetCause) : IsReset s (resetFrom s cause) cause.code := by
  obtain ⟨hslot, hact⟩ := keepUpd_active s
  exact ⟨rfl, rfl, rfl, rfl, rfl, rfl, rfl, rfl, rfl, rfl, rfl, rfl, rfl, rfl, rfl, rfl, hslot, hact, rfl⟩

/-- What happens just before a reset entry, to the control blocks, the recorder and PWR, does not show after it. -/
theorem IsReset.of_before {s r t : State} {code : Nat} (h : IsReset r t code) (hs : SameBut [.ucbs, .evr, .pwr] s r) : IsReset s t code := by
  have hl : r.lcs = s.lcs := hs.same .lcs (by decide)
  have hp : r.prog = s.prog := hs.same .prog (by decide)
  have hu : r.upd = s.upd := hs.same .upd (by decide)
  have hq : r.pending = s.pending := hs.same .pending (by decide)
  unfold IsReset at h ⊢
  rwa [hl, hp, hu, hq] at h

/-! ### Loss of the supply and the automatic restart -/

theorem shutdown_eq {s : State} (hr : s.pwr.inReset = false) :
    shutdown s = enterReset (drainRecorder (s.withPwr { s.pwr with shutdown := true })) .powerFail := by
  unfold shutdown
  exact if_neg (by simp [hr])

/-- The module as it restarts by itself: the restart recorded and counted. -/
def autoRestarting (s : State) : State :=
  let r := offer s 0x122 .pwr (bytesLE 4 s.safe.cause.word.toNat ++ bytesLE 1 (pwrAuto s))
  drainRecorder (r.withPwr { r.pwr with autoEnds := r.pwr.autoEnds ++ [r.tb3 + 3600000000000] })

theorem autoRestarting_same (s : State) : SameBut [.ucbs, .evr, .pwr] s (autoRestarting s) :=
  ((offer_same ..).mono (by decide)).trans (((withPwr_same ..).mono (by decide)).trans ((drainRecorder_same _).mono (by decide)))

/-- The restart adds one end to those of the last hour and changes nothing else of PWR. -/
theorem autoRestarting_pwr (s : State) : (autoRestarting s).pwr.inReset = s.pwr.inReset ∧
    (autoRestarting s).pwr.autoEnds.length = s.pwr.autoEnds.length + 1 := by
  have h : (offer s 0x122 .pwr (bytesLE 4 s.safe.cause.word.toNat ++ bytesLE 1 (pwrAuto s))).pwr = s.pwr :=
    (offer_same ..).same .pwr (by decide)
  unfold autoRestarting drainRecorder State.withPwr
  simp [h]

section
variable {s : State} {entered secs : Nat} (hs : s.pwr.safeSince = some (entered, secs))

include hs

theorem safeRestart_early (h : s.tb3 < entered + secs * 1000000000) : safeRestart s = s := by
  unfold safeRestart
  simp [hs, h]

theorem safeRestart_due (hz : secs ≠ 0) (hl : s.lcs.sessions = 0) (ha : pwrAuto s < 3) (hr : s.pwr.inReset = false)
    (ht : s.upd.trial = false) (h : entered + secs * 1000000000 ≤ s.tb3) : safeRestart s = enterReset (autoRestarting s) .safeRestart := by
  unfold safeRestart
  simp only [hs]
  exact (if_neg (by simp [hz, hr, h])).trans ((if_neg (by simp [hl, Nat.ne_of_lt ha])).trans (if_neg (by simp [ht])))

end

/-- Settles O45: every cause ends in reset entry, which without a trial is no fallback. -/
theorem everyResetCauseResets : Obligations.EveryResetCauseResets := by
  unfold Obligations.EveryResetCauseResets
  intro s hr ht isReset
  have entry {c : ResetCause} (hc : c ≠ .fallback) : IsReset s (enterReset s c) c.code := by
    rw [enterReset_eq_resetFrom hr ht hc]
    exact isReset_resetFrom s c
  refine ⟨fun c hc => ⟨_, rfl, entry hc, ?_⟩, fun us hu => ⟨_, congrArg Host.Outcome.next (if_pos hu), entry (by decide)⟩,
    fun us hu => congrArg Host.Outcome.next ((if_neg (by omega)).trans (if_pos hu)), ⟨_, rfl, entry (by decide)⟩,
    ⟨_, rfl, entry (by decide)⟩, fun h9 => ⟨_, congrArg Host.Outcome.next (if_pos h9), entry (by decide)⟩,
    fun h9 => congrArg Host.Outcome.next (if_neg h9), ?_, fun entered secs hs hz hl ha => ⟨fun hd => ?_, fun hd => ?_⟩⟩
  · rw [enterReset_eq_resetFrom hr ht hc]
    rfl
  · let r := drainRecorder (s.withPwr { s.pwr with shutdown := true })
    have hb : SameBut [.ucbs, .evr, .pwr] s r := ((withPwr_same ..).mono (by decide)).trans ((drainRecorder_same _).mono (by decide))
    refine ⟨_, congrArg Host.Outcome.next ((shutdown_eq hr).trans (enterReset_eq_resetFrom (s := r) hr ht (by decide))), ?_, rfl⟩
    exact (isReset_resetFrom r .powerFail).of_before hb
  · have hb := autoRestarting_same s
    obtain ⟨hin, hlen⟩ := autoRestarting_pwr s
    have ht' : (autoRestarting s).upd.trial = false := (congrArg UpdState.trial (hb.same .upd (by decide))).trans ht
    refine ⟨_, congrArg Host.Outcome.next ((safeRestart_due hs hz hl ha hr ht hd).trans
      (enterReset_eq_resetFrom (hin.trans hr) ht' (by decide))), (isReset_resetFrom _ .safeRestart).of_before hb, ?_⟩
    rw [← hlen]
    exact List.length_map ..
  · exact congrArg Host.Outcome.next (safeRestart_early hs hd)

end Sys2Proof.Machine
end

section
/-! The bridge: held reads, card requests and locked sequences (R421 to R423, R426 to R429). -/

namespace Sys2Proof.Machine

open Sys2Proof

/-! ### Lanes through a frame -/

theorem SameBut.lane {ps : List Part} {s t : State} (h : SameBut ps s t) (ha : Part.laneA ∉ ps) (hb : Part.laneB ∉ ps)
    (hc : Part.laneC ∉ ps) (l : Lane) : t.lane l = s.lane l :=
  match l with
  | .a => h.same .laneA ha
  | .b => h.same .laneB hb
  | .c => h.same .laneC hc

/-- The machine with another state of HLK. -/
def State.withHlk (s : State) (h : HlkState) : State := { s with hlk := h }

theorem withHlk_same (s : State) (h : HlkState) : SameBut [.hlk] s (s.withHlk h) := by
  refine ⟨fun p hp => ?_⟩
  cases p <;> first | rfl | simp at hp

theorem lane_withHlk (s : State) (h : HlkState) (l : Lane) : (s.withHlk h).lane l = s.lane l :=
  (withHlk_same s h).lane (by decide) (by decide) (by decide) l

theorem lane_raise (s : State) (u : UnitId) (k a : Nat) (l : Lane) : (raise s u k a).lane l = s.lane l :=
  (raise_same s u k a).lane (by decide) (by decide) (by decide) l

/-! ### The end of the held read -/

theorem pump_empty {s : State} (h : s.hlk.queue = []) : pump s = s := by
  simp [pump, h, pumpQueue]

theorem leaveReplay_same (s : State) (l : Lane) (k : CtxKind) (len addr v : Nat) (ok : Bool) :
    SameBut [.voter] s (leaveReplay s l k len addr v ok) := by
  unfold leaveReplay
  refine SameBut.ite (SameBut.refl _ s) ⟨fun p hp => ?_⟩
  cases p <;> first | rfl | simp at hp

/-- A read reaches the context that waits for it, and the replay buffer, and nothing else. -/
theorem readArrived_spec {s : State} {l : Lane} {k : CtxKind} {rd addr : Nat} (hw : ((s.lane l).ctx k).wait = .urd rd addr none) (v : Nat)
    (ok : Bool) : SameBut [.voter, .laneA, .laneB, .laneC] s (readArrived s l k addr v ok) ∧
      ((readArrived s l k addr v ok).lane l).ctx k = { (s.lane l).ctx k with wait := .urd rd addr (some (v, ok)) } ∧
      ((readArrived s l k addr v ok).lane l).mem = (s.lane l).mem := by
  let w := s.setCtx l k { (s.lane l).ctx k with wait := .urd rd addr (some (v, ok)) }
  have h : readArrived s l k addr v ok = leaveReplay w l k 0 addr v ok := by
    simp [readArrived, hw, w, State.setCtx]
  have hl := leaveReplay_same w l k 0 addr v ok
  rw [h, hl.lane (by decide) (by decide) (by decide) l]
  refine ⟨((setLane_same ..).mono (by decide)).trans (hl.mono (by decide)), State.ctx_setCtx .., ?_⟩
  simp only [w, State.setCtx, State.lane_setLane]
  cases k <;> rfl

/-- The machine as a held read ends: without the read, and with the report of an error response. -/
def readEnded (s : State) (r : NearReq) (ok : Bool) : State :=
  let w := s.withHlk { s.hlk with heldRead := none }
  if ok then w else raise w (initiator r.by_) 0xF4 (cardBase r.addr)

theorem readEnded_same (s : State) (r : NearReq) (ok : Bool) :
    SameBut [.ucbs] (s.withHlk { s.hlk with heldRead := none }) (readEnded s r ok) :=
  SameBut.ite (SameBut.refl _ _) (raise_same ..)

theorem readEnded_error (s : State) (r : NearReq) : readEnded s r false =
    raise (s.withHlk { s.hlk with heldRead := none }) (initiator r.by_) 0xF4 (cardBase r.addr) := by
  unfold readEnded
  exact if_neg Bool.false_ne_true

theorem readEnded_reports (s : State) (r : NearReq) : Reports s (readEnded s r false) (initiator r.by_) 0xF4 (cardBase r.addr) := by
  rw [readEnded_error]
  exact raise_reports (s.withHlk { s.hlk with heldRead := none }) _ _ _

/-- The held read of a program ends at the context that waits for it; the near port is open and nothing else waits for it. -/
theorem endRead_program {s : State} {r : NearReq} {l : Lane} {k : CtxKind} {rd : Nat} (hb : r.by_ = .program l k) (hq : s.hlk.queue = [])
    (hw : ((s.lane l).ctx k).wait = .urd rd r.addr none) (v : Nat) (ok : Bool) :
    (endRead s r v ok).hlk = { s.hlk with heldRead := none } ∧ (endRead s r v ok).ucbs = (readEnded s r ok).ucbs ∧
      ((endRead s r v ok).lane l).ctx k = { (s.lane l).ctx k with wait := .urd rd r.addr (some (v, ok)) } ∧
      ((endRead s r v ok).lane l).mem = (s.lane l).mem := by
  have he := readEnded_same s r ok
  have hlane : (readEnded s r ok).lane l = s.lane l := (he.lane (by decide) (by decide) (by decide) l).trans (lane_withHlk ..)
  obtain ⟨hs, hctx, hmem⟩ := readArrived_spec (s := readEnded s r ok) (by rw [hlane]; exact hw) v ok
  have hhlk : (readArrived (readEnded s r ok) l k r.addr v ok).hlk = { s.hlk with heldRead := none } :=
    (hs.same .hlk (by decide)).trans (he.same .hlk (by decide))
  have h : endRead s r v ok = readArrived (readEnded s r ok) l k r.addr v ok := by
    refine Eq.trans ?_ (pump_empty (by rw [hhlk]; exact hq))
    simp only [endRead, readEnded, hb]
    rfl
  rw [h]
  rw [hlane] at hctx hmem
  exact ⟨hhlk, hs.same .ucbs (by decide), hctx, hmem⟩

/-! ### Completions -/

/-- The region of a card's address names the unit whose base an error reports. -/
theorem cardBase_of_region {addr : Nat} {t : Fin 32} {j : Fin 17} {n : Nat} (h : cardRegion addr = some (t, j, n)) :
    cardBase addr = baseOf (.card t j) := by
  unfold cardRegion at h
  split at h
  · rename_i hu
    split at h
    · cases h
    · injection h with h
      injection h with h1 h2
      injection h2 with h2 _
      simp only [cardBase, hu, h1, h2]
  · cases h

section
variable {s : State} {r : NearReq} {l : Lane} {k : CtxKind} {d : CardData} (hr : s.hlk.heldRead = some r) (hb : r.by_ = .program l k)

include hr

theorem cardData_error (he : d.error = true) : cardData s d = endRead s r 0 false := by
  unfold cardData
  simp only [hr]
  exact if_pos he

include hb

theorem cardData_register (he : d.error = false) (hm : ∀ t j n, cardRegion r.addr = some (t, j, n) → isMemory s t j n = false) :
    cardData s d = endRead s r d.word.toNat true := by
  unfold cardData
  simp only [hr, he, hb]
  cases hc : cardRegion r.addr with
  | none => rfl
  | some x =>
    obtain ⟨t, j, n⟩ := x
    simp [hm t j n hc]

theorem cardData_memory {t : Fin 32} {j : Fin 17} {n : Nat} (he : d.error = false) (hc : cardRegion r.addr = some (t, j, n))
    (hm : isMemory s t j n = true) : cardData s d = endRead (installBlock s r.addr t d) r d.word.toNat true := by
  unfold cardData
  simp only [hr, he, hb, hc, hm]
  rfl

end

/-- The prefetch entry that a fetched block takes. -/
def prefetchOf (addr slot : Nat) (d : CardData) : Prefetch :=
  { block := addr / 64 * 64, data := d.block, side := d.side.toNat, consumed := 2 ^ (addr % 64 / 8), slot }

/-- With no entry held, a block takes the first one. -/
theorem installBlock_first {s : State} (h : s.hlk.prefetch = []) (addr slot : Nat) (d : CardData) :
    installBlock s addr slot d = s.withHlk { s.hlk with prefetch := [prefetchOf addr slot d] } := by
  simp [installBlock, dropPrefetch, h, State.withHlk, prefetchOf]

/-- HLK once a read has timed out. -/
def HlkState.timedOut (h : HlkState) : HlkState := { h with readTo := min 255 (h.readTo + 1) }

theorem readTimeout_eq {s : State} {r : NearReq} (hr : s.hlk.heldRead = some r) :
    readTimeout s = endRead (raise (s.withHlk s.hlk.timedOut) .hlk 6 r.addr) r 0 false := by
  unfold readTimeout
  rw [hr]
  simp only [satUp_eq_min]
  rfl

/-- A held read of a program that runs out of time gives its context an error and is reported by HLK. -/
theorem readTimeout_spec {s : State} {r : NearReq} {l : Lane} {k : CtxKind} {rd : Nat} (hr : s.hlk.heldRead = some r)
    (hb : r.by_ = .program l k) (hq : s.hlk.queue = []) (hw : ((s.lane l).ctx k).wait = .urd rd r.addr none) :
    (readTimeout s).hlk = { s.hlk with heldRead := none, readTo := min 255 (s.hlk.readTo + 1) } ∧
      (((readTimeout s).lane l).ctx k).wait = .urd rd r.addr (some (0, false)) ∧ Reports s (readTimeout s) .hlk 6 r.addr := by
  have hhlk : (raise (s.withHlk s.hlk.timedOut) .hlk 6 r.addr).hlk = s.hlk.timedOut := (raise_same _ .hlk 6 _).same .hlk (by decide)
  have hlane : (raise (s.withHlk s.hlk.timedOut) .hlk 6 r.addr).lane l = s.lane l := (lane_raise ..).trans (lane_withHlk ..)
  have hrep : Reports s (raise (s.withHlk s.hlk.timedOut) .hlk 6 r.addr) .hlk 6 r.addr := raise_reports (s.withHlk s.hlk.timedOut) .hlk 6 r.addr
  rw [readTimeout_eq hr]
  generalize raise (s.withHlk s.hlk.timedOut) .hlk 6 r.addr = w at hhlk hlane hrep ⊢
  obtain ⟨hend, hucbs, hctx, -⟩ := endRead_program (s := w) hb (by rw [hhlk]; exact hq) (by rw [hlane]; exact hw) 0 false
  have hne : UnitId.hlk ≠ initiator r.by_ := by
    rw [hb]
    exact (by decide : UnitId.hlk ≠ .voter)
  have hkeep : (readEnded w r false).ucb .hlk = w.ucb .hlk := by
    rw [readEnded_error, ucb_raise_ne _ hne]
    rfl
  exact ⟨by rw [hend, hhlk]; rfl, congrArg LaneCtx.wait hctx, hrep.of_ucb ((ucb_of_ucbs hucbs .hlk).trans hkeep)⟩

/-! ### Links of a card -/

/-- A link that a card uses is locked or released; another one stays. -/
def lockLink (slot : Nat) (b : Bool) (s : State) (n : Fin 4) : State :=
  if n ∈ cardEnds s slot then s.setLink n { s.link n with locked := b } else s

theorem lockLink_same (slot : Nat) (b : Bool) (s : State) (n : Fin 4) : SameBut [.hlk] s (lockLink slot b s n) := by
  refine SameBut.ite ⟨fun p hp => ?_⟩ (SameBut.refl _ s)
  cases p <;> first | rfl | simp at hp

theorem lockLink_hlk (slot : Nat) (b : Bool) (s : State) (n : Fin 4) :
    (lockLink slot b s n).hlk = { s.hlk with links := (lockLink slot b s n).hlk.links } := by
  unfold lockLink
  split <;> rfl

theorem cardEnds_lockLink (slot : Nat) (b : Bool) (s : State) (n : Fin 4) : cardEnds (lockLink slot b s n) slot = cardEnds s slot := by
  unfold lockLink
  split <;> rfl

theorem link_lockLink (slot : Nat) (b : Bool) (s : State) (n m : Fin 4) :
    ((lockLink slot b s n).link m).locked = if m = n ∧ n ∈ cardEnds s slot then b else (s.link m).locked := by
  unfold lockLink
  by_cases hn : n ∈ cardEnds s slot
  · rw [if_pos hn]
    by_cases hmn : m = n
    · rw [if_pos ⟨hmn, hn⟩, hmn, State.link_setLink]
    · rw [if_neg fun h => hmn h.1, State.link_setLink_ne s fun h => hmn (Fin.ext h)]
  · rw [if_neg hn, if_neg fun h => hn h.2]

/-- The links of a card, of those listed, are locked or released. -/
def lockLinks (slot : Nat) (b : Bool) (s : State) (ns : List (Fin 4)) : State := ns.foldl (lockLink slot b) s

theorem lockLinks_same (slot : Nat) (b : Bool) (s : State) (ns : List (Fin 4)) : SameBut [.hlk] s (lockLinks slot b s ns) :=
  SameBut.foldl (lockLink_same slot b) ns s

theorem lockLinks_hlk (slot : Nat) (b : Bool) (s : State) (ns : List (Fin 4)) :
    (lockLinks slot b s ns).hlk = { s.hlk with links := (lockLinks slot b s ns).hlk.links } := by
  induction ns generalizing s with
  | nil => rfl
  | cons n ns ih =>
    show (lockLinks slot b (lockLink slot b s n) ns).hlk = { s.hlk with links := (lockLinks slot b (lockLink slot b s n) ns).hlk.links }
    rw [ih, lockLink_hlk]

theorem link_lockLinks (slot : Nat) (b : Bool) (s : State) (ns : List (Fin 4)) (m : Fin 4) :
    ((lockLinks slot b s ns).link m).locked = if m ∈ ns ∧ m ∈ cardEnds s slot then b else (s.link m).locked := by
  induction ns generalizing s with
  | nil => simp [lockLinks]
  | cons n ns ih =>
    refine (ih (lockLink slot b s n)).trans ?_
    rw [cardEnds_lockLink, link_lockLink]
    by_cases hmn : m = n
    · subst hmn
      simp only [List.mem_cons, true_or, true_and]
      split <;> simp_all
    · simp [hmn]

theorem lockLinks_heldRead (slot : Nat) (b : Bool) (s : State) (ns : List (Fin 4)) :
    (lockLinks slot b s ns).hlk.heldRead = s.hlk.heldRead := by
  rw [lockLinks_hlk]

theorem foldl_lockLinks (slot : Nat) (b : Bool) (s : State) (ns : List (Fin 4)) :
    ns.foldl (fun s (n : Fin 4) => if n ∈ cardEnds s slot then s.setLink n { s.link n with locked := b } else s) s = lockLinks slot b s ns :=
  rfl

section
variable {s : State} {slot : Fin 32}

/-- HLK with the read of a locked sequence under way. -/
def HlkState.lockedBy (h : HlkState) (slot : Fin 32) : HlkState :=
  { h with lockedSlot := some slot.val, heldRead := some { addr := baseOf (.card slot 0), write := none, by_ := .update } }

theorem forwardRead_locked (w : State) (slot : Fin 32) :
    forwardRead { w with hlk := { w.hlk with lockedSlot := some slot.val } } { addr := baseOf (.card slot 0), write := none, by_ := .update } =
      noteOutstanding (w.withHlk (w.hlk.lockedBy slot)) := rfl

/-- The read of a locked sequence takes the near port and leaves the links. -/
theorem lockedBy_spec (w : State) (slot : Fin 32) : let t := noteOutstanding (w.withHlk (w.hlk.lockedBy slot))
    SameBut [.hlk] w t ∧ t.hlk.lockedSlot = some slot.val ∧
      t.hlk.heldRead = some { addr := baseOf (.card slot 0), write := none, by_ := .update } ∧ ∀ n : Fin 4, t.link n = w.link n :=
  ⟨⟨fun p hp => by cases p <;> first | rfl | simp at hp⟩, rfl, rfl, fun _ => rfl⟩

theorem lockSequence_eq (hc : cardReachable s slot = true) (hl : s.hlk.lockedSlot = none) (hr : s.hlk.heldRead = none)
    (ho : outstanding s.hlk < 256) : lockSequence s slot = noteOutstanding
      ((lockLinks slot true s (List.finRange 4)).withHlk ((lockLinks slot true s (List.finRange 4)).hlk.lockedBy slot)) := by
  unfold lockSequence
  rw [if_neg (by simp [hc, hl, hr, ho])]
  simp only [foldl_lockLinks]
  exact forwardRead_locked _ slot

/-- HLK once the lock has run out. -/
def HlkState.lockOut (h : HlkState) : HlkState := { h with lockedSlot := none, lockTo := min 255 (h.lockTo + 1) }

theorem lockOut_heldRead (h : HlkState) : h.lockOut.heldRead = h.heldRead := rfl

/-- The machine once the lock has run out, with its report. -/
def lockEnded (s : State) (slot : Fin 32) : State := raise (s.withHlk s.hlk.lockOut) .hlk 7 (baseOf (.card slot 0))

theorem raise_lockOut (w : State) (slot : Fin 32) :
    raise { w with hlk := { w.hlk with lockedSlot := none, lockTo := satUp 255 w.hlk.lockTo } } .hlk 7 (baseOf (.card slot 0)) =
      lockEnded w slot := by
  rw [satUp_eq_min]
  rfl

/-- The end of the lock leaves the links as they have been released. -/
theorem lockEnded_spec (w : State) (slot : Fin 32) : SameBut [.hlk, .ucbs] w (lockEnded w slot) ∧ (lockEnded w slot).hlk.lockedSlot = none ∧
    (lockEnded w slot).hlk.lockTo = min 255 (w.hlk.lockTo + 1) ∧ (∀ n : Fin 4, (lockEnded w slot).link n = w.link n) ∧
      Reports w (lockEnded w slot) .hlk 7 (baseOf (.card slot 0)) := by
  have h : (lockEnded w slot).hlk = w.hlk.lockOut := (raise_same _ .hlk 7 _).same .hlk (by decide)
  refine ⟨((withHlk_same ..).mono (by decide)).trans ((raise_same ..).mono (by decide)), by rw [h]; rfl, by rw [h]; rfl, fun n => ?_,
    raise_reports (w.withHlk w.hlk.lockOut) .hlk 7 _⟩
  unfold State.link
  rw [h]
  rfl

theorem lockEnded_hlk (s : State) (slot : Fin 32) : (lockEnded s slot).hlk = s.hlk.lockOut :=
  (raise_same _ .hlk 7 _).same .hlk (by decide)

theorem lockTimeout_eq (hl : s.hlk.lockedSlot = some slot.val) (hr : s.hlk.heldRead = none) :
    lockTimeout s = lockEnded (lockLinks slot false s (List.finRange 4)) slot := by
  have hheld : (lockEnded (lockLinks slot false s (List.finRange 4)) slot).hlk.heldRead = none := by
    rw [lockEnded_hlk, lockOut_heldRead, lockLinks_heldRead, hr]
  unfold lockTimeout
  rw [hl]
  simp only [foldl_lockLinks, fin?_val, raise_lockOut, hheld]

/-- A locked sequence takes the links of its card and the near port. -/
theorem lockSequence_spec (hc : cardReachable s slot = true) (hl : s.hlk.lockedSlot = none) (hr : s.hlk.heldRead = none)
    (ho : outstanding s.hlk < 256) : SameBut [.hlk] s (lockSequence s slot) ∧ (lockSequence s slot).hlk.lockedSlot = some slot.val ∧
      (lockSequence s slot).hlk.heldRead = some { addr := baseOf (.card slot 0), write := none, by_ := .update } ∧
      ∀ n : Fin 4, ((lockSequence s slot).link n).locked = (decide (n ∈ cardEnds s slot) || (s.link n).locked) := by
  have hs := lockLinks_same slot true s (List.finRange 4)
  have hn := link_lockLinks slot true s (List.finRange 4)
  rw [lockSequence_eq hc hl hr ho]
  generalize lockLinks slot true s (List.finRange 4) = w at hs hn ⊢
  obtain ⟨hw, hslot, hread, hlink⟩ := lockedBy_spec w slot
  refine ⟨hs.trans hw, hslot, hread, fun n => ?_⟩
  rw [hlink, hn]
  by_cases h : n ∈ cardEnds s slot <;> simp [h, List.mem_finRange]

/-- A lock that runs out releases the links of the card and is reported. -/
theorem lockTimeout_spec (hl : s.hlk.lockedSlot = some slot.val) (hr : s.hlk.heldRead = none) :
    SameBut [.hlk, .ucbs] s (lockTimeout s) ∧ (lockTimeout s).hlk.lockedSlot = none ∧
      (lockTimeout s).hlk.lockTo = min 255 (s.hlk.lockTo + 1) ∧ (∀ n ∈ cardEnds s slot, ((lockTimeout s).link n).locked = false) ∧
      Reports s (lockTimeout s) .hlk 7 (baseOf (.card slot 0)) := by
  have hs := lockLinks_same slot false s (List.finRange 4)
  have hhlk := lockLinks_hlk slot false s (List.finRange 4)
  have hn := link_lockLinks slot false s (List.finRange 4)
  rw [lockTimeout_eq hl hr]
  generalize lockLinks slot false s (List.finRange 4) = w at hs hhlk hn ⊢
  obtain ⟨hw, hslot, hto, hlink, hrep⟩ := lockEnded_spec w slot
  refine ⟨(hs.mono (by decide)).trans hw, hslot, by rw [hto, hhlk], fun n hm => ?_, ?_⟩
  · rw [hlink, hn, if_pos ⟨List.mem_finRange n, hm⟩]
  · exact hrep.of_before (by rw [hs.eq_withParts]; rfl) (.of_same hs (by decide) .hlk)

end

/-! ### Requests of a card -/

/-- A request that finds its link up and free is served. -/
theorem cardAsks_served {s : State} {slot : Fin 32} {n : Fin 4} (hu : hlkUp s n = true) (hp : (s.card slot).present = true)
    (hs : (s.ucb .hlk).state = .run) (hd : (s.ucb .hlk).draining = false) (ho : outstanding s.hlk < 256)
    (hl : (s.link n).locked = false) :
    (∀ d, ∃ before newBefore, cardAsks s slot n (.image d) = s.setCard slot { s.card slot with
      image := d, imageNew := true, imageAt := s.tb3, imageBefore := before, newBefore := newBefore }) ∧
    (∀ off, heldOn s n = false → cardAsks s slot n (.mailboxRead off) = s) ∧
    (∀ off d, cardAsks s slot n (.mailboxWrite off d) = s.setCard slot { s.card slot with
      mailbox := Memory.writeBytes (s.card slot).mailbox (off % 65536) (d.take (65536 - off % 65536)) }) := by
  have free : ¬ ((s.ucb .hlk).state ≠ .run || (s.ucb .hlk).draining || (s.link n).locked || 256 ≤ outstanding s.hlk) = true := by
    simp [hs, hd, hl, ho]
  have up : ¬ (!hlkUp s n || !(s.card slot).present) = true := by simp [hu, hp]
  refine ⟨fun d => ⟨_, _, (if_neg up).trans (if_neg free)⟩, fun off hh => ?_, fun off d => (if_neg up).trans (if_neg free)⟩
  exact (if_neg up).trans ((if_neg free).trans (if_neg (by simp [hh])))

/-- While its link is locked a request receives RETRY. -/
theorem cardAsks_locked {s : State} {slot : Fin 32} {n : Fin 4} (hu : hlkUp s n = true) (hp : (s.card slot).present = true)
    (hl : (s.link n).locked = true) (r : CardReq) : cardAsks s slot n r = retry s :=
  (if_neg (by simp [hu, hp])).trans (if_pos (by simp [hl]))

/-- Settles O46: a read by its completion, a request by the lock of its link, a locked sequence by its start and its limit. -/
theorem bridgeCarriesOneReadAtATime : Obligations.BridgeCarriesOneReadAtATime := by
  unfold Obligations.BridgeCarriesOneReadAtATime
  intro s
  refine ⟨fun r l k rd hr hb hq _ hw => ⟨fun d he hm => ?_, fun d t j n he hc hm hp => ?_, fun d t j n he hc => ?_, ?_⟩,
    fun slot n hu hp hs hd ho => ⟨fun hl => ?_, fun hl r => congrArg Host.Outcome.next (cardAsks_locked hu hp hl r)⟩,
    fun slot => ⟨fun hc hl hr ho => ?_, fun hl hr => ?_⟩⟩
  · obtain ⟨hhlk, hucbs, hctx, hmem⟩ := endRead_program hb hq hw d.word.toNat true
    exact ⟨_, congrArg Host.Outcome.next (cardData_register hr hb he hm), hhlk, hucbs, hctx, hmem⟩
  · let w := s.withHlk { s.hlk with prefetch := [prefetchOf r.addr t d] }
    have hlane : w.lane l = s.lane l := lane_withHlk ..
    obtain ⟨hhlk, -, hctx, -⟩ := endRead_program (s := w) hb hq (by rw [hlane]; exact hw) d.word.toNat true
    refine ⟨_, congrArg Host.Outcome.next ((cardData_memory hr hb he hc hm).trans (by rw [installBlock_first hp])), ?_⟩
    exact ⟨congrArg HlkState.heldRead hhlk, ⟨_, congrArg HlkState.prefetch hhlk, rfl, rfl, rfl⟩, congrArg LaneCtx.wait hctx⟩
  · obtain ⟨hhlk, hucbs, hctx, -⟩ := endRead_program hb hq hw 0 false
    have hrep := readEnded_reports s r
    rw [hb, cardBase_of_region hc] at hrep
    exact ⟨_, congrArg Host.Outcome.next (cardData_error hr he), hhlk, congrArg LaneCtx.wait hctx, hrep.of_ucb (ucb_of_ucbs hucbs .voter)⟩
  · exact ⟨_, rfl, readTimeout_spec hr hb hq hw⟩
  · obtain ⟨himage, hread, hwrite⟩ := cardAsks_served hu hp hs hd ho hl
    refine ⟨fun d => ?_, fun off hh => congrArg Host.Outcome.next (hread off hh), fun d off hlen hoff => ?_⟩
    · obtain ⟨before, newBefore, h⟩ := himage d
      refine ⟨_, congrArg Host.Outcome.next h, rfl, ?_⟩
      rw [State.card_setCard]
      exact ⟨rfl, rfl, rfl, rfl, fun k hk => State.card_setCard_ne s (fun e => hk (Fin.ext e)) _⟩
    · refine ⟨_, congrArg Host.Outcome.next (hwrite off d), rfl, ?_⟩
      rw [State.card_setCard, Nat.mod_eq_of_lt hoff, List.take_of_length_le (by omega)]
      exact Memory.readBytes_writeBytes _ off d
  · obtain ⟨hs, hslot, hread, hlink⟩ := lockSequence_spec hc hl hr ho
    exact ⟨_, rfl, hs.eq_withParts, hslot, hread, hlink⟩
  · obtain ⟨hs, hslot, hto, hlink, hrep⟩ := lockTimeout_spec hl hr
    exact ⟨_, rfl, hs.eq_withParts, hslot, hto, hlink, hrep⟩

end Sys2Proof.Machine
end

section
/-! Cards and their links: status, loss and return, presence and records (R418, R420, R430 to R435, R438). -/

namespace Sys2Proof.Machine

open Sys2Proof

/-! ### Groups and the control block of a proxy -/

theorem ucb_noteGroup_ne (s : State) {u v : UnitId} (h : u ≠ v) : (noteGroup s v).ucb u = s.ucb u := by
  unfold noteGroup
  split
  · rfl
  · exact State.ucb_setUcb_ne s h _

theorem ucb_foldl_noteGroup {l : List UnitId} {u : UnitId} (h : u ∉ l) (s : State) : (l.foldl noteGroup s).ucb u = s.ucb u := by
  induction l generalizing s with
  | nil => rfl
  | cons v l ih =>
    rw [List.mem_cons, not_or] at h
    rw [List.foldl_cons, ih h.2, ucb_noteGroup_ne s h.1]

/-- A sub-unit, or a card without sub-units, has a state of its own: the groups leave it. -/
theorem ucb_noteGroups_card (s : State) {slot : Fin 32} {sub : Fin 17} (h : sub ≠ 0 ∨ cardMembers s slot = []) :
    (noteGroups s).ucb (.card slot sub) = s.ucb (.card slot sub) := by
  have hm (t : Fin 32) : cardMembers (netTestEnd s) t = cardMembers s t := by
    unfold cardMembers inTree State.card
    rw [(netTestEnd_same s).same .hlk (by decide)]
  refine (ucb_foldl_noteGroup ?_ _).trans (ucb_netTestEnd s (by simp))
  simp only [List.mem_append, List.mem_map, List.mem_filter, not_or, not_exists, not_and]
  refine ⟨fun t ⟨_, ht⟩ he => ?_, by simp⟩
  injection he with h1 h2
  subst h1
  rcases h with h | h
  · exact h h2.symm
  · rw [hm, h] at ht
    simp at ht

/-! ### Status packets -/

theorem status_reached {s : State} {slot : Fin 32} {sub : Fin 17} (ht : inTree s (.card slot sub) = true)
    (hc : cardReachable s slot = true) : ¬ (!inTree s (.card slot sub) || !cardReachable s slot) = true := by
  simp [ht, hc]

section
variable {s : State} {slot : Fin 32} {sub : Fin 17} (ht : inTree s (.card slot sub) = true) (hc : cardReachable s slot = true)

include ht hc

/-- The proxy shows the state that the card reports; a return to RUN ends its degrade condition. -/
theorem status_state (x : UState) (h : sub ≠ 0 ∨ cardMembers s slot = []) :
    SameBut [.ucbs, .flt] s (status s slot sub (.state x)) ∧ ((status s slot sub (.state x)).ucb (.card slot sub)).state = x ∧
      (x ≠ .run → (status s slot sub (.state x)).flt = s.flt) ∧
      (x = .run → (s.ucb (.card slot sub)).state ≠ .run → (status s slot sub (.state x)).flt =
        { s.flt with degradedUnits := s.flt.degradedUnits.filter (· ≠ .card slot sub) }) := by
  have hopen : status s slot sub (.state x) = if (s.ucb (.card slot sub)).state = x then s
      else if x = .run then backInRun (noteGroups (s.setUcb (.card slot sub) (·.gated x))) (.card slot sub)
        else noteGroups (s.setUcb (.card slot sub) (·.gated x)) := if_neg (status_reached ht hc)
  rw [hopen]
  by_cases hx : (s.ucb (.card slot sub)).state = x
  · rw [if_pos hx]
    exact ⟨SameBut.refl _ s, hx, fun _ => rfl, fun hr hn => absurd (hx.trans hr) hn⟩
  · rw [if_neg hx]
    have hs : SameBut [.ucbs] s (noteGroups (s.setUcb (.card slot sub) (·.gated x))) := (setUcb_same ..).trans (noteGroups_same _)
    have hu : ((noteGroups (s.setUcb (.card slot sub) (·.gated x))).ucb (.card slot sub)).state = x := by
      rw [ucb_noteGroups_card (s.setUcb (.card slot sub) (·.gated x)) h, State.ucb_setUcb]
      rfl
    have hf := hs.same .flt (by decide)
    generalize noteGroups (s.setUcb (.card slot sub) (·.gated x)) = w at hs hu hf ⊢
    by_cases hr : x = .run
    · rw [if_pos hr]
      refine ⟨(hs.mono (by decide)).trans ⟨fun p hp => ?_⟩, hu, fun hn => absurd hr hn, fun _ _ => ?_⟩
      · cases p <;> first | rfl | simp at hp
      · simp only [backInRun, show w.flt = s.flt from hf]
    · rw [if_neg hr]
      exact ⟨hs.mono (by decide), hu, fun _ => hf, fun h1 => absurd h1 hr⟩

/-- A completion ends the command with the data that the card reports. -/
theorem status_done {r : Running} (hr : (s.ucb (.card slot sub)).running = some r) (hw : r.writer ≠ .module) (data : Nat) :
    SameBut [.ucbs] s (status s slot sub (.done 0 data)) ∧ Ended s (status s slot sub (.done 0 data)) (.card slot sub) r.code .ok data := by
  let w := s.finish (.card slot sub) .ok data
  have hf : SameBut [.ucbs] s w := finish_same ..
  have he : Ended s w (.card slot sub) r.code .ok data := finish_ended hr .ok data
  have hstatus : status s slot sub (.done 0 data) = cardDone s slot sub .ok data := if_neg (status_reached ht hc)
  have hdone : cardDone s slot sub .ok data =
      if r.code = 7 then w.setUcb (.card slot sub) fun b => { b.resetFields with code := .ok, cmd := 7 }
      else if r.code = 1 then w.setUcb (.card slot sub) fun b => { b with forced := false } else w := by
    simp only [cardDone, hr]
    refine (if_neg (by decide)).trans (ite_congr rfl (fun _ => rfl) fun _ => ite_congr rfl (fun _ => if_neg ?_) fun _ => rfl)
    simp [hw]
  have keep (f : Ucb → Ucb) (hb : ∀ b, (f b).busy = b.busy) (hn : ∀ b, (f b).running = b.running) (hv : ∀ b, (f b).result = b.result) :
      SameBut [.ucbs] s (w.setUcb (.card slot sub) f) ∧ Ended s (w.setUcb (.card slot sub) f) (.card slot sub) r.code .ok data := by
    refine ⟨hf.trans (setUcb_same ..), ?_⟩
    unfold Ended at he ⊢
    rw [State.ucb_setUcb, hb, hn, hv]
    exact he
  rw [hstatus, hdone]
  split
  · exact keep _ (fun _ => rfl) (fun _ => rfl) (fun _ => rfl)
  · split
    · exact keep _ (fun _ => rfl) (fun _ => rfl) (fun _ => rfl)
    · exact ⟨hf, he⟩

/-- The message of a card's fault of class 12. -/
def cardMsg (slot : Fin 32) (sub : Fin 17) (kind level : Nat) (a : W32) : FaultMsg :=
  { source := handleOf (.card slot sub), kind, cls := 12, level, address := a.toNat % 2 ^ 32 }

/-- A fault that the card reports is held with the level that it gives. -/
theorem status_fault (kind level : Nat) (a : W32) (hm : masked s (.card slot sub) = false) (hh : (s.ucb (.card slot sub)).held = none) :
    SameBut [.ucbs] s (status s slot sub (.fault kind 12 level a)) ∧
      ((status s slot sub (.fault kind 12 level a)).ucb (.card slot sub)).held = some (cardMsg slot sub kind level a) := by
  have h : status s slot sub (.fault kind 12 level a) = s.setUcb (.card slot sub) fun b => b.send s.tb3 (cardMsg slot sub kind level a) :=
    (if_neg (status_reached ht hc)).trans (if_neg (by simp [hm]))
  rw [h]
  refine ⟨setUcb_same .., ?_⟩
  rw [State.ucb_setUcb]
  unfold Ucb.send
  rw [hh]

end

/-! ### A card that is lost -/

/-- A proxy in the tree shows OFF and runs nothing. -/
def proxyOff (slot : Fin 32) (s : State) (i : Fin 17) : State :=
  if inTree s (.card slot i) then s.setUcb (.card slot i) fun b =>
    { (if b.state = .off then b else b.toState .off) with busy := false, running := none, gateOpen := false }
  else s

def proxiesOff (slot : Fin 32) (s : State) (l : List (Fin 17)) : State := l.foldl (proxyOff slot) s

theorem proxyOff_same (slot : Fin 32) (s : State) (i : Fin 17) : SameBut [.ucbs] s (proxyOff slot s i) :=
  SameBut.ite (setUcb_same ..) (SameBut.refl _ s)

theorem proxiesOff_same (slot : Fin 32) (s : State) (l : List (Fin 17)) : SameBut [.ucbs] s (proxiesOff slot s l) :=
  SameBut.foldl (proxyOff_same slot) l s

/-- The block of a unit that shows OFF and runs nothing. -/
def Ucb.isOff (b : Ucb) : Prop := b.state = .off ∧ b.busy = false

theorem isOff_proxyOff {slot : Fin 32} {s : State} (i : Fin 17) (h : inTree s (.card slot i) = true) :
    ((proxyOff slot s i).ucb (.card slot i)).isOff := by
  unfold proxyOff
  rw [if_pos h, State.ucb_setUcb]
  refine ⟨?_, rfl⟩
  dsimp only
  split
  · assumption
  · rfl

theorem ucb_proxyOff_ne {slot : Fin 32} (s : State) {i : Fin 17} {u : UnitId} (h : u ≠ .card slot i) :
    (proxyOff slot s i).ucb u = s.ucb u := by
  unfold proxyOff
  split
  · exact State.ucb_setUcb_ne s h _
  · rfl

theorem ucb_proxiesOff_ne {slot : Fin 32} (s : State) (l : List (Fin 17)) {u : UnitId} (h : ∀ i, u ≠ .card slot i) :
    (proxiesOff slot s l).ucb u = s.ucb u := by
  induction l generalizing s with
  | nil => rfl
  | cons i l ih => exact (ih (proxyOff slot s i)).trans (ucb_proxyOff_ne s (h i))

theorem inTree_of_same {s t : State} (h : SameBut [.ucbs] s t) (slot : Fin 32) (i : Fin 17) :
    inTree t (.card slot i) = inTree s (.card slot i) := by
  unfold inTree State.card
  rw [h.same .hlk (by decide)]

theorem isOff_proxiesOff {slot : Fin 32} {i : Fin 17} {l : List (Fin 17)} {s : State} (h : inTree s (.card slot i) = true)
    (hl : i ∈ l ∨ (s.ucb (.card slot i)).isOff) : ((proxiesOff slot s l).ucb (.card slot i)).isOff := by
  induction l generalizing s with
  | nil => exact hl.resolve_left (by simp)
  | cons j l ih =>
    have ht : inTree (proxyOff slot s j) (.card slot i) = true := (inTree_of_same (proxyOff_same slot s j) slot i).trans h
    refine ih ht ?_
    by_cases hij : i = j
    · subst hij
      exact .inr (isOff_proxyOff i h)
    · refine hl.imp (fun hm => (List.mem_cons.1 hm).resolve_left hij) fun ho => ?_
      rwa [ucb_proxyOff_ne s (fun e => hij (by injection e))]

theorem dropPrefetch_empty {s : State} (h : s.hlk.prefetch = []) (p : Prefetch → Bool) : dropPrefetch s p = s := by
  have hw : s.withHlk { s.hlk with prefetch := [] } = s := by
    unfold State.withHlk
    rw [← h]
  unfold dropPrefetch
  rw [h]
  exact hw

/-- The state of a card that has gone. -/
def CardState.gone (c : CardState) : CardState := { c with present := false, lost := true, misses := 0, imageNew := false }

theorem cardGone_eq (s : State) (slot : Fin 32) : cardGone s slot =
    (dropPrefetch (proxiesOff slot (s.setCard slot (s.card slot).gone) (List.finRange 17)) fun e => e.slot = slot.val).lose (.card slot) := rfl

/-- Off-proxies, with the card's state gone, of a card that held no prefetched block. -/
def cardAway (s : State) (slot : Fin 32) : State :=
  (proxiesOff slot (s.setCard slot (s.card slot).gone) (List.finRange 17)).lose (.card slot)

theorem cardGone_noPrefetch {s : State} (h : s.hlk.prefetch = []) (slot : Fin 32) : cardGone s slot = cardAway s slot := by
  have hw : (proxiesOff slot (s.setCard slot (s.card slot).gone) (List.finRange 17)).hlk.prefetch = [] := by
    rw [(proxiesOff_same ..).same .hlk (by decide)]
    exact h
  rw [cardGone_eq, dropPrefetch_empty hw]
  rfl

theorem setCard_same (s : State) (slot : Nat) (c : CardState) : SameBut [.hlk] s (s.setCard slot c) := by
  refine ⟨fun p hp => ?_⟩
  cases p <;> first | rfl | simp at hp

/-- What the loss of a card leaves and changes. -/
theorem cardAway_spec (s : State) (slot : Fin 32) : SameBut [.hlk, .ucbs, .place] s (cardAway s slot) ∧
    (cardAway s slot).hlk = { s.hlk with cards := mapPut slot (s.card slot).gone s.hlk.cards } ∧
    Resource.card slot ∈ (cardAway s slot).place.lost ∧ (cardAway s slot).ucb .hlk = s.ucb .hlk ∧
    ∀ sub, inTree s (.card slot sub) = true → ((cardAway s slot).ucb (.card slot sub)).isOff := by
  have hs := proxiesOff_same slot (s.setCard slot (s.card slot).gone) (List.finRange 17)
  have hu : (proxiesOff slot (s.setCard slot (s.card slot).gone) (List.finRange 17)).ucb .hlk = s.ucb .hlk :=
    (ucb_proxiesOff_ne _ _ (by simp)).trans rfl
  have hoff (sub : Fin 17) (ht : inTree s (.card slot sub) = true) :
      ((proxiesOff slot (s.setCard slot (s.card slot).gone) (List.finRange 17)).ucb (.card slot sub)).isOff := by
    refine isOff_proxiesOff ?_ (.inl (List.mem_finRange sub))
    simp only [inTree, State.card_setCard] at ht ⊢
    exact ht
  unfold cardAway
  generalize proxiesOff slot (s.setCard slot (s.card slot).gone) (List.finRange 17) = w at hs hu hoff ⊢
  have hl := lose_same w (.card slot)
  refine ⟨((setCard_same s slot _).mono (by decide)).trans ((hs.mono (by decide)).trans (hl.mono (by decide))),
    (hl.same .hlk (by decide)).trans (hs.same .hlk (by decide)), mem_lost_lose .., hu, hoff⟩

theorem card_of_cards {s t : State} {slot k : Nat} {c : CardState} (h : t.hlk = { s.hlk with cards := mapPut slot c s.hlk.cards }) :
    t.card k = (s.setCard slot c).card k := by
  unfold State.card
  rw [h]
  rfl

/-- A card that has gone is reported, with its state, its proxies and its resource. -/
theorem cardLost_spec {s : State} {slot : Fin 32} (hi : (s.card slot).inUnit = true) (hl : (s.card slot).lost = false)
    (hp : s.hlk.prefetch = []) : ∃ w, cardLost s slot = raise w .hlk 2 (baseOf (.card slot 0)) ∧ SameBut [.hlk, .ucbs, .place] s w ∧
      w.hlk = { s.hlk with cards := mapPut slot (s.card slot).gone s.hlk.cards } ∧ Resource.card slot ∈ w.place.lost ∧
      w.ucb .hlk = s.ucb .hlk ∧ ∀ sub, inTree s (.card slot sub) = true → (w.ucb (.card slot sub)).isOff := by
  refine ⟨cardAway s slot, ?_, cardAway_spec s slot⟩
  unfold cardLost
  rw [if_neg (by simp [hi, hl]), cardGone_noPrefetch hp]

/-! ### Links -/

/-- What the loss of cards leaves: the links, their control blocks and the resources that were lost before. -/
def LinksKept (s t : State) : Prop :=
  t.hlk.links = s.hlk.links ∧ (∀ r ∈ s.place.lost, r ∈ t.place.lost) ∧ ∀ n : Fin 4, t.ucb (.link n) = s.ucb (.link n)

theorem LinksKept.refl (s : State) : LinksKept s s := ⟨rfl, fun _ h => h, fun _ => rfl⟩

theorem LinksKept.trans {s t r : State} (h : LinksKept s t) (g : LinksKept t r) : LinksKept s r :=
  ⟨g.1.trans h.1, fun x hx => g.2.1 x (h.2.1 x hx), fun n => (g.2.2 n).trans (h.2.2 n)⟩

theorem LinksKept.foldl {α : Type} {f : State → α → State} (h : ∀ s a, LinksKept s (f s a)) (l : List α) (s : State) :
    LinksKept s (l.foldl f s) := by
  induction l generalizing s with
  | nil => exact .refl s
  | cons a l ih => exact (h s a).trans (ih (f s a))

theorem linksKept_raise (s : State) (k a : Nat) : LinksKept s (raise s .hlk k a) := by
  have hs := raise_same s .hlk k a
  refine ⟨by rw [hs.same .hlk (by decide)], fun r h => ?_, fun n => ucb_raise_ne s (by simp) k a⟩
  rwa [hs.same .place (by decide)]

theorem linksKept_logSide (s : State) (e : Prefetch) : LinksKept s (logSide s e) := by
  unfold logSide
  split
  · exact .refl s
  · exact LinksKept.trans ⟨rfl, fun _ h => h, fun _ => rfl⟩ (linksKept_raise ..)

theorem linksKept_lose (s : State) (r : Resource) : LinksKept s (s.lose r) := by
  refine ⟨rfl, fun x hx => ?_, fun _ => rfl⟩
  unfold State.lose
  dsimp only
  split
  · exact hx
  · exact List.mem_append_left _ hx

theorem linksKept_cardGone (s : State) (slot : Fin 32) : LinksKept s (cardGone s slot) := by
  have hs := proxiesOff_same slot (s.setCard slot (s.card slot).gone) (List.finRange 17)
  have hu (n : Fin 4) := ucb_proxiesOff_ne (slot := slot) (s.setCard slot (s.card slot).gone) (List.finRange 17) (u := .link n) (by simp)
  rw [cardGone_eq]
  generalize proxiesOff slot (s.setCard slot (s.card slot).gone) (List.finRange 17) = w at hs hu ⊢
  have hw : LinksKept s w := ⟨by rw [hs.same .hlk (by decide)]; rfl, fun r h => by rwa [hs.same .place (by decide)], hu⟩
  exact hw.trans ((LinksKept.trans (t := { w with hlk := { w.hlk with prefetch := w.hlk.prefetch.filter fun e => !(e.slot = slot.val : Bool) } })
    ⟨rfl, fun _ h => h, fun _ => rfl⟩ (LinksKept.foldl linksKept_logSide _ _)).trans (linksKept_lose ..))

theorem linksKept_cardLost (s : State) (slot : Fin 32) : LinksKept s (cardLost s slot) := by
  unfold cardLost
  split
  · exact .refl s
  · exact (linksKept_cardGone s slot).trans (linksKept_raise ..)

theorem linksKept_dropUnreached (s : State) : LinksKept s (dropUnreached s) := by
  refine LinksKept.foldl (fun t slot => ?_) _ s
  split
  · exact linksKept_cardLost t slot
  · exact .refl t

/-- The machine with a Hollyhock link down, reported and lost, before the cards behind it are. -/
def linkDropped (s : State) (n : Fin 4) : State :=
  (raise (s.setLink n { s.link n with up := false, locked := false }) (.link n) 1 (baseOf (.link n))).lose (.port (.hlk n))

theorem hlkDown_eq {s : State} {n : Fin 4} (h : hlkUp s n = true) : hlkDown s n = dropUnreached (linkDropped s n) := by
  unfold hlkDown
  exact if_neg (by simp [h])

theorem link_linkDropped (s : State) (n m : Fin 4) :
    (linkDropped s n).link m = (s.setLink n { s.link n with up := false, locked := false }).link m := by
  have h := (raise_same (s.setLink n { s.link n with up := false, locked := false }) (.link n) 1 (baseOf (.link n))).same .hlk (by decide)
  exact congrArg (fun k : HlkState => mapGetD k.links m {}) h

/-- A link that goes down takes the cards behind it with it, and no other link. -/
theorem hlkDown_spec {s : State} {n : Fin 4} (h : hlkUp s n = true) : hlkUp (hlkDown s n) n = false ∧
    Resource.port (.hlk n) ∈ (hlkDown s n).place.lost ∧ Reports s (hlkDown s n) (.link n) 1 (baseOf (.link n)) ∧
      ∀ m, m ≠ n → (hlkDown s n).link m = s.link m := by
  have hrep : Reports s (linkDropped s n) (.link n) 1 (baseOf (.link n)) :=
    raise_reports (s.setLink n { s.link n with up := false, locked := false }) (.link n) 1 (baseOf (.link n))
  have hmem : Resource.port (.hlk n) ∈ (linkDropped s n).place.lost := mem_lost_lose ..
  have hlink := link_linkDropped s n
  obtain ⟨hl, hp, hu⟩ := linksKept_dropUnreached (linkDropped s n)
  rw [hlkDown_eq h]
  generalize linkDropped s n = w at hrep hmem hlink hl hp hu ⊢
  have hk (m : Fin 4) : (dropUnreached w).link m = w.link m := by
    unfold State.link
    rw [hl]
  refine ⟨?_, hp _ hmem, hrep.of_ucb (hu n), fun m hm => ?_⟩
  · rw [hlkUp, hk, hlink, State.link_setLink]
  · rw [hk, hlink, State.link_setLink_ne s (fun e => hm (Fin.ext e))]

/-- A link that trains is up, and its port is on its way back. -/
theorem hlkTrained_eq {s : State} {n : Fin 4} (hs : s.clk.linkStop = false) (hr : (s.ucb (.link n)).state = .run) :
    hlkTrained s n = (s.setLink n { s.link n with up := true }).healthy (.port (.hlk n)) := by
  unfold hlkTrained
  exact if_neg (by simp [hs, hr])

/-! ### Presence, RESCAN and records -/

theorem mem_mark (l : List Nat) (k : Nat) : k ∈ mark l k := by
  unfold mark
  split
  · assumption
  · simp

theorem presence_eq {s : State} {slot : Fin 32} (hr : (s.ucb .hlk).state = .run) (hp : (s.card slot).present = false) :
    presence s slot = (s.setCard slot { s.card slot with line := true }).withHlk
      { (s.setCard slot { s.card slot with line := true }).hlk with
        rescan := some { s.hlk.rescan.getD { slots := [], ok := 0 } with slots := mark (s.hlk.rescan.getD { slots := [], ok := 0 }).slots slot } } := by
  unfold presence
  exact if_neg (by simp [hr, hp])

/-- RESCAN of one slot adds it to the reads to come. -/
theorem rescanBegin_slot (s : State) (slot : Fin 32) : ∃ r, rescanBegin s slot.val = s.withHlk { s.hlk with rescan := some r } ∧ slot.val ∈ r.slots := by
  refine ⟨_, rfl, ?_⟩
  rw [if_neg (by omega)]
  exact mem_mark ..

/-- A read that ends takes its slot from those to come and leaves the cards. -/
theorem rescanNext_spec {s : State} {r : RescanRun} (slot : Nat) (ok : Bool) (hr : s.hlk.rescan = some r) :
    (∀ k, (rescanNext s slot ok).card k = s.card k) ∧ (∀ r', (rescanNext s slot ok).hlk.rescan = some r' → slot ∉ r'.slots) ∧
      SameMail s (rescanNext s slot ok) .hlk := by
  unfold rescanNext
  rw [hr]
  dsimp only
  split
  · exact ⟨fun _ => rfl, fun r' h => (by cases h), finish_mail (s.withHlk { s.hlk with rescan := none }) .hlk .ok _ .hlk⟩
  · refine ⟨fun _ => rfl, fun r' h => ?_, .of_ucb rfl⟩
    injection h with h
    subst h
    simp

/-- The card of a valid record of a new slot. -/
def CardState.joined (c : CardState) (rec : List Byte) : CardState :=
  { c with record := rec, valid := true, present := true, lost := false, line := true, inUnit := true }

section
variable {s : State} {slot : Fin 32} {rec : List Byte}

/-- The read of a card's record after the start. -/
theorem idmRead_card {r : RescanRun} (h9 : s.pwr.step = 9) (hf : s.pwr.failed = 0) (hr : s.pwr.inReset = false)
    (hs : s.hlk.rescan = some r) (hm : slot.val ∈ r.slots) : idmRead s slot.castSucc rec = cardRecord s slot rec := by
  have hmem : (s.hlk.rescan.any fun r => slot.castSucc.val ∈ r.slots) = true := by simp [hs, hm]
  unfold idmRead
  rw [if_neg (by simp [startAt, h9]), if_pos (by simp only [h9, hf, hr, hmem]; decide), show slot.castSucc.val = slot.val from rfl, fin?_val]

theorem cardRecord_new (hi : (s.card slot).inUnit = false) (hok : recordOk rec = true) (h1 : recByte rec 1 = 0) :
    cardRecord s slot rec = rescanNext (s.setCard slot ((s.card slot).joined rec)) slot.val true := by
  simp only [cardRecord, hok, h1, hi]
  rfl

theorem cardRecord_invalid (hok : recordOk rec = false) : cardRecord s slot rec =
    rescanNext (raise (s.setCard slot { s.card slot with valid := false }) .hlk 3 (baseOf (.card slot 0))) slot.val false := by
  simp only [cardRecord, hok]
  rfl

end

/-- Settles O47: each packet, link event, presence and record by what it finds of its card or link. -/
theorem cardsComeAndGo : Obligations.CardsComeAndGo := by
  unfold Obligations.CardsComeAndGo
  intro s slot
  refine ⟨fun sub => ?_, fun n => ⟨fun hu => ⟨_, rfl, hlkDown_spec hu⟩, fun hs hr => ⟨_, congrArg Host.Outcome.next (hlkTrained_eq hs hr), ?_⟩⟩,
    fun hi hl hp => ?_, fun hr hp => ⟨_, congrArg Host.Outcome.next (presence_eq hr hp), rfl, ?_, _, rfl, mem_mark ..⟩, fun w hl => ?_,
    fun r rec h9 hf hr hs hm hi => ⟨fun hok h1 => ?_, fun hok => ?_⟩⟩
  · intro u ht hc
    refine ⟨fun x h => ?_, fun r data hr hw => ?_, fun kind level a hm hh => ?_⟩
    · obtain ⟨hs, hrest⟩ := status_state ht hc x h
      exact ⟨_, rfl, hs.eq_withParts, hrest⟩
    · obtain ⟨hs, he⟩ := status_done ht hc hr hw data
      exact ⟨_, rfl, hs.eq_ucbs, he⟩
    · obtain ⟨hs, he⟩ := status_fault ht hc kind level a hm hh
      exact ⟨_, rfl, hs.eq_ucbs, _, he, rfl, rfl, rfl, rfl⟩
  · have hh := healthy_same (s.setLink n { s.link n with up := true }) (.port (.hlk n))
    have hret (hm : Resource.port (.hlk n) ∈ s.place.lost) := returning_healthy (s := s.setLink n { s.link n with up := true }) hm
    have hup : hlkUp (s.setLink n { s.link n with up := true }) n = true := by rw [hlkUp, State.link_setLink]
    have heq := hh.eq_withParts
    generalize (s.setLink n { s.link n with up := true }).healthy (.port (.hlk n)) = w at hh hret heq ⊢
    rw [heq]
    exact ⟨rfl, hup, fun hm => by rw [← heq]; exact hret hm⟩
  · obtain ⟨w, heq, hs, hhlk, hlost, hu, hoff⟩ := cardLost_spec hi hl hp
    have hraise := raise_same w .hlk 2 (baseOf (.card slot 0))
    have hrep : Reports s (raise w .hlk 2 (baseOf (.card slot 0))) .hlk 2 (baseOf (.card slot 0)) :=
      (raise_reports w .hlk 2 _).of_before (by rw [hs.eq_withParts]; rfl) (.of_ucb hu)
    have hcard (k : Nat) : (raise w .hlk 2 (baseOf (.card slot 0))).card k = (s.setCard slot (s.card slot).gone).card k :=
      card_of_cards ((hraise.same .hlk (by decide)).trans hhlk)
    refine ⟨_, congrArg Host.Outcome.next heq, ?_, ?_, ?_, fun k hk => ?_, ?_, fun sub ht => ?_, hrep⟩
    · have hcards : (raise w .hlk 2 (baseOf (.card slot 0))).hlk =
          { s.hlk with cards := (raise w .hlk 2 (baseOf (.card slot 0))).hlk.cards } := by
        rw [hraise.same .hlk (by decide), hhlk]
      generalize raise w .hlk 2 (baseOf (.card slot 0)) = t at hraise hcards ⊢
      have ht : SameBut [.hlk, .ucbs, .place] s t := hs.trans (hraise.mono (by decide))
      exact ht.eq_withParts.trans (congrArg (fun k => { s with hlk := k, ucbs := t.ucbs, place := t.place }) hcards)
    · rw [hcard, State.card_setCard]
      rfl
    · rw [hcard, State.card_setCard]
      rfl
    · rw [hcard, State.card_setCard_ne s (fun e => hk (Fin.ext e))]
    · rw [hraise.same .place (by decide)]
      exact hlost
    · rw [ucb_raise_ne w (by simp)]
      exact hoff sub ht
  · exact congrArg CardState.line (State.card_setCard s slot _)
  · obtain ⟨r, hb, hm⟩ := rescanBegin_slot (s.begin_ .hlk w 0x80 slot.val) slot
    have harg : (BitVec.ofNat 24 slot.val).toNat = slot.val := by
      rw [BitVec.toNat_ofNat, Nat.mod_eq_of_lt (by omega)]
    refine ⟨_, congrArg Host.Outcome.next ((congrArg (ucbCommand s w .hlk 0x80) harg).trans
      ((ucbCommand_of_legal rfl hl (by decide)).trans hb)), rfl, begin_busy s .hlk w 0x80 slot.val, r, rfl, hm⟩
  · obtain ⟨hcard, hslots, -⟩ := rescanNext_spec (s := s.setCard slot ((s.card slot).joined rec)) slot.val true hs
    refine ⟨_, congrArg Host.Outcome.next ((idmRead_card h9 hf hr hs hm).trans (cardRecord_new hi hok h1)), ?_⟩
    have hc := (hcard slot).trans (State.card_setCard s slot _)
    exact ⟨congrArg CardState.inUnit hc, congrArg CardState.record hc, congrArg CardState.valid hc, hslots⟩
  · let w := raise (s.setCard slot { s.card slot with valid := false }) .hlk 3 (baseOf (.card slot 0))
    have hw : w.hlk = (s.setCard slot { s.card slot with valid := false }).hlk := (raise_same _ .hlk 3 _).same .hlk (by decide)
    have hrep : Reports s w .hlk 3 (baseOf (.card slot 0)) := raise_reports (s.setCard slot { s.card slot with valid := false }) .hlk 3 _
    obtain ⟨hcard, -, hmail⟩ := rescanNext_spec (s := w) slot.val false ((congrArg HlkState.rescan hw).trans hs)
    refine ⟨_, congrArg Host.Outcome.next ((idmRead_card h9 hf hr hs hm).trans (cardRecord_invalid hok)), ?_⟩
    have hc : w.card slot = { s.card slot with valid := false } :=
      (congrArg (fun k : HlkState => mapGetD k.cards slot {}) hw).trans (State.card_setCard s slot _)
    have hnext := (hcard slot).trans hc
    exact ⟨(congrArg CardState.inUnit hnext).trans hi, congrArg CardState.valid hnext, hrep.of_mail hmail⟩

end Sys2Proof.Machine
end

section
/-! The steps of the start: the release of a module whose recorded cause is a fallback (R515, R516). -/

namespace Sys2Proof.Machine

open Sys2Proof

/-- A module held in reset after a fallback, with nothing recorded beside it. -/
def heldAfterFallback : State := { pwr := { inReset := true, cause := 0x10 } }

/-- Strap samples of which bit 0 differs both times. -/
theorem sampleStraps_bit0 : sampleStraps 1 0 0 1 0 0 = none := by decide

/-- Invalid straps are a further cause, which a fallback start records as its prior one. -/
theorem resetRelease_heldAfterFallback : exec (.resetRelease 1 0 0 1 0 0 0) heldAfterFallback =
    .next { heldAfterFallback with pwr := { heldAfterFallback.pwr with prior := ResetCause.brownout.code } } := by
  have h : resetRelease heldAfterFallback none 0 = enterReset heldAfterFallback .brownout := rfl
  refine congrArg Host.Outcome.next ((congrArg (resetRelease heldAfterFallback · 0) sampleStraps_bit0).trans (h.trans ?_))
  rfl

/-- Refutes O48: straps that differ in both samplings while PWR_CAUSE shows a fallback change PRIOR, and the statement lets nothing but
CAUSE change. -/
theorem not_startStepsFollowEachOther : ¬ Obligations.StartStepsFollowEachOther := by
  unfold Obligations.StartStepsFollowEachOther
  intro h
  obtain ⟨-, hstraps, -⟩ := h heldAfterFallback
  obtain ⟨t, ht, heq⟩ := hstraps 1 0 0 1 0 0 0 0 rfl (by decide) (by decide)
  rw [resetRelease_heldAfterFallback] at ht
  injection ht with ht
  have hprior : ResetCause.brownout.code = 0 := congrArg (fun t : State => t.pwr.prior) (ht.trans heq)
  exact absurd hprior (by decide)

end Sys2Proof.Machine
end

section
/-! The pair: beacons, links and the loss of the partner (R250, R255, R257, R264, R265). -/

namespace Sys2Proof.Machine

open Sys2Proof

/-! ### The loss of the partner -/

/-- The machine with another state of PAIR. -/
def State.withPair (s : State) (p : PairPart) : State := { s with pair := p }

theorem withPair_same (s : State) (p : PairPart) : SameBut [.pair] s (s.withPair p) := by
  refine ⟨fun q hq => ?_⟩
  cases q <;> first | rfl | simp at hq

/-- What giving up a hand-over or an update of the partner leaves: the links, PAIR's mail and every part but PAIR, UPD and the blocks. -/
def PairQuiet (s t : State) : Prop :=
  SameBut [.pair, .ucbs, .upd] s t ∧ t.pair.link0 = s.pair.link0 ∧ t.pair.link1 = s.pair.link1 ∧ SameMail s t .pair

theorem PairQuiet.refl (s : State) : PairQuiet s s := ⟨SameBut.refl _ s, rfl, rfl, rfl, rfl⟩

theorem PairQuiet.trans {s t r : State} (h : PairQuiet s t) (g : PairQuiet t r) : PairQuiet s r :=
  ⟨h.1.trans g.1, g.2.1.trans h.2.1, g.2.2.1.trans h.2.2.1, h.2.2.2.trans g.2.2.2⟩

theorem pairQuiet_of_ucbs {s t : State} (h : SameBut [.ucbs] s t) (hm : SameMail s t .pair) : PairQuiet s t :=
  ⟨h.mono (by decide), by rw [h.same .pair (by decide)], by rw [h.same .pair (by decide)], hm⟩

theorem pairQuiet_finish (s : State) (u : UnitId) (c : Status) (d : Nat) : PairQuiet s (s.finish u c d) :=
  pairQuiet_of_ucbs (finish_same ..) (finish_mail ..)

theorem pairQuiet_withUpd (s : State) (u : UpdState) : PairQuiet s (s.withUpd u) := by
  refine ⟨⟨fun p hp => ?_⟩, rfl, rfl, rfl, rfl⟩
  cases p <;> first | rfl | simp at hp

/-- PAIR without an announced hand-over. -/
def PairPart.noHandover (p : PairPart) : PairPart := { p with handover := 0, finalSent := false }

theorem pairQuiet_noHandover (s : State) : PairQuiet s (s.withPair s.pair.noHandover) :=
  ⟨(withPair_same ..).mono (by decide), rfl, rfl, rfl, rfl⟩

/-- SWITCHOVER ends with the hand-over that it asked for. -/
def endSwitchover (s : State) : State :=
  match (s.ucb .pair).running with
  | some r => if r.code = 0x80 then s.finish .pair .faulted 0 else s
  | none => s

/-- RESTART_HANDOVER ends with the boundary that it named. -/
def endRestartHandover (s : State) : State :=
  match s.upd.handover, (s.ucb .lcs).running with
  | some _, some r => if r.code = 0x95 then { s with upd := { s.upd with handover := none } }.finish .lcs .faulted 0
                      else { s with upd := { s.upd with handover := none } }
  | some _, none => { s with upd := { s.upd with handover := none } }
  | none, _ => s

theorem abandonHandover_eq (s : State) : abandonHandover s =
    if s.pair.handover = 0 then s else endRestartHandover (endSwitchover (s.withPair s.pair.noHandover)) := rfl

theorem pairQuiet_endSwitchover (s : State) : PairQuiet s (endSwitchover s) := by
  unfold endSwitchover
  split
  · split
    · exact pairQuiet_finish ..
    · exact .refl s
  · exact .refl s

theorem pairQuiet_endRestartHandover (s : State) : PairQuiet s (endRestartHandover s) := by
  have h := pairQuiet_withUpd s { s.upd with handover := none }
  unfold endRestartHandover
  split
  · split
    · exact h.trans (pairQuiet_finish ..)
    · exact h
  · exact h
  · exact .refl s

theorem pairQuiet_abandonHandover (s : State) : PairQuiet s (abandonHandover s) := by
  rw [abandonHandover_eq]
  split
  · exact .refl s
  · exact (pairQuiet_noHandover s).trans ((pairQuiet_endSwitchover _).trans (pairQuiet_endRestartHandover _))

theorem pairQuiet_endApply (s : State) : PairQuiet s (endActivity s .firmwareApply) := by
  rw [endActivity_eq]
  split
  · exact .refl s
  · exact (pairQuiet_of_ucbs (failRunning_same s _) (failRunning_mail ..)).trans
      ((pairQuiet_of_ucbs (releaseTokens_same ..) (releaseTokens_mail ..)).trans (pairQuiet_withUpd ..))

theorem pairQuiet_endPartnerApply (s : State) : PairQuiet s (endPartnerApply s) := by
  unfold endPartnerApply
  split
  · split
    · exact (pairQuiet_endApply s).trans (pairQuiet_of_ucbs (raise_same ..) (.of_ucb (ucb_raise_ne _ (by decide) ..)))
    · exact .refl s
  · exact .refl s

theorem mem_lost_losePartner (s : State) : Resource.partner ∈ (losePartner s).place.lost := by
  have h := mem_lost_lose s .partner
  unfold losePartner
  exact List.mem_filter.2 ⟨h, by decide⟩

theorem masked_of_pairQuiet {s t : State} (h : PairQuiet s t) (u : UnitId) : masked t u = masked s u := by
  rw [h.1.eq_withParts]
  rfl

/-- The machine with PAIR out of sync, as the loss of the partner leaves it. -/
def outOfSync (s : State) (next : PairState) : State :=
  s.withPair { s.pair with state := next, sent := none, dirtyOld := [], coalescing := false, coalesced := 0, copied := false,
                           resyncDue := next = .handshake }

theorem partnerLost_eq (s : State) (next : PairState) : partnerLost s next =
    outOfSync (losePartner (raise (endPartnerApply (abandonHandover s)) .pair 8 (baseOf .partner))) next := rfl

/-- The active module loses its partner: to placement, with its report, and its links as they are. -/
theorem partnerLost_spec (s : State) (next : PairState) : (partnerLost s next).pair.state = next ∧
    (partnerLost s next).pair.link0 = s.pair.link0 ∧ (partnerLost s next).pair.link1 = s.pair.link1 ∧
      Resource.partner ∈ (partnerLost s next).place.lost ∧ Reports s (partnerLost s next) .pair 8 (baseOf .partner) := by
  have hq := (pairQuiet_abandonHandover s).trans (pairQuiet_endPartnerApply (abandonHandover s))
  rw [partnerLost_eq]
  generalize endPartnerApply (abandonHandover s) = w at hq ⊢
  have hp : (raise w .pair 8 (baseOf .partner)).pair = w.pair := (raise_same w .pair 8 _).same .pair (by decide)
  have hrep : Reports s (raise w .pair 8 (baseOf .partner)) .pair 8 (baseOf .partner) :=
    (raise_reports w .pair 8 _).of_before (masked_of_pairQuiet hq .pair) hq.2.2.2
  generalize raise w .pair 8 (baseOf .partner) = r at hp hrep ⊢
  exact ⟨rfl, (congrArg PairPart.link0 hp).trans hq.2.1, (congrArg PairPart.link1 hp).trans hq.2.2.1, mem_lost_losePartner r, hrep⟩

/-! ### Beacons -/

/-- PAIR as a beacon shows the partner. -/
def PairPart.shown (p : PairPart) (b : Beacon) : PairPart :=
  { p with peer := b.claim, peerState := b.state, peerUp := true, peerRevertDue := b.revertDue }

/-- The machine once a beacon has shown the partner. -/
def beaconShown (s : State) (b : Beacon) (now : Nat) : State := (s.at_ now).withPair (s.pair.shown b)

theorem beacon_eq (s : State) (b : Beacon) (now : Nat) : beacon s b now =
    if s.pair.role = .standby && s.pair.state ≠ .alone then standbyBeacon (beaconShown s b now) b s.pair.peerState
    else activeBeacon (beaconShown s b now) b s.pair.peerState := rfl

theorem beaconShown_same (s : State) (b : Beacon) (now : Nat) : SameBut [.time, .pair] s (beaconShown s b now) := by
  refine ⟨fun p hp => ?_⟩
  cases p <;> first | rfl | simp at hp

/-- PAIR once the partner's claim is no longer one to follow. -/
def PairPart.confirmed (p : PairPart) : PairPart := { p with takeover := true, handover := 0 }

theorem confirmCause_running {s : State} (hr : s.pair.role = .standby) (hs : s.pair.state = .synced) (h : running s = true) :
    confirmCause s = s.withPair s.pair.confirmed := by
  unfold confirmCause
  exact if_pos (by simp [hr, hs, h])

/-- A claim that an active module with a running controller would not send. -/
theorem weakClaim {c : W16} (h : c.toNat / 2 ^ 14 < 2 ∨ c.toNat / 2 ^ 8 % 64 < 32) : claimRole c < 2 ∨ claimHealth c < 32 := by
  refine h.imp (fun h => ?_) fun h => ?_
  · have : c.toNat / 2 ^ 14 % 2 ^ 2 ≤ c.toNat / 2 ^ 14 := Nat.mod_le ..
    exact Nat.lt_of_le_of_lt this h
  · exact h

/-- PAIR as a standby follows a beacon's marker. -/
def PairPart.following (p : PairPart) (b : Beacon) (now : Nat) : PairPart :=
  if b.marker then { p with follow := some (b.boundary, now) } else p

theorem running_withPair (s : State) (p : PairPart) : running (s.withPair p) = running s := rfl

/-- A standby in sync takes a weak claim as a cause for takeover, and stays in sync. -/
theorem standbyBeacon_weak {s : State} {b : Beacon} {before : Nat} (hr : s.pair.role = .standby) (hs : s.pair.state = .synced)
    (hrun : running s = true) (hf : s.pair.finalSent = false) (hl : leavesSync before b.state = none)
    (hw : claimRole b.claim < 2 ∨ claimHealth b.claim < 32) :
    standbyBeacon s b before = s.withPair (s.pair.following b s.tb3).confirmed := by
  have hfollow : followState s before b.state = s := by
    unfold followState
    rw [if_neg (by simp [hs]), hl]
  have hkeep : (s.pair.following b s.tb3).role = .standby ∧ (s.pair.following b s.tb3).state = .synced ∧
      (s.pair.following b s.tb3).finalSent = false := by
    unfold PairPart.following
    split <;> exact ⟨hr, hs, hf⟩
  have hmark : (if b.marker then s.withPair { s.pair with follow := some (b.boundary, s.tb3) } else s) =
      s.withPair (s.pair.following b s.tb3) := by
    unfold PairPart.following
    split <;> rfl
  unfold standbyBeacon
  rw [hfollow]
  dsimp only
  rw [show (if b.marker = true then { s with pair := { s.pair with follow := some (b.boundary, s.tb3) } } else s) = _ from hmark]
  obtain ⟨kr, ks, kf⟩ := hkeep
  generalize s.pair.following b s.tb3 = p at kr ks kf ⊢
  have hcause : confirmCause (s.withPair p) = s.withPair p.confirmed := confirmCause_running kr ks hrun
  have hstay : (if (s.withPair p).pair.state = .linked then (s.withPair p).withPair { p with handover := b.handover } else s.withPair p) =
      s.withPair p := if_neg (by rw [show (s.withPair p).pair.state = .synced from ks]; decide)
  rw [show (if (s.withPair p).pair.state = .linked then { s.withPair p with pair := { (s.withPair p).pair with handover := b.handover } }
    else s.withPair p) = _ from hstay, if_pos, hcause]
  simp only [Bool.and_eq_true, Bool.or_eq_true, decide_eq_true_eq, Bool.not_eq_true']
  exact ⟨hw, kf⟩

/-- PAIR once no beacon comes any more. -/
def PairPart.silent (p : PairPart) : PairPart := { p with peerUp := false, peerState := 0, link0 := false, link1 := false, heard := none }

theorem beaconsAbsent_standby {s : State} (hu : s.pair.peerUp = true) (hr : s.pair.role = .standby) (hs : s.pair.state = .synced)
    (hrun : running s = true) : beaconsAbsent s = s.withPair s.pair.silent.confirmed := by
  have hcause : confirmCause (s.withPair s.pair.silent) = s.withPair s.pair.silent.confirmed := confirmCause_running hr hs hrun
  unfold beaconsAbsent
  exact (if_neg (by simp [hu])).trans ((if_pos hr).trans ((if_pos hs).trans hcause))

theorem beaconsAbsent_active {s : State} (hu : s.pair.peerUp = true) (hr : s.pair.role = .active) (hs : s.pair.state = .synced) :
    beaconsAbsent s = partnerLost (s.withPair s.pair.silent) .alone := by
  have hstandby : s.pair.silent.role ≠ .standby := by rw [show s.pair.silent.role = .active from hr]; decide
  have hgone : ¬ (decide (s.pair.silent.role = .none) || decide (s.pair.silent.state = .refused)) = true := by
    rw [show s.pair.silent.role = .active from hr, show s.pair.silent.state = .synced from hs]
    decide
  unfold beaconsAbsent
  exact (if_neg (by simp [hu])).trans ((if_neg hstandby).trans (if_neg hgone))

/-! ### Links -/

/-- PAIR with a link up or down. -/
def PairPart.setLink (p : PairPart) (k : Fin 2) (up : Bool) : PairPart := if k = 0 then { p with link0 := up } else { p with link1 := up }

theorem splUp_of_pair {t : State} {p : PairPart} {k : Fin 2} {up : Bool} (h : t.pair = p.setLink k up) : splUp t k = up := by
  unfold splUp
  rw [h]
  unfold PairPart.setLink
  split <;> rfl

theorem linkChange_up {s : State} {k : Fin 2} (hl : s.clk.linkStop = false) (hu : splUp s k = false) :
    linkChange s k true = (s.withPair (s.pair.setLink k true)).healthy (.port (.spl k)) := by
  unfold linkChange
  exact (if_neg (by decide)).trans (if_neg (by simp [hl, hu]))

/-- The machine with a single Sweetpea link down. -/
def splDropped (s : State) (k : Fin 2) : State := (raiseOpen (s.withPair (s.pair.setLink k false)) .pair 7).lose (.port (.spl k))

theorem splDropped_spec (s : State) (k : Fin 2) : SameBut [.pair, .place, .ucbs, .freeCount] s (splDropped s k) ∧
    (splDropped s k).pair = s.pair.setLink k false ∧ Resource.port (.spl k) ∈ (splDropped s k).place.lost ∧
      ∃ a, Reports s (splDropped s k) .pair 7 a := by
  have hr := raiseOpen_same (s.withPair (s.pair.setLink k false)) .pair 7
  have hrep : ∃ a, Reports s (raiseOpen (s.withPair (s.pair.setLink k false)) .pair 7) .pair 7 a :=
    (raiseOpen_reports (s.withPair (s.pair.setLink k false)) .pair 7).imp fun _ h => h
  unfold splDropped
  generalize raiseOpen (s.withPair (s.pair.setLink k false)) .pair 7 = w at hr hrep ⊢
  exact ⟨((withPair_same ..).mono (by decide)).trans ((hr.mono (by decide)).trans ((lose_same ..).mono (by decide))),
    hr.same .pair (by decide), mem_lost_lose .., hrep⟩

theorem splDown_dropped {s : State} {k : Fin 2} (hu : splUp s k = true) (hp : Resource.partner ∉ s.place.lost) :
    splDown s k = splDropped s k := by
  have hplace : (raiseOpen (s.withPair (s.pair.setLink k false)) .pair 7).place = s.place := (raiseOpen_same ..).same .place (by decide)
  unfold splDown
  refine (if_neg (by simp [hu])).trans (if_neg ?_)
  intro hm
  refine hp ?_
  rw [← hplace]
  exact hm

/-- A stream that no reference of CLK needs goes down with its link alone. -/
theorem linkChange_down {s : State} {k : Fin 2} (hu : splUp s k = true) (hp : Resource.partner ∉ s.place.lost)
    (hpref : clkPreferred s ≠ 5 + k) (href : s.clk.refInUse ≠ 5 + k) : linkChange s k false = splDropped s k := by
  have hs := (splDropped_spec s k).1
  have hclk : (splDropped s k).clk = s.clk := hs.same .clk (by decide)
  have hkeep : clkPreferred (splDropped s k) = clkPreferred s :=
    congrArg (fun w : W32 => field w 3 0) (reg_congr (hs.same .regs (by decide)) hclk .clk 0x104)
  unfold linkChange
  refine (if_pos (by decide)).trans ?_
  rw [splDown_dropped hu hp]
  unfold streamDown
  exact if_neg (by simp [hkeep, hclk, hpref, href])

/-- Settles O49: a beacon by the role and the pair state that it meets, a link by its change, a sync by its limit. -/
theorem pairFollowsTheBeacons : Obligations.PairFollowsTheBeacons := by
  unfold Obligations.PairFollowsTheBeacons
  intro s
  refine ⟨fun k b now => ⟨fun hu => congrArg Host.Outcome.next (if_neg (by simp [hu])), fun hu ha => ?_, fun hu hr hs hb hf => ?_,
      fun hu hr hs hrun hf hl hw => ?_⟩,
    fun hu => ⟨fun hr hs hrun => ⟨_, congrArg Host.Outcome.next (beaconsAbsent_standby hu hr hs hrun), rfl, rfl, rfl, rfl, rfl⟩,
      fun hr hs => ⟨_, congrArg Host.Outcome.next (beaconsAbsent_active hu hr hs), partnerLost_spec (s.withPair s.pair.silent) .alone⟩⟩,
    fun k hl => ⟨fun hu => ⟨_, congrArg Host.Outcome.next (linkChange_up hl hu), ?_⟩,
      fun hu hp hpref href => ⟨_, congrArg Host.Outcome.next (linkChange_down hu hp hpref href), ?_⟩⟩,
    fun hs => ⟨_, congrArg Host.Outcome.next (if_pos hs), ?_⟩⟩
  · have h : beacon s b now = (beaconShown s b now).withPair { s.pair.shown b with state := .handshake, resyncDue := true } := by
      rw [beacon_eq, if_neg (by simp [ha])]
      unfold activeBeacon
      rw [show (beaconShown s b now).pair.state = .alone from ha]
      rfl
    exact ⟨_, congrArg Host.Outcome.next ((if_pos hu).trans h), rfl, rfl⟩
  · have h : beacon s b now = partnerLost (beaconShown s b now) .handshake := by
      rw [beacon_eq, if_neg (by simp [hr])]
      unfold activeBeacon
      rw [show (beaconShown s b now).pair.state = .synced from hs]
      exact if_neg (by rw [show (beaconShown s b now).pair.finalSent = false from hf]; simp [hb])
    obtain ⟨hstate, -, -, hlost, hrep⟩ := partnerLost_spec (beaconShown s b now) .handshake
    exact ⟨_, congrArg Host.Outcome.next ((if_pos hu).trans h), hstate, hlost,
      hrep.of_before (by rw [(beaconShown_same s b now).eq_withParts]; rfl) (.of_ucb rfl)⟩
  · have h : beacon s b now = (beaconShown s b now).withPair ((s.pair.shown b).following b (s.at_ now).tb3).confirmed := by
      rw [beacon_eq, if_pos (by simp [hr, hs])]
      exact standbyBeacon_weak (s := beaconShown s b now) hr hs hrun hf hl (weakClaim hw)
    refine ⟨_, congrArg Host.Outcome.next ((if_pos hu).trans h), rfl, rfl, ?_⟩
    refine Eq.trans (b := ((s.pair.shown b).following b (s.at_ now).tb3).state) rfl ?_
    unfold PairPart.following
    split <;> exact hs
  · have hh := healthy_same (s.withPair (s.pair.setLink k true)) (.port (.spl k))
    have hs : SameBut [.pair, .place] s _ := ((withPair_same ..).mono (by decide)).trans (hh.mono (by decide))
    exact ⟨hs.eq_withParts, splUp_of_pair (hh.same .pair (by decide))⟩
  · obtain ⟨hs, hpair, hlost, hrep⟩ := splDropped_spec s k
    exact ⟨hs.eq_withParts, splUp_of_pair hpair, hlost, hrep⟩
  · have hr := raiseOpen_same s .pair 9
    have hrep := raiseOpen_reports s .pair 9
    have hp : (raiseOpen s .pair 9).pair = s.pair := hr.same .pair (by decide)
    generalize raiseOpen s .pair 9 = w at hr hrep hp ⊢
    refine ⟨?_, by rw [hp], hrep.imp fun _ h => h⟩
    have hs : SameBut [.pair, .ucbs, .freeCount] s (w.withPair { w.pair with resyncDue := true, copied := false }) :=
      (hr.mono (by decide)).trans ((withPair_same ..).mono (by decide))
    exact hs.eq_withParts

end Sys2Proof.Machine
end

section
/-! The standby's copy, its misses, the hand-back and the stations (R260, R262, R265, R267, R270). -/

namespace Sys2Proof.Machine

open Sys2Proof

/-! ### The parts of a copy -/

theorem copyUnits_regs {s : State} {c : StateCopy} (hu : c.units = []) (hc : c.composites = []) :
    SameBut [.regs] s (copyUnits s c) := by
  unfold copyUnits
  rw [hu, hc]
  refine ⟨fun p hp => ?_⟩
  cases p <;> first | rfl | simp at hp

theorem copyTime_same (s : State) (c : StateCopy) : SameBut [.time] s (copyTime s c) := by
  refine ⟨fun p hp => ?_⟩
  cases p <;> first | rfl | simp at hp

theorem copyRecords_same {s : State} {c : StateCopy} (h : c.changes = []) : SameBut [.upd] s (copyRecords s c) := by
  unfold copyRecords
  rw [h]
  cases c.profile
  · exact SameBut.refl _ s
  · refine ⟨fun p hp => ?_⟩
    cases p <;> first | rfl | simp at hp

theorem copyRebalance_same (s : State) (c : StateCopy) : SameBut [.place] s (copyRebalance s c) := by
  unfold copyRebalance
  split
  · exact SameBut.refl _ s
  all_goals
    refine ⟨fun p hp => ?_⟩
    cases p <;> first | rfl | simp at hp

theorem mapLanes_same (s : State) (f : Lane → LaneSt → LaneSt) : SameBut [.laneA, .laneB, .laneC] s (s.mapLanes f) := by
  refine ⟨fun p hp => ?_⟩
  cases p <;> first | rfl | simp at hp

theorem lane_mapLanes (s : State) (f : Lane → LaneSt → LaneSt) (l : Lane) : (s.mapLanes f).lane l = f l (s.lane l) := by
  cases l <;> rfl

theorem setInBuf_mem (x : LaneSt) (i : Nat) (b : InBuf) : (x.setInBuf i b).mem = x.mem := by
  unfold LaneSt.setInBuf
  split <;> rfl

theorem copyInput_same (s : State) (c : StateCopy) : SameBut [.laneA, .laneB, .laneC] s (copyInput s c) := mapLanes_same ..

theorem mem_copyInput (s : State) (c : StateCopy) (l : Lane) : ((copyInput s c).lane l).mem = (s.lane l).mem := by
  unfold copyInput
  rw [lane_mapLanes]
  exact setInBuf_mem ..

theorem mem_copyPages (s : State) (c : StateCopy) (l : Lane) : ((copyPages s c).lane l).mem = putBytes (s.lane l).mem 0 c.lanePages := by
  cases l <;> rfl

/-- The data of a copy: the pages, settings, time, records, input and the request of a rebalance. -/
def copyData (s : State) (c : StateCopy) : State :=
  copyRebalance (copyInput (copyRecords (copyTime (copyUnits (copyPages s c) c) c) c) c) c

/-- The retentive writes of a copy. -/
def copyRetentive (s : State) (c : StateCopy) : State :=
  if c.retentive.isEmpty then s
  else
    let g := inactiveGen s
    let s := s.setInactiveGen { g with bytes := putBytes g.bytes 0 c.retentive }
    { s with prog := { s.prog with retDone := true } }

theorem copyRetentive_same (s : State) (c : StateCopy) : SameBut [.prog] s (copyRetentive s c) := by
  unfold copyRetentive State.setInactiveGen
  refine SameBut.ite (SameBut.refl _ s) ⟨fun p hp => ?_⟩
  by_cases h : s.prog.retValid = some false
  · simp only [h, if_true]
    cases p <;> first | rfl | simp at hp
  · simp only [h, if_false]
    cases p <;> first | rfl | simp at hp

/-- What a copy without changes and unit states brings into the lanes and the bulk store, and what it leaves. -/
theorem copyData_spec {s : State} {c : StateCopy} (hch : c.changes = []) (hu : c.units = []) (hc : c.composites = []) :
    (copyData s c).bulk = putBytes s.bulk 0 c.bulkPages ∧ (∀ l, ((copyData s c).lane l).mem = putBytes (s.lane l).mem 0 c.lanePages) ∧
      (copyData s c).voter = s.voter ∧ (copyData s c).pair = s.pair ∧ (copyData s c).tick = s.tick ∧ (copyData s c).safe = s.safe := by
  let r := copyRecords (copyTime (copyUnits (copyPages s c) c) c) c
  have h1 : SameBut [.regs, .time, .upd] (copyPages s c) r :=
    ((copyUnits_regs hu hc).mono (by decide)).trans (((copyTime_same ..).mono (by decide)).trans ((copyRecords_same hch).mono (by decide)))
  have h2 : SameBut [.laneA, .laneB, .laneC, .place] r (copyData s c) :=
    ((copyInput_same r c).mono (by decide)).trans ((copyRebalance_same ..).mono (by decide))
  have h3 : SameBut [.laneA, .laneB, .laneC, .bulk] s (copyPages s c) := by
    refine ⟨fun p hp => ?_⟩
    cases p <;> first | rfl | simp at hp
  refine ⟨(h2.same .bulk (by decide)).trans (h1.same .bulk (by decide)), fun l => ?_,
    (h2.same .voter (by decide)).trans ((h1.same .voter (by decide)).trans (h3.same .voter (by decide))),
    (h2.same .pair (by decide)).trans ((h1.same .pair (by decide)).trans (h3.same .pair (by decide))),
    (h2.same .tick (by decide)).trans ((h1.same .tick (by decide)).trans (h3.same .tick (by decide))),
    (h2.same .safe (by decide)).trans ((h1.same .safe (by decide)).trans (h3.same .safe (by decide)))⟩
  calc ((copyData s c).lane l).mem
      = ((copyInput r c).lane l).mem := by rw [copyData, (copyRebalance_same ..).lane (by decide) (by decide) (by decide)]
    _ = (r.lane l).mem := mem_copyInput r c l
    _ = ((copyPages s c).lane l).mem := by rw [h1.lane (by decide) (by decide) (by decide)]
    _ = putBytes (s.lane l).mem 0 c.lanePages := mem_copyPages s c l

/-- The numbers, outputs, losses and pair state of a copy, over its data. -/
theorem applyCopy_spec {s : State} {c : StateCopy} (hch : c.changes = []) (hu : c.units = []) (hc : c.composites = []) :
    (applyCopy s c).bulk = putBytes s.bulk 0 c.bulkPages ∧ (∀ l, ((applyCopy s c).lane l).mem = putBytes (s.lane l).mem 0 c.lanePages) ∧
      (applyCopy s c).voter.csn = c.mark ∧ (applyCopy s c).voter.mark = s.voter.mark ∧ (applyCopy s c).voter.gen = c.gen ∧
      (applyCopy s c).pair.applied = c.tick ∧ (applyCopy s c).pair.missing = 0 ∧
      (applyCopy s c).pair.copied = (s.pair.copied || c.full) ∧ (applyCopy s c).place.copyLost = lossesOf c.loss c.lossCard ∧
      (applyCopy s c).pair.handover = c.handover := by
  obtain ⟨hbulk, hmem, hv, hp, -, -⟩ := copyData_spec (s := s) hch hu hc
  have hr := copyRetentive_same (copyData s c) c
  refine ⟨(hr.same .bulk (by decide)).trans hbulk, fun l => ?_, rfl, ?_, rfl, rfl, rfl, ?_, rfl, rfl⟩
  · rw [← hmem l, ← hr.lane (by decide) (by decide) (by decide) l]
    cases l <;> rfl
  · have h := congrArg VoterState.mark ((hr.same .voter (by decide)).trans hv)
    exact h
  · have h := congrArg (fun p : PairPart => p.copied || c.full) ((hr.same .pair (by decide)).trans hp)
    exact h

/-! ### A copy that arrives -/

theorem confirmCause_cases (s : State) : confirmCause s = s ∨ confirmCause s = s.withPair s.pair.confirmed := by
  unfold confirmCause
  split
  · exact .inr rfl
  · exact .inl rfl

/-- A claim that an active module with a running controller sends. -/
theorem strongClaim {c : W16} (hr : c.toNat / 2 ^ 14 ≥ 2) (hh : c.toNat / 2 ^ 8 % 64 ≥ 32) : ¬ (claimRole c < 2 ∨ claimHealth c < 32) := by
  have hlt : c.toNat / 2 ^ 14 < 4 := by omega
  have hrole : claimRole c = c.toNat / 2 ^ 14 := Nat.mod_eq_of_lt hlt
  have hhealth : claimHealth c = c.toNat / 2 ^ 8 % 64 := rfl
  omega

section
variable {s : State} (hr : s.pair.role = .standby)

include hr

theorem stateCopy_good {c : StateCopy} (hs : s.pair.state = .syncing ∨ s.pair.state = .synced) : stateCopy s c true =
    if (claimRole c.claim < 2 || claimHealth c.claim < 32) && !c.final then confirmCause (applyCopy s c) else applyCopy s c := by
  unfold stateCopy
  rw [if_neg (by rcases hs with h | h <;> simp [hr, h]), if_neg (by decide)]

theorem stateCopy_bad {c : StateCopy} (hs : s.pair.state = .synced) : stateCopy s c false = copyMissing s := by
  unfold stateCopy
  rw [if_neg (by simp [hr, hs]), if_pos (by decide)]

/-- PAIR with one copy more missed. -/
def PairPart.missed (p : PairPart) : PairPart := { p with missing := min 2 (p.missing + 1), missCount := min 0xFF (p.missCount + 1) }

/-- The machine with a missing copy reported and counted. -/
def copyMissed (s : State) : State := (raiseOpen s .pair 2).withPair (raiseOpen s .pair 2).pair.missed

theorem copyMissing_eq (hs : s.pair.state = .synced) :
    copyMissing s = if 2 ≤ (copyMissed s).pair.missing then confirmCause (copyMissed s) else copyMissed s := by
  unfold copyMissing
  refine (if_neg (by simp [hr, hs])).trans ?_
  simp only [satUp_eq_min]
  rfl

/-- A miss is counted and reported; the second in a row is a cause for takeover. -/
theorem copyMissing_spec (hs : s.pair.state = .synced) : SameBut [.pair, .ucbs, .freeCount] s (copyMissing s) ∧
    (copyMissing s).pair.missing = min 2 (s.pair.missing + 1) ∧ (copyMissing s).pair.missCount = min 0xFF (s.pair.missCount + 1) ∧
    (∃ a, Reports s (copyMissing s) .pair 2 a) ∧ (1 ≤ s.pair.missing → running s = true → (copyMissing s).pair.takeover = true) ∧
    (s.pair.missing = 0 → (copyMissing s).pair.takeover = s.pair.takeover) := by
  have ho := raiseOpen_same s .pair 2
  have hrep : ∃ a, Reports s (copyMissed s) .pair 2 a := (raiseOpen_reports s .pair 2).imp fun _ h => h
  have hsame : SameBut [.pair, .ucbs, .freeCount] s (copyMissed s) := (ho.mono (by decide)).trans ((withPair_same ..).mono (by decide))
  have hp : (copyMissed s).pair = s.pair.missed := congrArg PairPart.missed (ho.same .pair (by decide))
  have hrun : running (copyMissed s) = running s := by
    unfold running
    rw [hsame.same .tick (by decide), hsame.same .safe (by decide)]
  rw [copyMissing_eq hr hs]
  generalize copyMissed s = w at hrep hsame hp hrun ⊢
  have hmiss : w.pair.missing = min 2 (s.pair.missing + 1) := congrArg PairPart.missing hp
  have htake : w.pair.takeover = s.pair.takeover := (congrArg PairPart.takeover hp :)
  have hcount : w.pair.missCount = min 0xFF (s.pair.missCount + 1) := congrArg PairPart.missCount hp
  by_cases h2 : 2 ≤ w.pair.missing
  · rw [if_pos h2]
    refine ⟨?_, ?_, ?_, ?_, fun _ h => ?_, fun h0 => absurd h2 (by omega)⟩
    · rcases confirmCause_cases w with h | h <;> rw [h]
      · exact hsame
      · exact hsame.trans ((withPair_same ..).mono (by decide))
    · rcases confirmCause_cases w with h | h <;> rw [h] <;> exact hmiss
    · rcases confirmCause_cases w with h | h <;> rw [h] <;> exact hcount
    · rcases confirmCause_cases w with h | h <;> rw [h] <;> exact hrep
    · rw [confirmCause_running ((congrArg PairPart.role hp).trans hr) ((congrArg PairPart.state hp).trans hs) (hrun.trans h)]
      rfl
  · rw [if_neg h2]
    exact ⟨hsame, hmiss, hcount, hrep, fun h1 => absurd h2 (by omega), fun _ => htake⟩

end

/-! ### Stations -/

section
variable {s : State} {i : Nat} {d : StationDecl}

theorem stationLost_main (hm : s.voter.mode ≠ .split) (hd : stationOf (mainProg s) i = some d) : stationLost s i = loseStation s i := by
  have hf : progsInForce s = [0] := if_neg hm
  have hk : stationKey 0 i = i := by simp [stationKey]
  unfold stationLost
  rw [hf]
  refine (if_pos ?_ : _ = loseStation s (stationKey 0 i)).trans (by rw [hk])
  rw [show progOf s 0 = mainProg s from rfl, hd]
  rfl

theorem loseStation_absent (h : (s.station i).present = false) : loseStation s i = s := by
  unfold loseStation
  exact if_pos (by simp [h])

/-- A present station of the main program is lost, and reported where its unit is. -/
theorem loseStation_present {u : UnitId} (hi : i < 4096) (hd : stationOf (mainProg s) i = some d) (hu : stationUnit s 0 d = some u)
    (h : (s.station i).present = true) :
    ∃ x : StationSt, x.present = false ∧ loseStation s i = raise (s.setStation i x) .pair 0xA (baseOf u) := by
  let x : StationSt := { s.station i with
    present := false, waitFresh := false, fresh := false, missed := 0, undelivered := (s.station i).undelivered || inBoundary s }
  have hunit : (stationOf (progOf (s.setStation i x) (i / 4096)) (i % 4096)).bind (stationUnit (s.setStation i x) (i / 4096)) = some u := by
    rw [Nat.div_eq_of_lt hi, Nat.mod_eq_of_lt hi]
    exact (congrArg (·.bind (stationUnit s 0)) hd).trans hu
  refine ⟨x, rfl, ?_⟩
  unfold loseStation
  rw [if_neg (by simp [h])]
  dsimp only
  rw [hunit]

theorem station_setStation (s : State) (k : Nat) (x : StationSt) : (s.setStation k x).station k = x := mapGetD_put_same ..

end

/-- Settles O50: a copy by its trailer, its acknowledgement, the count of the hand-back and the loss of a station. -/
theorem standbyTakesTheCopy : Obligations.StandbyTakesTheCopy := by
  unfold Obligations.StandbyTakesTheCopy
  intro s
  refine ⟨fun hr => ⟨fun c hs hch hu hc => ⟨_, rfl, ?_⟩, fun hs i hi => ⟨copyMissing s, ?_, ?_⟩,
      fun hh hd => congrArg Host.Outcome.next (if_pos (by simp [hh, hd]))⟩,
    fun c hc => ?_, fun idx d u hm hd hu hp => ?_⟩
  · obtain ⟨hbulk, hmem, hcsn, hmark, hgen, happ, hmiss, hcop, hlost, hhand⟩ := applyCopy_spec (s := s) hch hu hc
    rw [show stateCopy s c true = _ from stateCopy_good hr hs]
    generalize applyCopy s c = w at *
    by_cases hw : ((claimRole c.claim < 2 || claimHealth c.claim < 32) && !c.final) = true
    · rw [if_pos hw]
      simp only [Bool.and_eq_true, Bool.or_eq_true, decide_eq_true_eq] at hw
      have hno : c.claim.toNat / 2 ^ 14 ≥ 2 → ¬ c.claim.toNat / 2 ^ 8 % 64 ≥ 32 := fun h1 h2 => strongClaim h1 h2 hw.1
      rcases confirmCause_cases w with h | h <;> rw [h]
      · exact ⟨hbulk, hmem, hcsn, hmark, hgen, happ, hmiss, hcop, hlost, fun _ h1 h2 => absurd h2 (hno h1)⟩
      · exact ⟨hbulk, hmem, hcsn, hmark, hgen, happ, hmiss, hcop, hlost, fun _ h1 h2 => absurd h2 (hno h1)⟩
    · rw [if_neg hw]
      exact ⟨hbulk, hmem, hcsn, hmark, hgen, happ, hmiss, hcop, hlost, fun _ _ _ => hhand⟩
  · rcases hi with rfl | ⟨c, rfl⟩
    · rfl
    · exact congrArg Host.Outcome.next (stateCopy_bad hr hs)
  · obtain ⟨hsame, hrest⟩ := copyMissing_spec hr hs
    exact ⟨hsame.eq_withParts, hrest⟩
  · refine ⟨_, congrArg Host.Outcome.next (?_ : copyAcked s { tick := c.tick } = s.withPair { s.pair with
      sent := none, dirtyOld := [], applied := c.tick, coalescing := false, coalesced := 0,
      usLast := min 0xFFFF ((s.tb3 - c.started) / 1000), usMax := max s.pair.usMax (min 0xFFFF ((s.tb3 - c.started) / 1000)) }),
      rfl, rfl, rfl, rfl⟩
    simp only [copyAcked, hc]
    exact if_neg (by simp)
  · obtain ⟨x, hx, heq⟩ := loseStation_present idx.isLt hd hu hp
    have hr := raise_same (s.setStation idx.toNat x) .pair 0xA (baseOf u)
    have hrep : Reports s (raise (s.setStation idx.toNat x) .pair 0xA (baseOf u)) .pair 0xA (baseOf u) :=
      raise_reports (s.setStation idx.toNat x) .pair 0xA (baseOf u)
    have hset : SameBut [.pair, .ucbs] s (raise (s.setStation idx.toNat x) .pair 0xA (baseOf u)) :=
      ((withPair_same s _).mono (by decide)).trans (hr.mono (by decide))
    have hstation : (raise (s.setStation idx.toNat x) .pair 0xA (baseOf u)).station idx.toNat = x := by
      unfold State.station
      rw [hr.same .pair (by decide)]
      exact station_setStation ..
    refine ⟨_, congrArg Host.Outcome.next ((stationLost_main hm hd).trans heq), ?_⟩
    generalize raise (s.setStation idx.toNat x) .pair 0xA (baseOf u) = w at hrep hset hstation ⊢
    have hprog : mainProg w = mainProg s := by
      unfold mainProg
      rw [hset.same .prog (by decide)]
    refine ⟨hset.eq_withParts, by rw [hstation]; exact hx, hrep, congrArg Host.Outcome.next ?_⟩
    exact (stationLost_main (by rw [hset.same .voter (by decide)]; exact hm) (by rw [hprog]; exact hd)).trans
      (loseStation_absent (by rw [hstation]; exact hx))

end Sys2Proof.Machine
end

section
/-! The vote in TRIPLE (R217 to R223, Table VOTE-2). -/

namespace Sys2Proof.Machine

open Sys2Proof

/-! ### Records that agree -/

theorem sameRecord_iff (x y : EffectRec) : sameRecord x y = true ↔ x.kind = y.kind ∧ x.size = y.size ∧ x.last = y.last ∧
    x.safety = y.safety ∧ x.tag = y.tag ∧ x.addr = y.addr ∧ x.beats = y.beats := by
  simp only [sameRecord, Bool.and_eq_true, decide_eq_true_eq, and_assoc]

theorem sameRecord_symm {x y : EffectRec} (h : sameRecord x y = true) : sameRecord y x = true := by
  obtain ⟨h1, h2, h3, h4, h5, h6, h7⟩ := (sameRecord_iff x y).1 h
  exact (sameRecord_iff y x).2 ⟨h1.symm, h2.symm, h3.symm, h4.symm, h5.symm, h6.symm, h7.symm⟩

theorem sameRecord_trans {x y z : EffectRec} (h : sameRecord x y = true) (g : sameRecord y z = true) : sameRecord x z = true := by
  obtain ⟨h1, h2, h3, h4, h5, h6, h7⟩ := (sameRecord_iff x y).1 h
  obtain ⟨g1, g2, g3, g4, g5, g6, g7⟩ := (sameRecord_iff y z).1 g
  exact (sameRecord_iff x z).2 ⟨h1.trans g1, h2.trans g2, h3.trans g3, h4.trans g4, h5.trans g5, h6.trans g6, h7.trans g7⟩

theorem sameRecord_refl (x : EffectRec) : sameRecord x x = true := (sameRecord_iff x x).2 ⟨rfl, rfl, rfl, rfl, rfl, rfl, rfl⟩

theorem sameRecord_bytes {x y : EffectRec} (h : sameRecord x y = true) : x.bytes = y.bytes := by
  obtain ⟨-, hs, -, -, -, -, hb⟩ := (sameRecord_iff x y).1 h
  unfold EffectRec.bytes
  rw [hs, hb]

/-! ### A lane with nothing that waits for room -/

/-- A lane without records or contexts that wait for room in its queue. -/
def LaneSt.settled (x : LaneSt) : Prop := x.spill = [] ∧ ∀ k, (x.ctx k).wait ≠ .emit

theorem setLane_self (s : State) (l : Lane) : s.setLane l (s.lane l) = s := by
  cases l <;> rfl

theorem refillQueue_settled {s : State} {l : Lane} (h : (s.lane l).settled) : refillQueue s l = s := by
  obtain ⟨hs, hw⟩ := h
  have hlane : ({ s.lane l with queue := (s.lane l).queue ++ [], spill := [] } : LaneSt) = s.lane l := by
    rw [List.append_nil, ← hs]
  unfold refillQueue
  simp only [hs, List.take_nil, List.map_nil, List.drop_nil, hlane, setLane_self, List.isEmpty_nil, Bool.not_true, Bool.false_eq_true,
    if_false, List.foldl_cons, List.foldl_nil, ne_eq, hw, not_false_eq_true, if_true]

theorem foldl_refillQueue {s : State} (h : ∀ l, (s.lane l).settled) (ls : List Lane) : ls.foldl refillQueue s = s := by
  induction ls with
  | nil => rfl
  | cons l ls ih => rw [List.foldl_cons, refillQueue_settled (h l), ih]

/-! ### A record that passes -/

/-- The lane's first record has left its queue. -/
def LaneSt.popped (x : LaneSt) : LaneSt := { x with queue := x.queue.drop 1 }

def popLanes (s : State) (ls : List Lane) : State := ls.foldl (fun s l => s.setLane l { s.lane l with queue := (s.lane l).queue.drop 1 }) s

theorem popLanes_same (s : State) (ls : List Lane) : SameBut [.laneA, .laneB, .laneC] s (popLanes s ls) :=
  SameBut.foldl (fun _ _ => setLane_same ..) ls s

theorem lane_popLanes {ls : List Lane} (hn : ls.Nodup) (s : State) (l : Lane) :
    (popLanes s ls).lane l = if l ∈ ls then (s.lane l).popped else s.lane l := by
  induction ls generalizing s with
  | nil => rfl
  | cons m ls ih =>
    obtain ⟨hm, hn⟩ := List.nodup_cons.1 hn
    refine (ih hn (s.setLane m (s.lane m).popped)).trans ?_
    by_cases hlm : l = m
    · subst hlm
      rw [State.lane_setLane, if_neg hm, if_pos (List.mem_cons_self ..)]
    · rw [State.lane_setLane_ne s hlm]
      simp [hlm]

theorem settled_popped {x : LaneSt} (h : x.settled) : x.popped.settled :=
  ⟨h.1, fun k => by
    have := h.2 k
    cases k <;> exact this⟩

/-- The effect of a bulk-store write or vote event of the main program. -/
theorem passEffect_spec {s : State} (hm : s.voter.mode ≠ .split) (ls : List Lane) {r : EffectRec} (hk : r.kind = 0 ∨ r.kind = 5) :
    SameBut [.voter, .bulk, .pair] s (passEffect s ls r) ∧ (passEffect s ls r).voter = { s.voter with csn := s.voter.csn + 1 } ∧
      (passEffect s ls r).bulk = if r.kind = 0 then Memory.writeBytes s.bulk (bulkKey 0 r.addr) r.bytes else s.bulk := by
  have hp (l : Lane) : progNo { s with voter := { s.voter with csn := s.voter.csn + 1 } } l = 0 := if_neg hm
  unfold passEffect
  rcases hk with hk | hk
  · rw [hk]
    dsimp only
    rw [hp]
    refine ⟨⟨fun p h => ?_⟩, rfl, rfl⟩
    cases p <;> first | rfl | simp at h
  · rw [hk]
    refine ⟨⟨fun p h => ?_⟩, rfl, rfl⟩
    cases p <;> first | rfl | simp at h

/-- What a record of the main program leaves that passes for some lanes: numbers, the bulk store and the lanes' queues. -/
theorem passFor_spec {s : State} (hm : s.voter.mode ≠ .split) (hset : ∀ l, (s.lane l).settled) {ls : List Lane} (hn : ls.Nodup)
    {r : EffectRec} (hk : r.kind = 0 ∨ r.kind = 5) :
    (passFor s ls r).voter.csn = s.voter.csn + 1 ∧ (passFor s ls r).voter.pos = s.voter.pos + 1 ∧
      (passFor s ls r).voter.halted = s.voter.halted ∧ (passFor s ls r).voter.fenced = s.voter.fenced ∧
      (passFor s ls r).bulk = (if r.kind = 0 then Memory.writeBytes s.bulk (bulkKey 0 r.addr) r.bytes else s.bulk) ∧
      (∀ l, (passFor s ls r).lane l = if l ∈ ls then (s.lane l).popped else s.lane l) ∧ (passFor s ls r).ucbs = s.ucbs := by
  have hpop := popLanes_same (noteQueues s) ls
  have hlane := lane_popLanes hn (noteQueues s)
  have hpass : passFor s ls r = ls.foldl refillQueue (passEffect
      { popLanes (noteQueues s) ls with voter := { (popLanes (noteQueues s) ls).voter with pos := (popLanes (noteQueues s) ls).voter.pos + 1 } }
      ls r) := rfl
  rw [hpass]
  have hv : (popLanes (noteQueues s) ls).voter = (noteQueues s).voter := hpop.same .voter (by decide)
  have hb : (popLanes (noteQueues s) ls).bulk = s.bulk := hpop.same .bulk (by decide)
  have hc : (popLanes (noteQueues s) ls).ucbs = s.ucbs := hpop.same .ucbs (by decide)
  generalize popLanes (noteQueues s) ls = w at hpop hlane hv hb hc ⊢
  have hmw : ({ w with voter := { w.voter with pos := w.voter.pos + 1 } } : State).voter.mode ≠ .split := by
    rw [hv]
    exact hm
  obtain ⟨he, hev, heb⟩ := passEffect_spec hmw ls hk
  have hel (l : Lane) : (passEffect { w with voter := { w.voter with pos := w.voter.pos + 1 } } ls r).lane l =
      if l ∈ ls then (s.lane l).popped else s.lane l :=
    (he.lane (by decide) (by decide) (by decide) l).trans ((show _ = w.lane l by cases l <;> rfl).trans
      ((hlane l).trans (by rw [show (noteQueues s).lane l = s.lane l by cases l <;> rfl])))
  have hec := he.same .ucbs (by decide)
  generalize passEffect { w with voter := { w.voter with pos := w.voter.pos + 1 } } ls r = v at he hev heb hel hec ⊢
  have hsettled (l : Lane) : (v.lane l).settled := by
    rw [hel]
    split
    · exact settled_popped (hset l)
    · exact hset l
  rw [foldl_refillQueue hsettled, hev, heb]
  dsimp only
  rw [hv, hb]
  exact ⟨rfl, rfl, rfl, rfl, rfl, hel, hec.trans hc⟩

/-! ### A lane against the others -/

/-- The lane as a disagreement counts it and fences it. -/
def LaneSt.against (x : LaneSt) : LaneSt := stopLane { x with dis := min 0xFFFF (x.dis + 1) }

theorem settled_against (x : LaneSt) : x.settled → x.against.settled := fun h =>
  ⟨rfl, fun k => by
    have := h.2 k
    cases k <;> exact this⟩

theorem fenceLane_first {s : State} {l : Lane} (hm : s.voter.mode = .triple) (hr : (s.lane l).role = .voting) (hf : s.voter.fenced = [])
    (hd : s.voter.latentDue = []) : fenceLane s l = { (noteQueues s).setLane l (stopLane (s.lane l)) with
      voter := { ((noteQueues s).setLane l (stopLane (s.lane l))).voter with
        fenced := ((noteQueues s).setLane l (stopLane (s.lane l))).voter.fenced ++ [l],
        replay := ((noteQueues s).setLane l (stopLane (s.lane l))).voter.replay.map fun r => { r with left := r.left.filter (· ≠ l) } } } := by
  unfold fenceLane
  rw [if_neg (by simp [hr]), if_neg (by simp [hm, hf, hd])]

theorem fenceLane_first_spec {s : State} {l : Lane} (hm : s.voter.mode = .triple) (hr : (s.lane l).role = .voting)
    (hf : s.voter.fenced = []) (hd : s.voter.latentDue = []) : (fenceLane s l).voter.csn = s.voter.csn ∧
      (fenceLane s l).voter.pos = s.voter.pos ∧ (fenceLane s l).voter.halted = s.voter.halted ∧
      (fenceLane s l).voter.mode = .triple ∧ (fenceLane s l).voter.fenced = [l] ∧ (fenceLane s l).bulk = s.bulk ∧
      (fenceLane s l).lane l = stopLane (s.lane l) ∧ (∀ m, m ≠ l → (fenceLane s l).lane m = s.lane m) ∧
      (fenceLane s l).ucbs = s.ucbs := by
  have hv : ((noteQueues s).setLane l (stopLane (s.lane l))).voter = (noteQueues s).voter := by cases l <;> rfl
  have hfn : (noteQueues s).voter.fenced = [] := hf
  have hmn : (noteQueues s).voter.mode = .triple := hm
  have hl := State.lane_setLane (noteQueues s) l (stopLane (s.lane l))
  have ho (m : Lane) (h : m ≠ l) : ((noteQueues s).setLane l (stopLane (s.lane l))).lane m = s.lane m :=
    (State.lane_setLane_ne (noteQueues s) h _).trans (by cases m <;> rfl)
  rw [fenceLane_first hm hr hf hd, hv, hfn]
  refine ⟨rfl, rfl, rfl, hmn, rfl, by cases l <;> rfl, ?_, fun m h => ?_, by cases l <;> rfl⟩
  · rw [← hl]
    cases l <;> rfl
  · rw [← ho m h]
    cases m <;> rfl

/-- The first lane that stands against the others in TRIPLE is counted, fenced and reported; the others go on. -/
theorem laneAgainst_spec {s : State} {l : Lane} (hm : s.voter.mode = .triple) (hr : (s.lane l).role = .voting) (hf : s.voter.fenced = [])
    (hd : s.voter.latentDue = []) (kind how : Nat) (r : EffectRec) :
    (laneAgainst s l kind how r).voter.csn = s.voter.csn ∧ (laneAgainst s l kind how r).voter.pos = s.voter.pos ∧
      (laneAgainst s l kind how r).voter.halted = s.voter.halted ∧ (laneAgainst s l kind how r).voter.mode = .triple ∧
      (laneAgainst s l kind how r).voter.fenced = [l] ∧ (laneAgainst s l kind how r).bulk = s.bulk ∧
      (laneAgainst s l kind how r).lane l = (s.lane l).against ∧ (∀ m, m ≠ l → (laneAgainst s l kind how r).lane m = s.lane m) ∧
      Reports s (laneAgainst s l kind how r) (.lane l) kind r.addr := by
  let d := noteDis s (some l) how r.kind r.addr
  have hdl (m : Lane) : d.lane m = s.lane m := by cases m <;> rfl
  have hcv : (countDis d l).voter = d.voter := by cases l <;> rfl
  have hcb : (countDis d l).bulk = s.bulk := by cases l <;> rfl
  have hcl : (countDis d l).lane l = { s.lane l with dis := min 0xFFFF ((s.lane l).dis + 1) } := by
    unfold countDis
    rw [State.lane_setLane, hdl, satUp_eq_min]
  have hco (m : Lane) (h : m ≠ l) : (countDis d l).lane m = s.lane m := (State.lane_setLane_ne d h _).trans (hdl m)
  have hmask : masked (countDis d l) (.lane l) = masked s (.lane l) := by cases l <;> rfl
  have hmail : SameMail s (countDis d l) (.lane l) := .of_ucb (by cases l <;> rfl)
  have hraise := raise_same (countDis d l) (.lane l) kind (r.addr % 2 ^ 32)
  have hrep : Reports s (raise (countDis d l) (.lane l) kind (r.addr % 2 ^ 32)) (.lane l) kind (r.addr % 2 ^ 32) :=
    (raise_reports (countDis d l) (.lane l) kind (r.addr % 2 ^ 32)).of_before hmask hmail
  have hagainst : laneAgainst s l kind how r = fenceOrSafe (raise (countDis d l) (.lane l) kind (r.addr % 2 ^ 32)) l
      ⟨handleOf (.lane l), kind, (kindOf (.lane l) kind).1, 1⟩ := rfl
  rw [hagainst]
  have hlane (m : Lane) := hraise.lane (by decide) (by decide) (by decide) m
  have hv := (hraise.same .voter (by decide)).trans hcv
  have hb := (hraise.same .bulk (by decide)).trans hcb
  generalize raise (countDis d l) (.lane l) kind (r.addr % 2 ^ 32) = w at hrep hlane hv hb ⊢
  have hwm : w.voter.mode = .triple := by rw [hv]; exact hm
  have hwr : (w.lane l).role = .voting := by rw [hlane, hcl]; exact hr
  have hwf : w.voter.fenced = [] := by rw [hv]; exact hf
  have hwd : w.voter.latentDue = [] := by rw [hv]; exact hd
  rw [show fenceOrSafe w l _ = fenceLane w l from if_neg (by rw [hwm]; decide)]
  obtain ⟨h1, h2, h3, h4, h5, h6, h7, h8, h9⟩ := fenceLane_first_spec hwm hwr hwf hwd
  refine ⟨by rw [h1, hv]; rfl, by rw [h2, hv]; rfl, by rw [h3, hv]; rfl, h4, h5, h6.trans hb, by rw [h7, hlane, hcl]; rfl,
    fun m h => by rw [h8 m h, hlane, hco m h], ?_⟩
  have hfinal := hrep.of_ucb (ucb_of_ucbs h9 (.lane l))
  unfold Reports at hfinal ⊢
  rwa [Nat.mod_mod] at hfinal

/-! ### The comparison -/

/-- The three ways in which two lanes stand before a third one. -/
def rotations : List (Lane × Lane × Lane) := [(.a, .b, .c), (.b, .c, .a), (.c, .a, .b)]

theorem mem_rotations {x y z : Lane} (h : (x, y, z) ∈ rotations) :
    (x = .a ∧ y = .b ∧ z = .c) ∨ (x = .b ∧ y = .c ∧ z = .a) ∨ (x = .c ∧ y = .a ∧ z = .b) := by
  simpa [rotations] using h

/-- A rotation names every lane, each once. -/
theorem rotation_cover {x y z : Lane} (h : (x, y, z) ∈ rotations) : x ≠ y ∧ z ≠ x ∧ z ≠ y ∧ ∀ l, l = x ∨ l = y ∨ l = z := by
  rcases mem_rotations h with ⟨rfl, rfl, rfl⟩ | ⟨rfl, rfl, rfl⟩ | ⟨rfl, rfl, rfl⟩ <;>
    exact ⟨by decide, by decide, by decide, fun l => by cases l <;> simp⟩

theorem agreeAt_none (x y : Lane × EffectRec) : agreeAt none x y = sameRecord x.2 y.2 := by
  simp [agreeAt]

/-- The vote of the three lanes over their records. -/
def voteAll (R : Lane → EffectRec) : VoteOutcome := voteThree none (.a, R .a) (.b, R .b) (.c, R .c)

theorem voteAll_agree {R : Lane → EffectRec} (h : ∀ l m, sameRecord (R l) (R m) = true) : voteAll R = .pass [.a, .b, .c] (R .a) none := by
  simp only [voteAll, voteThree, agreeAt_none, h]

/-- Two against one: the record of the two passes for them. -/
theorem voteAll_minority {R : Lane → EffectRec} {x y z : Lane} (h : (x, y, z) ∈ rotations) (hxy : sameRecord (R x) (R y) = true)
    (hyz : sameRecord (R y) (R z) = false) : ∃ r, voteAll R = .pass [x, y] r (some (z, R z)) ∧ sameRecord (R x) r = true := by
  have hzx : sameRecord (R z) (R x) = false := by
    refine Bool.eq_false_iff.2 fun hc => ?_
    exact absurd (sameRecord_symm (sameRecord_trans hc hxy)) (by rw [hyz]; decide)
  rcases mem_rotations h with ⟨rfl, rfl, rfl⟩ | ⟨rfl, rfl, rfl⟩ | ⟨rfl, rfl, rfl⟩ <;>
    simp only [voteAll, voteThree, agreeAt_none, hxy, hyz, hzx]
  · exact ⟨_, rfl, sameRecord_refl _⟩
  · exact ⟨_, rfl, sameRecord_refl _⟩
  · exact ⟨_, rfl, hxy⟩

theorem voteAll_split {R : Lane → EffectRec} {x y z : Lane} (h : (x, y, z) ∈ rotations) (hxy : sameRecord (R x) (R y) = false)
    (hyz : sameRecord (R y) (R z) = false) (hzx : sameRecord (R z) (R x) = false) : voteAll R = .stop 4 := by
  rcases mem_rotations h with ⟨rfl, rfl, rfl⟩ | ⟨rfl, rfl, rfl⟩ | ⟨rfl, rfl, rfl⟩ <;>
    simp only [voteAll, voteThree, agreeAt_none, hxy, hyz, hzx]

/-! ### The decision -/

/-- The record at the front of a lane's queue. -/
def frontOf (s : State) (d : EffectRec) (l : Lane) : EffectRec := (s.lane l).queue.headD d

section
variable {s : State} (hm : s.voter.mode = .triple) (hh : s.voter.halted = false) (hv : ∀ l, (s.lane l).role = .voting)

include hv in
theorem voteSet_all : voteSet s = [.a, .b, .c] := by
  simp [voteSet, Lane.all, hv]

include hv in
/-- With a record in every queue the voter compares the three in the lanes' order. -/
theorem headsOf_all {d : EffectRec} (hq : ∀ l, (s.lane l).queue ≠ []) :
    headsOf s (voteSet s) = [(.a, frontOf s d .a), (.b, frontOf s d .b), (.c, frontOf s d .c)] := by
  have hhead (l : Lane) : (s.lane l).queue.head? = some (frontOf s d l) := by
    unfold frontOf
    cases h : (s.lane l).queue with
    | nil => exact absurd h (hq l)
    | cons r q => rfl
  rw [voteSet_all hv]
  simp only [headsOf, List.filterMap_cons, List.filterMap_nil, hhead, Option.map_some]

include hm hh hv in
theorem voteDecision_all {d : EffectRec} (hq : ∀ l, (s.lane l).queue ≠ []) :
    voteDecision s none none = decide? s (voteAll (frontOf s d)) (frontOf s d .a) := by
  have hheads := headsOf_all (s := s) hv (d := d) hq
  have hkeep : (headsOf s (voteSet s)).filter (fun h : Lane × EffectRec => decide (h.1 ∈ voteSet s)) = headsOf s (voteSet s) := by
    rw [hheads, voteSet_all hv]
    rfl
  have hfull : ¬ ((headsOf s (voteSet s)).length < 2 || (headsOf s (voteSet s)).length ≠ (voteSet s).length) = true := by
    rw [hheads, voteSet_all hv]
    simp
  unfold voteDecision
  rw [if_neg (by simp [hh]), if_neg (by simp [hm])]
  dsimp only
  rw [if_neg hfull, if_neg (by simp [hh]), hkeep, hheads]
  rfl

include hv in
/-- Without a record of the third lane the two others' records stand in the lanes' order. -/
theorem headsOf_two {d : EffectRec} {x y z : Lane} (hrot : (x, y, z) ∈ rotations) (hx : (s.lane x).queue ≠ []) (hy : (s.lane y).queue ≠ [])
    (hz : (s.lane z).queue = []) : ∃ u v, headsOf s (voteSet s) = [(u, frontOf s d u), (v, frontOf s d v)] ∧
      ((u = x ∧ v = y) ∨ (u = y ∧ v = x)) := by
  have hhead {l : Lane} (hq : (s.lane l).queue ≠ []) : (s.lane l).queue.head? = some (frontOf s d l) := by
    unfold frontOf
    cases h : (s.lane l).queue with
    | nil => exact absurd h hq
    | cons r q => rfl
  have hnone : (s.lane z).queue.head? = none := by rw [hz]; rfl
  rw [voteSet_all hv]
  rcases mem_rotations hrot with ⟨rfl, rfl, rfl⟩ | ⟨rfl, rfl, rfl⟩ | ⟨rfl, rfl, rfl⟩ <;>
    simp only [headsOf, List.filterMap_cons, List.filterMap_nil, hhead hx, hhead hy, hnone, Option.map_some, Option.map_none]
  · exact ⟨_, _, rfl, .inl ⟨rfl, rfl⟩⟩
  · exact ⟨_, _, rfl, .inl ⟨rfl, rfl⟩⟩
  · exact ⟨_, _, rfl, .inr ⟨rfl, rfl⟩⟩

include hm hh hv in
/-- The record of a lane that is missing leaves the two others to agree. -/
theorem lateAt_agree {z u v : Lane} {ru rv : EffectRec} (hz : (s.lane z).queue = []) (hheads : headsOf s (voteSet s) = [(u, ru), (v, rv)])
    (h : sameRecord ru rv = true) (ha : (laneAgainst s z 2 1 ru).voter.halted = false) :
    lateAt s z = passFor (laneAgainst s z 2 1 ru) [u, v] ru := by
  have hmem : z ∈ voteSet s := by
    rw [voteSet_all hv]
    cases z <;> simp
  unfold lateAt
  rw [if_neg (by simp [hh, hm, hmem, hz]), hheads]
  exact (if_pos ((agreeAt_none (u, ru) (v, rv)).trans h)).trans (if_neg (by simp [ha]))

end

/-- The body of the safe state discards the open output groups and leaves the voter otherwise. -/
theorem enterSafeBody_voter (s : State) (cause : SafeCause) : (enterSafeBody s cause).voter = { s.voter with groups := [] } := by
  have hbefore : SameBut [.safe, .prog] s (openSupplies (commitSafe (driveSafe (markSafe s cause)) [0, 1, 2, 3])) :=
    ((markSafe_same s cause).mono (by decide)).trans (((driveSafe_same _).mono (by decide)).trans
      (((commitSafe_same _ _).mono (by decide)).trans ((openSupplies_same _).mono (by decide))))
  have hv := hbefore.same .voter (by decide)
  unfold enterSafeBody
  generalize openSupplies (commitSafe (driveSafe (markSafe s cause)) [0, 1, 2, 3]) = w at hv ⊢
  have hafter : SameBut [.pair, .hlk, .ucbs, .safe] (discardEmissions w)
      (endActivity (endActivity (clearRunning (discardEmissions w)) .brakeTest) .offPulseRetime) :=
    ((clearRunning_same _).mono (by decide)).trans (((endFieldActivity_same _ (.inl rfl)).mono (by decide)).trans
      ((endFieldActivity_same _ (.inr rfl)).mono (by decide)))
  refine (hafter.same .voter (by decide)).trans ?_
  rw [← show w.voter = s.voter from hv]
  rfl

theorem enterSafe_voter (s : State) (cause : SafeCause) : (enterSafe s cause).voter = { s.voter with groups := [] } := by
  have hb := enterSafeBody_voter s cause
  rw [enterSafe_eq]
  split
  · rw [(offer_same ..).same .voter (by decide)]
    exact hb
  · exact hb

theorem raiseSafe_voter (s : State) (u : UnitId) (k a : Nat) : (raiseSafe s u k a).voter = { s.voter with groups := [] } := by
  rw [raiseSafe, enterSafe_voter, ← show (raise s u k a).voter = s.voter from (raise_same s u k a).same .voter (by decide)]

/-- Where nothing passes the voter halts in the safe state, its counters, the bulk store and the queues as they are. -/
theorem noPass_spec (s : State) (kind : Nat) (r : EffectRec) : (noPass s kind r).safe.safe = true ∧ (noPass s kind r).braked = true ∧
    (noPass s kind r).voter.halted = true ∧ (noPass s kind r).voter.csn = s.voter.csn ∧ (noPass s kind r).bulk = s.bulk ∧
      ∀ l, (noPass s kind r).lane l = s.lane l := by
  let w : State := { noteDis s none 0 r.kind r.addr with voter := { (noteDis s none 0 r.kind r.addr).voter with halted := true } }
  have h : noPass s kind r = raiseSafe w .voter kind (noteDis s none 0 r.kind r.addr).voter.disAddr := rfl
  rw [h]
  generalize (noteDis s none 0 r.kind r.addr).voter.disAddr = a
  have hs := raiseSafe_same w .voter kind a
  have hsafe := raiseSafe_safe w .voter kind a
  have hvoter := raiseSafe_voter w .voter kind a
  refine ⟨hsafe.1, hsafe.2, by rw [hvoter], by rw [hvoter]; rfl, hs.same .bulk (by decide), fun l => ?_⟩
  rw [hs.lane (by decide) (by decide) (by decide)]
  cases l <;> rfl

/-! ### What the statement says of a vote -/

section
variable {s : State} {x y z : Lane} {rx : EffectRec} {qx qy : List EffectRec}

/-- The record of `x` and `y` has passed. -/
def Passed (s t : State) (x y : Lane) (rx : EffectRec) (qx qy : List EffectRec) : Prop :=
  t.voter.csn = s.voter.csn + 1 ∧ t.voter.pos = s.voter.pos + 1 ∧ t.voter.halted = false ∧
    t.bulk = (if rx.kind = 0 then Memory.writeBytes s.bulk (bulkKey 0 rx.addr) rx.bytes else s.bulk) ∧
    (t.lane x).queue = qx ∧ (t.lane y).queue = qy

/-- The third lane has been counted and fenced. -/
def Fenced (s t : State) (z : Lane) : Prop :=
  (t.lane z).role = .fenced ∧ (t.lane z).queue = [] ∧ (t.lane z).dis = min 0xFFFF ((s.lane z).dis + 1) ∧ t.voter.fenced = [z]

/-- A record that agrees with that of `x` passes for some lanes, `x` and `y` among them. -/
theorem passed_of_passFor {w : State} (hw : w.voter.csn = s.voter.csn ∧ w.voter.pos = s.voter.pos ∧ w.voter.halted = false ∧ w.bulk = s.bulk)
    (hm : w.voter.mode ≠ .split) (hset : ∀ l, (w.lane l).settled) {ls : List Lane} (hn : ls.Nodup) {r : EffectRec}
    (hr : sameRecord rx r = true) (hk : rx.kind = 0 ∨ rx.kind = 5) (hx : x ∈ ls) (hy : y ∈ ls) (hqx : (w.lane x).queue = rx :: qx)
    {ry : EffectRec} (hqy : (w.lane y).queue = ry :: qy) : Passed s (passFor w ls r) x y rx qx qy := by
  have hbytes := sameRecord_bytes hr
  obtain ⟨hkind, -, -, -, -, haddr, -⟩ := (sameRecord_iff rx r).1 hr
  obtain ⟨hcsn, hpos, hhalt, -, hbulk, hlane, -⟩ := passFor_spec hm hset hn (r := r) (by rw [← hkind]; exact hk)
  obtain ⟨w1, w2, w3, w4⟩ := hw
  refine ⟨by rw [hcsn, w1], by rw [hpos, w2], by rw [hhalt, w3], by rw [hbulk, w4, ← hkind, ← haddr, ← hbytes], ?_, ?_⟩
  · rw [hlane, if_pos hx]
    unfold LaneSt.popped
    rw [hqx]
    rfl
  · rw [hlane, if_pos hy]
    unfold LaneSt.popped
    rw [hqy]
    rfl

/-- Two lanes pass their record once the third one has been fenced. -/
theorem passed_fenced {how kind : Nat} {ls : List Lane} {r rz ry : EffectRec} (hm : s.voter.mode = .triple) (hh : s.voter.halted = false)
    (hv : ∀ l, (s.lane l).role = .voting) (hf : s.voter.fenced = []) (hd : s.voter.latentDue = []) (hset : ∀ l, (s.lane l).settled)
    (hn : ls.Nodup) (hr : sameRecord rx r = true) (hk : rx.kind = 0 ∨ rx.kind = 5) (hx : x ∈ ls) (hy : y ∈ ls) (hz : z ∉ ls)
    (hqx : (s.lane x).queue = rx :: qx) (hqy : (s.lane y).queue = ry :: qy) :
    Passed s (passFor (laneAgainst s z kind how rz) ls r) x y rx qx qy ∧ Fenced s (passFor (laneAgainst s z kind how rz) ls r) z ∧
      Reports s (passFor (laneAgainst s z kind how rz) ls r) (.lane z) kind rz.addr := by
  obtain ⟨h1, h2, h3, h4, h5, h6, h7, h8, h9⟩ := laneAgainst_spec hm (hv z) hf hd kind how rz
  generalize laneAgainst s z kind how rz = w at h1 h2 h3 h4 h5 h6 h7 h8 h9 ⊢
  have hwm : w.voter.mode ≠ .split := by rw [h4]; decide
  have hwset (l : Lane) : (w.lane l).settled := by
    by_cases hl : l = z
    · rw [hl, h7]
      exact settled_against _ (hset z)
    · rw [h8 l hl]
      exact hset l
  have hxz : x ≠ z := fun h => hz (h ▸ hx)
  have hyz : y ≠ z := fun h => hz (h ▸ hy)
  have hkind := ((sameRecord_iff rx r).1 hr).1
  obtain ⟨-, -, -, hfen, -, hlane, hucbs⟩ := passFor_spec hwm hwset hn (r := r) (by rw [← hkind]; exact hk)
  refine ⟨passed_of_passFor ⟨h1, h2, h3.trans hh, h6⟩ hwm hwset hn hr hk hx hy (by rw [h8 x hxz]; exact hqx) (by rw [h8 y hyz]; exact hqy),
    ?_, h9.of_ucb (ucb_of_ucbs hucbs _)⟩
  have hz' : (passFor w ls r).lane z = (s.lane z).against := by rw [hlane, if_neg hz, h7]
  unfold Fenced
  rw [hz', hfen, h5]
  exact ⟨rfl, rfl, rfl, rfl⟩

theorem decide_pass {s : State} (ls : List Lane) (r d : EffectRec) : decide? s (.pass ls r none) d = passFor s ls r := rfl

theorem decide_passBut {s : State} {ls : List Lane} {r rz d : EffectRec} {z : Lane}
    (h : (laneAgainst s z 1 0 rz).voter.halted = false) :
    decide? s (.pass ls r (some (z, rz))) d = passFor (laneAgainst s z 1 0 rz) ls r :=
  if_neg (by rw [h]; decide)

section
variable (hm : s.voter.mode = .triple) (hh : s.voter.halted = false) (hv : ∀ l, (s.lane l).role = .voting)

include hm hh hv

/-- Three records that agree pass for every lane. -/
theorem voteDecision_agree (hset : ∀ l, (s.lane l).settled) (hall : ∀ l, (s.lane l).queue ≠ [])
    (hx : ∀ l, sameRecord rx (frontOf s rx l) = true) (hk : rx.kind = 0 ∨ rx.kind = 5) {ry rz : EffectRec} {qz : List EffectRec}
    (hqx : (s.lane x).queue = rx :: qx) (hqy : (s.lane y).queue = ry :: qy) (hqz : (s.lane z).queue = rz :: qz) :
    Passed s (voteDecision s none none) x y rx qx qy ∧ ((voteDecision s none none).lane z).queue = qz ∧
      (voteDecision s none none).voter.fenced = s.voter.fenced := by
  have hmode : s.voter.mode ≠ .split := by rw [hm]; decide
  have hmem (l : Lane) : l ∈ [Lane.a, .b, .c] := by cases l <;> simp
  have hkind : (frontOf s rx .a).kind = 0 ∨ (frontOf s rx .a).kind = 5 := by
    rw [← ((sameRecord_iff rx _).1 (hx .a)).1]
    exact hk
  rw [voteDecision_all hm hh hv (d := rx) hall, voteAll_agree fun l m => sameRecord_trans (sameRecord_symm (hx l)) (hx m), decide_pass]
  obtain ⟨-, -, -, hfen, -, hlane, -⟩ := passFor_spec hmode hset (ls := [.a, .b, .c]) (by decide) hkind
  refine ⟨passed_of_passFor ⟨rfl, rfl, hh, rfl⟩ hmode hset (by decide) (hx .a) hk (hmem x) (hmem y) hqx hqy, ?_, hfen⟩
  rw [hlane z, if_pos (hmem z)]
  unfold LaneSt.popped
  rw [hqz]
  rfl

/-- Two records that agree pass, and the third lane is fenced with DISAGREE. -/
theorem voteDecision_minority (hf : s.voter.fenced = []) (hd : s.voter.latentDue = []) (hset : ∀ l, (s.lane l).settled)
    (hall : ∀ l, (s.lane l).queue ≠ []) (hrot : (x, y, z) ∈ rotations) (hk : rx.kind = 0 ∨ rx.kind = 5)
    (hxy : sameRecord (frontOf s rx x) (frontOf s rx y) = true) (hyz : sameRecord (frontOf s rx y) (frontOf s rx z) = false)
    {ry : EffectRec} (hqx : (s.lane x).queue = rx :: qx) (hqy : (s.lane y).queue = ry :: qy) :
    Passed s (voteDecision s none none) x y rx qx qy ∧ Fenced s (voteDecision s none none) z ∧
      Reports s (voteDecision s none none) (.lane z) 1 (frontOf s rx z).addr := by
  obtain ⟨hne, hzx, hzy, -⟩ := rotation_cover hrot
  obtain ⟨r, hvote, hr⟩ := voteAll_minority (R := frontOf s rx) hrot hxy hyz
  rw [show frontOf s rx x = rx by unfold frontOf; rw [hqx]; rfl] at hr
  obtain ⟨-, -, hhalt, -⟩ := laneAgainst_spec hm (hv z) hf hd 1 0 (frontOf s rx z)
  rw [voteDecision_all hm hh hv (d := rx) hall, hvote, decide_passBut (hhalt.trans hh)]
  exact passed_fenced hm hh hv hf hd hset (by simp [hne]) hr hk (by simp) (by simp) (by simp [hzx, hzy]) hqx hqy

/-- Without the third lane's record the two others' passes, and the lane is fenced with LATE. -/
theorem lateAt_spec (hf : s.voter.fenced = []) (hd : s.voter.latentDue = []) (hset : ∀ l, (s.lane l).settled)
    (hrot : (x, y, z) ∈ rotations) (hk : rx.kind = 0 ∨ rx.kind = 5) {ry : EffectRec} (hsame : sameRecord rx ry = true)
    (hqx : (s.lane x).queue = rx :: qx) (hqy : (s.lane y).queue = ry :: qy) (hqz : (s.lane z).queue = []) :
    Passed s (lateAt s z) x y rx qx qy ∧ Fenced s (lateAt s z) z ∧ Reports s (lateAt s z) (.lane z) 2 rx.addr := by
  obtain ⟨hne, hzx, hzy, -⟩ := rotation_cover hrot
  have hfx : frontOf s rx x = rx := by unfold frontOf; rw [hqx]; rfl
  have hfy : frontOf s rx y = ry := by unfold frontOf; rw [hqy]; rfl
  obtain ⟨u, v, hheads, huv⟩ := headsOf_two hv (d := rx) hrot (by rw [hqx]; simp) (by rw [hqy]; simp) hqz
  have hru : sameRecord rx (frontOf s rx u) = true ∧ sameRecord (frontOf s rx u) (frontOf s rx v) = true := by
    rcases huv with ⟨rfl, rfl⟩ | ⟨rfl, rfl⟩ <;> rw [hfx, hfy]
    · exact ⟨sameRecord_refl _, hsame⟩
    · exact ⟨hsame, sameRecord_symm hsame⟩
  have hls : [u, v].Nodup ∧ x ∈ [u, v] ∧ y ∈ [u, v] ∧ z ∉ [u, v] := by
    rcases huv with ⟨rfl, rfl⟩ | ⟨rfl, rfl⟩ <;> simp [hne, Ne.symm hne, hzx, hzy]
  obtain ⟨hnodup, hxm, hym, hzm⟩ := hls
  obtain ⟨-, -, hhalt, -⟩ := laneAgainst_spec hm (hv z) hf hd 2 1 (frontOf s rx u)
  obtain ⟨-, -, -, -, -, haddr, -⟩ := (sameRecord_iff rx _).1 hru.1
  rw [lateAt_agree hm hh hv hqz hheads hru.2 (hhalt.trans hh), haddr]
  exact passed_fenced hm hh hv hf hd hset hnodup hru.1 hk hxm hym hzm hqx hqy

/-- Without a majority nothing passes. -/
theorem voteDecision_split (hall : ∀ l, (s.lane l).queue ≠ []) (hrot : (x, y, z) ∈ rotations)
    (hxy : sameRecord (frontOf s rx x) (frontOf s rx y) = false) (hyz : sameRecord (frontOf s rx y) (frontOf s rx z) = false)
    (hzx : sameRecord (frontOf s rx z) (frontOf s rx x) = false) : voteDecision s none none = noPass s 4 (frontOf s rx .a) := by
  rw [voteDecision_all hm hh hv (d := rx) hall, voteAll_split hrot hxy hyz hzx]
  rfl

end

end

/-- Settles O51: the vote by which records agree, and a missing record by the two others. -/
theorem theVoterPassesWhatTheLanesAgreeOn : Obligations.TheVoterPassesWhatTheLanesAgreeOn := by
  unfold Obligations.TheVoterPassesWhatTheLanesAgreeOn
  intro s x y z rx ry rz qx qy qz hh hm hv hf hd hrot hqx hqy hspill hwait passed fenced
  obtain ⟨-, -, -, hcover⟩ := rotation_cover hrot
  have hset (l : Lane) : (s.lane l).settled := ⟨hspill l, hwait l⟩
  have hfx : frontOf s rx x = rx := by unfold frontOf; rw [hqx]; rfl
  have hfy : frontOf s rx y = ry := by unfold frontOf; rw [hqy]; rfl
  have hfz (hqz : (s.lane z).queue = rz :: qz) : frontOf s rx z = rz := by unfold frontOf; rw [hqz]; rfl
  have hall (hqz : (s.lane z).queue = rz :: qz) (l : Lane) : (s.lane l).queue ≠ [] := by
    rcases hcover l with rfl | rfl | rfl
    · rw [hqx]; simp
    · rw [hqy]; simp
    · rw [hqz]; simp
  refine ⟨fun hsame hk => ⟨fun hqz => ⟨fun hyz => ⟨_, rfl, ?_⟩, fun hyz => ⟨_, rfl, ?_⟩⟩, fun hqz => ⟨_, rfl, ?_⟩⟩,
    fun hqz h1 h2 h3 => ⟨_, rfl, ?_⟩⟩
  · have hx (l : Lane) : sameRecord rx (frontOf s rx l) = true := by
      rcases hcover l with rfl | rfl | rfl
      · rw [hfx]; exact sameRecord_refl _
      · rw [hfy]; exact hsame
      · rw [hfz hqz]; exact sameRecord_trans hsame hyz
    have hspec := voteDecision_agree hm hh hv hset (hall hqz) hx hk hqx hqy hqz
    rw [hf] at hspec
    exact hspec
  · have hspec := voteDecision_minority hm hh hv hf hd hset (hall hqz) hrot hk (by rw [hfx, hfy]; exact hsame)
      (by rw [hfy, hfz hqz]; exact hyz) hqx hqy
    rw [hfz hqz] at hspec
    exact hspec
  · exact lateAt_spec hm hh hv hf hd hset hrot hk hsame hqx hqy hqz
  · obtain ⟨hsafe, hbraked, hhalted, hcsn, hbulk, hlanes⟩ := noPass_spec s 4 (frontOf s rx .a)
    have hspec := voteDecision_split (rx := rx) hm hh hv (hall hqz) hrot (by rw [hfx, hfy]; exact h1) (by rw [hfy, hfz hqz]; exact h2)
      (by rw [hfz hqz, hfx]; exact h3)
    rw [← hspec] at hsafe hbraked hhalted hcsn hbulk hlanes
    exact ⟨hsafe, hbraked, hhalted, hcsn, hbulk, fun l => by rw [hlanes]⟩

end Sys2Proof.Machine
end

section
/-! Lanes that leave the voted set and return to it (O52). -/

namespace Sys2Proof.Machine

open Sys2Proof

theorem ucb_setLane (s : State) (l : Lane) (x : LaneSt) (u : UnitId) : (s.setLane l x).ucb u = s.ucb u :=
  ucb_of_ucbs ((setLane_same s l x).same .ucbs (by decide)) u

theorem setLane_voter (s : State) (l : Lane) (x : LaneSt) : (s.setLane l x).voter = s.voter := (setLane_same s l x).same .voter (by decide)

theorem masked_setLane (s : State) (l : Lane) (x : LaneSt) (u : UnitId) : masked (s.setLane l x) u = masked s u := by
  cases l <;> rfl

theorem lane_withVoter (s : State) (v : VoterState) (l : Lane) : ({ s with voter := v } : State).lane l = s.lane l := by
  cases l <;> rfl

/-! ### Memory errors (R245) -/

/-- A report made with the lane's counts already changed. -/
theorem raise_setLane_reports (s : State) (l : Lane) (x : LaneSt) (u : UnitId) (k a : Nat) : Reports s (raise (s.setLane l x) u k a) u k a :=
  (raise_reports (s.setLane l x) u k a).of_before (masked_setLane s l x u) (.of_ucb (ucb_setLane s l x u))

/-- A corrected word of a lane is counted and reported. -/
theorem eccCorrected_lane_spec (s : State) (l : Lane) (a : Nat) :
    ((eccCorrected s (.lane l) a false).lane l).corrected = min 0xFFFF ((s.lane l).corrected + 1) ∧
      (eccCorrected s (.lane l) a false).voter = s.voter ∧ (eccCorrected s (.lane l) a false).safe = s.safe ∧
      Reports s (eccCorrected s (.lane l) a false) (.lane l) 0xA a := by
  let x : LaneSt := { s.lane l with corrected := satUp 0xFFFF (s.lane l).corrected }
  have h : eccCorrected s (.lane l) a false = raise (s.setLane l x) (.lane l) 0xA a := rfl
  rw [h]
  have hr := raise_same (s.setLane l x) (.lane l) 0xA a
  refine ⟨?_, (hr.same .voter (by decide)).trans (setLane_voter ..),
    (hr.same .safe (by decide)).trans ((setLane_same s l x).same .safe (by decide)), raise_setLane_reports s l x _ _ _⟩
  rw [lane_raise, State.lane_setLane, ← satUp_eq_min]

/-- An uncorrectable word of the first lane to fail fences it. -/
theorem eccUncorrectable_lane_spec {s : State} {l : Lane} (hm : s.voter.mode = .triple) (hf : s.voter.fenced = [])
    (hd : s.voter.latentDue = []) (hr : (s.lane l).role = .voting) (a : Nat) :
    ((eccUncorrectable s (.lane l) a false).lane l).role = .fenced ∧ ((eccUncorrectable s (.lane l) a false).lane l).queue = [] ∧
      (eccUncorrectable s (.lane l) a false).voter.fenced = [l] ∧
      ((eccUncorrectable s (.lane l) a false).lane l).uncorrected = min 0xFFFF ((s.lane l).uncorrected + 1) ∧
      Reports s (eccUncorrectable s (.lane l) a false) (.lane l) 0xB a := by
  let x : LaneSt := { s.lane l with uncorrected := satUp 0xFFFF (s.lane l).uncorrected }
  have h : eccUncorrectable s (.lane l) a false = fenceOrSafe (raise (s.setLane l x) (.lane l) 0xB a) l ⟨handleOf (.lane l), 0xB, 5, 1⟩ := rfl
  rw [h]
  have hrep := raise_setLane_reports s l x (.lane l) 0xB a
  have hv := ((raise_same (s.setLane l x) (.lane l) 0xB a).same .voter (by decide)).trans (setLane_voter s l x)
  have hl : (raise (s.setLane l x) (.lane l) 0xB a).lane l = x := (lane_raise ..).trans (State.lane_setLane ..)
  generalize raise (s.setLane l x) (.lane l) 0xB a = w at hrep hv hl ⊢
  rw [fenceOrSafe, if_neg (by rw [hv, hm]; decide)]
  obtain ⟨-, -, -, -, hfenced, -, hlane, -, hucbs⟩ := fenceLane_first_spec (s := w) (l := l) (by rw [hv, hm]) (by rw [hl]; exact hr)
    (by rw [hv, hf]) (by rw [hv, hd])
  rw [hlane, hl]
  exact ⟨rfl, rfl, hfenced, satUp_eq_min .., hrep.of_ucb (ucb_of_ucbs hucbs _)⟩

/-! ### A rejoin or resync begins -/

/-- The copy of a rejoin or resync has begun, in a lane of that role. -/
def Copying (s t : State) (r : Rejoin) (role : LaneRole) (kib : Nat) : Prop :=
  (t.lane r.lane).role = role ∧ (t.lane r.lane).mem = (s.lane r.lane).mem ∧ (t.ucb (.lane r.lane)).state = .maint ∧
    (t.ucb (.lane r.lane)).prev = .quiesced ∧ t.voter.mode = .pair ∧
    ∃ r', t.voter.rejoin = some r' ∧ r'.lane = r.lane ∧ r'.resync = r.resync ∧ r'.copying = true ∧ r'.recopy = false ∧ r'.ready = false ∧
      r'.kibLeft = kib

theorem startCopy_spec {s : State} {r : Rejoin} (hm : s.voter.mode = .pair) (hq : (s.ucb (.lane r.lane)).state = .quiesced) :
    Copying s (startCopy s r) r (if r.resync then .resync else .rejoining) (if r.resync then 4 * r.pages.length else wholeKib) ∧
      ∀ u, u ≠ .lane r.lane → (startCopy s r).ucb u = s.ucb u := by
  let w := s.setLane r.lane { s.lane r.lane with role := if r.resync then .resync else .rejoining }
  have hlane : (startCopy s r).lane r.lane = w.lane r.lane :=
    (lane_withVoter (w.setUcb (.lane r.lane) (·.gated .maint)) _ _).trans
      ((setUcb_same w (.lane r.lane) (·.gated .maint)).lane (by decide) (by decide) (by decide) _)
  have hucb (u : UnitId) : (startCopy s r).ucb u = (w.setUcb (.lane r.lane) (·.gated .maint)).ucb u := rfl
  have hvoter : (startCopy s r).voter = { s.voter with rejoin := (startCopy s r).voter.rejoin } :=
    (show (startCopy s r).voter = { w.voter with rejoin := (startCopy s r).voter.rejoin } from rfl).trans (by rw [setLane_voter])
  refine ⟨⟨?_, ?_, ?_, ?_, ?_, ⟨_, rfl, rfl, rfl, rfl, rfl, rfl, rfl⟩⟩, fun u hu => ?_⟩
  · rw [hlane, State.lane_setLane]
  · rw [hlane, State.lane_setLane]
  · rw [hucb, State.ucb_setUcb]
    rfl
  · rw [hucb, State.ucb_setUcb, ucb_setLane, ← hq]
    rfl
  · rw [hvoter]
    exact hm
  · rw [hucb, State.ucb_setUcb_ne _ hu, ucb_setLane]

/-- A due rejoin or resync begins with its tokens. -/
theorem takeAndCopy_spec {s : State} {r : Rejoin} (hm : s.voter.mode = .pair) (hq : (s.ucb (.lane r.lane)).state = .quiesced)
    (hfree : r.commanded = true ∨ tokensFree s .splitJoin = true) :
    Copying s (takeAndCopy s r) r (if r.resync then .resync else .rejoining) (if r.resync then 4 * r.pages.length else wholeKib) ∧
      (r.commanded = false → ∀ u ∈ footprint .splitJoin, ((takeAndCopy s r).ucb u).token = some (.splitJoin, 3)) := by
  cases hc : r.commanded with
  | true =>
    rw [takeAndCopy, if_pos hc]
    exact ⟨(startCopy_spec hm hq).1, by simp⟩
  | false =>
    rw [takeAndCopy, if_neg (by rw [hc]; decide), if_pos (hfree.resolve_left (by simp [hc]))]
    have hs := takeTokens_same s .splitJoin .voter
    have hl : (takeTokens s .splitJoin .voter).lane r.lane = s.lane r.lane := hs.lane (by decide) (by decide) (by decide) _
    have hv : (takeTokens s .splitJoin .voter).voter = s.voter := hs.same .voter (by decide)
    have hstate : ((takeTokens s .splitJoin .voter).ucb (.lane r.lane)).state = .quiesced := by
      rw [ucb_takeTokens, if_neg (by simp [footprint]), hq]
    obtain ⟨⟨h1, h2, h3⟩, hother⟩ := startCopy_spec (r := r) (by rw [hv, hm]) hstate
    refine ⟨⟨h1, by rw [h2, hl], h3⟩, fun _ u hu => ?_⟩
    rw [hother u (by rintro rfl; simp [footprint] at hu), token_takeTokens hu]
    rfl

/-! ### The end of a rejoin that fails -/

/-- The lane stands excluded and faulted, no rejoin runs, and the mode is as before. -/
def RejoinFailed (s t : State) (l : Lane) : Prop :=
  (t.lane l).role = .excluded ∧ (t.ucb (.lane l)).state = .fault ∧ t.voter.rejoin = none ∧ t.voter.mode = s.voter.mode

/-- The lane unit takes FAULT with its message, and only control blocks change. -/
theorem failSelf_lane_spec (s : State) (l : Lane) (k a : Nat) :
    SameBut [.ucbs] s (failSelf s (.lane l) k a) ∧ ((failSelf s (.lane l) k a).ucb (.lane l)).state = .fault := by
  let r := raise s (.lane l) k a
  let e := noteGroups (r.setUcb (.lane l) (·.gated .fault))
  have hleave : (if (r.ucb (.lane l)).state = .run && (UState.fault : UState) ≠ .run then leaveRun r (.lane l) else r) = r := by
    split <;> rfl
  have henter : enterState r (.lane l) .fault = e := by
    unfold enterState
    dsimp only
    rw [hleave]
    rfl
  have hfail : failSelf s (.lane l) k a =
      e.setUcb (.lane l) fun b => { b with faultClass := some (kindOf (.lane l) k).1, faultTaken := false } := by
    rw [← henter]
    rfl
  rw [hfail]
  refine ⟨(raise_same ..).trans ((setUcb_same ..).trans ((noteGroups_same _).trans (setUcb_same ..))), ?_⟩
  rw [State.ucb_setUcb]
  dsimp only
  rw [ucb_noteGroups _ rfl, State.ucb_setUcb]
  rfl

/-- What the failure leaves of the rejoin once the lane unit has failed. -/
theorem rejoinFailed_of_failed {s f : State} {l : Lane} (hrole : (f.lane l).role = .excluded) (hstate : (f.ucb (.lane l)).state = .fault)
    (hvoter : f.voter = s.voter) : RejoinFailed s (releaseTokens { f with voter := { f.voter with rejoin := none } } .splitJoin) l := by
  have hs := releaseTokens_same { f with voter := { f.voter with rejoin := none } } .splitJoin
  have hv : (releaseTokens { f with voter := { f.voter with rejoin := none } } .splitJoin).voter = { f.voter with rejoin := none } :=
    hs.same .voter (by decide)
  refine ⟨?_, ?_, by rw [hv], by rw [hv, ← hvoter]⟩
  · rw [hs.lane (by decide) (by decide) (by decide), lane_withVoter, hrole]
  · rw [ucb_releaseTokens_token]
    exact hstate

/-- The end of a command of the voter leaves a failed rejoin as it is. -/
theorem RejoinFailed.finish {s t : State} {l : Lane} (h : RejoinFailed s t l) (c : Status) (d : Nat) :
    RejoinFailed s (t.finish .voter c d) l := by
  have hs := finish_same t .voter c d
  have hv : (t.finish .voter c d).voter = t.voter := hs.same .voter (by decide)
  obtain ⟨hrole, hstate, hnone, hmode⟩ := h
  refine ⟨?_, ?_, by rw [hv, hnone], by rw [hv, hmode]⟩
  · rw [hs.lane (by decide) (by decide) (by decide), hrole]
  · rw [State.finish, State.ucb_setUcb_ne t (by simp), hstate]

theorem failRejoin_spec {s : State} {r : Rejoin} (h : s.voter.rejoin = some r) : RejoinFailed s (failRejoin s) r.lane := by
  let m := leaveMaint s (.lane r.lane)
  let x := m.setLane r.lane { m.lane r.lane with role := .excluded }
  have hx : (x.lane r.lane).role = .excluded := by rw [State.lane_setLane]
  have hxv : x.voter = s.voter := (setLane_voter ..).trans ((leaveMaint_same s (.lane r.lane)).same .voter (by decide))
  have heq : failRejoin s =
      let f := failSelf x (.lane r.lane) 8 x.voter.disAddr
      let e := releaseTokens { f with voter := { f.voter with rejoin := none } } .splitJoin
      if r.commanded then e.finish .voter .faulted 0 else e := by
    unfold failRejoin
    rw [h]
  rw [heq]
  generalize x = x at hx hxv
  obtain ⟨hf, hstate⟩ := failSelf_lane_spec x r.lane 8 x.voter.disAddr
  have hrole : ((failSelf x (.lane r.lane) 8 x.voter.disAddr).lane r.lane).role = .excluded := by
    rw [hf.lane (by decide) (by decide) (by decide), hx]
  have hvoter := (hf.same .voter (by decide)).trans hxv
  generalize failSelf x (.lane r.lane) 8 x.voter.disAddr = f at hstate hrole hvoter
  have he := rejoinFailed_of_failed hrole hstate hvoter
  dsimp only
  split
  · exact he.finish _ _
  · exact he

/-! ### The obligation -/

/-- Settles O52: memory errors by their place, and a rejoin by its stage. -/
theorem lanesLeaveAndReturn : Obligations.LanesLeaveAndReturn := by
  unfold Obligations.LanesLeaveAndReturn
  intro s l
  refine ⟨fun e hw hc hn => ⟨fun he => ⟨_, rfl, ?_⟩, fun he => ⟨_, rfl, ?_⟩⟩,
    fun e hw hc => ⟨fun he hm hf hd hr => ⟨_, rfl, ?_⟩, fun he => ⟨_, rfl, ?_⟩⟩, ?_⟩
  · simp only [hw, he, hc, hn, Bool.false_and, Bool.not_false, Bool.and_self, if_true]
    exact eccCorrected_lane_spec s l e.address
  · simp only [hw, he, hc, hn, Bool.false_and, Bool.not_false, Bool.and_self, if_true]
    exact ⟨(raise_same s .voter 0xA e.address).eq_withParts, raise_reports s .voter 0xA e.address⟩
  · simp only [hw, he, hc, Bool.false_and, Bool.false_eq_true, if_false]
    exact eccUncorrectable_lane_spec hm hf hd hr e.address
  · simp only [hw, he, hc, Bool.false_and, Bool.false_eq_true, if_false]
    have hsafe := enterSafe_safe (raiseEcc s .voter 0xC e.address false) ⟨handleOf .voter, 0xC, 6, 1⟩
    exact ⟨hsafe.1, hsafe.2.1⟩
  intro r hr hl started failed
  subst hl
  refine ⟨fun hcopy hrecopy hready hm hq hfree => ⟨fun hres hch => ⟨_, rfl, ?_⟩, fun hres hout => ⟨_, rfl, ?_⟩⟩,
    fun hcopy => ⟨?_, ⟨_, rfl, ?_⟩⟩, fun n hn => ⟨fun hlate => ⟨_, rfl, ?_⟩, fun hearly => ?_⟩⟩
  · have hdue : rejoin s r.lane = takeAndCopy s r := by
      simp [rejoin, rejoinDue, hm, hq, hch, hr, hres, Rejoin.waiting, hcopy, hrecopy, hready]
    rw [hdue]
    have hspec := takeAndCopy_spec hm hq hfree
    rw [if_neg (by simp [hres]), if_neg (by simp [hres])] at hspec
    obtain ⟨⟨hrole, hmem, hstate, hprev, hmode, hrejoin⟩, htokens⟩ := hspec
    exact ⟨hrole, hmem, hstate, hprev, hmode, hrejoin, htokens⟩
  · have hdue : latentResync s r.lane = takeAndCopy s r := by
      simp [latentResync, hm, hq, hout, hr, hres, Rejoin.waiting, hcopy, hrecopy, hready]
    rw [hdue]
    have hspec := takeAndCopy_spec hm hq hfree
    rw [if_pos hres, if_pos hres] at hspec
    obtain ⟨⟨hrole, hmem, hstate, hprev, hmode, hrejoin⟩, htokens⟩ := hspec
    exact ⟨hrole, hmem, hstate, hprev, hmode, hrejoin, htokens⟩
  · exact congrArg Host.Outcome.next (by simp [rejoinCopied, hr, hcopy] : rejoinCopied s false = _)
  · rw [show rejoinCopied s true = failRejoin s by simp [rejoinCopied, hr, hcopy]]
    exact failRejoin_spec hr
  · rw [show rejoinLate s = failRejoin s by simp [rejoinLate, hr, hn, hlate]]
    exact failRejoin_spec hr
  · exact congrArg Host.Outcome.next (by simp [rejoinLate, hr, hn, Nat.not_le.2 hearly] : rejoinLate s = s)

end Sys2Proof.Machine
end

section
/-! The phases of a tick (O53). -/

namespace Sys2Proof.Machine

open Sys2Proof

theorem setLane_same' (s : State) (l : Lane) (x : LaneSt) : SameBut [.laneA, .laneB, .laneC, .time] s (s.setLane l x) :=
  (setLane_same s l x).mono (by decide)

/-! ### What a lane runs next -/

theorem awaitWindow_eq (s : State) (l : Lane) (c : LaneCtx) : ∃ now, awaitWindow s l c = s.at_ now := by
  unfold awaitWindow
  split
  · exact ⟨0, (State.at_past (Nat.zero_le _)).symm⟩
  · exact ⟨_, rfl⟩

theorem startFree_role (s : State) (l : Lane) : (startFree s l).role = (s.lane l).role := by
  unfold startFree
  split <;> rfl

/-- A step that writes one lane, of which the role stays, while TB3 may have gone on. -/
def Chosen (s : State) (l : Lane) (t : State) : Prop := ∃ now x, t = (s.at_ now).setLane l x ∧ x.role = (s.lane l).role

theorem Chosen.ite {s t r : State} {l : Lane} {c : Prop} [Decidable c] (h : Chosen s l t) (g : Chosen s l r) :
    Chosen s l (if c then t else r) := by
  split
  · exact h
  · exact g

theorem chosen_setLane (s : State) (l : Lane) {x : LaneSt} (h : x.role = (s.lane l).role) : Chosen s l (s.setLane l x) :=
  ⟨0, x, by rw [State.at_past (Nat.zero_le _)], h⟩

theorem chosen_awaitWindow (s : State) (l : Lane) (c : LaneCtx) {x : LaneSt} (h : x.role = (s.lane l).role) :
    Chosen s l ((awaitWindow s l c).setLane l x) := by
  obtain ⟨now, hn⟩ := awaitWindow_eq s l c
  exact ⟨now, x, by rw [hn], h⟩

theorem choose_chosen (s : State) (l : Lane) : Chosen s l (choose s l) := by
  unfold choose
  exact .ite (chosen_setLane s l rfl) (.ite (chosen_setLane s l rfl) (.ite (chosen_awaitWindow s l _ rfl) (.ite (chosen_setLane s l rfl)
    (.ite (chosen_setLane s l rfl) (.ite (chosen_awaitWindow s l _ rfl) (.ite (chosen_setLane s l rfl) (.ite (chosen_setLane s l rfl)
      (.ite (chosen_setLane s l rfl) (.ite (chosen_setLane s l rfl) (chosen_setLane s l (startFree_role s l)))))))))))

theorem at_same (s : State) (now : Nat) : SameBut [.time] s (s.at_ now) :=
  ⟨fun p hp => by cases p <;> first | rfl | simp at hp⟩

theorem choose_same (s : State) (l : Lane) : SameBut [.laneA, .laneB, .laneC, .time] s (choose s l) := by
  obtain ⟨now, x, h, -⟩ := choose_chosen s l
  rw [h]
  exact ((at_same s now).mono (by decide)).trans (setLane_same' ..)

theorem choose_lane_ne (s : State) {l m : Lane} (h : m ≠ l) : (choose s l).lane m = s.lane m := by
  obtain ⟨now, x, hc, -⟩ := choose_chosen s l
  rw [hc, State.lane_setLane_ne _ h]
  exact (at_same s now).lane (by decide) (by decide) (by decide) m

theorem choose_role (s : State) (l m : Lane) : ((choose s l).lane m).role = (s.lane m).role := by
  by_cases h : m = l
  · subst h
    obtain ⟨now, x, hc, hx⟩ := choose_chosen s m
    rw [hc, State.lane_setLane, hx]
  · rw [choose_lane_ne s h]

theorem notePhase_same (s : State) : SameBut [.tick] s (notePhase s) := by
  unfold notePhase
  refine SameBut.ite ⟨fun p hp => ?_⟩ (SameBut.refl _ s)
  cases p <;> first | rfl | simp at hp

theorem notePhase_tick (s : State) : notePhase s = s ∨
    (s.tick.phase = 1 ∧ (notePhase s).tick = { s.tick with phase := 2, slackStart := s.tb3 }) := by
  unfold notePhase
  split
  · rename_i h
    exact .inr ⟨of_decide_eq_true (Bool.and_eq_true _ _ ▸ h).1, rfl⟩
  · exact .inl rfl

theorem notePhase_lane (s : State) (l : Lane) : (notePhase s).lane l = s.lane l :=
  (notePhase_same s).lane (by decide) (by decide) (by decide) l

/-! ### Boundaries -/

/-- A tick that has begun with a number and a time stands in its task phase or its slack. -/
def InTasks (n time : Nat) (t : State) : Prop := t.tick.begun = true ∧ (t.tick.phase = 1 ∨ t.tick.phase = 2) ∧ t.tick.n = n ∧ t.tick.time = time

theorem InTasks.of_tick {n time : Nat} {s t : State} (h : InTasks n time s) (ht : t.tick = s.tick) : InTasks n time t := by
  unfold InTasks
  rw [ht]
  exact h

theorem InTasks.notePhase {n time : Nat} {s : State} (h : InTasks n time s) : InTasks n time (notePhase s) := by
  obtain ⟨hb, hp, hn, ht⟩ := h
  rcases notePhase_tick s with he | ⟨-, he⟩
  · rw [he]
    exact ⟨hb, hp, hn, ht⟩
  · unfold InTasks
    rw [he]
    exact ⟨hb, .inr rfl, hn, ht⟩

theorem InTasks.resched {n time : Nat} {s : State} (h : InTasks n time s) (l : Lane) : InTasks n time (resched s l) :=
  (h.of_tick ((choose_same s l).same .tick (by decide))).notePhase

theorem InTasks.foldl {n time : Nat} {α : Type} {f : State → α → State} (hf : ∀ s a, InTasks n time s → InTasks n time (f s a)) (l : List α)
    {s : State} (h : InTasks n time s) : InTasks n time (l.foldl f s) := by
  induction l generalizing s with
  | nil => exact h
  | cons a l ih => exact ih (hf s a h)

theorem InTasks.clearLeaveOut {n time : Nat} {s : State} (h : InTasks n time s) (pn : Nat) (ks : List Nat) :
    InTasks n time (clearLeaveOut s pn ks) := by
  unfold Machine.clearLeaveOut
  split
  · exact h
  · refine InTasks.foldl (fun s t h => ?_) _ h
    dsimp only
    split
    · exact h
    · exact h

theorem InTasks.activate {n time : Nat} {s : State} (h : InTasks n time s) (prev k : Nat) : InTasks n time (activate s prev k) := by
  unfold Machine.activate
  refine InTasks.foldl (fun s pn h => h.clearLeaveOut pn _) _ (InTasks.foldl (fun s l h => ?_) _ h)
  split
  · exact h.of_tick ((setLane_same ..).same .tick (by decide))
  · exact h

/-- The tick as its boundary phase leaves it, before the lanes go on. -/
def State.openTick (s : State) (n t : Nat) : State :=
  { s with tick := { s.tick with n, time := t, phase := 1, begun := true, slackStart := t },
           voter := { s.voter with pos := 0 },
           pair := { s.pair with times := mapPut n t (s.pair.times.filter fun e => n ≤ e.1 + 8 && e.1 < n) } }

/-- The boundary phase ends in the task phase, or in the slack where no lane has timed work, at the boundary's number and time. -/
theorem step5_spec (s : State) (prev n time : Nat) : InTasks n time (step5 s prev n time) := by
  have h : InTasks n time (s.openTick n time) := ⟨rfl, .inl rfl, rfl, rfl⟩
  have hstep : step5 s prev n time =
      let v := if programRuns (s.openTick n time) && !programHeld (s.openTick n time) then Machine.activate (s.openTick n time) prev n
        else s.openTick n time
      closeRestarted (Machine.notePhase (if programHeld v then v else (runSet v).foldl Machine.resched v)) := rfl
  rw [hstep]
  generalize s.openTick n time = w at h ⊢
  have ha : InTasks n time (if programRuns w && !programHeld w then Machine.activate w prev n else w) := by
    split
    · exact h.activate prev n
    · exact h
  generalize (if programRuns w && !programHeld w then Machine.activate w prev n else w) = v at ha ⊢
  refine InTasks.of_tick (s := Machine.notePhase (if programHeld v then v else (runSet v).foldl Machine.resched v)) ?_ rfl
  refine InTasks.notePhase ?_
  split
  · exact ha
  · exact InTasks.foldl (fun s l h => h.resched l) _ ha

theorem runBoundary_spec (s : State) (g : GridPoint) (lag bph : Nat) : InTasks g.n g.time (runBoundary s g lag bph) := by
  unfold runBoundary
  exact step5_spec ..

/-- The point of the grid that the next boundary takes rests on TICK, TIME and the pair, not on PWR_START. -/
theorem pointNow_noteStart (s : State) (lag : Nat) : pointNow (noteStart s) lag = pointNow s lag := by
  unfold noteStart
  split <;> rfl

theorem boundaryAt_spec {s : State} (hb : boundariesRun s = true) {now : Nat} (hd : dueReset (s.at_ now) = none) (lag bph : Nat) :
    ∃ w, InTasks (pointNow w lag).n (pointNow w lag).time (boundaryAt s now lag bph) ∧
      (guardDue s = false → s.tick.guardOpen = false → pointNow w lag = pointNow (s.at_ now) lag) := by
  unfold boundaryAt
  rw [if_neg (by simp [hb])]
  dsimp only
  rw [hd]
  refine ⟨_, runBoundary_spec .., fun hg ho => ?_⟩
  rw [pointNow_noteStart, if_neg (show ¬ guardDue (s.at_ now) = true by rw [show guardDue (s.at_ now) = guardDue s from rfl, hg]; decide),
    guardClose, if_neg (show ¬ (s.at_ now).tick.guardOpen = true by rw [show (s.at_ now).tick = s.tick from rfl, ho]; decide)]

theorem pointNow_count {s : State} (hb : s.tick.begun = true) (hr : s.tick.rephaseDue = false) (hp : s.pair.role ≠ .standby) (lag : Nat) :
    (pointNow s lag).n = s.tick.n + 1 ∧
      (s.tick.align ≠ .aligned → s.tick.align ≠ .holdover → (pointNow s lag).time = s.tick.time + periodNs s) := by
  have hf : followPoint s = none := if_neg (by simp [hp])
  unfold pointNow
  rw [if_pos hb]
  unfold nextPoint
  rw [hf]
  dsimp only
  rw [if_neg (by simp [hr])]
  refine ⟨by split <;> rfl, fun h1 h2 => ?_⟩
  rw [if_neg (by simp [h1, h2])]

/-! ### The guard -/

/-- The tick and what each lane runs are as before. -/
structure TickKept (s t : State) : Prop where
  phase : t.tick.phase = s.tick.phase
  n : t.tick.n = s.tick.n
  time : t.tick.time = s.tick.time
  guardOpen : t.tick.guardOpen = s.tick.guardOpen
  current : ∀ l, (t.lane l).current = (s.lane l).current

theorem TickKept.refl (s : State) : TickKept s s := ⟨rfl, rfl, rfl, rfl, fun _ => rfl⟩

theorem TickKept.trans {s t r : State} (h : TickKept s t) (g : TickKept t r) : TickKept s r :=
  ⟨g.phase.trans h.phase, g.n.trans h.n, g.time.trans h.time, g.guardOpen.trans h.guardOpen, fun l => (g.current l).trans (h.current l)⟩

theorem TickKept.of_same {ps : List Part} {s t : State} (h : SameBut ps s t) (ht : Part.tick ∉ ps := by decide)
    (ha : Part.laneA ∉ ps := by decide) (hb : Part.laneB ∉ ps := by decide) (hc : Part.laneC ∉ ps := by decide) : TickKept s t := by
  have htick : t.tick = s.tick := h.same .tick ht
  exact ⟨by rw [htick], by rw [htick], by rw [htick], by rw [htick], fun l => by rw [h.lane ha hb hc]⟩

theorem TickKept.setLane (s : State) (l : Lane) {x : LaneSt} (h : x.current = (s.lane l).current) : TickKept s (s.setLane l x) := by
  have htick : (s.setLane l x).tick = s.tick := (setLane_same s l x).same .tick (by decide)
  refine ⟨by rw [htick], by rw [htick], by rw [htick], by rw [htick], fun m => ?_⟩
  by_cases hm : m = l
  · subst hm
    rw [State.lane_setLane, h]
  · rw [State.lane_setLane_ne s hm]

theorem TickKept.foldl {α : Type} {f : State → α → State} (hf : ∀ s a, TickKept s (f s a)) (l : List α) (s : State) :
    TickKept s (l.foldl f s) := by
  induction l generalizing s with
  | nil => exact .refl s
  | cons a l ih => exact (hf s a).trans (ih _)

theorem TickKept.mapLanes (s : State) {f : Lane → LaneSt → LaneSt} (h : ∀ l x, (f l x).current = x.current) : TickKept s (s.mapLanes f) := by
  have htick : (s.mapLanes f).tick = s.tick := (mapLanes_same s f).same .tick (by decide)
  exact ⟨by rw [htick], by rw [htick], by rw [htick], by rw [htick], fun l => by rw [lane_mapLanes, h]⟩

theorem tickKept_withVoter (s : State) (v : VoterState) : TickKept s { s with voter := v } :=
  ⟨rfl, rfl, rfl, rfl, fun l => by rw [lane_withVoter]⟩

theorem current_present (x : LaneSt) (r : EffectRec) : (x.present r).current = x.current := by
  unfold LaneSt.present
  split <;> rfl

theorem tickKept_present (s : State) (l : Lane) (r : EffectRec) : TickKept s (s.present l r) := .setLane s l (current_present ..)

theorem tickKept_raiseOpen (s : State) (u : UnitId) (k : Nat) : TickKept s (raiseOpen s u k) := .of_same (raiseOpen_same s u k)

theorem tickKept_stopController (s : State) (task cause : Nat) : TickKept s (stopController s task cause) := by
  let r := raiseOpen s .tick (if cause = 2 then 3 else 1)
  have h : TickKept s (discardEmissions (commitSafe (driveSafe r) [0, 1, 2, 3])) :=
    (tickKept_raiseOpen ..).trans ((TickKept.of_same (driveSafe_same r)).trans ((TickKept.of_same (commitSafe_same ..)).trans
      (.of_same (discardEmissions_same _))))
  unfold stopController
  dsimp only
  generalize discardEmissions (commitSafe (driveSafe (raiseOpen s .tick (if cause = 2 then 3 else 1))) [0, 1, 2, 3]) = w at h ⊢
  exact h.trans ⟨rfl, rfl, rfl, rfl, fun l => by cases l <;> rfl⟩

theorem tickKept_noteSkip (s : State) (p t : Nat) : TickKept s (noteSkip s p t) := by
  unfold noteSkip
  dsimp only
  refine TickKept.trans ?_ (tickKept_raiseOpen ..)
  exact ⟨rfl, rfl, rfl, rfl, fun l => by cases l <;> rfl⟩

theorem tickKept_skipTasks (s : State) (p : Nat) (ts : List Nat) : TickKept s (skipTasks s p ts) := by
  unfold skipTasks
  dsimp only
  refine TickKept.trans ?_ (tickKept_withVoter ..)
  refine TickKept.trans (TickKept.foldl (fun s t => tickKept_noteSkip s p t) ts s) ?_
  refine TickKept.foldl (fun s l => ?_) _ _
  exact TickKept.setLane s l rfl

theorem tickKept_overruns (s : State) : TickKept s (overruns s) := by
  unfold overruns
  split
  · refine .foldl (fun s p => ?_) _ s
    unfold overrun
    split
    · exact .refl s
    · split
      · exact tickKept_stopController ..
      · exact .refl s
      · exact tickKept_skipTasks ..
  · exact .refl s

theorem tickKept_noteDigest (s : State) (l : Option Lane) : TickKept s (noteDigest s l) :=
  ⟨rfl, rfl, rfl, rfl, fun m => by cases m <;> rfl⟩

theorem tickKept_voterStop (s : State) (k a : Nat) : TickKept s (voterStop s k a) := .of_same (voterStop_same s k a)

theorem tickKept_latent (s : State) (l : Lane) (vs : List Lane) : TickKept s (latent s l vs) := by
  unfold latent
  dsimp only
  refine TickKept.trans ?_ (TickKept.of_same (raise_same ..))
  refine TickKept.trans ?_ (tickKept_withVoter ..)
  refine TickKept.trans (tickKept_noteDigest s (some l)) ?_
  exact TickKept.setLane _ l rfl

theorem tickKept_compareDigests (s : State) : TickKept s (compareDigests s) := by
  have hsplit : TickKept s (digestSplit s) := (tickKept_noteDigest ..).trans (tickKept_voterStop ..)
  have hlatent (l : Lane) (vs : List Lane) (d : W64) : TickKept s (agreed (latent s l vs) d) :=
    (tickKept_latent s l vs).trans (tickKept_withVoter ..)
  unfold compareDigests
  dsimp only
  split
  · repeat' split
    · exact tickKept_withVoter ..
    · exact hlatent ..
    · exact hlatent ..
    · exact hlatent ..
    · exact hsplit
  · repeat' split
    · exact tickKept_withVoter ..
    · exact hsplit
  · exact .refl s

theorem tickKept_digestStep (s : State) : TickKept s (digestStep s) := by
  unfold digestStep
  refine TickKept.trans ?_ (TickKept.mapLanes _ fun _ _ => rfl)
  split
  · exact .refl s
  · exact tickKept_compareDigests s

theorem tickKept_gatherPages (s : State) (pages : List (Lane × List Nat)) : TickKept s (gatherPages s pages) := by
  unfold gatherPages
  split
  · exact .refl s
  · exact ⟨rfl, rfl, rfl, rfl, fun l => by cases l <;> rfl⟩

/-- The lane of a rejoin that fails is excluded, and its unit no longer in MAINT. -/
def State.excludeLane (s : State) (l : Lane) : State :=
  (leaveMaint s (.lane l)).setLane l { (leaveMaint s (.lane l)).lane l with role := .excluded }

theorem failRejoin_eq {s : State} {r : Rejoin} (h : s.voter.rejoin = some r) : failRejoin s =
    let f := failSelf (s.excludeLane r.lane) (.lane r.lane) 8 (s.excludeLane r.lane).voter.disAddr
    let e := releaseTokens { f with voter := { f.voter with rejoin := none } } .splitJoin
    if r.commanded then e.finish .voter .faulted 0 else e := by
  unfold failRejoin State.excludeLane
  rw [h]

theorem tickKept_failRejoin (s : State) : TickKept s (failRejoin s) := by
  cases hr : s.voter.rejoin with
  | none =>
    unfold failRejoin
    rw [hr]
    exact .refl s
  | some r =>
    have hlane : TickKept s (s.excludeLane r.lane) := (TickKept.of_same (leaveMaint_same ..)).trans (TickKept.setLane _ r.lane rfl)
    have hfail := hlane.trans
      (.of_same (failSelf_lane_spec (s.excludeLane r.lane) r.lane 8 (s.excludeLane r.lane).voter.disAddr).1)
    rw [failRejoin_eq hr]
    generalize failSelf (s.excludeLane r.lane) (.lane r.lane) 8 (s.excludeLane r.lane).voter.disAddr = f at hfail ⊢
    have hrelease : TickKept s (releaseTokens { f with voter := { f.voter with rejoin := none } } .splitJoin) :=
      (hfail.trans (tickKept_withVoter f _)).trans (.of_same (releaseTokens_same _ .splitJoin))
    dsimp only
    split
    · exact hrelease.trans (.of_same (finish_same ..))
    · exact hrelease

theorem tickKept_recopyStep (s : State) : TickKept s (recopyStep s) := by
  unfold recopyStep
  split
  · exact .refl s
  · repeat' split
    · exact .refl s
    · exact tickKept_failRejoin s
    · exact tickKept_withVoter ..

theorem tickKept_rebalanceGuard (s : State) : TickKept s (rebalanceGuard s) := by
  have hcopies : TickKept s (presentCopies s) := by
    unfold presentCopies
    split
    · split
      · exact .refl s
      · exact .foldl (fun s l => .foldl (fun s c => tickKept_present ..) _ s) _ s
    · exact .refl s
  unfold rebalanceGuard
  dsimp only
  split
  · split
    · exact hcopies
    · exact hcopies.trans ⟨rfl, rfl, rfl, rfl, fun l => by cases l <;> rfl⟩
  · exact hcopies

theorem tickKept_retentiveEmission (s : State) : TickKept s (retentiveEmission s) := by
  unfold retentiveEmission
  split
  · exact .refl s
  · split
    · exact .refl s
    · dsimp only
      split
      · exact ⟨rfl, rfl, rfl, rfl, fun l => by cases l <;> rfl⟩
      · exact (TickKept.foldl (fun s l => .foldl (fun s r => tickKept_present s l r) _ s) _ s).trans
          ⟨rfl, rfl, rfl, rfl, fun l => by cases l <;> rfl⟩

/-- The rest of the guard closes it; the tick and what the lanes run stay. -/
theorem guardRest_spec (s : State) : TickKept { s with tick := { s.tick with guardOpen := false } } (guardRest s) := by
  unfold guardRest
  dsimp only
  generalize ({ s with tick := { s.tick with guardOpen := false } } : State) = w
  exact (tickKept_overruns w).trans ((tickKept_digestStep _).trans ((tickKept_gatherPages ..).trans ((tickKept_recopyStep _).trans
    ((tickKept_rebalanceGuard _).trans ((tickKept_retentiveEmission _).trans (.of_same (noteQueues_same _)))))))

/-- The guard of a tick: its phase, number and time. -/
def InGuard (n time : Nat) (t : State) : Prop := t.tick.phase = 3 ∧ t.tick.n = n ∧ t.tick.time = time

theorem InGuard.resched {n time : Nat} {s : State} (h : InGuard n time s) (l : Lane) : InGuard n time (resched s l) := by
  have htick : (choose s l).tick = s.tick := (choose_same s l).same .tick (by decide)
  have hnote : Machine.resched s l = choose s l := by
    rcases notePhase_tick (choose s l) with he | ⟨hp, -⟩
    · exact he
    · rw [htick, h.1] at hp
      exact absurd hp (by decide)
  unfold InGuard
  rw [hnote, htick]
  exact h

theorem InGuard.of_kept {n time : Nat} {s t : State} (h : InGuard n time s) (hk : TickKept s t) : InGuard n time t :=
  ⟨hk.phase.trans h.1, hk.n.trans h.2.1, hk.time.trans h.2.2⟩

/-- The lanes have stopped for the guard, which is open. -/
def guardOpened (s : State) : State :=
  { suspendAll (noteSlack s) with tick := { (suspendAll (noteSlack s)).tick with phase := 3, guardOpen := true } }

theorem noteSlack_spec (s : State) : (noteSlack s).tick.n = s.tick.n ∧ (noteSlack s).tick.time = s.tick.time ∧
    (∀ l, (noteSlack s).lane l = s.lane l) ∧ ∀ l, leadCount (noteSlack s) l = leadCount s l := by
  unfold noteSlack
  split
  · exact ⟨rfl, rfl, fun _ => rfl, fun _ => rfl⟩
  · refine ⟨rfl, rfl, fun l => by cases l <;> rfl, fun l => ?_⟩
    cases l <;> rfl

theorem guardOpened_inGuard (s : State) : InGuard s.tick.n s.tick.time (guardOpened s) := by
  obtain ⟨hn, ht, -, -⟩ := noteSlack_spec s
  have htick : (suspendAll (noteSlack s)).tick = (noteSlack s).tick := (mapLanes_same ..).same .tick (by decide)
  exact ⟨rfl, (show _ = (suspendAll (noteSlack s)).tick.n from rfl).trans (by rw [htick, hn]),
    (show _ = (suspendAll (noteSlack s)).tick.time from rfl).trans (by rw [htick, ht])⟩

theorem foldl_inGuard {n time : Nat} (ls : List Lane) {s : State} (h : InGuard n time s) :
    InGuard n time (ls.foldl (fun s l => if (s.lane l).stops.isEmpty then s else resched s l) s) := by
  induction ls generalizing s with
  | nil => exact h
  | cons l ls ih =>
    refine ih (s := if (s.lane l).stops.isEmpty then s else resched s l) ?_
    split
    · exact h
    · exact h.resched l

theorem guardWork_inGuard (s : State) : InGuard s.tick.n s.tick.time (guardWork s) := by
  have hb : InGuard s.tick.n s.tick.time (guardBegin s) := foldl_inGuard (runSet (guardOpened s)) (guardOpened_inGuard s)
  unfold guardWork guardGo
  split
  · refine InGuard.of_kept ?_ (guardRest_spec _)
    exact hb
  · exact hb

theorem suspendLane_spec (x : LaneSt) : (suspendLane x).current = none ∧ (suspendLane x).stops = x.stops := by
  unfold suspendLane
  cases hc : x.current with
  | none => exact ⟨hc, rfl⟩
  | some k =>
    refine ⟨rfl, ?_⟩
    unfold saveCtx
    dsimp only
    split <;> rfl

theorem stopFor_none_spec (g : Nat) (x : LaneSt) : (stopFor g x none).current = none ∧ (stopFor g x none).stops = x.stops := by
  have hstops : (endFreeWait g x).stops = x.stops := by
    unfold endFreeWait
    split <;> rfl
  obtain ⟨hcur, hs⟩ := suspendLane_spec (endFreeWait g x)
  exact ⟨hcur, hs.trans hstops⟩

/-- Where no lane is behind, none runs after the suspension, and none has to come to an instruction. -/
theorem guardOpened_stopped {s : State} (h : ∀ l, (s.lane l).stops = [] ∧ leadCount s l ≤ (s.lane l).total) (l : Lane) :
    ((guardOpened s).lane l).current = none ∧ ((guardOpened s).lane l).stops = [] := by
  obtain ⟨-, -, hl, hlead⟩ := noteSlack_spec s
  obtain ⟨hs, ht⟩ := h l
  have hlane : (guardOpened s).lane l = (suspendAll (noteSlack s)).lane l := by cases l <;> rfl
  have hmap : (suspendAll (noteSlack s)).lane l = stopFor (guardInstant (noteSlack s)) (s.lane l) none := by
    unfold suspendAll
    rw [lane_mapLanes, hl, hlead]
    unfold LaneSt.suspend
    rw [if_pos (c := ((s.lane l).stops.isEmpty && decide (leadCount s l ≤ (s.lane l).total)) = true) (by simp [hs, ht]), ite_self]
  rw [hlane, hmap, ← hs]
  exact stopFor_none_spec ..

theorem foldl_stopped {s : State} (h : ∀ l, (s.lane l).stops = []) (ls : List Lane) :
    ls.foldl (fun s l => if (s.lane l).stops.isEmpty then s else resched s l) s = s := by
  induction ls with
  | nil => rfl
  | cons l ls ih => rw [List.foldl_cons, if_pos (by rw [h]; rfl), ih]

/-- Once no lane is behind the leading one, the guard closes and none runs a context. -/
theorem guardWork_closed {s : State} (h : ∀ l, (s.lane l).stops = [] ∧ leadCount s l ≤ (s.lane l).total) :
    (guardWork s).tick.guardOpen = false ∧ ∀ l, ((guardWork s).lane l).current = none := by
  have hstop := guardOpened_stopped h
  have hopen : (guardOpened s).tick.guardOpen = true := rfl
  have hbegin : guardBegin s = guardOpened s := foldl_stopped (fun l => (hstop l).2) (runSet (guardOpened s))
  unfold guardWork
  rw [hbegin]
  generalize guardOpened s = w at hstop hopen
  have hup : caughtUp w = true := by
    unfold caughtUp
    rw [List.all_eq_true]
    intro l _
    rw [(hstop l).2]
    rfl
  rw [guardGo, if_pos (by rw [hopen, hup]; rfl)]
  have hrest := guardRest_spec w
  refine ⟨hrest.guardOpen, fun l => (hrest.current l).trans ?_⟩
  rw [← (hstop l).1]
  cases l <;> rfl

/-! ### Safety windows -/

/-- What decides whether a lane goes on is as before, but for a task phase that ends. -/
structure Going (s t : State) : Prop where
  runs : programRuns t = programRuns s
  roles : ∀ l, (t.lane l).role = (s.lane l).role
  phase : t.tick.phase = s.tick.phase ∨ t.tick.phase = 2

theorem Going.refl (s : State) : Going s s := ⟨rfl, fun _ => rfl, .inl rfl⟩

theorem Going.trans {s t r : State} (h : Going s t) (g : Going t r) : Going s r :=
  ⟨g.runs.trans h.runs, fun l => (g.roles l).trans (h.roles l), by
    rcases g.phase with hp | hp
    · rw [hp]
      exact h.phase
    · exact .inr hp⟩

theorem Going.runSet_eq {s t : State} (h : Going s t) : runSet t = runSet s := by
  unfold runSet
  congr 1
  funext l
  rw [h.roles]

/-- Lanes and TB3 decide nothing of it but for the roles. -/
theorem Going.of_lanes {s t : State} (h : SameBut [.laneA, .laneB, .laneC, .time] s t) (hr : ∀ l, (t.lane l).role = (s.lane l).role) :
    Going s t := by
  have htick : t.tick = s.tick := h.same .tick (by decide)
  have hsafe : t.safe = s.safe := h.same .safe (by decide)
  have hvoter : t.voter = s.voter := h.same .voter (by decide)
  have hpair : t.pair = s.pair := h.same .pair (by decide)
  refine ⟨?_, hr, .inl (by rw [htick])⟩
  unfold programRuns running handedOver
  rw [htick, hsafe, hvoter, hpair]

theorem going_notePhase (s : State) : Going s (notePhase s) := by
  unfold notePhase
  split
  · exact ⟨rfl, fun l => by cases l <;> rfl, .inr rfl⟩
  · exact .refl s

theorem going_resched (s : State) (l : Lane) : Going s (resched s l) :=
  (Going.of_lanes (choose_same s l) (choose_role s l)).trans (going_notePhase _)

theorem resched_lane (s : State) (l m : Lane) : (resched s l).lane m = (choose s l).lane m := notePhase_lane ..

theorem suspendLane_keeps (x : LaneSt) : (suspendLane x).role = x.role ∧ (suspendLane x).safety = x.safety ∧
    (suspendLane x).timed = x.timed := by
  unfold suspendLane
  cases x.current with
  | none => exact ⟨rfl, rfl, rfl⟩
  | some k =>
    unfold saveCtx
    dsimp only
    split <;> exact ⟨rfl, rfl, rfl⟩

theorem stopFor_role (g : Nat) (x : LaneSt) (w : Option Nat) : (stopFor g x w).role = x.role := by
  cases w with
  | none =>
    have h : (endFreeWait g x).role = x.role := by
      unfold endFreeWait
      split <;> rfl
    exact (suspendLane_keeps (endFreeWait g x)).1.trans h
  | some i =>
    unfold stopFor
    dsimp only
    split
    · rfl
    · exact (suspendLane_keeps _).1

theorem suspend_role (x : LaneSt) (g lead : Nat) (w : Option Nat) : (x.suspend g lead w).role = x.role := by
  unfold LaneSt.suspend
  split
  · exact stopFor_role ..
  · rfl

/-- A lane that waits with one safety instance gives way to it. -/
theorem suspend_window {x : LaneSt} {g lead task i : Nat} (hstops : x.stops = []) (hlead : lead ≤ x.total) (htodo : x.safety.todo = [(task, i)])
    (hcur : x.current ≠ some .safety) : ∃ k, (x.suspend g lead (some i)).safety = { x.safety with opened := k } ∧ 0 < k ∧
      (x.suspend g lead (some i)).timed = x.timed := by
  have hopen : openWindows x.safety i = { x.safety with opened := max x.safety.opened 1 } := by
    have hfirst : x.safety.todo.findIdx? (fun (e : Nat × Nat) => e.2 = i) = some 0 := by
      rw [htodo]
      simp
    unfold openWindows
    rw [hfirst]
  have hpos : 0 < max x.safety.opened 1 := by omega
  have hne : ¬ (max x.safety.opened 1 = 0 || decide (x.current = some .safety)) = true := by simp [hcur]
  unfold LaneSt.suspend
  rw [if_pos (by simp [hstops, hlead])]
  unfold stopFor
  dsimp only
  rw [hopen, if_neg hne]
  obtain ⟨-, hs, ht⟩ := suspendLane_keeps { x with safety := { x.safety with opened := max x.safety.opened 1 } }
  exact ⟨_, hs, hpos, ht⟩

/-- The lane runs the instance in its safety context, and its timed context is as it was. -/
def Windowed (timed : LaneCtx) (i : Nat) (x : LaneSt) : Prop :=
  x.current = some .safety ∧ x.safety.busy = true ∧ x.safety.inst = i ∧ x.safety.todo = [] ∧ x.timed = timed

/-- A waiting safety instance whose window is open runs first. -/
theorem choose_window {s : State} {l : Lane} {task i : Nat} (hruns : programRuns s = true) (hl : l ∈ runSet s)
    (hphase : s.tick.phase = 1 ∨ s.tick.phase = 2) (hbusy : (s.lane l).safety.busy = false) (htodo : (s.lane l).safety.todo = [(task, i)])
    (hopen : 0 < (s.lane l).safety.opened) : Windowed (s.lane l).timed i ((choose s l).lane l) := by
  have hgo : ¬ (!programRuns s || decide (l ∉ runSet s) || decide (s.tick.phase = 0) ||
      decide (s.tick.phase = 3) && (s.lane l).stops.isEmpty) = true := by
    rcases hphase with hp | hp <;> simp [hruns, hl, hp]
  unfold choose
  dsimp only
  rw [if_neg hgo, if_neg (by rw [hbusy]; decide), if_pos (by simp [htodo, hopen]), State.lane_setLane]
  unfold startNext
  rw [htodo]
  exact ⟨rfl, rfl, rfl, rfl, rfl⟩

theorem preempt_lane_ne (s s' : State) {l m : Lane} (h : m ≠ l) (i : Nat) : (preempt s s' l i).lane m = s'.lane m := by
  unfold preempt
  rw [resched_lane, choose_lane_ne _ h, State.lane_setLane_ne _ h]

theorem going_preempt {s s' : State} (h : Going s s') (l : Lane) (i : Nat) : Going s (preempt s s' l i) := by
  let x := (s.lane l).suspend (guardInstant s) (leadCount s l) (some i)
  have hset : Going s' (s'.setLane l x) := by
    refine .of_lanes (setLane_same' ..) fun m => ?_
    by_cases hm : m = l
    · subst hm
      rw [State.lane_setLane, suspend_role, h.roles]
    · rw [State.lane_setLane_ne s' hm]
  exact h.trans (hset.trans (going_resched _ l))

theorem preempt_lane {s s' : State} (h : Going s s') {l : Lane} {task i : Nat} (hruns : programRuns s = true) (hl : l ∈ runSet s)
    (hphase : s.tick.phase = 1 ∨ s.tick.phase = 2) (hbusy : (s.lane l).safety.busy = false) (htodo : (s.lane l).safety.todo = [(task, i)])
    (hcur : (s.lane l).current ≠ some .safety) (hstops : (s.lane l).stops = []) (hlead : leadCount s l ≤ (s.lane l).total) :
    Windowed (s.lane l).timed i ((preempt s s' l i).lane l) := by
  let x := (s.lane l).suspend (guardInstant s) (leadCount s l) (some i)
  obtain ⟨k, hsafety, hk, htimed⟩ := suspend_window (g := guardInstant s) hstops hlead htodo hcur
  have hset : Going s (s'.setLane l x) := by
    refine h.trans (.of_lanes (setLane_same' ..) fun m => ?_)
    by_cases hm : m = l
    · subst hm
      rw [State.lane_setLane, suspend_role, h.roles]
    · rw [State.lane_setLane_ne s' hm]
  have hx : (s'.setLane l x).lane l = x := State.lane_setLane ..
  have hw := choose_window (s := s'.setLane l x) (l := l) (task := task) (i := i) (by rw [hset.runs, hruns]) (by rw [hset.runSet_eq]; exact hl)
    (by
      rcases hset.phase with hp | hp
      · rw [hp]
        exact hphase
      · exact .inr hp)
    (by rw [hx, hsafety]; exact hbusy) (by rw [hx, hsafety]; exact htodo) (by rw [hx, hsafety]; exact hk)
  rw [hx, htimed] at hw
  unfold preempt
  rw [resched_lane]
  exact hw

theorem foldl_preempt_ne (s : State) {l : Lane} (i : Nat) {ls : List Lane} (h : l ∉ ls) (s' : State) :
    (ls.foldl (fun s' m => preempt s s' m i) s').lane l = s'.lane l := by
  induction ls generalizing s' with
  | nil => rfl
  | cons m ls ih =>
    rw [List.mem_cons, not_or] at h
    rw [List.foldl_cons, ih h.2, preempt_lane_ne s s' h.1]

/-- Every lane that runs is given way to in turn, and a later one leaves it alone. -/
theorem foldl_preempt {s : State} {l : Lane} {i : Nat} {x : LaneSt → Prop} (hstep : ∀ s', Going s s' → x ((preempt s s' l i).lane l))
    {ls : List Lane} (hn : ls.Nodup) (hl : l ∈ ls) {s' : State} (h : Going s s') : x ((ls.foldl (fun s' m => preempt s s' m i) s').lane l) := by
  induction ls generalizing s' with
  | nil => exact absurd hl List.not_mem_nil
  | cons m ls ih =>
    obtain ⟨hm, hn⟩ := List.nodup_cons.1 hn
    rw [List.foldl_cons]
    by_cases hlm : l = m
    · subst hlm
      rw [foldl_preempt_ne s i hm]
      exact hstep s' h
    · exact ih hn (by simpa [hlm] using hl) (going_preempt h m i)

theorem runSet_nodup (s : State) : (runSet s).Nodup := List.Pairwise.filter _ (by decide)

theorem guardDue_phase {s : State} (h : guardDue s = true) : s.tick.phase = 1 ∨ s.tick.phase = 2 := by
  simp only [guardDue, Bool.and_eq_true, Bool.or_eq_true, decide_eq_true_eq] at h
  exact h.2

/-! ### The end of a window, and boundaries that are missed or late -/

theorem windowOver_late {s : State} {i : Nat} (h : ∃ l ∈ runSet s, ((s.lane l).safety.busy = true ∧ (s.lane l).safety.inst = i) ∨
    ∃ e ∈ (s.lane l).safety.todo, e.2 = i) : (windowOver s i).place.overLast = i ∧
      (windowOver s i).place.overCount = min 0xFFFF (s.place.overCount + 1) ∧ ∃ a, Reports s (windowOver s i) .place 4 a := by
  let w : State := { s with place := { s.place with overLast := i, overCount := satUp 0xFFFF s.place.overCount } }
  have hw : windowOver s i = raiseOpen w .place 4 := by
    unfold windowOver
    refine if_pos (List.any_eq_true.2 ?_)
    obtain ⟨l, hl, hlate⟩ := h
    exact ⟨l, hl, by simpa using hlate⟩
  have hp : (raiseOpen w .place 4).place = w.place := (raiseOpen_same ..).same .place (by decide)
  obtain ⟨a, ha⟩ := raiseOpen_reports w .place 4
  rw [hw, hp]
  exact ⟨rfl, satUp_eq_min .., a, ha.of_before rfl (.of_ucb rfl)⟩

theorem windowOver_ended {s : State} {i : Nat} (h : ∀ l ∈ runSet s, ¬ (((s.lane l).safety.busy = true ∧ (s.lane l).safety.inst = i) ∨
    ∃ e ∈ (s.lane l).safety.todo, e.2 = i)) : windowOver s i = s := by
  unfold windowOver
  refine if_neg fun hc => ?_
  obtain ⟨l, hl, hlate⟩ := List.any_eq_true.1 hc
  exact h l hl (by simpa using hlate)

theorem boundaryMissed_spec {s : State} (h9 : s.pwr.step = 9) (hf : s.pwr.failed = 0) : (boundaryMissed s).safe.safe = true ∧
    (boundaryMissed s).braked = true ∧ (boundaryMissed s).tick.stopTask = 0 ∧ (boundaryMissed s).tick.stopCause = 3 ∧
      (boundaryMissed s).tick.n = s.tick.n ∧ ∃ a, Reports s (boundaryMissed s) .tick 5 a := by
  have hb : boundaryMissed s = { raiseSafeOpen s .tick 5 with
      tick := { (raiseSafeOpen s .tick 5).tick with stopTask := 0, stopCause := 3 } } := if_neg (by simp [h9, hf])
  obtain ⟨hsafe, hbraked⟩ := raiseSafeOpen_safe s .tick 5
  have htick : (raiseSafeOpen s .tick 5).tick = s.tick := (raiseSafeOpen_same ..).same .tick (by decide)
  obtain ⟨a, ha⟩ := raiseSafeOpen_reports s (u := .tick) (by decide) 5
  rw [hb]
  generalize raiseSafeOpen s .tick 5 = w at hsafe hbraked htick ha
  exact ⟨hsafe, hbraked, rfl, rfl, by rw [htick], a, ha.of_ucb rfl⟩

theorem noteLate_reports {s : State} {lag : Nat} (ha : s.tick.align = .aligned) (hl : 1000 < lag) (bph : Nat) :
    ∃ a, Reports s (noteLate s lag bph) .tick 4 a := by
  unfold noteLate
  dsimp only
  rw [if_pos (by simp [ha, hl])]
  obtain ⟨a, hr⟩ := raiseOpen_reports { s with tick := { s.tick with
    lag := min 0xFFFF lag, lagMax := max s.tick.lagMax (min 0xFFFF lag), bph := min 0xFFFF bph,
    bphMax := max s.tick.bphMax (min 0xFFFF bph) } } .tick 4
  exact ⟨a, hr.of_before rfl (.of_ucb rfl)⟩

/-! ### The obligation -/

/-- Settles O53: the phases in the order of a tick, and what is late. -/
theorem ticksRunThroughTheirPhases : Obligations.TicksRunThroughTheirPhases := by
  unfold Obligations.TicksRunThroughTheirPhases
  intro s
  refine ⟨fun now lag bph hb => ⟨fun hd => ⟨_, rfl, ?_⟩, fun c hc => ⟨_, rfl, ?_⟩⟩, fun now hg => ⟨_, rfl, ?_⟩, fun now hg ho => ?_,
    fun i l task hr hg hl hbusy htodo hcur hstops hlead => ⟨_, rfl, ?_⟩, fun i => ⟨fun h => ⟨_, rfl, windowOver_late h⟩, fun h => ?_⟩,
    fun now h9 hf => ⟨_, rfl, ?_⟩, fun now h => ?_, fun lag bph ha hl => noteLate_reports ha hl bph⟩
  · obtain ⟨w, ⟨hbegun, hphase, hn, ht⟩, hpoint⟩ := boundaryAt_spec hb hd lag bph
    refine ⟨hbegun, hphase, fun hg ho => ?_⟩
    rw [hpoint hg ho] at hn ht
    refine ⟨⟨hn, ht⟩, fun hbeg hre hrole => ?_⟩
    obtain ⟨hcount, htime⟩ := pointNow_count (s := s.at_ now) hbeg hre hrole lag
    exact ⟨hn.trans hcount, fun h1 h2 => ht.trans (htime h1 h2)⟩
  · have hin : (s.at_ now).pwr.inReset = false := by
      simp only [boundariesRun, Bool.and_eq_true, Bool.not_eq_true'] at hb
      exact hb.2
    unfold boundaryAt
    rw [if_neg (by simp [hb])]
    dsimp only
    rw [hc]
    exact enterReset_inReset hin c
  · rw [if_pos hg]
    obtain ⟨hphase, hn, ht⟩ := guardWork_inGuard (s.at_ now)
    exact ⟨hphase, hn, ht, fun h => guardWork_closed (s := s.at_ now) h⟩
  · have hgo : guardGo s = s := if_neg (by simp [ho])
    refine congrArg Host.Outcome.next ?_
    rw [if_neg (by simp [hg]), if_neg (by simp [ho]), hgo]
  · unfold safetyWindow
    rw [if_neg (by simp [hr, hg])]
    exact foldl_preempt (x := Windowed (s.lane l).timed i.toNat)
      (fun s' hgo => preempt_lane hgo hr hl (guardDue_phase hg) hbusy htodo hcur hstops hlead) (runSet_nodup s) hl (.refl s)
  · exact congrArg Host.Outcome.next (windowOver_ended h)
  · obtain ⟨hsafe, hbraked, htask, hcause, hn, a, ha⟩ := boundaryMissed_spec (s := s.at_ now) h9 hf
    exact ⟨hsafe, hbraked, htask, hcause, hn, a, ha.of_before rfl (.of_ucb rfl)⟩
  · refine congrArg Host.Outcome.next ((if_pos ?_).trans rfl)
    rcases h with h | h <;> simp [State.at_, h]

end Sys2Proof.Machine
end

section
/-! Faults, their classes and the reactions to them (O54). -/

namespace Sys2Proof.Machine

open Sys2Proof

/-! ### The collector takes a message (R281, R285, R288) -/

theorem windowOfMsg_nil {s : State} (h : s.flt.windows = []) (u : UnitId) (a : Nat) : windowOfMsg s u a = none := by
  unfold windowOfMsg
  rw [h]
  rfl

/-- The collector's records of a message, and the control block of its source. -/
def accepted (s : State) (u : UnitId) (m : FaultMsg) (v : Verdict) (r : Reaction) : State :=
  nextHeld ((recordMsg s m ((s.flt.seq + 1) % 2 ^ 32) v r 0).setUcb u fun b =>
    { b with fLevel := v.level, fConseq := false, faultTaken := b.faultTaken || b.faultClass = some m.cls }) u

/-- A message that no window makes consequential is recorded, offered and answered. -/
theorem takeFrom_eq {s : State} {u : UnitId} {m : FaultMsg} (hh : (s.ucb u).held = some m) (hw : s.flt.windows = []) :
    takeFrom s u =
      let v := classify s u m false
      let m' : FaultMsg := { m with level := v.level, conseq := false }
      let seq := (s.flt.seq + 1) % 2 ^ 32
      let p := adjust u (reactionOf s m' false v.level)
      react (injectReported (offerFault (accepted s u m' v p.1) m' seq) m' seq) u m' seq p.1 p.2 := by
  unfold takeFrom
  rw [hh]
  dsimp only
  rw [windowOfMsg_nil hw]
  rfl

theorem takeMessage_eq {s : State} {u : UnitId} {m : FaultMsg} (hh : (s.ucb u).held = some m) (hf : firstSender s u = u) :
    takeMessage s u = takeFrom s u := by
  unfold takeMessage
  rw [hh, hf]
  rfl

theorem nextHeld_same (s : State) (u : UnitId) : SameBut [.ucbs, .freeCount] s (nextHeld s u) := by
  unfold nextHeld
  exact SameBut.ite ((setUcb_same ..).mono (by decide)) (((free_same s).mono (by decide)).trans ((setUcb_same ..).mono (by decide)))

theorem nextHeld_none {s : State} {u : UnitId} (h : (s.ucb u).waiting = []) : ((nextHeld s u).ucb u).held = none := by
  unfold nextHeld
  dsimp only
  rw [if_pos (by rw [h]; rfl), State.ucb_setUcb]

theorem accepted_flt (s : State) (u : UnitId) (m : FaultMsg) (v : Verdict) (r : Reaction) :
    (accepted s u m v r).flt = (recordMsg s m ((s.flt.seq + 1) % 2 ^ 32) v r 0).flt :=
  ((nextHeld_same _ u).same .flt (by decide)).trans ((setUcb_same ..).same .flt (by decide))

theorem accepted_safe (s : State) (u : UnitId) (m : FaultMsg) (v : Verdict) (r : Reaction) : (accepted s u m v r).safe = s.safe :=
  ((nextHeld_same _ u).same .safe (by decide)).trans ((setUcb_same ..).same .safe (by decide))

theorem accepted_held {s : State} {u : UnitId} (h : (s.ucb u).waiting = []) (m : FaultMsg) (v : Verdict) (r : Reaction) :
    ((accepted s u m v r).ucb u).held = none := by
  refine nextHeld_none ?_
  rw [State.ucb_setUcb]
  exact h

theorem offerFault_same (s : State) (m : FaultMsg) (seq : Nat) : SameBut [.ucbs, .evr] s (offerFault s m seq) := by
  unfold offerFault
  exact SameBut.ite (offerPrivileged_same ..) ((offerLimited_same ..).mono (by decide))

theorem adjust_log (u : UnitId) : adjust u .log = (.log, false) := by
  unfold adjust
  split <;> rfl

theorem adjust_safeState (u : UnitId) : adjust u .safeState = (.safeState, false) := by
  unfold adjust
  split <;> rfl

theorem classify_quiet {s : State} {u : UnitId} {m : FaultMsg} (hl : m.level = 0) (hk : u = .flt → m.kind ≠ 1)
    (hu : mapGet? m.cls s.flt.unack = none) (hn : (countRule s (handleOf u)).1 = 0) : (classify s u m false).level = 0 := by
  unfold classify
  rw [if_neg (by decide), if_neg (by simp; exact hk)]
  dsimp only
  rw [hu, hn, hl]
  rfl

theorem classify_four {s : State} {u : UnitId} {m : FaultMsg} (hl : m.level = 4) : (classify s u m false).level = 4 := by
  unfold classify
  rw [if_neg (by decide)]
  split
  · rfl
  · dsimp only
    rw [hl]
    (repeat' split) <;> rfl

/-- A message of level 0 in a quiet class is logged. -/
theorem takeFrom_quiet {s : State} {u : UnitId} {m : FaultMsg} (hh : (s.ucb u).held = some m) (hw : s.flt.windows = []) (hl : m.level = 0)
    (hc : m.conseq = false) (hi : m.injected = false) (hk : u = .flt → m.kind ≠ 1) (hu : mapGet? m.cls s.flt.unack = none)
    (hn : (countRule s (handleOf u)).1 = 0) (hwait : (s.ucb u).waiting = []) :
    (takeFrom s u).flt.seq = (s.flt.seq + 1) % 2 ^ 32 ∧ ((takeFrom s u).ucb u).held = none ∧ (takeFrom s u).safe = s.safe ∧
      (∃ e, (takeFrom s u).flt.history = (e :: s.flt.history).take 16 ∧ e.msg = m ∧ e.seq = (takeFrom s u).flt.seq ∧ e.reaction = .log ∧
        e.acked = false) ∧ mapGet? m.cls (takeFrom s u).flt.unack = some 0 := by
  have hlevel := classify_quiet hl hk hu hn
  have hm : ({ m with level := 0, conseq := false } : FaultMsg) = m := by
    rw [← hl, ← hc]
  have hadj : adjust u (reactionOf s m false 0) = (.log, false) := adjust_log u
  have heq : takeFrom s u = offerLimited (accepted s u m (classify s u m false) .log) (0x1000 + m.cls * 0x100 + m.kind) m.source
      (faultData m ((s.flt.seq + 1) % 2 ^ 32)) := by
    rw [takeFrom_eq hh hw]
    dsimp only
    rw [hlevel, hm, hadj, show ∀ t n, injectReported t m n = t from fun t n => if_neg (by simp [hi])]
    exact if_neg (by rw [hl]; decide)
  rw [heq]
  have hs := offerLimited_same (accepted s u m (classify s u m false) .log) (0x1000 + m.cls * 0x100 + m.kind) m.source
    (faultData m ((s.flt.seq + 1) % 2 ^ 32))
  have hflt := (hs.same .flt (by decide)).trans (accepted_flt s u m (classify s u m false) .log)
  have hsafe := (hs.same .safe (by decide)).trans (accepted_safe s u m (classify s u m false) .log)
  have hheld := (congrArg Ucb.held (ucb_of_ucbs (hs.same .ucbs (by decide)) u)).trans
    (accepted_held hwait m (classify s u m false) .log)
  refine ⟨by rw [hflt]; rfl, hheld, hsafe, ⟨_, by rw [hflt]; rfl, rfl, by rw [hflt]; rfl, rfl, rfl⟩, ?_⟩
  rw [hflt]
  unfold recordMsg raiseMax
  dsimp only
  rw [if_neg (by simp [hc]), mapGet?_put_same, mapGetD, hu, hl]
  rfl

theorem injectReported_seq (s : State) (m : FaultMsg) (seq : Nat) : (injectReported s m seq).flt.seq = s.flt.seq := by
  unfold injectReported
  split
  · rfl
  · rfl

/-- A message of level 4 brings the safe state. -/
theorem takeFrom_four {s : State} {u : UnitId} {m : FaultMsg} (hh : (s.ucb u).held = some m) (hw : s.flt.windows = []) (hl : m.level = 4) :
    (takeFrom s u).flt.seq = (s.flt.seq + 1) % 2 ^ 32 ∧ (takeFrom s u).safe.safe = true ∧ (takeFrom s u).braked = true := by
  let m' : FaultMsg := { m with level := 4, conseq := false }
  let seq := (s.flt.seq + 1) % 2 ^ 32
  let w := injectReported (offerFault (accepted s u m' (classify s u m false) .safeState) m' seq) m' seq
  have hadj : adjust u (reactionOf s m' false 4) = (.safeState, false) := adjust_safeState u
  have heq : takeFrom s u = enterSafe (cancelRestart w u) ⟨m.source, m.kind, m.cls, 1⟩ := by
    rw [takeFrom_eq hh hw]
    dsimp only
    rw [classify_four hl, show adjust u (reactionOf s { m with level := 4, conseq := false } false 4) = (.safeState, false) from hadj]
    rfl
  have hseq : w.flt.seq = seq := by
    have hflt : (offerFault (accepted s u m' (classify s u m false) .safeState) m' seq).flt = _ :=
      ((offerFault_same ..).same .flt (by decide)).trans (accepted_flt ..)
    rw [injectReported_seq, hflt]
    rfl
  rw [heq]
  obtain ⟨hsafe, hbraked, -⟩ := enterSafe_safe (cancelRestart w u) ⟨m.source, m.kind, m.cls, 1⟩
  refine ⟨?_, hsafe, hbraked⟩
  rw [show (enterSafe (cancelRestart w u) ⟨m.source, m.kind, m.cls, 1⟩).flt = (cancelRestart w u).flt from
    (enterSafe_same ..).same .flt (by decide)]
  exact hseq

/-! ### ACK and INJECT (R287, R299) -/

/-- What an acknowledgement does to a control block. -/
def ackUcb (all : Bool) (cls : Nat) (b : Ucb) : Ucb :=
  match b.faultClass with
  | some k => if acked all cls k && b.faultTaken then { b with faultClass := none, faultTaken := false } else b
  | none => b

theorem ucb_acknowledge (s : State) (all : Bool) (cls : Nat) (u : UnitId) : (acknowledge s all cls).ucb u = ackUcb all cls (s.ucb u) := by
  have h : (acknowledge s all cls).ucbs = s.ucbs.map fun c => (c.1, ackUcb all cls c.2) := rfl
  unfold State.ucb mapGetD
  rw [h, mapGet?_map]
  cases mapGet? (handleOf u) s.ucbs <;> rfl

theorem ackUcb_work (all : Bool) (cls : Nat) (b : Ucb) : (ackUcb all cls b).busy = b.busy ∧ (ackUcb all cls b).running = b.running ∧
    (ackUcb all cls b).result = b.result := by
  unfold ackUcb
  split
  · split <;> exact ⟨rfl, rfl, rfl⟩
  · exact ⟨rfl, rfl, rfl⟩

theorem Ended.of_work {s t r : State} {u : UnitId} {code : Nat} {st : Status} {d : Nat} (h : Ended s t u code st d)
    (hw : (r.ucb u).busy = (t.ucb u).busy ∧ (r.ucb u).running = (t.ucb u).running ∧ (r.ucb u).result = (t.ucb u).result) :
    Ended s r u code st d := by
  obtain ⟨hb, hr, hres⟩ := hw
  unfold Ended
  rw [hb, hr, hres]
  exact h

theorem acknowledge_ended {s t : State} {u : UnitId} {code : Nat} {st : Status} {d : Nat} (h : Ended s t u code st d) (all : Bool) (cls : Nat) :
    Ended s (acknowledge t all cls) u code st d :=
  h.of_work (by rw [ucb_acknowledge]; exact ackUcb_work ..)

/-- The entry of a class that the acknowledgement names is acknowledged. -/
theorem acknowledge_history {s : State} {all : Bool} {cls : Nat} {e : HistEntry} (he : e ∈ (acknowledge s all cls).flt.history)
    (h : acked all cls e.msg.cls = true) : e.acked = true := by
  obtain ⟨x, -, rfl⟩ := List.mem_map.1 he
  by_cases hx : acked all cls x.msg.cls = true
  · rw [if_pos hx]
  · rw [if_neg hx] at h
    exact absurd h hx

/-- The argument of ACK names one class or all. -/
theorem acked_arg {arg : Nat} (h : arg < 32) (c : Nat) :
    acked (decide (arg / 16 % 2 = 1)) (arg % 16) c = (decide (16 ≤ arg) || decide (c = arg)) := by
  unfold acked
  by_cases hc : 16 ≤ arg
  · have h1 : arg / 16 % 2 = 1 := by omega
    simp [hc, h1]
  · have h1 : ¬ arg / 16 % 2 = 1 := by omega
    have h2 : arg % 16 = arg := by omega
    simp [hc, h1, h2]

/-- A corrected error that INJECT causes is counted, and its report is marked. -/
theorem eccCorrected_injected {s : State} {l : Lane} (hm : masked s (.lane l) = false) (hh : (s.ucb (.lane l)).held = none) (a : Nat) :
    ((eccCorrected s (.lane l) a true).lane l).corrected = min 0xFFFF ((s.lane l).corrected + 1) ∧
      (eccCorrected s (.lane l) a true).flt = s.flt ∧ (∀ u, u ≠ .lane l → (eccCorrected s (.lane l) a true).ucb u = s.ucb u) ∧
      ∃ m, ((eccCorrected s (.lane l) a true).ucb (.lane l)).held = some m ∧ m.kind = 0xA ∧ m.injected = true := by
  let x : LaneSt := { s.lane l with corrected := satUp 0xFFFF (s.lane l).corrected }
  let m : FaultMsg := { source := handleOf (.lane l), kind := 0xA, cls := (kindOf (.lane l) 0xA).1, level := (kindOf (.lane l) 0xA).2,
                        address := a % 2 ^ 32, injected := true }
  have hmask : masked (s.setLane l x) (.lane l) = false := (masked_setLane s l x _).trans hm
  have heq : eccCorrected s (.lane l) a true = (s.setLane l x).setUcb (.lane l) fun b => b.send (s.setLane l x).tb3 m :=
    if_neg (by rw [hmask]; decide)
  rw [heq]
  have hs := setUcb_same (s.setLane l x) (.lane l) fun b => b.send (s.setLane l x).tb3 m
  refine ⟨?_, (hs.same .flt (by decide)).trans ((setLane_same s l x).same .flt (by decide)), fun u hu => ?_, m, ?_, rfl, rfl⟩
  · rw [hs.lane (by decide) (by decide) (by decide), State.lane_setLane, ← satUp_eq_min]
  · rw [State.ucb_setUcb_ne _ hu, ucb_setLane]
  · rw [State.ucb_setUcb, ucb_setLane, Ucb.send, hh]

/-- INJECT of a corrected error at a lane's checker runs on, and the checker reports it. -/
theorem inject_lane_spec {s : State} {l : Lane} {arg : Nat} (hc : checkerOf (arg / 65536) = some (.ecc (.lane l))) (h4 : arg % 4 = 0)
    (hm : masked s (.lane l) = false) (hh : (s.ucb (.lane l)).held = none) (w : Writer) :
    (runSpecific s w .flt 0x81 arg).flt.inject.isSome = true ∧
      ((runSpecific s w .flt 0x81 arg).lane l).corrected = min 0xFFFF ((s.lane l).corrected + 1) ∧
      Busy s (runSpecific s w .flt 0x81 arg) .flt w 0x81 arg ∧
      ∃ m, ((runSpecific s w .flt 0x81 arg).ucb (.lane l)).held = some m ∧ m.kind = 0xA ∧ m.injected = true := by
  let g : State := s.begin_ .flt w 0x81 arg
  let v : State := { g with flt := { g.flt with inject := some { checker := arg / 65536, arg } } }
  have heq : runSpecific s w .flt 0x81 arg = eccCorrected v (.lane l) (injectAddress arg) true := by
    refine (show runSpecific s w .flt 0x81 arg = inject g arg from rfl).trans ?_
    unfold inject
    rw [hc]
    exact if_pos h4
  have hgl : g.ucb (.lane l) = s.ucb (.lane l) := State.ucb_setUcb_ne s (u := .flt) (v := .lane l) (by simp) _
  obtain ⟨hcorr, hflt, hother, hmsg⟩ := eccCorrected_injected (s := v) hm ((congrArg Ucb.held hgl).trans hh) (injectAddress arg)
  rw [heq]
  refine ⟨by rw [hflt]; rfl, hcorr.trans (by cases l <;> rfl), (begin_busy s .flt w 0x81 arg).of_ucb (hother .flt nofun), hmsg⟩

/-! ### What ends in the safe state -/

/-- What a unit executes is the same in two states. -/
def SameWork (s t : State) (u : UnitId) : Prop :=
  (t.ucb u).busy = (s.ucb u).busy ∧ (t.ucb u).running = (s.ucb u).running ∧ (t.ucb u).result = (s.ucb u).result

theorem SameWork.trans {s t r : State} {u : UnitId} (h : SameWork s t u) (g : SameWork t r u) : SameWork s r u :=
  ⟨g.1.trans h.1, g.2.1.trans h.2.1, g.2.2.trans h.2.2⟩

theorem SameWork.of_ucb {s t : State} {u : UnitId} (h : t.ucb u = s.ucb u) : SameWork s t u := by
  unfold SameWork
  rw [h]
  exact ⟨rfl, rfl, rfl⟩

theorem SameWork.of_same {s t : State} {ps : List Part} (h : SameBut ps s t) (hp : Part.ucbs ∉ ps) (u : UnitId) : SameWork s t u :=
  .of_ucb (ucb_of_ucbs (h.same .ucbs hp) u)

theorem raise_sameWork (s : State) (u v : UnitId) (k a : Nat) : SameWork s (raise s u k a) v := by
  unfold raise raiseAs
  split
  · exact .of_ucb rfl
  · unfold SameWork
    rw [State.ucb_setUcb_if]
    split
    · rename_i h
      subst h
      unfold Ucb.send
      dsimp only
      split <;> exact ⟨rfl, rfl, rfl⟩
    · exact ⟨rfl, rfl, rfl⟩

theorem releaseTokens_sameWork (s : State) (a : Activity) (u : UnitId) : SameWork s (releaseTokens s a) u := by
  unfold SameWork
  rw [ucb_releaseTokens_token]
  exact ⟨rfl, rfl, rfl⟩

/-- The end of a brake test or of a re-timing ends no command but one of SAFE/FIO. -/
theorem endFieldActivity_sameWork (s : State) {a : Activity} (h : a = .brakeTest ∨ a = .offPulseRetime) {u : UnitId} (hu : u ≠ .safe) :
    SameWork s (endActivity s a) u := by
  have hrun : SameWork s (failRunning s a) u := by
    have hr : runner a = .safe := by rcases h with rfl | rfl <;> rfl
    unfold failRunning
    rw [hr]
    split
    · split
      · exact .of_ucb (State.ucb_setUcb_ne s hu _)
      · exact .of_ucb rfl
    · exact .of_ucb rfl
  rw [endActivity_eq]
  split
  · exact .of_ucb rfl
  · refine (hrun.trans (releaseTokens_sameWork _ a u)).trans ?_
    rcases h with rfl | rfl <;> exact .of_ucb rfl

theorem enterSafe_sameWork (s : State) (cause : SafeCause) {u : UnitId} (he : u ≠ .evr) (hs : u ≠ .safe) : SameWork s (enterSafe s cause) u := by
  have hbody : SameWork s (enterSafeBody s cause) u :=
    (SameWork.of_same (markSafe_same s cause) (by decide) u).trans <| (SameWork.of_same (driveSafe_same _) (by decide) u).trans <|
      (SameWork.of_same (commitSafe_same _ _) (by decide) u).trans <| (SameWork.of_same (openSupplies_same _) (by decide) u).trans <|
      (SameWork.of_same (discardEmissions_same _) (by decide) u).trans <| (SameWork.of_same (clearRunning_same _) (by decide) u).trans <|
      (endFieldActivity_sameWork _ (.inl rfl) hs).trans (endFieldActivity_sameWork _ (.inr rfl) hs)
  rw [enterSafe_eq]
  split
  · exact hbody.trans ((SameWork.of_same (noteSafe_same _) (by decide) u).trans (.of_ucb (ucb_offer _ he ..)))
  · exact hbody

theorem raiseSafeOpen_sameWork (s : State) (v : UnitId) (k : Nat) {u : UnitId} (he : u ≠ .evr) (hs : u ≠ .safe) :
    SameWork s (raiseSafeOpen s v k) u :=
  ((SameWork.of_same (free_same s) (by decide) u).trans (raise_sameWork s.free.2 v u k s.free.1)).trans (enterSafe_sameWork _ _ he hs)

/-- An injection that no detector reports ends TIMEOUT in the safe state (R300). -/
theorem injectMissed_spec {s : State} {r : Running} (hi : s.flt.inject.isSome = true) (hr : (s.ucb .flt).running = some r) :
    (injectMissed s).flt.inject = none ∧ (injectMissed s).safe.safe = true ∧ (injectMissed s).braked = true ∧
      Ended s (injectMissed s) .flt r.code .timeout 0 := by
  let w : State := ({ s with flt := { s.flt with inject := none } } : State).finish .flt .timeout 0
  have heq : injectMissed s = raiseSafeOpen w .flt 2 := if_neg (by cases h : s.flt.inject <;> simp_all)
  have hw : Ended s w .flt r.code .timeout 0 := Ended.of_before (finish_ended hr .timeout 0) rfl
  obtain ⟨hsafe, hbraked⟩ := raiseSafeOpen_safe w .flt 2
  rw [heq]
  refine ⟨?_, hsafe, hbraked, hw.of_work (raiseSafeOpen_sameWork w .flt 2 (by decide) (by decide))⟩
  rw [show (raiseSafeOpen w .flt 2).flt = w.flt from (raiseSafeOpen_same ..).same .flt (by decide)]
  rfl

/-- The degrade count at its limit brings the safe state with its cause (R309). -/
theorem degradeExpired_spec {s : State} (hf : s.safe.degradeFrom.isSome = true) (hl : degradeLimit s ≤ s.safe.degradeTime)
    (hs : s.safe.safe = false) : (degradeExpired s).safe.safe = true ∧ (degradeExpired s).braked = true ∧
      (degradeExpired s).safe.cause = ⟨6, 0xD, 2, 3⟩ := by
  have heq : degradeExpired s = enterSafe (raise s .safe 0xD 0) ⟨handleOf .safe, 0xD, 2, 3⟩ := if_pos (by simp [hf, hl, hs])
  have hkeep : (raise s .safe 0xD 0).safe = s.safe := (raise_same ..).same .safe (by decide)
  obtain ⟨hsafe, hbraked, hcause⟩ := enterSafe_safe (raise s .safe 0xD 0) ⟨handleOf .safe, 0xD, 2, 3⟩
  rw [heq]
  refine ⟨hsafe, hbraked, ?_⟩
  rw [hcause, hkeep, hs]
  rfl

/-! ### The restart of a reset unit (R292) -/

theorem enterRun_same (s : State) (u : UnitId) : SameBut [.cans, .net, .place, .safe] s (enterRun s u) := by
  have can (n : Fin 6) : SameBut [.cans, .net, .place, .safe] s (canStart s n) :=
    ((setCan_same ..).mono (by decide)).trans ((setCan_same ..).mono (by decide))
  unfold enterRun
  cases u with
  | can n => exact SameBut.ite (can n) ((can n).trans ((healthy_same ..).mono (by decide)))
  | eth x => exact (setEth_same ..).mono (by decide)
  | ser x => exact (healthy_same ..).mono (by decide)
  | hlk => exact SameBut.foldl (fun s n => SameBut.ite ((healthy_same ..).mono (by decide)) (SameBut.refl _ s)) _ s
  | safe => exact ⟨fun p hp => by cases p <;> first | rfl | simp at hp⟩
  | _ => exact SameBut.refl _ s

theorem follows_of_plain {u : UnitId} (h : plainUnit u = true) : followsMembers u = false := by
  cases u <;> first | rfl | simp [plainUnit] at h

/-- A unit that stands elsewhere than in RUN takes QUIESCED, and the collector's windows stay. -/
theorem enterState_quiesced {s : State} {u : UnitId} (hu : plainUnit u = true) (hs : (s.ucb u).state ≠ .run) :
    (enterState s u .quiesced).ucb u = (s.ucb u).gated .quiesced ∧ (enterState s u .quiesced).flt = s.flt := by
  have heq : enterState s u .quiesced = noteGroups (s.setUcb u (·.gated .quiesced)) := by
    simp [enterState, hs]
  rw [heq]
  refine ⟨?_, ((noteGroups_same _).same .flt (by decide)).trans ((setUcb_same ..).same .flt (by decide))⟩
  rw [ucb_noteGroups _ (follows_of_plain hu), State.ucb_setUcb]

/-- It takes RUN with what this means for it. -/
theorem enterState_run {s : State} {u : UnitId} (hu : plainUnit u = true) (hs : (s.ucb u).state ≠ .run) :
    (enterState s u .run).ucb u = (s.ucb u).gated .run ∧ (enterState s u .run).flt.windows = s.flt.windows := by
  let w := noteGroups (s.setUcb u (·.gated .run))
  have heq : enterState s u .run = backInRun (enterRun w u) u := by
    simp [enterState, hs, w]
  have hrun := enterRun_same w u
  have hflt : (enterRun w u).flt = s.flt :=
    (hrun.same .flt (by decide)).trans (((noteGroups_same _).same .flt (by decide)).trans ((setUcb_same ..).same .flt (by decide)))
  rw [heq]
  refine ⟨?_, (show _ = (enterRun w u).flt.windows from rfl).trans (by rw [hflt])⟩
  refine (ucb_of_ucbs (show (backInRun (enterRun w u) u).ucbs = w.ucbs from hrun.same .ucbs (by decide)) u).trans ?_
  rw [ucb_noteGroups _ (follows_of_plain hu), State.ucb_setUcb]

/-- ENABLE, and START where it is due, of a unit in OFF. -/
theorem restartOne_spec {s : State} {u : UnitId} (hu : plainUnit u = true) (hs : (s.ucb u).state = .off) (start : Bool) :
    ((restartOne start s u).ucb u).state = (if start then UState.run else .quiesced) ∧ ((restartOne start s u).ucb u).forced = false ∧
      (restartOne start s u).flt.windows = s.flt.windows := by
  let q := (enterState s u .quiesced).setUcb u fun b => { b with forced := false }
  have heq : restartOne start s u = if start then enterState q u .run else q := by
    unfold restartOne
    dsimp only
    rw [if_pos hs]
  obtain ⟨hq, hflt⟩ := enterState_quiesced hu (s := s) (by rw [hs]; decide)
  have hqu : q.ucb u = { (s.ucb u).gated .quiesced with forced := false } := by rw [State.ucb_setUcb, hq]
  have hqf : q.flt.windows = s.flt.windows := congrArg FltState.windows hflt
  rw [heq]
  cases start with
  | false =>
    refine ⟨?_, ?_, hqf⟩
    · rw [if_neg (by decide), if_neg (by decide), hqu]
      rfl
    · rw [if_neg (by decide), hqu]
  | true =>
    obtain ⟨hr, hrw⟩ := enterState_run hu (s := q) (by rw [hqu]; exact (nofun : UState.quiesced ≠ .run))
    rw [if_pos rfl, if_pos rfl, hr, hqu]
    exact ⟨rfl, rfl, hrw.trans hqf⟩

theorem withMembers_plain {u : UnitId} (hu : plainUnit u = true) (s : State) : withMembers s u = [u] := by
  cases u <;> first | rfl | simp [plainUnit] at hu

/-- The restart of a plain unit whose ENABLE passes its checks. -/
theorem restartSource_plain {s : State} {u : UnitId} (hu : plainUnit u = true) (hc : restartCheck s u = .ok) (w : ReactWindow) :
    restartSource s u w =
      let start := decide ((s.ucb u).prev = .run)
      let t := (restartOne start s u).complete u 1 .ok 0
      if start then t.complete u 2 .ok 0 else t := by
  have hus : (withMembers s u).reverse.filter (fun v => decide (v ≠ .net)) = [u] := by
    rw [withMembers_plain hu]
    cases u <;> first | rfl | simp [plainUnit] at hu
  have hfind : [u].find? (fun v => decide (restartCheck s v ≠ .ok)) = none := by simp [hc]
  unfold restartSource
  dsimp only
  rw [hus, hfind]
  cases u <;> first | rfl | simp [plainUnit] at hu

theorem ucb_complete_state (s : State) (u : UnitId) (k : Nat) (c : Status) (d : Nat) :
    ((s.complete u k c d).ucb u).state = (s.ucb u).state ∧ ((s.complete u k c d).ucb u).forced = (s.ucb u).forced := by
  unfold State.complete
  rw [State.ucb_setUcb]
  exact ⟨rfl, rfl⟩

/-- The outcomes of ENABLE and START leave the unit's state. -/
theorem restart_complete {x : State} {u : UnitId} {b : Bool} {ws : List ReactWindow}
    (hstate : (x.ucb u).state = if b then UState.run else .quiesced) (hforced : (x.ucb u).forced = false) (hwin : x.flt.windows = ws) :
    let t := if b then (x.complete u 1 .ok 0).complete u 2 .ok 0 else x.complete u 1 .ok 0
    (t.ucb u).state = (if b then UState.run else .quiesced) ∧ (t.ucb u).forced = false ∧ t.flt.windows = ws := by
  obtain ⟨h1, h2⟩ := ucb_complete_state x u 1 .ok 0
  obtain ⟨h3, h4⟩ := ucb_complete_state (x.complete u 1 .ok 0) u 2 .ok 0
  rw [← hstate]
  cases b with
  | true => exact ⟨h3.trans h1, h4.trans (h2.trans hforced), hwin⟩
  | false => exact ⟨h1, h2.trans hforced, hwin⟩

/-- A reset unit restarts as it was once its window's time has passed. -/
theorem restartUnit_spec {s : State} {u : UnitId} {w : ReactWindow} (hu : plainUnit u = true) (hw : s.flt.windows = [w])
    (hs : w.subject = u) (he : w.endsAt ≤ s.tb3) (hr : w.restart = true) (hoff : (s.ucb u).state = .off) (ht : (s.ucb u).token = none)
    (hb : (s.ucb u).busy = false) :
    ((restartUnit s u).ucb u).state = (if (s.ucb u).prev = .run then UState.run else .quiesced) ∧
      ((restartUnit s u).ucb u).forced = false ∧ (restartUnit s u).flt.windows = [{ w with restart := false, closing := true }] := by
  let v := writeBack { s with flt := { s.flt with windows := s.flt.windows.map fun x =>
    if x = w then { x with restart := false, closing := true } else x } } w.image
  have hvw : v.flt.windows = [{ w with restart := false, closing := true }] := by
    refine (congrArg (List.map _) hw).trans ?_
    simp
  have hvu : v.ucb u = s.ucb u := rfl
  have hfind : s.flt.windows.find? (fun w => decide (w.subject = u) && w.restart && decide (w.endsAt ≤ s.tb3)) = some w := by
    rw [hw]
    simp [hs, hr, he]
  have hne : u ≠ .net := by
    rintro rfl
    simp [plainUnit] at hu
  have heq : restartUnit s u = restartSource v u w := by
    unfold restartUnit
    rw [hfind]
    exact if_neg (by simp [hne])
  have hcheck : restartCheck v u = .ok := by
    unfold restartCheck
    rw [hvu]
    simp [ht, hb, hoff]
  obtain ⟨hstate, hforced, hwin⟩ := restartOne_spec hu (s := v) (by rw [hvu, hoff]) (decide ((v.ucb u).prev = .run))
  rw [hvw] at hwin
  have hspec := restart_complete hstate hforced hwin
  rw [heq, restartSource_plain hu hcheck, hvu]
  rw [hvu] at hspec
  simpa only [decide_eq_true_eq] using hspec

/-! ### The obligation -/

/-- Settles O54: the collector, its commands, and the restart of what it has reset. -/
theorem faultsAreClassifiedAndAnswered : Obligations.FaultsAreClassifiedAndAnswered := by
  unfold Obligations.FaultsAreClassifiedAndAnswered
  intro s
  refine ⟨fun u now m hh hw hf => ⟨fun hl hc hi hk hu hn hwait => ⟨_, rfl, ?_⟩, fun hl => ⟨_, rfl, ?_⟩⟩,
    fun hrun hbusy => ⟨fun w arg hl => ⟨_, rfl, ?_⟩, fun w arg l hl hcheck hmod hm hh => ⟨_, rfl, ?_⟩⟩,
    fun r hi hr => ⟨_, rfl, injectMissed_spec hi hr⟩, fun hf hl hs => ⟨_, rfl, degradeExpired_spec hf hl hs⟩,
    fun u w hu hw hs he => ⟨fun hr hoff ht hb => ⟨_, rfl, restartUnit_spec hu hw hs he hr hoff ht hb⟩, fun hr => ?_⟩⟩
  · have hheld : ((s.at_ now).ucb u).held = some m := hh
    rw [takeMessage_eq hheld hf]
    exact takeFrom_quiet (s := s.at_ now) hheld hw hl hc hi hk hu hn hwait
  · have hheld : ((s.at_ now).ucb u).held = some m := hh
    rw [takeMessage_eq hheld hf]
    exact takeFrom_four (s := s.at_ now) hheld hw hl
  · rw [ucbCommand_of_legal rfl hl (by decide)]
    obtain ⟨-, harg, -, -⟩ := legal_specific rfl hl (by decide)
    have h32 : arg.toNat < 32 := of_decide_eq_true harg
    have hhit := acked_arg h32
    have hend := acknowledge_ended (complete_ended hbusy hrun 0x80 .ok 0) (decide (arg.toNat / 16 % 2 = 1)) (arg.toNat % 16)
    have hrunS : runSpecific s w .flt 0x80 arg.toNat =
        acknowledge (s.complete .flt 0x80 .ok 0) (decide (arg.toNat / 16 % 2 = 1)) (arg.toNat % 16) := rfl
    rw [hrunS]
    refine ⟨⟨?_, ?_, rfl, ?_, fun e he hhit' => ?_⟩, hend⟩
    · simp only [← hhit]
      rfl
    · simp only [← hhit]
      rfl
    · exact List.length_map ..
    · exact acknowledge_history he ((hhit _).trans hhit')
  · rw [ucbCommand_of_legal rfl hl (by decide)]
    exact inject_lane_spec hcheck hmod hm hh w
  · refine congrArg Host.Outcome.next ?_
    unfold closeWindow
    rw [hw]
    simp [hs, hr, he]

end Sys2Proof.Machine
end

section
/-! The commands that change the mode of the lanes, the pair, a channel or the module (O55). -/

namespace Sys2Proof.Machine

open Sys2Proof

def State.withVoter (s : State) (v : VoterState) : State := { s with voter := v }

def State.withTick (s : State) (x : TickState) : State := { s with tick := x }

/-! ### An activity that a command starts (R32, R52) -/

/-- A command that begins an activity and has taken its tokens. -/
def startActivity (s : State) (u : UnitId) (w : Writer) (code arg : Nat) (a : Activity) : State := takeTokens (s.begin_ u w code arg) a u

theorem startActivity_same (s : State) (u : UnitId) (w : Writer) (code arg : Nat) (a : Activity) :
    SameBut [.ucbs] s (startActivity s u w code arg a) := (begin_same s u w code arg).trans (takeTokens_same _ a u)

theorem startActivity_eq (s : State) (u : UnitId) (w : Writer) (code arg : Nat) (a : Activity) :
    startActivity s u w code arg a = { s with ucbs := (startActivity s u w code arg a).ucbs } :=
  (startActivity_same ..).eq_withParts

theorem startActivity_busy (s : State) (u : UnitId) (w : Writer) (code arg : Nat) (a : Activity) :
    Busy s (startActivity s u w code arg a) u w code arg := (begin_busy s u w code arg).of_tokens a u

theorem startActivity_tokens (s : State) (u : UnitId) (w : Writer) (code arg : Nat) (a : Activity) :
    ∀ v ∈ footprint a, ((startActivity s u w code arg a).ucb v).token = some (a, handleOf u) := fun _ hv => token_takeTokens hv

/-! ### The lanes (R235 to R239, R242) -/

theorem laneArg_idx (l : Lane) : laneArg l.idx = l := by
  cases l <;> rfl

/-- The self-test of a lane leaves other units and the voter alone. -/
theorem laneTest_spec (s : State) (l : Lane) : ((laneTest s l).lane l).role = .test ∧ ((laneTest s l).ucb (.lane l)).state = .test ∧
    (laneTest s l).voter = s.voter ∧ ∀ u, u ≠ .lane l → (laneTest s l).ucb u = s.ucb u := by
  let x := s.setLane l { s.lane l with role := .test }
  have h : laneTest s l = x.setUcb (.lane l) (·.gated .test) := rfl
  have hs := setUcb_same x (.lane l) (·.gated .test)
  rw [h]
  refine ⟨?_, ?_, (hs.same .voter (by decide)).trans (setLane_voter ..), fun u hu => ?_⟩
  · rw [hs.lane (by decide) (by decide) (by decide), State.lane_setLane]
  · rw [State.ucb_setUcb]
    rfl
  · rw [State.ucb_setUcb_ne x hu, ucb_setLane]

/-- JOIN of a lane asks for its rejoin; one that EXCLUDE took out is tested first. -/
theorem joinCmd_spec (s : State) (w : Writer) (code arg : Nat) (l : Lane) :
    let t := joinCmd (s.begin_ .voter w code arg) l
    t.voter.rejoin = some { lane := l, resync := false, commanded := true, since := some s.tick.n } ∧ Busy s t .voter w code arg ∧
      (∀ u ∈ footprint .splitJoin, (t.ucb u).token = some (.splitJoin, 3)) ∧
      (s.voter.planned = true → (t.lane l).role = .test ∧ (t.ucb (.lane l)).state = .test) := by
  let v := startActivity s .voter w code arg .splitJoin
  let x := v.withVoter { v.voter with rejoin := some { lane := l, resync := false, commanded := true, since := some v.tick.n } }
  have hv := startActivity_same s .voter w code arg .splitJoin
  have htick : v.tick.n = s.tick.n := congrArg TickState.n (hv.same .tick (by decide))
  have hplanned : x.voter.planned = s.voter.planned :=
    show v.voter.planned = s.voter.planned from congrArg VoterState.planned (hv.same .voter (by decide))
  have hbusy : Busy s x .voter w code arg := (startActivity_busy s .voter w code arg .splitJoin).of_ucb rfl
  have htok := startActivity_tokens s .voter w code arg .splitJoin
  have heq : joinCmd (s.begin_ .voter w code arg) l = if x.voter.planned then laneTest x l else x := rfl
  intro t
  have ht : t = if x.voter.planned then laneTest x l else x := heq
  rw [ht, ← hplanned, ← htick]
  by_cases hp : x.voter.planned = true
  · obtain ⟨hrole, hstate, hvoter, hother⟩ := laneTest_spec x l
    rw [if_pos hp]
    exact ⟨by rw [hvoter]; rfl, hbusy.of_ucb (hother .voter nofun),
      fun u hu => (congrArg Ucb.token (hother u (by rintro rfl; simp [footprint] at hu))).trans (htok u hu), fun _ => ⟨hrole, hstate⟩⟩
  · rw [if_neg hp]
    exact ⟨rfl, hbusy, htok, fun h => absurd h hp⟩

/-- SPLIT waits for the boundary, and an excluded lane is tested first. -/
theorem splitCmd_spec (s : State) (w : Writer) (code arg : Nat) :
    let t := splitCmd (s.begin_ .voter w code arg)
    t.voter.change = some .split ∧ t.voter.mode = s.voter.mode ∧ Busy s t .voter w code arg ∧
      ∀ u ∈ footprint .splitJoin, (t.ucb u).token = some (.splitJoin, 3) := by
  let v := startActivity s .voter w code arg .splitJoin
  let x := v.withVoter { (s.begin_ .voter w code arg).voter with change := some .split }
  have hbusy : Busy s x .voter w code arg := (startActivity_busy s .voter w code arg .splitJoin).of_ucb rfl
  have htok := startActivity_tokens s .voter w code arg .splitJoin
  have heq : splitCmd (s.begin_ .voter w code arg) = match x.voter.out with | some l => laneTest x l | none => x := rfl
  intro t
  have ht : t = match x.voter.out with | some l => laneTest x l | none => x := heq
  rw [ht]
  cases x.voter.out with
  | none => exact ⟨rfl, rfl, hbusy, htok⟩
  | some l =>
    obtain ⟨-, -, hvoter, hother⟩ := laneTest_spec x l
    exact ⟨by rw [hvoter]; rfl, by rw [hvoter]; rfl, hbusy.of_ucb (hother .voter nofun),
      fun u hu => (congrArg Ucb.token (hother u (by rintro rfl; simp [footprint] at hu))).trans (htok u hu)⟩

/-! ### The pair (R264, R267, R269) -/

/-- What UCB_STATUS and UCB_RESULT show of a unit's command is the same in two states. -/
def SameOrder (s t : State) (u : UnitId) : Prop :=
  SameWork s t u ∧ (t.ucb u).code = (s.ucb u).code ∧ (t.ucb u).cmd = (s.ucb u).cmd

theorem SameOrder.trans {s t r : State} {u : UnitId} (h : SameOrder s t u) (g : SameOrder t r u) : SameOrder s r u :=
  ⟨h.1.trans g.1, g.2.1.trans h.2.1, g.2.2.trans h.2.2⟩

theorem SameOrder.of_ucb {s t : State} {u : UnitId} (h : t.ucb u = s.ucb u) : SameOrder s t u :=
  ⟨.of_ucb h, congrArg Ucb.code h, congrArg Ucb.cmd h⟩

theorem SameOrder.of_same {s t : State} {ps : List Part} (h : SameBut ps s t) (hp : Part.ucbs ∉ ps) (u : UnitId) : SameOrder s t u :=
  .of_ucb (ucb_of_ucbs (h.same .ucbs hp) u)

theorem raise_sameOrder (s : State) (u v : UnitId) (k a : Nat) : SameOrder s (raise s u k a) v := by
  refine ⟨raise_sameWork s u v k a, ?_⟩
  unfold raise raiseAs
  split
  · exact ⟨rfl, rfl⟩
  · rw [State.ucb_setUcb_if]
    split
    · rename_i h
      subst h
      unfold Ucb.send
      dsimp only
      split <;> exact ⟨rfl, rfl⟩
    · exact ⟨rfl, rfl⟩

theorem releaseTokens_sameOrder (s : State) (a : Activity) (u : UnitId) : SameOrder s (releaseTokens s a) u := by
  refine ⟨releaseTokens_sameWork s a u, ?_⟩
  rw [ucb_releaseTokens_token]
  exact ⟨rfl, rfl⟩

theorem finish_sameOrder (s : State) {u v : UnitId} (h : u ≠ v) (c : Status) (d : Nat) : SameOrder s (s.finish v c d) u :=
  .of_ucb (State.ucb_setUcb_ne s h _)

theorem endSwitchover_of_other {s : State} (h : ∀ r, (s.ucb .pair).running = some r → r.code ≠ 0x80) : endSwitchover s = s := by
  unfold endSwitchover
  split
  · rename_i r hr
    rw [if_neg (h r hr)]
  · rfl

theorem endRestartHandover_sameOrder (s : State) : SameOrder s (endRestartHandover s) .pair := by
  unfold endRestartHandover
  split
  · split
    · exact (SameOrder.of_ucb rfl).trans (finish_sameOrder _ (u := .pair) (v := .lcs) nofun _ _)
    · exact .of_ucb rfl
  · exact .of_ucb rfl
  · exact .of_ucb rfl

theorem endApply_sameOrder (s : State) : SameOrder s (endActivity s .firmwareApply) .pair := by
  rw [endActivity_eq]
  split
  · exact .of_ucb rfl
  · refine SameOrder.trans ?_ ((releaseTokens_sameOrder _ .firmwareApply .pair).trans (.of_ucb rfl))
    unfold failRunning
    split
    · split
      · exact finish_sameOrder _ (u := .pair) (v := .lcs) nofun _ _
      · exact .of_ucb rfl
    · exact .of_ucb rfl

theorem endPartnerApply_sameOrder (s : State) : SameOrder s (endPartnerApply s) .pair := by
  unfold endPartnerApply
  split
  · split
    · exact (endApply_sameOrder s).trans (raise_sameOrder ..)
    · exact .of_ucb rfl
  · exact .of_ucb rfl

/-- The loss of the partner ends no command of PAIR but SWITCHOVER. -/
theorem partnerLost_sameOrder {s : State} (h : ∀ r, (s.ucb .pair).running = some r → r.code ≠ 0x80) (next : PairState) :
    SameOrder s (partnerLost s next) .pair := by
  have habandon : SameOrder s (abandonHandover s) .pair := by
    rw [abandonHandover_eq]
    split
    · exact .of_ucb rfl
    · have hquiet : endSwitchover (s.withPair s.pair.noHandover) = s.withPair s.pair.noHandover := endSwitchover_of_other h
      rw [hquiet]
      exact (SameOrder.of_ucb rfl).trans (endRestartHandover_sameOrder _)
  have hends := habandon.trans (endPartnerApply_sameOrder _)
  rw [partnerLost_eq]
  generalize endPartnerApply (abandonHandover s) = x at hends ⊢
  have hraise := hends.trans (raise_sameOrder x .pair .pair 8 (baseOf .partner))
  generalize raise x .pair 8 (baseOf .partner) = y at hraise ⊢
  exact hraise.trans (.of_ucb rfl)

theorem Busy.of_order {s t r : State} {u : UnitId} {w : Writer} {code arg : Nat} (h : Busy s t u w code arg) (ho : SameOrder t r u) :
    Busy s r u w code arg := by
  obtain ⟨⟨hbusy, hrunning, hresult⟩, hcode, hcmd⟩ := ho
  unfold Busy
  rw [hbusy, hrunning, hresult, hcode, hcmd]
  exact h

/-- RESYNC begins the handshake with its tokens, from LINKED or from SYNCED. -/
theorem resyncCmd_spec (s : State) (w : Writer) (arg : Nat) :
    let t := resyncCmd (s.begin_ .pair w 0x81 arg)
    t.pair.state = .handshake ∧ t.pair.resyncDue = true ∧ Busy s t .pair w 0x81 arg ∧
      ∀ u ∈ footprint .partnerResync, (t.ucb u).token = some (.partnerResync, 4) := by
  let g := s.begin_ .pair w 0x81 arg
  have hbusy : Busy s g .pair w 0x81 arg := begin_busy ..
  have hrun : ∀ r, (g.ucb .pair).running = some r → r.code ≠ 0x80 := by
    intro r hr
    have hr' := hbusy.2.2.2.1.symm.trans hr
    cases hr'
    exact (by decide : (0x81 : Nat) ≠ 0x80)
  let x := if g.pair.state = .synced then partnerLost g .handshake else g.withPair { g.pair with state := .handshake, resyncDue := true }
  have hx : x.pair.state = .handshake ∧ x.pair.resyncDue = true ∧ Busy s x .pair w 0x81 arg := by
    by_cases h : g.pair.state = .synced
    · have hlost : x = partnerLost g .handshake := if_pos h
      rw [hlost]
      exact ⟨(partnerLost_spec g .handshake).1, rfl, hbusy.of_order (partnerLost_sameOrder hrun _)⟩
    · have hlinked : x = g.withPair { g.pair with state := .handshake, resyncDue := true } := if_neg h
      rw [hlinked]
      exact ⟨rfl, rfl, hbusy.of_ucb rfl⟩
  have heq : resyncCmd g = takeTokens x .partnerResync .pair := rfl
  obtain ⟨hstate, hdue, hb⟩ := hx
  intro t
  have ht : t = takeTokens x .partnerResync .pair := heq
  have hp : (takeTokens x .partnerResync .pair).pair = x.pair := (takeTokens_same ..).same .pair (by decide)
  rw [ht, hp]
  exact ⟨hstate, hdue, hb.of_tokens .partnerResync .pair, fun u hu => token_takeTokens hu⟩

/-- DETACH leaves the pair LINKED, without copies. -/
theorem detachCmd_spec {s : State} (hr : (s.ucb .pair).running = none) (hb : (s.ucb .pair).busy = false) :
    let t := detachCmd (s.complete .pair 0x82 .ok 0)
    t.pair.state = .linked ∧ t.pair.sent = none ∧ Ended s t .pair 0x82 .ok 0 := by
  have hend : Ended s (s.complete .pair 0x82 .ok 0) .pair 0x82 .ok 0 := complete_ended hb hr ..
  generalize s.complete .pair 0x82 .ok 0 = x at hend
  have hrun : ∀ r, (x.ucb .pair).running = some r → r.code ≠ 0x80 := by
    intro r h
    rw [hend.2.1] at h
    cases h
  exact ⟨(partnerLost_spec x .linked).1, rfl, hend.of_work (partnerLost_sameOrder hrun .linked).1⟩

/-! ### RECOVER (R367) -/

theorem recover_spec {s : State} {n : Fin 6} (hr : (s.ucb (.can n)).running = none) (hb : (s.ucb (.can n)).busy = false) (w : Writer)
    (arg : Nat) : let t := runSpecific s w (.can n) 0x80 arg
    t = { s with ucbs := t.ucbs, cans := t.cans } ∧ (t.can n).state = 3 ∧ (∀ m, m ≠ n → t.can m = s.can m) ∧
      Ended s t (.can n) 0x80 .ok 0 := by
  let d := s.complete (.can n) 0x80 .ok 0
  have hend : Ended s d (.can n) 0x80 .ok 0 := complete_ended hb hr ..
  have hs : SameBut [.ucbs, .cans] s d := (complete_same ..).mono (by decide)
  intro t
  by_cases h : (s.can n).state = 3
  · have ht : t = d := if_pos h
    rw [ht]
    exact ⟨hs.eq_withParts, h, fun _ _ => rfl, hend⟩
  · have ht : t = d.setCan n { s.can n with state := 3, recov := 0 } := if_neg h
    rw [ht]
    exact ⟨(hs.trans ((setCan_same ..).mono (by decide))).eq_withParts, by rw [State.can_setCan],
      fun m hm => State.can_setCan_ne d hm _, hend.of_ucb rfl⟩

/-! ### The obligation -/

/-- Settles O55: every command as it begins, with the tokens of its activity. -/
theorem modeCommandsTakeEffectAtABoundary : Obligations.ModeCommandsTakeEffectAtABoundary := by
  unfold Obligations.ModeCommandsTakeEffectAtABoundary
  intro s w arg a held split
  refine ⟨fun hl => ⟨_, rfl, ?_⟩, fun l ha => ⟨fun hl => ⟨_, rfl, ?_⟩, fun hl => ⟨_, rfl, ?_⟩⟩, fun hl => ⟨_, rfl, ?_⟩,
    fun hl => ⟨_, rfl, ?_⟩, fun hl => ⟨_, rfl, ?_⟩, fun hl => ⟨_, rfl, ?_⟩, fun hl => ⟨_, rfl, ?_⟩,
    fun hl hr hb => ⟨_, rfl, ?_⟩, fun n hl hr hb => ⟨_, rfl, ?_⟩,
    fun hl => ⟨_, rfl, ?_⟩⟩ <;> rw [ucbCommand_of_legal rfl hl (by decide)]
  · exact ⟨rfl, begin_busy ..⟩
  · have hrun : runSpecific s w .voter 0x80 arg.toNat =
        (startActivity s .voter w 0x80 a .splitJoin).withVoter { s.voter with change := some (.exclude (laneArg a)) } := rfl
    rw [hrun, ha, laneArg_idx]
    exact ⟨congrArg (State.withVoter · { s.voter with change := some (.exclude l) }) (startActivity_eq ..),
      (startActivity_busy s .voter w 0x80 l.idx .splitJoin).of_ucb rfl, startActivity_tokens s .voter w 0x80 l.idx .splitJoin⟩
  · have hrun : runSpecific s w .voter 0x81 arg.toNat = joinCmd (s.begin_ .voter w 0x81 a) (laneArg a) := rfl
    rw [hrun, ha, laneArg_idx]
    obtain ⟨hrejoin, hbusy, htok, htest⟩ := joinCmd_spec s w 0x81 l.idx l
    exact ⟨⟨_, hrejoin, rfl, rfl, rfl, rfl⟩, hbusy, htok, htest⟩
  · exact splitCmd_spec s w 0x82 a
  · exact ⟨congrArg (State.withVoter · { s.voter with change := some (.merge (decide (a = 1))) }) (startActivity_eq ..),
      (startActivity_busy s .voter w 0x83 a .splitJoin).of_ucb rfl, startActivity_tokens s .voter w 0x83 a .splitJoin⟩
  · exact ⟨congrArg (State.withVoter · { s.voter with foxDue := true }) (startActivity_eq ..),
      (startActivity_busy s .voter w 0x84 a .foxglove).of_ucb rfl, startActivity_tokens s .voter w 0x84 a .foxglove⟩
  · exact ⟨(begin_same ..).eq_withParts, begin_busy ..⟩
  · exact resyncCmd_spec s w a
  · exact detachCmd_spec hr hb
  · exact recover_spec hr hb w a
  · exact ⟨rfl, (begin_busy s .pwr w 0x80 a).of_ucb rfl⟩

end Sys2Proof.Machine
end

section
/-! The commands of placement and what ends them (O56). -/

namespace Sys2Proof.Machine

open Sys2Proof

def State.withPlace (s : State) (p : PlaceState) : State := { s with place := p }

/-! ### Profiles (R210) -/

/-- A finish at a unit that executes nothing changes none of its command's outcome. -/
theorem finish_idle_ucb {s : State} {u : UnitId} (h : (s.ucb u).running = none) (c : Status) (d : Nat) : (s.finish u c d).ucb u = s.ucb u := by
  unfold State.finish
  rw [State.ucb_setUcb, h]

/-- What PROFILE_STOP leaves before its own outcome. -/
theorem profileStop_spec {s : State} (h : (s.ucb .place).running = none) :
    profileStop s = { s with ucbs := (profileStop s).ucbs, place := { s.place with capturing := none } } ∧
      (profileStop s).ucb .place = s.ucb .place := by
  unfold profileStop
  by_cases hc : s.place.capturing.isNone = true
  · have hnone : s.place.capturing = none := Option.isNone_iff_eq_none.1 hc
    rw [if_pos hc, ← hnone]
    exact ⟨rfl, rfl⟩
  · rw [if_neg hc]
    exact ⟨(finish_same (s.withPlace { s.place with capturing := none }) .place .ok 0).eq_withParts,
      finish_idle_ucb (s := s.withPlace { s.place with capturing := none }) h .ok 0⟩

theorem activeSlot_setActive (u : UpdState) (x : ImageSlot) : activeSlot (u.setActive x) = x := by
  unfold activeSlot UpdState.setActive
  cases u.slotB <;> simp

/-- ADOPT records the capture, or none, with the active image, and takes a recorded capture away. -/
theorem adoptProfile_spec (s : State) (b : Bool) : activeSlot (adoptProfile s b).upd =
      { activeSlot s.upd with profile := if b then none else s.place.captured } ∧
    (adoptProfile s b).place.captured = (if b then s.place.captured else none) ∧ (adoptProfile s b).ucbs = s.ucbs := by
  unfold adoptProfile
  cases b with
  | true => exact ⟨activeSlot_setActive .., rfl, rfl⟩
  | false => exact ⟨activeSlot_setActive .., rfl, rfl⟩

theorem profileComplete_spec {s : State} {k : Nat} {r : Running} (hc : s.place.capturing = some k) (hk : k ≤ s.place.ticks)
    (hr : (s.ucb .place).running = some r) (p : ProfileSet) :
    profileComplete s p = { s with ucbs := (profileComplete s p).ucbs, place := { s.place with capturing := none, captured := some p } } ∧
      Ended s (profileComplete s p) .place r.code .ok 0 := by
  let x := s.withPlace { s.place with capturing := none, captured := some p }
  have heq : profileComplete s p = x.finish .place .ok 0 := by
    unfold profileComplete
    rw [hc]
    exact if_neg (by omega)
  rw [heq]
  exact ⟨(finish_same x .place .ok 0).eq_withParts, (finish_ended (s := x) hr .ok 0).of_before rfl⟩

/-! ### A rebalance that takes too long (R207) -/

theorem migrateTimeout_spec {s : State} {x : Rebalance} {n : Nat} {r : Running} (hx : s.place.rebalance = some x) (hn : x.since = some n)
    (hlate : n + 64 ≤ s.tick.n) (hr : (s.ucb .place).running = some r) : (migrateTimeout s).place.rebalance = none ∧
      (migrateTimeout s).place.migrating = false ∧ (migrateTimeout s).place.map = s.place.map ∧
      (migrateTimeout s).place.set = s.place.set ∧ Ended s (migrateTimeout s) .place r.code .faulted 0 ∧
      ∃ b, Reports s (migrateTimeout s) .place 7 b := by
  let v := raiseOpen s .place 7
  have heq : migrateTimeout s = rebalanceFails v := by
    unfold migrateTimeout
    rw [hx, Option.bind_some, hn]
    exact if_pos hlate
  have hplace : v.place = s.place := (raiseOpen_same s .place 7).same .place (by decide)
  have hwork : SameWork s v .place :=
    (SameWork.of_same (free_same s) (by decide) .place).trans (raise_sameWork s.free.2 .place .place 7 s.free.1)
  obtain ⟨b, hb⟩ := raiseOpen_reports s .place 7
  let f := v.withPlace { v.place with rebalance := none, computing := false, migrating := false }
  have hfail : rebalanceFails v = f.finish .place .faulted 0 := rfl
  have hfp : (f.finish .place .faulted 0).place = f.place := (finish_same ..).same .place (by decide)
  have hmap : v.place.map = s.place.map := by rw [hplace]
  have hset : v.place.set = s.place.set := by rw [hplace]
  rw [heq, hfail, hfp]
  refine ⟨rfl, rfl, hmap, hset, ended_of_running hr hwork.2 .faulted 0, b, ?_⟩
  exact (hb.of_ucb (t' := f) rfl).of_mail (finish_mail f .place .faulted 0 .place)

/-! ### The map of a combined loss (R203) -/

/-- The last loss is reported as a combined one. -/
def reportCombined (s : State) : State :=
  match s.place.lost.getLast? with
  | some r => raise s .place 5 (lossBase r)
  | none => s

theorem reportCombined_same (s : State) : SameBut [.ucbs] s (reportCombined s) := by
  unfold reportCombined
  split
  · exact raise_same ..
  · exact SameBut.refl _ s

/-- PLACE once the engine has ended, before its outcome. -/
def PlaceState.computed (p : PlaceState) (us : Nat) : PlaceState := { p with computing := p.rebalance.any (·.since.isNone), us }

def engineEnded (s : State) (us : Nat) : State := (reportCombined s).withPlace ((reportCombined s).place.computed us)

theorem engineEnded_eq (s : State) (us : Nat) :
    engineEnded s us = { s with ucbs := (engineEnded s us).ucbs, place := s.place.computed us } := by
  have hp : (reportCombined s).place = s.place := (reportCombined_same s).same .place (by decide)
  have h := (reportCombined_same s).eq_withParts
  unfold engineEnded
  rw [hp]
  exact congrArg (State.withPlace · (s.place.computed us)) h

section
variable {s : State} {m : PMap} {ms : List PMap} (hc : s.place.combined = true) (hn : s.place.next = none) (hs : s.place.nextSplit = [])
  (hm : s.voter.mode ≠ .split)

include hc hn hs in
theorem combinedDone_due : ¬ (!s.place.combined || s.place.next.isSome || !s.place.nextSplit.isEmpty) = true := by
  simp [hc, hn, hs]

include hc hn hs hm in
/-- Two computations that agree give the next map. -/
theorem combinedDone_agreed (hset : s.place.set = m :: ms) (us : Nat) : ∃ made,
    combinedDone s false us = (engineEnded s us).withPlace { (engineEnded s us).place with next := some made } := by
  have hv : (engineEnded s us).voter = s.voter := (reportCombined_same s).same .voter (by decide)
  have hplace : (reportCombined s).place = s.place := (reportCombined_same s).same .place (by decide)
  have hp : (engineEnded s us).place.set = s.place.set := (show _ = (reportCombined s).place.set from rfl).trans (by rw [hplace])
  have heq : combinedDone s false us =
      if (engineEnded s us).voter.mode = .split then
        (engineEnded s us).withPlace { (engineEnded s us).place with
          nextSplit := ((engineEnded s us).place.set.filter fun m => 4 ≤ m.laneSet).map fun m =>
            finishMap (inputInForce (engineEnded s us) m.period) (progOf (engineEnded s us) (m.laneSet - 3)) m 0xFF m.total m.laneSet none
              s.place.lost }
      else
        match (engineEnded s us).place.set.head? with
        | none => engineEnded s us
        | some base => (engineEnded s us).withPlace { (engineEnded s us).place with
            next := some (finishMap (inputInForce (engineEnded s us) base.period) (mainProg (engineEnded s us)) base 0xFF base.total
              (laneSetCode (engineEnded s us)) (outOfCode (laneSetCode (engineEnded s us))) s.place.lost) } := by
    unfold combinedDone
    rw [if_neg (combinedDone_due hc hn hs)]
    rfl
  rw [heq]
  generalize engineEnded s us = x at hv hp
  rw [if_neg (by rw [hv]; exact hm), hp, hset]
  exact ⟨_, rfl⟩

include hc hn hs in
/-- Two that differ are discarded with their report. -/
theorem combinedDone_differs (us : Nat) : combinedDone s true us = raiseOpen (engineEnded s us) .place 3 := by
  unfold combinedDone
  rw [if_neg (combinedDone_due hc hn hs)]
  rfl

include hc hn hs hm in
theorem combinedLoss_spec (hset : s.place.set = m :: ms) (us : Nat) :
    let t := combinedDone s false us
    t = { s with ucbs := t.ucbs, freeCount := t.freeCount, place := { s.place with
      us, computing := s.place.rebalance.any (·.since.isNone), next := t.place.next } } ∧ t.place.next.isSome = true := by
  obtain ⟨made, heq⟩ := combinedDone_agreed hc hn hs hm hset us
  have hx := engineEnded_eq s us
  intro t
  have ht : t = (engineEnded s us).withPlace { (engineEnded s us).place with next := some made } := heq
  generalize engineEnded s us = x at hx ht
  rw [ht, hx]
  exact ⟨rfl, rfl⟩

include hc hn hs in
theorem combinedDiffers_spec (us : Nat) :
    let t := combinedDone s true us
    t = { s with ucbs := t.ucbs, freeCount := t.freeCount, place := { s.place with
      us, computing := s.place.rebalance.any (·.since.isNone), next := t.place.next } } ∧ t.place.next = none := by
  have hx := engineEnded_eq s us
  intro t
  have ht : t = raiseOpen (engineEnded s us) .place 3 := combinedDone_differs hc hn hs us
  generalize engineEnded s us = x at hx ht
  have hr := raiseOpen_same x .place 3
  have hplace : (raiseOpen x .place 3).place = s.place.computed us := (hr.same .place (by decide)).trans (congrArg State.place hx)
  have hnext : (raiseOpen x .place 3).place.next = none := (congrArg PlaceState.next hplace).trans hn
  have hsame : SameBut [.ucbs, .freeCount, .place] s (raiseOpen x .place 3) := by
    refine SameBut.trans ?_ (hr.mono (by decide))
    rw [hx]
    exact ⟨fun p hp => by cases p <;> first | rfl | simp at hp⟩
  rw [ht]
  refine ⟨hsame.eq_withParts.trans ?_, hnext⟩
  change ({ s with ucbs := _, freeCount := _, place := (raiseOpen x .place 3).place } : State) = _
  rw [hplace]
  rfl

end

theorem resourceReturn_spec {s : State} {r : Resource} {c : Nat} (hc : (r, c) ∈ s.place.returning) (h0 : 0 < s.regField .place 0x108 15 0)
    (h : s.regField .place 0x108 15 0 ≤ c) (hr : r ∉ s.place.returnNow) :
    resourceReturn s r = { s with place := { s.place with returnNow := s.place.returnNow ++ [r] } } := by
  have hany : s.place.returning.any (fun c => decide (c.1 = r) && returnDue s c) = true :=
    List.any_eq_true.2 ⟨(r, c), hc, by simp [returnDue, h0, h]⟩
  unfold resourceReturn
  rw [if_pos (by rw [hany]; simp [hr])]

/-! ### The obligation -/

/-- Settles O56: the commands as they begin, and the events that end them. -/
theorem placementCommandsBeginAndEnd : Obligations.PlacementCommandsBeginAndEnd := by
  unfold Obligations.PlacementCommandsBeginAndEnd
  intro s w arg a
  refine ⟨fun hl => ⟨_, rfl, ?_⟩, fun hl => ⟨_, rfl, ?_⟩, fun hl => ⟨_, rfl, ?_⟩, fun hl hr hb => ⟨_, rfl, ?_⟩,
    fun hl hr hb => ⟨_, rfl, ?_⟩, fun x n r hx hn hlate hr => ⟨_, rfl, migrateTimeout_spec hx hn hlate hr⟩,
    fun p k r hc hk hr => ⟨_, rfl, profileComplete_spec hc hk hr p⟩, fun m ms hc hn hs hm hset =>
      ⟨⟨_, rfl, combinedLoss_spec hc hn hs hm hset _⟩, fun us hcomp hreset hstart hre hreb => ?_⟩, fun r hret hr => ?_⟩
  · rw [ucbCommand_of_legal rfl hl (by decide)]
    exact ⟨rfl, (begin_busy s .place w 0x80 a).of_ucb rfl⟩
  · rw [ucbCommand_of_legal rfl hl (by decide)]
    exact ⟨rfl, (begin_busy s .place w 0x81 a).of_ucb rfl⟩
  · rw [ucbCommand_of_legal rfl hl (by decide)]
    exact ⟨rfl, (begin_busy s .place w 0x82 a).of_ucb rfl⟩
  · rw [ucbCommand_of_legal rfl hl (by decide)]
    obtain ⟨heq, hucb⟩ := profileStop_spec hr
    have hrun : runSpecific s w .place 0x83 arg.toNat = (profileStop s).complete .place 0x83 .ok 0 := rfl
    rw [hrun]
    have hend : Ended s ((profileStop s).complete .place 0x83 .ok 0) .place 0x83 .ok 0 :=
      (complete_ended (by rw [hucb, hb]) (by rw [hucb, hr]) ..).of_before hucb
    refine ⟨?_, hend⟩
    exact (complete_same (profileStop s) .place 0x83 .ok 0).eq_withParts.trans
      (congrArg (fun x : State => { x with ucbs := ((profileStop s).complete .place 0x83 .ok 0).ucbs }) heq)
  · rw [ucbCommand_of_legal rfl hl (by decide)]
    obtain ⟨hslot, hcap, hucbs⟩ := adoptProfile_spec (s.complete .place 0x84 .ok 0) (decide (a = 1))
    have hrun : runSpecific s w .place 0x84 arg.toNat = adoptProfile (s.complete .place 0x84 .ok 0) (decide (a = 1)) := rfl
    have hend : Ended s (s.complete .place 0x84 .ok 0) .place 0x84 .ok 0 := complete_ended hb hr ..
    rw [hrun, hslot, hcap]
    simp only [decide_eq_true_eq]
    exact ⟨rfl, rfl, rfl, hend.of_ucb (ucb_of_ucbs hucbs _)⟩
  · have hmap : mapComplete s true us = combinedDone s true us := by
      unfold mapComplete
      rw [if_neg (by simp [hcomp, hreset]), if_neg (by simp [hstart]), if_neg (by simp [hre]), hreb]
      rfl
    exact ⟨_, congrArg Host.Outcome.next hmap, combinedDiffers_spec hc hn hs us⟩
  · obtain ⟨c, hc, h0, h⟩ := hret
    exact congrArg Host.Outcome.next (resourceReturn_spec hc h0 h hr)

end Sys2Proof.Machine
end

section
/-! The commands of the life cycle and of updates (O57). -/

namespace Sys2Proof.Machine

open Sys2Proof

/-! ### Outcomes beside a record or a report -/

/-- A record that LCS/UPD offers leaves the outcome of its command. -/
theorem Ended.of_offer {s t : State} {u : UnitId} {code : Nat} {st : Status} {d : Nat} (h : Ended s t u code st d) (hu : u ≠ .evr)
    (c : Nat) (v : UnitId) (bs : List Byte) : Ended s (offer t c v bs) u code st d := h.of_ucb (ucb_offer t hu c v bs)

theorem complete_mail (s : State) (v : UnitId) (k : Nat) (c : Status) (d : Nat) (u : UnitId) : SameMail s (s.complete v k c d) u := by
  unfold State.complete
  refine .of_setUcb ?_ ?_ u <;> exact fun _ => rfl

theorem raiseOpen_sameWork (s : State) (v : UnitId) (k : Nat) (u : UnitId) : SameWork s (raiseOpen s v k) u :=
  (SameWork.of_same (free_same s) (by decide) u).trans (raise_sameWork s.free.2 v u k s.free.1)

/-! ### The life cycle (R482, R486) -/

theorem lockNow_spec (s : State) : (lockNow s).lcs.stored = .field ∧ (lockNow s).lcs.sessions = 0 ∧ (lockNow s).lcs.intrusive = false ∧
    (lockNow s).ucb .lcs = s.ucb .lcs := by
  let x := s.withLcs { s.lcs with stored := .field }
  have hl : (lcsChange x .integration .field).lcs = x.lcs := (lcsChange_same ..).same .lcs (by decide)
  have hu : (lcsChange x .integration .field).ucb .lcs = x.ucb .lcs := ucb_offer x (by decide) ..
  have heq : lockNow s = closeDebug (lcsChange x .integration .field) := rfl
  rw [heq]
  generalize lcsChange x .integration .field = y at hl hu
  exact ⟨congrArg LcsState.stored hl, rfl, rfl, hu⟩

theorem closeService_spec (s : State) : (closeService s).lcs.service = none ∧ (closeService s).lcs.sessions = 0 ∧
    (closeService s).lcs.intrusive = false ∧ (closeService s).ucb .lcs = s.ucb .lcs := by
  let x := s.withLcs { s.lcs with service := none }
  have hl : (lcsChange x .fieldService .field).lcs = x.lcs := (lcsChange_same ..).same .lcs (by decide)
  have hu : (lcsChange x .fieldService .field).ucb .lcs = x.ucb .lcs := ucb_offer x (by decide) ..
  have heq : closeService s = closeDebug (lcsChange x .fieldService .field) := rfl
  rw [heq]
  generalize lcsChange x .fieldService .field = y at hl hu
  exact ⟨congrArg LcsState.service hl, rfl, rfl, hu⟩

/-! ### Slots (R493, R494, R498) -/

/-- The preparation of a slot is one of the update part, and leaves the active slot. -/
theorem prepareSlot_spec (s : State) : ∃ u, prepareSlot s = s.withUpd u ∧ activeSlot u = activeSlot s.upd := by
  unfold prepareSlot
  split
  · exact ⟨s.upd, rfl, rfl⟩
  · exact ⟨_, rfl, activeSlot_setInactive ..⟩

/-- APPLY makes the inactive slot invalid until its image is written. -/
theorem applyBegin_spec (s : State) : ∃ u, applyBegin s = s.withUpd u ∧ u.applying = true ∧ u.prepared = false ∧
    (inactiveSlot u).valid = false ∧ activeSlot u = activeSlot s.upd := by
  obtain ⟨u, hu, ha⟩ := prepareSlot_spec s
  refine ⟨{ (u.setInactive { inactiveSlot u with valid := false }) with applying := true, prepared := false }, ?_, rfl, rfl, ?_, ?_⟩
  · unfold applyBegin
    rw [hu]
    rfl
  · exact congrArg ImageSlot.valid (inactiveSlot_setInactive u { inactiveSlot u with valid := false })
  · exact (activeSlot_setInactive u { inactiveSlot u with valid := false }).trans ha

/-- ACTIVATE marks the prepared slot as the next to boot; the reset, where it is asked for, is due at the next boundary. -/
theorem activateSelf_spec (s : State) (now : Bool) : (activateSelf s now).upd.pendingBoot = true ∧
    (activateSelf s now).pwr = (if now then { s.pwr with resetDue := some .update } else s.pwr) ∧
    (activateSelf s now).ucb .lcs = s.ucb .lcs := by
  let x := s.withUpd { (s.upd.setActive { activeSlot s.upd with saved := validGeneration s }) with
    pendingBoot := true, prepBegun := false, trialMin := s.regField .lcs 0x204 10 0 }
  let v := ((inactiveSlot x.upd).pgm.map (·.version)).getD 0
  have hs := updRecord_same x 0x111 0 v
  have hupd : (updRecord x 0x111 0 v).upd = x.upd := hs.same .upd (by decide)
  have hpwr : (updRecord x 0x111 0 v).pwr = s.pwr := hs.same .pwr (by decide)
  have hucb : (updRecord x 0x111 0 v).ucb .lcs = s.ucb .lcs := ucb_offer x (by decide) ..
  have heq : activateSelf s now = if now then resetAtBoundary (updRecord x 0x111 0 v) .update else updRecord x 0x111 0 v := rfl
  rw [heq]
  generalize updRecord x 0x111 0 v = y at hupd hpwr hucb
  have hboot : y.upd.pendingBoot = true := congrArg UpdState.pendingBoot hupd
  cases now with
  | true => exact ⟨hboot, by rw [← hpwr]; rfl, hucb⟩
  | false => exact ⟨hboot, hpwr, hucb⟩

theorem confirmSelf_spec (s : State) : (confirmSelf s).upd.trial = false ∧ (confirmSelf s).upd.trialLeft = 0 ∧
    (confirmSelf s).upd.secFw = max s.upd.secFw (((activeSlot s.upd).fw.map (·.secver)).getD 0) ∧
    (confirmSelf s).upd.secPgm = max s.upd.secPgm (((activeSlot s.upd).pgm.map (·.secver)).getD 0) ∧
    (confirmSelf s).ucb .lcs = s.ucb .lcs := by
  let x := s.withUpd { s.upd with
    trial := false, trials := 0, trialLeft := 0, trialRun := none, safeOnTrial := false,
    secFw := max s.upd.secFw (((activeSlot s.upd).fw.map (·.secver)).getD 0),
    secPgm := max s.upd.secPgm (((activeSlot s.upd).pgm.map (·.secver)).getD 0) }
  let v := ((activeSlot s.upd).pgm.map (·.version)).getD 0
  have hupd : (updRecord x 0x112 0 v).upd = x.upd := (updRecord_same ..).same .upd (by decide)
  have hucb : (updRecord x 0x112 0 v).ucb .lcs = s.ucb .lcs := ucb_offer x (by decide) ..
  have heq : confirmSelf s = updRecord x 0x112 0 v := rfl
  rw [heq, hupd]
  exact ⟨rfl, rfl, rfl, rfl, hucb⟩

theorem abortUpdate_spec (s : State) : ∃ u, abortUpdate s = s.withUpd u ∧ u.prepared = false ∧ u.prepBegun = false ∧
    u.pendingBoot = false ∧ activeSlot u = activeSlot s.upd ∧ (s.upd.prepBegun = true → (inactiveSlot u).valid = false) := by
  refine ⟨_, rfl, rfl, rfl, rfl, ?_, fun h => ?_⟩
  · by_cases h : (s.upd.prepBegun || s.upd.prepared) = true
    · rw [if_pos h]
      exact activeSlot_setInactive ..
    · rw [if_neg h]
      rfl
  · rw [if_pos (by simp [h])]
    exact congrArg ImageSlot.valid (inactiveSlot_setInactive s.upd { inactiveSlot s.upd with valid := false })

/-! ### Change sets (R501) -/

theorem acceptChange_spec (s : State) (c : ChangeSet) : (acceptChange s c).upd.pkg = none ∧
    (acceptChange s c).prog.changesDue = s.prog.changesDue ++ [c] ∧
    (activeSlot (acceptChange s c).upd).changes = (activeSlot s.upd).changes ++ [c] ∧ (acceptChange s c).ucb .lcs = s.ucb .lcs := by
  let slot : ImageSlot := { activeSlot s.upd with changes := (activeSlot s.upd).changes ++ [c] }
  let x : State := { s with upd := { (s.upd.setActive slot) with pkg := none },
                            prog := { s.prog with changes := s.prog.changes ++ [c], changesDue := s.prog.changesDue ++ [c] } }
  have hs := updRecord_same x 0x114 0 c.size
  have hupd : (updRecord x 0x114 0 c.size).upd = x.upd := hs.same .upd (by decide)
  have hprog : (updRecord x 0x114 0 c.size).prog = x.prog := hs.same .prog (by decide)
  have hucb : (updRecord x 0x114 0 c.size).ucb .lcs = s.ucb .lcs := ucb_offer x (by decide) ..
  have heq : acceptChange s c = updRecord x 0x114 0 c.size := rfl
  rw [heq, hupd, hprog]
  exact ⟨rfl, rfl, congrArg ImageSlot.changes (activeSlot_setActive s.upd slot), hucb⟩

/-- ACCEPT_CHANGE of a writer of the whole machine, with the change package in hand. -/
theorem acceptCmd_eq {s : State} {w : Writer} {p : Package} {c : ChangeSet} (hp : s.upd.pkg = some p) (hc : p.payload = .change c)
    (hw : ∀ l, w ≠ .split l) : acceptCmd s w =
      if changeOk s p.base none c then acceptChange (s.complete .lcs 0x94 .ok 0) { c with lane := none }
      else raiseOpen (s.complete .lcs 0x94 .faulted 0) .lcs 0x25 := by
  unfold acceptCmd
  rw [hp]
  dsimp only
  rw [hc]
  cases w with
  | split l => exact absurd rfl (hw l)
  | _ => rfl

/-! ### The obligation -/

section
variable {s : State} {w : Writer} (hr : (s.ucb .lcs).running = none) (hb : (s.ucb .lcs).busy = false)

include hr hb

/-- A command of LCS/UPD that completes within its write. -/
theorem lcs_ended (code : Nat) (st : Status) (d : Nat) : Ended s (s.complete .lcs code st d) .lcs code st d := complete_ended hb hr ..

/-- ACTIVATE of the module's own slot, which is compatible. -/
theorem activateCmd_compatible (hc : compatible s = true) (arg : Nat) (h : updTarget (arg % 256) = some .self) :
    (activateCmd s arg).upd.pendingBoot = true ∧
      (activateCmd s arg).pwr = (if arg / 256 = 1 then { s.pwr with resetDue := some .update } else s.pwr) ∧
      Ended s (activateCmd s arg) .lcs 0x91 .ok 0 := by
  have heq : activateCmd s arg = activateSelf (s.complete .lcs 0x91 .ok 0) (arg / 256 = 1) := by
    unfold activateCmd
    rw [h]
    exact if_pos hc
  obtain ⟨hboot, hpwr, hucb⟩ := activateSelf_spec (s.complete .lcs 0x91 .ok 0) (arg / 256 = 1)
  rw [heq]
  refine ⟨hboot, hpwr.trans ?_, (lcs_ended hr hb 0x91 .ok 0).of_ucb hucb⟩
  simp only [decide_eq_true_eq]
  rfl

/-- ACTIVATE of a slot that is not compatible is refused with its reason. -/
theorem activateCmd_incompatible (hc : compatible s = false) : (activateCmd s 0).upd.pendingBoot = s.upd.pendingBoot ∧
    (activateCmd s 0).upd.reason = activateReason s ∧ Ended s (activateCmd s 0) .lcs 0x91 .faulted 0 ∧
    ∃ a, Reports s (activateCmd s 0) .lcs 0x22 a := by
  let x := (s.complete .lcs 0x91 .faulted 0).withUpd { s.upd with reason := activateReason s }
  have heq : activateCmd s 0 = raiseOpen x .lcs 0x22 := if_neg (by simp [hc])
  have hend : Ended s x .lcs 0x91 .faulted 0 := (lcs_ended hr hb 0x91 .faulted 0).of_ucb rfl
  have hupd : (raiseOpen x .lcs 0x22).upd = x.upd := (raiseOpen_same ..).same .upd (by decide)
  have hmail : SameMail s x .lcs := complete_mail s .lcs 0x91 .faulted 0 .lcs
  obtain ⟨a, ha⟩ := raiseOpen_reports x .lcs 0x22
  rw [heq, hupd]
  exact ⟨rfl, rfl, hend.of_work (raiseOpen_sameWork ..), a, ha.of_before rfl hmail⟩

/-- ACCEPT_CHANGE of a set that fails its checks is reported and changes nothing. -/
theorem acceptCmd_refused {p : Package} {c : ChangeSet} (hp : s.upd.pkg = some p) (hc : p.payload = .change c) (hw : ∀ l, w ≠ .split l)
    (hno : changeOk s p.base none c = false) : (acceptCmd s w).upd = s.upd ∧ (acceptCmd s w).prog = s.prog ∧
      Ended s (acceptCmd s w) .lcs 0x94 .faulted 0 ∧ ∃ a, Reports s (acceptCmd s w) .lcs 0x25 a := by
  let x := s.complete .lcs 0x94 .faulted 0
  have heq : acceptCmd s w = raiseOpen x .lcs 0x25 := (acceptCmd_eq hp hc hw).trans (if_neg (by simp [hno]))
  have hs := raiseOpen_same x .lcs 0x25
  have hmail : SameMail s x .lcs := complete_mail s .lcs 0x94 .faulted 0 .lcs
  obtain ⟨a, ha⟩ := raiseOpen_reports x .lcs 0x25
  rw [heq]
  exact ⟨hs.same .upd (by decide), hs.same .prog (by decide), (lcs_ended hr hb 0x94 .faulted 0).of_work (raiseOpen_sameWork ..), a,
    ha.of_before rfl hmail⟩

end

/-- Settles O57: every command by what it does to the life cycle, the slots or the change sets. -/
theorem lifeCycleAndUpdateCommandsDoTheirPart : Obligations.LifeCycleAndUpdateCommandsDoTheirPart := by
  unfold Obligations.LifeCycleAndUpdateCommandsDoTheirPart
  intro s w hr hb
  have runs {code arg : Nat} (hl : Legal s w .lcs code arg) (hc : 0x80 ≤ code) :
      (.next (ucbCommand s w .lcs code arg) : Out) = .next (runSpecific s w .lcs code arg) :=
    congrArg Host.Outcome.next (ucbCommand_of_legal rfl hl hc)
  refine ⟨fun hl => ⟨_, runs hl (by decide), ?_⟩, fun hl => ⟨_, runs hl (by decide), ?_⟩, fun hl => ⟨_, runs hl (by decide), ?_⟩,
    fun hl => ⟨fun hc => ⟨_, runs hl (by decide), ?_⟩, fun hc => ⟨_, runs hl (by decide), ?_⟩⟩,
    fun hl hc => ⟨_, runs hl (by decide), ?_⟩, fun hl => ⟨_, runs hl (by decide), ?_⟩, fun hl => ⟨_, runs hl (by decide), ?_⟩,
    fun p c hl hp hc hw => ⟨fun hok => ⟨_, runs hl (by decide), ?_⟩, fun hno => ⟨_, runs hl (by decide), ?_⟩⟩,
    fun hl => ⟨_, runs hl (by decide), ?_⟩⟩
  · obtain ⟨hstored, hsessions, hintrusive, hucb⟩ := lockNow_spec (s.complete .lcs 0x80 .ok 0)
    exact ⟨hstored, hsessions, hintrusive, (lcs_ended hr hb 0x80 .ok 0).of_ucb hucb⟩
  · obtain ⟨hservice, hsessions, hintrusive, hucb⟩ := closeService_spec (s.complete .lcs 0x81 .ok 0)
    exact ⟨hservice, hsessions, hintrusive, (lcs_ended hr hb 0x81 .ok 0).of_ucb hucb⟩
  · have hrun : runSpecific s w .lcs 0x90 (0 : BitVec 24).toNat = applyBegin (startActivity s .lcs w 0x90 0 .firmwareApply) := rfl
    have hstart := startActivity_same s .lcs w 0x90 0 .firmwareApply
    obtain ⟨u, heq, happlying, hprepared, hvalid, hactive⟩ := applyBegin_spec (startActivity s .lcs w 0x90 0 .firmwareApply)
    have hupd : (startActivity s .lcs w 0x90 0 .firmwareApply).upd = s.upd := hstart.same .upd (by decide)
    have hbusy := startActivity_busy s .lcs w 0x90 0 .firmwareApply
    have htok := startActivity_tokens s .lcs w 0x90 0 .firmwareApply
    have hframe := congrArg (State.withUpd · u) hstart.eq_withParts
    rw [hrun, heq]
    exact ⟨hframe, happlying, hprepared, hvalid, hactive.trans (by rw [hupd]), hbusy.of_ucb rfl, htok⟩
  · exact activateCmd_compatible hr hb hc 0 rfl
  · exact activateCmd_incompatible hr hb hc
  · exact activateCmd_compatible hr hb hc 0x100 rfl
  · obtain ⟨htrial, hleft, hfw, hpgm, hucb⟩ := confirmSelf_spec (s.complete .lcs 0x92 .ok 0)
    exact ⟨htrial, hleft, hfw, hpgm, (lcs_ended hr hb 0x92 .ok 0).of_ucb hucb⟩
  · obtain ⟨u, heq, hprepared, hbegun, hboot, hactive, hvalid⟩ := abortUpdate_spec (s.complete .lcs 0x93 .ok 0)
    have hrun : runSpecific s w .lcs 0x93 (0 : BitVec 24).toNat = (s.complete .lcs 0x93 .ok 0).withUpd u := heq
    rw [hrun]
    exact ⟨rfl, hprepared, hbegun, hboot, hactive, hvalid, (lcs_ended hr hb 0x93 .ok 0).of_ucb rfl⟩
  · obtain ⟨hpkg, hdue, hchanges, hucb⟩ := acceptChange_spec (s.complete .lcs 0x94 .ok 0) { c with lane := none }
    have hrun : runSpecific s w .lcs 0x94 (0 : BitVec 24).toNat = acceptChange (s.complete .lcs 0x94 .ok 0) { c with lane := none } :=
      (acceptCmd_eq hp hc hw).trans (if_pos hok)
    rw [hrun]
    exact ⟨hpkg, hdue, hchanges, (lcs_ended hr hb 0x94 .ok 0).of_ucb hucb⟩
  · exact acceptCmd_refused hr hb hp hc hw hno
  · exact ⟨rfl, rfl, rfl, (begin_busy s .lcs w 0x95 0).of_ucb rfl⟩

end Sys2Proof.Machine
end

section
/-! Encodings that are not assigned (R127, R128): every lane instruction raises ILLEGAL_OP where its form is not legal. -/

namespace Sys2Proof.Machine

open Sys2Proof

@[simp] theorem LaneCtx.wr_count (c : LaneCtx) (i : Nat) (v : W64) : (c.wr i v).count = c.count := by unfold LaneCtx.wr; split <;> rfl

@[simp] theorem LaneCtx.settle_count (c : LaneCtx) (rs : List Nat) : (c.settle rs).count = c.count := by
  have h (ds : List BulkLoad) (c : LaneCtx) : (ds.foldl (fun c d => c.wr d.rd d.value) c).count = c.count := by
    induction ds generalizing c with
    | nil => rfl
    | cons d ds ih => rw [List.foldl_cons, ih, LaneCtx.wr_count]
  exact h _ _

/-- Of the context, the record of an exception shows its pc and the count alone. -/
theorem Excepts.of_settled {i : Instr} {s : State} {l : Lane} {k : CtxKind} {c : LaneCtx} {regs : List Nat} {kind : Nat}
    (h : Excepts i s l k (c.settle regs).counted kind) : Excepts i s l k c.counted kind := by
  obtain ⟨r, hk, ha, hb, hc, hx⟩ := h
  refine ⟨r, hk, ha.trans ?_, hb, hc, hx.trans ?_⟩
  · rw [show (c.settle regs).counted.pc = c.counted.pc from LaneCtx.settle_pc c regs]
  · rw [show (c.settle regs).counted.count = c.counted.count from congrArg (· + 1) (LaneCtx.settle_count c regs)]

/-! ### Forms that are not legal -/

section
variable {f : RFmt} {ok : Ty → Bool}

theorem tyIs_false (h : ∀ t, Ty.ofCode f.ty.toNat = some t → ok t = false) : RFmt.tyIs f ok = false := by
  unfold RFmt.tyIs RFmt.type?
  split
  · exact h _ ‹_›
  · rfl

theorem bOk_false (hi : f.i = true) (hb : f.rb ≠ 0) : RFmt.bOk f = false := by
  simp only [RFmt.bOk, hi, decide_eq_false hb, Bool.false_and, Bool.not_true, Bool.or_self]

theorem aOnly_false (hi : f.i = true) : RFmt.aOnly f = false := by simp [RFmt.aOnly, hi]

/-- A group's form is not legal with a type outside the group or with a register operand beside an extension word. -/
theorem group_illegal (h : (∀ t, Ty.ofCode f.ty.toNat = some t → ok t = false) ∨ (f.i = true ∧ f.rb ≠ 0)) :
    (RFmt.tyIs f ok && RFmt.bOk f) = false ∧ (RFmt.tyIs f ok && RFmt.aOnly f) = false := by
  obtain h | ⟨hi, hb⟩ := h
  · simp [tyIs_false h]
  · simp [bOk_false hi hb, aOnly_false hi]

theorem plainInteger_false {t : Ty} (h : t.isInt = false ∨ t = .time) : plainInteger t = false := by
  obtain h | rfl := h
  · simp [plainInteger, h]
  · rfl

theorem plain_false (h : f.ty ≠ 0 ∨ f.i = true) (rd ra rb : Bool) : RFmt.plain f rd ra rb = false := by
  refine Bool.eq_false_iff.2 fun hp => ?_
  obtain ⟨hi, ht, _⟩ := plain_iff.1 hp
  simp [hi, ht] at h

end

theorem MFmt.legal_false {f : MFmt} (h : 12 ≤ f.ty.toNat ∨ 6 ≤ f.space.toNat ∨ (f.x = true ∧ f.off ≠ 0)) : MFmt.legal f = false := by
  obtain h | h | ⟨hx, ho⟩ := h
  · simp [MFmt.legal, Nat.not_lt.2 h]
  · simp [MFmt.legal, Nat.not_lt.2 h]
  · simp only [MFmt.legal, hx, decide_eq_false ho, Bool.not_true, Bool.or_self, Bool.and_false, Bool.false_and]

/-! ### The instructions -/

/-- Lane `l` runs context `k`, its queue has room, and the leading lane has not stopped at the instruction that follows. -/
structure Issues (s : State) (l : Lane) (k : CtxKind) (c : LaneCtx) : Prop where
  run : runCtx s l = some (k, c)
  room : queueFull (s.lane l) = false
  onward : (s.lane l).onward = true

section
variable {s : State} {l : Lane} {k : CtxKind} {c : LaneCtx} {i : Instr}

/-- An instruction whose form is not legal, or that lies outside the code, raises ILLEGAL_OP whatever it would do. -/
theorem Issues.illegal (h : Issues s l k c) {len : Nat} {regs : List Nat} {legal : Bool} {body : CtxKind → LaneCtx → State}
    (hl : legal = false ∨ fetchOk (laneProg s l) c.pc.toNat len = false)
    (he : exec i s = .next (issue s l len regs legal body)) : Excepts i s l k c.counted 0x40 := by
  have hx : issue s l len regs legal body = except s l k (c.settle regs).counted xIllegal := by
    have hpc : (c.settle regs).counted.pc = c.pc := LaneCtx.settle_pc c regs
    unfold issue
    rw [h.run]
    simp only [h.onward, hpc, if_true]
    refine if_pos ?_
    obtain hl | hl := hl <;> simp [hl]
  exact (except_excepts h.room (he.trans (congrArg Host.Outcome.next hx))).of_settled

theorem Issues.bad (h : Issues s l k c) {len : Nat} {regs : List Nat} {legal : Bool} {body : CtxKind → LaneCtx → State}
    (hl : legal = false) (he : exec i s = .next (issue s l len regs legal body)) : Excepts i s l k c.counted 0x40 :=
  h.illegal (.inl hl) he

theorem Issues.badR (h : Issues s l k c) {f : RFmt} {legal : Bool} {g : Program → LaneCtx → OpRes} (hl : legal = false)
    (he : exec i s = computeR s l f legal g) : Excepts i s l k c.counted 0x40 :=
  h.bad hl he

theorem int_unassigned (h : Issues s l k c) {f : RFmt}
    (hf : (∀ t, Ty.ofCode f.ty.toNat = some t → t.isInt = false) ∨ (f.i = true ∧ f.rb ≠ 0)) :
    ∀ i ∈ [Instr.add l f, .sub l f, .mul l f, .div l f, .mod l f, .neg l f, .abs l f, .min l f, .max l f, .limit l f],
      Excepts i s l k c.counted 0x40 := by
  obtain ⟨hb, ha⟩ := group_illegal hf
  simp only [List.forall_mem_cons]
  exact ⟨h.badR hb rfl, h.badR hb rfl, h.badR hb rfl, h.badR hb rfl, h.badR hb rfl, h.badR ha rfl, h.badR ha rfl, h.badR hb rfl,
    h.badR hb rfl, h.badR hb rfl, List.forall_mem_nil _⟩

theorem real_unassigned (h : Issues s l k c) {f : RFmt}
    (hf : (∀ t, Ty.ofCode f.ty.toNat = some t → t.isReal = false) ∨ (f.i = true ∧ f.rb ≠ 0)) :
    ∀ i ∈ [Instr.fadd l f, .fsub l f, .fmul l f, .fdiv l f, .fsqrt l f, .fabs l f, .fneg l f, .fmin l f, .fmax l f, .fma l f, .flimit l f],
      Excepts i s l k c.counted 0x40 := by
  obtain ⟨hb, ha⟩ := group_illegal hf
  simp only [List.forall_mem_cons]
  exact ⟨h.badR hb rfl, h.badR hb rfl, h.badR hb rfl, h.badR hb rfl, h.badR ha rfl, h.badR ha rfl, h.badR ha rfl, h.badR hb rfl,
    h.badR hb rfl, h.badR hb rfl, h.badR hb rfl, List.forall_mem_nil _⟩

theorem bit_unassigned (h : Issues s l k c) {f : RFmt}
    (hf : (∀ t, Ty.ofCode f.ty.toNat = some t → t.isInt = false ∨ t = .time) ∨ (f.i = true ∧ f.rb ≠ 0)) :
    ∀ i ∈ [Instr.shl l f, .shr l f, .sar l f, .rol l f, .ror l f, .btst l f, .bset l f, .bclr l f, .binv l f, .bext l f, .bins l f,
      .popc l f, .clz l f], Excepts i s l k c.counted 0x40 := by
  obtain ⟨hb, ha⟩ := group_illegal (ok := plainInteger) (hf.imp_left fun hf t ht => plainInteger_false (hf t ht))
  simp only [List.forall_mem_cons]
  exact ⟨h.badR hb rfl, h.badR hb rfl, h.badR hb rfl, h.badR hb rfl, h.badR hb rfl, h.badR hb rfl, h.badR hb rfl, h.badR hb rfl,
    h.badR hb rfl, h.badR hb rfl, h.badR hb rfl, h.badR ha rfl, h.badR ha rfl, List.forall_mem_nil _⟩

theorem plain_unassigned (h : Issues s l k c) {f : RFmt} (hf : f.ty ≠ 0 ∨ f.i = true) :
    ∀ i ∈ [Instr.sel l f, .rdcf l f, .wrcf l f, .rdqf l f, .wrqf l f, .rdtk l f, .jr l f, .fbret l f, .qout l f, .qclr l f, .qtst l f,
      .qmax l f, .msend l f, .mrecv l f, .mstat l f, .cmt l f, .vsync l f, .nop l f, .fence l f, .twait l f, .yield l f, .urd l f,
      .uwr l f], Excepts i s l k c.counted 0x40 := by
  have hp := plain_false hf
  simp only [List.forall_mem_cons]
  exact ⟨h.badR (hp ..) rfl, h.badR (hp ..) rfl, h.badR (hp ..) rfl, h.badR (hp ..) rfl, h.bad (hp ..) rfl, h.badR (hp ..) rfl,
    h.bad (hp ..) rfl, h.bad (hp ..) rfl, h.bad (hp ..) rfl, h.bad (hp ..) rfl, h.badR (hp ..) rfl, h.badR (hp ..) rfl,
    h.bad (hp ..) rfl, h.bad (hp ..) rfl, h.bad (hp ..) rfl, h.bad (hp ..) rfl, h.bad (hp ..) rfl, h.bad (hp ..) rfl,
    h.bad (hp ..) rfl, h.bad (hp ..) rfl, h.bad (hp ..) rfl, h.bad (hp ..) rfl, h.bad (hp ..) rfl, List.forall_mem_nil _⟩

theorem access_unassigned (h : Issues s l k c) {f : MFmt} (hf : 12 ≤ f.ty.toNat ∨ 6 ≤ f.space.toNat ∨ (f.x = true ∧ f.off ≠ 0)) :
    ∀ i ∈ [Instr.ld l f, .st l f, .ldq l f, .ref l f], Excepts i s l k c.counted 0x40 := by
  have hl := MFmt.legal_false hf
  have hq : MFmt.legalQ f = false := by simp [MFmt.legalQ, hl]
  have hr : (MFmt.legal f && f.base.toNat ≠ 2) = false := by simp [hl]
  simp only [List.forall_mem_cons]
  exact ⟨h.bad hl rfl, h.bad hl rfl, h.bad hq rfl, h.bad hr rfl, List.forall_mem_nil _⟩

theorem immediate_unassigned (h : Issues s l k c) {f : IFmt} (hf : f.ra ≠ 0) :
    ∀ i ∈ [Instr.li l f, .enter l f, .leave l f, .trap l f], Excepts i s l k c.counted 0x40 := by
  have ha : decide (f.ra = 0) = false := decide_eq_false hf
  have hb : (decide (f.rd = 0) && decide (f.ra = 0)) = false := by rw [ha, Bool.and_false]
  simp only [List.forall_mem_cons]
  exact ⟨h.bad ha rfl, h.bad hb rfl, h.bad hb rfl, h.bad hb rfl, List.forall_mem_nil _⟩

end

/-- Settles O58: per format, the forms that are not legal. -/
theorem unassignedEncodingsAreIllegal : Obligations.UnassignedEncodingsAreIllegal := by
  intro s l k c hr hq ho
  have h : Issues s l k c := ⟨hr, hq, ho⟩
  exact ⟨fun f => ⟨int_unassigned h, real_unassigned h, bit_unassigned h, plain_unassigned h, fun hf => h.illegal (.inr hf) rfl⟩,
    fun f => access_unassigned h, fun f hf => h.bad (decide_eq_false (by omega)) rfl, fun f => immediate_unassigned h⟩

end Sys2Proof.Machine
end
